-- ==== Sys2Proof/Word.lean ====
section
/-! DEFINITION. The word types of the RY1640 model and their plainest arithmetic. Bit ranges follow R6 (bit 0
is least significant) and memory is little-endian (R7). -/
namespace Sys2Proof

/-- One byte of memory or of a message. -/
abbrev Byte := BitVec 8
/-- A 32-bit word: keys, payloads, FP32 values, event words. -/
abbrev W32 := BitVec 32
/-- A 64-bit transfer word (R477). -/
abbrev W64 := BitVec 64

/-- A sparse table over natural keys: strictly rising keys, no entry equal to the default of its key. -/
abbrev Tbl (α : Type) := List (Nat × α)

/-- A register or structure field (R14): structure code of Table 15-6 (0 for a structure of memory), the 64-bit
transfer word it starts in, its lowest bit there, its width. -/
structure Fld where
  reg : Nat
  word : Nat
  lo : Nat
  width : Nat
deriving DecidableEq, Repr

/-- One row of Table 15-6 for a register structure. -/
structure RegDesc where
  code : Nat
  name : String
  utypes : List Nat
  entries : Nat
  words : Nat
  rw : Bool
deriving DecidableEq, Repr

/-- One row of Table 15-6 for a counter block. -/
structure CntDesc where
  code : Nat
  name : String
  utypes : List Nat
  count : Nat
deriving DecidableEq, Repr

end Sys2Proof
end

