-- ==== Sys2Proof/Syntax.lean ====
section
/-! DEFINITION. The commands of the RY1640 block: one constructor for each row of spec/opcode_table.json. The rows
carry no bits, so each command carries, as typed operands, what the spec says the happening carries. -/
namespace Sys2Proof

/-- UNIT_STATE of UNIT_STATUS_GET (R43). -/
inductive UnitSt
  | unused | assigned | spare | quarantined | failed
deriving DecidableEq, Repr

/-- Where a request came from (R459, R469, R479): an Ethernet port 0 T1A to 4 MG0, the same port of the head device
through the relay, or a berth portal of a job. -/
inductive Link
  | port (p : Nat)
  | relay (p : Nat)
  | portal (job : Nat)
deriving DecidableEq, Repr

/-- The header of a request as the checks of Table 14-5 read it (Table 14-4). -/
structure Req where
  link : Link
  berth : Nat
  cls : Nat
  seq : Nat
  epoch : Nat
deriving DecidableEq, Repr

/-- Rails of the power-up sequence (R657). -/
inductive Rail
  | vsysSafe | aux | ddr | core
deriving DecidableEq, Repr

/-- Result of DDR5 training (R518). -/
inductive DdrTraining
  | trained (gib : Nat) | noConfig | failed
deriving DecidableEq, Repr

/-- Why a Canal link goes down (R238). -/
inductive LinkLoss
  | blockLock | noFrame | replays
deriving DecidableEq, Repr

/-- A table that looks packets up (R213): a core's lock, or a Canal link receiver. -/
inductive LockNode
  | lock (core : Nat)
  | link (ck : Nat)
deriving DecidableEq, Repr

/-- Header ECC result of a CSI-2 packet (R47). -/
inductive EccResult
  | ok | corrected | fail
deriving DecidableEq, Repr

/-- A received Sync (R427): sequenceId, origin time in ns (one-step), correction in 2^-16 ns, two-step flag, domain. -/
structure PtpSync where
  seq : Nat
  twoStep : Bool
  origin : Nat
  corr : Int
deriving DecidableEq, Repr

/-- A PTP frame the Lockkeeper handles (R414, R417, R428). -/
inductive PtpMsg
  | announce (gm : Nat) (utcOffset : Int) (selectPort : Option Nat)
  | linkDelay (value : Nat)
  | offset (theta : Int)
  | other (kind : Nat)
deriving DecidableEq, Repr

/-- How a received IP frame stands on the wire (R444, R446): addressed to the port's own MAC or to broadcast; IPv6 or IPv4; its
UDP destination port; free of fragments, IP options and extension headers; protected by MACsec, the protection verified. -/
structure Wrap where
  own : Bool
  v6 : Bool
  udp : Nat
  plain : Bool
  secured : Bool
deriving DecidableEq, Repr

/-- An ARP, neighbour discovery or echo request (R444). -/
inductive ArpIcmp
  | arp (target : Nat) | nd (target : Nat) | echo (target : Nat) (data : List Byte) (wrap : Wrap)
deriving DecidableEq, Repr

/-- The answer of an I3C target (R497): none yet, or what it wrote and read and whether it gave a NACK. -/
inductive I3cResp
  | silent
  | ended (nack : Bool) (written : Nat) (read : List Byte)
deriving DecidableEq, Repr

/-- What the dredger reads in an idle cycle (R566): a memory of a unit (a row of Table 17-4, counted from 0), the place, and
what stands there. An SRAM line is given as its stored bytes of 13 bits (R549); a DDR5 line by its symbols in error and
whether it carries the poison pattern (R553, R555). -/
structure MemRead where
  unit : Nat
  memory : Nat
  macroIx : Nat
  row : Nat
  col : Nat
  addr : Nat
  stored : List Nat
  syms : List Nat
  poison : Bool
  clash : Bool
  last : Bool
deriving DecidableEq, Repr

/-- What the runs of a replay give (R592): their signatures, and the records the target would have written. -/
structure ReplayRuns where
  replay : Nat
  arbiter : Option Nat
  bodies : List (Nat × List Byte)
deriving DecidableEq, Repr

/-- An MKA PDU (R446): whether its ICV verifies under the CAK held, and the SAK it distributes. -/
structure MkaPdu where
  ckn : Nat
  icvOk : Bool
  sak : Option Nat
deriving DecidableEq, Repr

/-- One command for each row of the table, with the operands its happening carries. -/
inductive Instr
  /-- POWER_ON_RESET (R513). -/
  | powerOnReset
  /-- EXTERNAL_RESET (R513). -/
  | externalReset (bootMode : Bool)
  /-- WATCHDOG_RESET (R513). -/
  | watchdogReset
  /-- DEBUG_SYS_RESET (R513). -/
  | debugSysReset
  /-- BROWN_OUT (R635). -/
  | brownOut
  /-- POWER_UP_SEQUENCE (R657). -/
  | powerUpSequence (rail : Rail)
  /-- RAIL_TIMEOUT (R657). -/
  | railTimeout
  /-- VSYS_SAFE_FALL (R659). -/
  | vsysSafeFall
  /-- ROM_FLASH_BOOT (R525). -/
  | romFlashBoot
  /-- SELF_TEST_DONE (R519). -/
  | selfTestDone (unit : Nat) (pass : Bool)
  /-- BRINGUP_COMPLETE (R517). -/
  | bringupComplete
  /-- DDR_TRAINING_DONE (R518). -/
  | ddrTrainingDone (chan : Nat) (result : DdrTraining)
  /-- DDR_FILL_DONE (R557). -/
  | ddrFillDone (chan : Nat) (pass : Bool)
  /-- TMU_TICK_LOCK (R441). -/
  | tmuTickLock
  /-- ETH_PHY_LINK_CHANGE (R473). -/
  | ethPhyLinkChange (port : Nat) (up : Bool) (selfTest : Bool)
  /-- LINK_ENABLE (R237). -/
  | linkEnable (link : Nat) (word : W64)
  /-- LINK_UP (R237). -/
  | linkUp (link : Nat) (lanes : Nat) (peer : Nat) (peerAsg : Bool) (caps : Nat)
  /-- LINK_DOWN (R238). -/
  | linkDown (link : Nat) (reason : LinkLoss)
  /-- LINK_FRAME_TX (R232). -/
  | linkFrameTx (link : Nat)
  /-- LINK_FRAME_RX (R234). -/
  | linkFrameRx (link : Nat) (frame : BitVec 512)
  /-- DEV_ID_WRITE (R470). -/
  | devIdWrite (dev : Nat)
  /-- LOCK_LOOKUP (R213). -/
  | lockLookup (node : LockNode) (mismatch : Bool)
  /-- PACKET_DISPATCH (R221). -/
  | packetDispatch (port : Nat)
  /-- CL0_POLICE (R225). -/
  | cl0Police (hub : Nat)
  /-- CL0_TOKEN_ADD (R225). -/
  | cl0TokenAdd (hub : Nat)
  /-- CNL_UPQ_WRITE (R225). -/
  | cnlUpqWrite (hub : Nat) (word : W64)
  /-- PROBE_EMIT (R610). -/
  | probeEmit (pair : Nat)
  /-- PATH_PROBE (R610). -/
  | pathProbe (port : Nat) (pair : Nat)
  /-- UP_BINNED_COPY (R492). -/
  | upBinnedCopy (pair : Nat) (mismatch : Bool) (parBad : Bool)
  /-- ALARM_FRAMER_RX (R348). -/
  | alarmFramerRx (port : Nat) (parBad : Bool)
  /-- ALARM_FRAME_TX (R448). -/
  | alarmFrameTx (port : Nat)
  /-- SAFE_STOP_FRAME (R613). -/
  | safeStopFrame (port : Nat)
  /-- SAFE_CAUSE_CLEAR (R614). -/
  | safeCauseClear (cause : Nat)
  /-- SUPPLY_FAULT (R609). -/
  | supplyFault (rail : Nat)
  /-- CLOCK_FAULT (R609). -/
  | clockFault (pll : Bool)
  /-- THERMAL_SAMPLE (R609). -/
  | thermalSample (readings : List Int)
  /-- SAFE_N_FAULT (R609). -/
  | safeNFault
  /-- HOST_LINKS_DOWN (R609). -/
  | hostLinksDown
  /-- MECH_DIAGNOSTIC (R611). -/
  | mechDiagnostic (mech : Nat) (pass : Bool)
  /-- STATE_CONFLICT (R44). -/
  | stateConflict (unit : Nat) (hw : UnitSt)
  /-- CSI2_LONG_PACKET (R48). -/
  | csi2LongPacket (sluice : Nat) (vc : Nat) (dt : Nat) (ecc : EccResult) (crcOk : Bool) (sot : Nat) (data : List Byte) (residueBad : List Nat)
  /-- FRAME_START (R68). -/
  | frameStart (sluice : Nat) (vc : Nat) (num : Nat) (ecc : EccResult)
  /-- FRAME_END (R68). -/
  | frameEnd (sluice : Nat) (vc : Nat) (ecc : EccResult)
  /-- SYNC_IN_EDGE (R435). -/
  | syncInEdge (sluice : Nat)
  /-- PAIR_TIMEOUT (R86). -/
  | pairTimeout (sluice : Nat)
  /-- RATE_TOKEN_ADD (R80). -/
  | rateTokenAdd (sluice : Nat)
  /-- RATE_INTERVAL (R82). -/
  | rateInterval (sluice : Nat)
  /-- REFRACT_SWEEP (R75). -/
  | refractSweep (sluice : Nat) (cell : Nat)
  /-- SLU_LINK_UP_TIMEOUT (R92). -/
  | sluLinkUpTimeout (sluice : Nat)
  /-- PORT_ENABLE (R668). -/
  | portEnable (sluice : Nat) (w0 : W64) (w1 : W64)
  /-- PORT_CLEAR_DONE (R668). -/
  | portClearDone (sluice : Nat)
  /-- PORT_DISABLE (R91). -/
  | portDisable (sluice : Nat) (w0 : W64)
  /-- SOURCE_CHANGE (R669). -/
  | sourceChange (sluice : Nat)
  /-- I3C_IBI (R671). -/
  | i3cIbi (sluice : Nat) (target : Nat) (data : List Byte)
  /-- INPUT_PERIOD (R98). -/
  | inputPeriod (engine : Nat) (balls : List Nat) (residueFail : List (Nat × Nat))
  /-- INR_OUTPUT (R108). -/
  | inrOutput (channel : Nat)
  /-- SYNC_INERT_EDGE (R115). -/
  | syncInertEdge
  /-- SYNCHRONISING_RESET (R115). -/
  | synchronisingReset (engine : Nat) (retestFail : List (Nat × Nat))
  /-- CHANNEL_RESET_WRITE (R119). -/
  | channelResetWrite (channel : Nat) (w0 : W64) (w1 : W64)
  /-- SE_EVENT (R141). -/
  | seEvent (core : Nat) (port : Nat) (residueBad : Bool)
  /-- APERTURE_MERGE (R154). -/
  | apertureMerge (core : Nat) (residueBad : Bool)
  /-- SE_SERVICE_WORD (R144). -/
  | seServiceWord (core : Nat) (port : Nat)
  /-- GYRO_RECORD (R145). -/
  | gyroRecord (core : Nat) (channel : Nat) (parBad : Bool)
  /-- SURFACE_SWEEP (R137). -/
  | surfaceSweep (core : Nat)
  /-- SRF_PORT_ENABLE (R134). -/
  | srfPortEnable (core : Nat) (entry : Nat) (word : W64)
  /-- SURFACE_CLEAR_DONE (R134). -/
  | surfaceClearDone (core : Nat) (entry : Nat)
  /-- NE_INPUT (R177). -/
  | neInput (core : Nat)
  /-- BATCH_RELEASE (R189). -/
  | batchRelease (core : Nat)
  /-- BATCH_UPDATE (R192). -/
  | batchUpdate (core : Nat)
  /-- TICK_BATCH (R194). -/
  | tickBatch (core : Nat) (group : Nat)
  /-- STAMP_SWEEP (R185). -/
  | stampSweep (core : Nat) (neuron : Nat)
  /-- STEP_CLOSE (R198). -/
  | stepClose (core : Nat)
  /-- STEP_OVERRUN (R199). -/
  | stepOverrun (core : Nat)
  /-- COUNT_WINDOW_CLOSE (R201). -/
  | countWindowClose (core : Nat) (group : Nat)
  /-- COUNT_COPY_DONE (R202). -/
  | countCopyDone (core : Nat)
  /-- ARR_RUN_WRITE (R373). -/
  | arrRunWrite (array : Nat) (prog : Nat) (job : Nat)
  /-- INSTANCE_START (R270). -/
  | instanceStart (array : Nat)
  /-- LOAD_DESCRIPTOR (R268). -/
  | loadDescriptor (array : Nat)
  /-- COMPUTE_PASS (R271). -/
  | computePass (array : Nat)
  /-- STORE_DESCRIPTOR (R267). -/
  | storeDescriptor (array : Nat)
  /-- TEN_PACKET (R276). -/
  | tenPacket (cluster : Nat) (residueBad : Bool)
  /-- TEN_WINDOW_END (R277). -/
  | tenWindowEnd (cluster : Nat) (entry : Nat)
  /-- TEN_WINDOW_CLOSE (R277). -/
  | tenWindowClose (cluster : Nat) (entry : Nat)
  /-- TEN_BUFFER_CLEARED (R277). -/
  | tenBufferCleared (cluster : Nat) (entry : Nat) (buf : Nat)
  /-- FUSION_TICK (R319). -/
  | fusionTick
  /-- CHECKPOINT_PERIOD (R595). -/
  | checkpointPeriod (job : Nat)
  /-- GRID_STAGE_END (R322). -/
  | gridStageEnd (residueBad : List Nat)
  /-- EGO_MOTION_DONE (R329). -/
  | egoMotionDone (residueBad : Bool)
  /-- OBJECT_STAGE (R333). -/
  | objectStage (residueBad : List Nat)
  /-- SNAPSHOT_COPY_DONE (R312). -/
  | snapshotCopyDone (source : Nat)
  /-- LIDAR_RECORD (R316). -/
  | lidarRecord (source : Nat) (residueBad : Bool)
  /-- FLOW_PACKET (R328). -/
  | flowPacket
  /-- STREAM_ENTRY (R349). -/
  | streamEntry (stream : Nat)
  /-- RECORD_FLUSH (R349). -/
  | recordFlush (stream : Nat)
  /-- RECORD_COMMIT (R350). -/
  | recordCommit (stream : Nat)
  /-- STREAM_ENABLE (R345). -/
  | streamEnable (stream : Nat) (w0 : W64) (w1 : W64)
  /-- STREAM_DISABLE (R345). -/
  | streamDisable (stream : Nat) (w0 : W64)
  /-- PUSH_COPY (R361). -/
  | pushCopy (port : Nat)
  /-- PUSH_FRAGMENT (R361). -/
  | pushFragment (port : Nat)
  /-- BERTH_GO (R375). -/
  | berthGo (berth : Nat) (data : List Byte)
  /-- CKPT_ACK (R379). -/
  | ckptAck (job : Nat) (gen : Nat)
  /-- CKPT_GRACE_EXPIRY (R379). -/
  | ckptGraceExpiry (job : Nat)
  /-- JOB_STOP_HALT (R381). -/
  | jobStopHalt (job : Nat)
  /-- HART_POISON_TRAP (R382). -/
  | hartPoisonTrap (hart : Nat) (addr : Nat)
  /-- GUEST_ACCESS_FAULT (R377): an access of a guest, of `size` bytes; `value` is what a store writes. -/
  | guestAccessFault (hart : Nat) (addr : Nat) (size : Nat) (write : Bool) (value : Nat)
  /-- L1_PARITY_ERROR (R366). -/
  | l1ParityError (hart : Nat)
  /-- PORTAL_PUSH (R407). -/
  | portalPush (queue : Nat) (job : Nat) (words : List Nat) (parBad : Bool)
  /-- PORTAL_PUSH_END (R407). -/
  | portalPushEnd (queue : Nat) (job : Nat) (words : List Nat) (parBad : Bool)
  /-- PORTAL_ABORT (R395). -/
  | portalAbort (queue : Nat) (job : Nat)
  /-- PORTAL_POP (R407). -/
  | portalPop (queue : Nat) (job : Nat) (parBad : Bool)
  /-- QUEUE_COPY_WRITE (R396). -/
  | queueCopyWrite (queue : Nat)
  /-- CANAL_CLOSE_TIMEOUT (R397). -/
  | canalCloseTimeout (queue : Nat)
  /-- MIDDLE_LINE_WRITE (R390). -/
  | middleLineWrite (queue : Nat) (parBad : Bool)
  /-- MIDDLE_LINE_READ (R390). -/
  | middleLineRead (queue : Nat) (parBad : Bool)
  /-- QUEUE_POP (R398). -/
  | queuePop (queue : Nat) (parBad : Bool)
  /-- QUEUE_DISABLE (R405). -/
  | queueDisable (queue : Nat) (w0 : W64)
  /-- PTP_SYNC_RX (R427). -/
  | ptpSyncRx (port : Nat) (secured : Bool) (msg : PtpSync)
  /-- PTP_FOLLOW_UP_RX (R428). -/
  | ptpFollowUpRx (port : Nat) (secured : Bool) (seq : Nat) (pot : Nat) (corr : Int)
  /-- PTP_LKP_MESSAGE (R428). -/
  | ptpLkpMessage (port : Nat) (secured : Bool) (msg : PtpMsg)
  /-- PTP_EVENT_TX (R429). -/
  | ptpEventTx (port : Nat) (kind : Nat) (seq : Nat)
  /-- TXQ_LOOKUP (R430). -/
  | txqLookup (port : Nat) (key : Nat)
  /-- SYNC_TIMEOUT (R420). -/
  | syncTimeout
  /-- HOLD_LIMIT (R421). -/
  | holdLimit
  /-- GM_CHANGE (R417). -/
  | gmChange
  /-- SERVO_DISABLE (R420). -/
  | servoDisable (w0 : W64)
  /-- CMP_ARM (R431). -/
  | cmpArm (index : Nat) (w0 : W64) (w1 : W64)
  /-- COMPARATOR_FIRE (R431). -/
  | comparatorFire (index : Nat)
  /-- SYNCOUT_ENABLE (R434). -/
  | syncoutEnable (sluice : Nat) (w0 : W64) (w1 : W64)
  /-- SYNC_OUT_EDGE (R434). -/
  | syncOutEdge (sluice : Nat)
  /-- SYNC_OUT_PULSE_END (R434). -/
  | syncOutPulseEnd (sluice : Nat)
  /-- PPS_EDGE (R436). -/
  | ppsEdge
  /-- PPS_PULSE_END (R436). -/
  | ppsPulseEnd
  /-- TOWLINE_REQUEST_RX (R453). -/
  | towlineRequestRx (port : Nat) (src : Nat) (srcPort : Nat) (wrap : Wrap) (data : List Byte)
  /-- ARP_ICMP_RX (R444). -/
  | arpIcmpRx (port : Nat) (req : ArpIcmp)
  /-- SENSOR_FRAME_RX (R471). -/
  | sensorFrameRx (port : Nat) (udp : Nat) (data : List Byte)
  /-- ETH_FRAME_TX (R447). -/
  | ethFrameTx (port : Nat)
  /-- HELM_SILENCE (R461). -/
  | helmSilence
  /-- HELM_OBJECT_EXPIRY (R461). -/
  | helmObjectExpiry
  /-- BLOB_BEGIN (R483). -/
  | blobBegin (q : Req) (kind : Nat) (total : Nat)
  /-- BLOB_WRITE (R484). -/
  | blobWrite (q : Req) (kind : Nat) (offset : Nat) (data : List Byte)
  /-- GRAPH_LOAD (R485). -/
  | graphLoad (q : Req) (length : Nat) (digest : Nat)
  /-- GRAPH_UNLOAD (R488). -/
  | graphUnload (q : Req)
  /-- JOB_START (R486). -/
  | jobStart (q : Req) (mask : Nat) (fromCkpt : Bool)
  /-- JOB_STOP (R486). -/
  | jobStop (q : Req) (mask : Nat)
  /-- JOB_CHECKPOINT (R487). -/
  | jobCheckpoint (q : Req) (job : Nat)
  /-- JOB_RESTART (R487). -/
  | jobRestart (q : Req) (job : Nat)
  /-- SAFE_EXIT (R616). -/
  | safeExit (q : Req)
  /-- CONFIG_WRITE (R493). -/
  | configWrite (q : Req) (unit : Nat) (reg : Nat) (entry : Nat) (word : Nat) (data : List W64)
  /-- CONFIG_READ (R493). -/
  | configRead (q : Req) (unit : Nat) (reg : Nat) (entry : Nat) (word : Nat) (count : Nat)
  /-- ROUTE_WRITE (R495). -/
  | routeWrite (q : Req) (unit : Nat) (first : Nat) (data : List W64)
  /-- WEIGHTS_WRITE (R496). -/
  | weightsWrite (q : Req) (core : Nat) (matrix : Nat) (row : Nat) (offset : Nat) (last : Bool) (data : List Byte)
  /-- SENSOR_I3C (R497). -/
  | sensorI3c (q : Req) (sluice : Nat) (target : Nat) (i2c : Bool) (wdata : List Byte) (rlen : Nat) (resp : I3cResp)
  /-- I3C_TIMEOUT (R497). -/
  | i3cTimeout (sluice : Nat)
  /-- FILTER_SYNC (R498). -/
  | filterSync (q : Req) (engines : Nat)
  /-- TIME_GET (R474). -/
  | timeGet (q : Req)
  /-- PTP_CONFIG (R499). -/
  | ptpConfig (q : Req) (port : Nat) (profile : Nat) (role : Nat) (logSync : Int) (logPdelay : Int) (logAnnounce : Int) (prio1 : Nat) (prio2 : Nat)
  /-- POWER_LEVEL_SET (R500). -/
  | powerLevelSet (q : Req) (level : Nat)
  /-- POWER_LIMIT_SET (R639). -/
  | powerLimitSet (q : Req) (limit : Nat)
  /-- POWER_STATUS_GET (R634). -/
  | powerStatusGet (q : Req)
  /-- UNIT_QUARANTINE (R501). -/
  | unitQuarantine (q : Req) (unit : Nat)
  /-- UNIT_RELEASE (R501). -/
  | unitRelease (q : Req) (unit : Nat)
  /-- UNIT_MARGIN (R502). -/
  | unitMargin (q : Req) (unit : Nat) (vstep : Nat) (fstep : Nat)
  /-- TEST_CONTENT_LOAD (R524). -/
  | testContentLoad (q : Req) (length : Nat)
  /-- TEST_CONTROL (R503). -/
  | testControl (q : Req) (enable : Bool) (rotation : Nat)
  /-- WINDOW_LOG_READ (R605). -/
  | windowLogRead (q : Req) (back : Nat) (count : Nat)
  /-- FW_STAGE (R532). -/
  | fwStage (q : Req) (length : Nat)
  /-- FW_ACTIVATE (R533). -/
  | fwActivate (q : Req) (version : Nat)
  /-- ATTEST_QUOTE (R538). -/
  | attestQuote (q : Req) (nonce : Nat)
  /-- IDENTITY_GET (R537). -/
  | identityGet (q : Req) (offset : Nat)
  /-- KEY_REVOKE (R531). -/
  | keyRevoke (q : Req) (slot : Nat) (sig : List Byte)
  /-- DEBUG_CHALLENGE (R505). -/
  | debugChallenge (q : Req)
  /-- DEBUG_UNLOCK (R541). -/
  | debugUnlock (q : Req) (scope : Nat) (sig : List Byte)
  /-- DEBUG_LOCK (R539). -/
  | debugLock (q : Req)
  /-- MACSEC_KEY_SET (R505). -/
  | macsecKeySet (q : Req) (port : Nat) (cknLen : Nat) (cak : Nat) (ckn : Nat)
  /-- LIFECYCLE_SET (R540). -/
  | lifecycleSet (q : Req) (target : Nat) (sig : List Byte)
  /-- RESULT_READ (R354). -/
  | resultRead (q : Req) (stream : Nat) (selector : Nat) (seq : Nat) (offset : Nat) (length : Nat)
  /-- RESULT_RELEASE (R358). -/
  | resultRelease (q : Req) (stream : Nat) (seq : Nat)
  /-- SUBSCRIBE (R507). -/
  | subscribe (q : Req) (stream : Nat) (port : Nat) (cls : Nat) (everyM1 : Nat)
  /-- UNSUBSCRIBE (R507). -/
  | unsubscribe (q : Req) (sub : Nat)
  /-- STATUS_GET (R520). -/
  | statusGet (q : Req)
  /-- COUNTERS_READ (R508). -/
  | countersRead (q : Req) (unit : Nat) (block : Nat) (entry : Nat) (first : Nat) (count : Nat) (clear : Bool)
  /-- NOTICE_LOG_READ (R509). -/
  | noticeLogRead (q : Req) (start : Nat) (count : Nat)
  /-- UNIT_STATUS_GET (R474). -/
  | unitStatusGet (q : Req) (unit : Nat)
  /-- HELM_CLAIM (R461). -/
  | helmClaim (q : Req) (force : Bool)
  /-- HELM_KEEP (R510). -/
  | helmKeep (q : Req)
  /-- HELM_RELEASE (R461). -/
  | helmRelease (q : Req)
  /-- HELM_HANDOVER (R461). -/
  | helmHandover (q : Req) (link : Nat)
  /-- PROGRESS_GET (R458). -/
  | progressGet (q : Req) (berth : Nat)
  /-- COMMAND_ABORT (R482). -/
  | commandAbort (q : Req) (berth : Nat)
  /-- FLASH_REWRITE_DONE (R529). -/
  | flashRewriteDone (ok : Bool)
  /-- SVN_BURN (R530). -/
  | svnBurn
  /-- ACTIVATE_QUIESCENT (R533). -/
  | activateQuiescent
  /-- FIRMWARE_ALIVE (R533). -/
  | firmwareAlive
  /-- ACTIVATE_FALLBACK (R534). -/
  | activateFallback
  /-- CHALLENGE_EXPIRY (R505). -/
  | challengeExpiry
  /-- DEBUG_SESSION_EXPIRY (R539). -/
  | debugSessionExpiry
  /-- DBG_BUS_ACCESS (R546). -/
  | dbgBusAccess (data : Nat)
  /-- HOLD_POWER_WRITE (R545). -/
  | holdPowerWrite (set : Bool)
  /-- LKP_HALT (R543). -/
  | lkpHalt
  /-- LKP_RESUME_WRITE (R546). -/
  | lkpResumeWrite
  /-- DREDGER_READ (R566). -/
  | dredgerRead (line : MemRead)
  /-- UNIT_RESET_DONE (R558). -/
  | unitResetDone (unit : Nat) (pass : Bool)
  /-- LKP_RECOVERED (R563). -/
  | lkpRecovered (cleanCopy : Bool)
  /-- LAP_NOTICE (R568). -/
  | lapNotice (unit : Nat) (memory : Nat)
  /-- SPARE_SWITCH (R571). -/
  | spareSwitch (unit : Nat) (memory : Nat) (macroIx : Nat)
  /-- PAGE_REMAP (R574). -/
  | pageRemap (chan : Nat) (page : Nat)
  /-- FUSE_BURN_DONE (R572). -/
  | fuseBurnDone (ok : Bool)
  /-- WINDOW_COMMIT (R587). -/
  | windowCommit (job : Nat)
  /-- SUPPLY_DROOP (R588). -/
  | supplyDroop (island : Nat)
  /-- REPLAY_START (R591). -/
  | replayStart (job : Nat)
  /-- REPLAY_VERDICT (R592). -/
  | replayVerdict (job : Nat) (runs : ReplayRuns)
  /-- REPLAY_LIMIT_EXPIRY (R593). -/
  | replayLimitExpiry (job : Nat)
  /-- RESTART_RESUMED (R596). -/
  | restartResumed (job : Nat)
  /-- TEST_VISIT_START (R599). -/
  | testVisitStart (unit : Nat)
  /-- TEST_VISIT_DONE (R601). -/
  | testVisitDone (unit : Nat) (ok : Bool)
  /-- TEST_LATE (R600). -/
  | testLate (unit : Nat)
  /-- POWER_ENTRY_QUIESCED (R629). -/
  | powerEntryQuiesced
  /-- POWER_ENTRY_COMPLETE (R629). -/
  | powerEntryComplete
  /-- POWER_EXIT_COMPLETE (R632). -/
  | powerExitComplete
  /-- TC10_SLEEP_REQUEST (R637). -/
  | tc10SleepRequest (port : Nat)
  /-- TC10_SLEEP_REJECT (R630). -/
  | tc10SleepReject (port : Nat)
  /-- TC10_WAKE (R631). -/
  | tc10Wake (port : Nat)
  /-- WAKE_N (R631). -/
  | wakeN
  /-- LP_CURRENT (R636). -/
  | lpCurrent
  /-- GOVERNOR_PERIOD (R638). -/
  | governorPeriod (mw : Nat)
  /-- AVS_ADJUST (R641). -/
  | avsAdjust (slackOk : Bool) (answered : Bool)
  /-- ISLAND_CLOCK_STOP (R624). -/
  | islandClockStop (island : Nat)
  /-- ISLAND_CLOCK_RESTART (R624). -/
  | islandClockRestart (island : Nat)
  /-- COUNTER_TICK (R412). -/
  | counterTick (ticks : Nat)
  /-- MKA_PDU_RX (R446). -/
  | mkaPduRx (port : Nat) (pdu : MkaPdu)
  /-- LKP_LOCKSTEP_MISMATCH (R609). -/
  | lkpLockstepMismatch
deriving DecidableEq, Repr

end Sys2Proof
end

