-- ==== Sys2Proof/Decode.lean ====
section
/-! DEFINITION. The decoder of table words. The rows of spec/opcode_table.json give no bits: commands reach the block
as happenings with operands, never as words. -/
namespace Sys2Proof

/-- The command that a word spells by the table's bits: none, since no row has bits. -/
def decodeTableWord (_nbits _w : Nat) : Option Instr := none

end Sys2Proof
end

