-- ==== Sys2Proof/Machine/Flags.lean ====
section
/-! DEFINITION. Codes: statuses (Table 0-6), notice codes (R464), readiness bits (Table 16-3), counters by name. -/
namespace Sys2Proof.Machine

/-- Status codes of Table 0-6 (R16). -/
def ST_OK : Nat := 0x0000
def ST_NOT_READY : Nat := 0x0001
def ST_WRONG_STATE : Nat := 0x0002
def ST_BUSY : Nat := 0x0003
def ST_SHAPE : Nat := 0x0004
def ST_AUTH : Nat := 0x0005
def ST_NO_RESOURCE : Nat := 0x0006
def ST_POISONED : Nat := 0x0007
def ST_OVERRUN : Nat := 0x0008
def ST_ABORTED : Nat := 0x0009
def ST_CONFLICT : Nat := 0x000A
def ST_UNSUPPORTED : Nat := 0x000B

/-- A status after which the effects of a command stand (R17). -/
def keepsEffects (st : Nat) : Bool := st == ST_OK || st == ST_NOT_READY || st == ST_OVERRUN

/-- The first failing check of a list in order, ST_OK when all pass. -/
def firstFail : List (Bool × Nat) → Nat
  | [] => ST_OK
  | (ok, st) :: r => if ok then firstFail r else st

/-- Notice codes (R464). -/
def NT_STATE : Nat := 0x0001
def NT_UNIT : Nat := 0x0002
def NT_TIME : Nat := 0x0003
def NT_SENSOR : Nat := 0x0004
def NT_INERTIAL : Nat := 0x0005
def NT_STEP : Nat := 0x0006
def NT_LINK : Nat := 0x0007
def NT_POISON : Nat := 0x0008
def NT_HELM : Nat := 0x0009
def NT_HELM_CHALLENGE : Nat := 0x000A

/-- Readiness bits (Table 16-3). -/
def RB_SL : Nat := 0
def RB_CORE : Nat := 16
def RB_FA : Nat := 32
def RB_UP : Nat := 36
def RB_DDR : Nat := 40
def RB_ETH : Nat := 42
def RB_CK : Nat := 47
def RB_TMU : Nat := 51
def RB_INR : Nat := 52
def RB_FUS : Nat := 53
def RB_APX : Nat := 54
def RB_BRG : Nat := 55
def RB_SEC : Nat := 56
def RB_HUB : Nat := 57
def RB_LKP : Nat := 61

end Sys2Proof.Machine
end

