-- ==== Sys2Proof/Config.lean ====
section
/-! DEFINITION. What an implementation fixes and the spec leaves open: free values without a body, which no proof can
see (the assumption log names each), and bounds the spec gives. -/
namespace Sys2Proof

/-- A fresh value where the spec states none; applied to the counter of free values drawn so far. -/
opaque Config.freeValue : Nat → BitVec 1024

/-- Coefficients of the response ROM (R104): the spec gives taps and bands, not the values. Entry and tap up to the
centre; the responses are symmetric. -/
opaque Config.romCoef : Nat → Nat → BitVec 20

/-- A synapse contribution that does not fit 32 bits (Table 5-5): the spec states no result for it. -/
opaque Config.wideContribution : Int → BitVec 32

/-- The E8M0 scale of an MX output block of zeros (Table 7-7): OCP MX gives it no exponent. -/
opaque Config.mxZeroScale : BitVec 8

/-- FP32 sine, cosine and arc tangent of y/x as the fusion engine computes them (R327, R333): the spec states no accuracy. -/
opaque Config.fsin : BitVec 32 → BitVec 32
opaque Config.fcos : BitVec 32 → BitVec 32
opaque Config.fatan2 : BitVec 32 → BitVec 32 → BitVec 32

/-- The factory key hash of the ROM (R523) and the measurement of the ROM (R516): their values are not in the spec. -/
opaque Config.factoryKeyHash : BitVec 256
opaque Config.romHash : BitVec 256

/-- The 4-bit kind of a link-control slot, and where its values stand in the slot (R233): the spec names the kinds ACK, NAK,
CREDIT, HELLO and MGMT (here 0 to 4) and gives no codes and, but for MGMT, no layout. -/
opaque Config.ctlKind : Nat → BitVec 4
opaque Config.ctlEncode : Nat → Nat → BitVec 92
opaque Config.ctlDecode : Nat → BitVec 92 → BitVec 64

/-- The link capabilities that HELLO carries (R233): the spec gives them no layout. -/
opaque Config.linkCaps : BitVec 8

/-- The notice credits a link starts with (R247): the spec gives notices credits of their own and no number. -/
opaque Config.noticeCredits : BitVec 8

end Sys2Proof
end

