-- ==== Sys2Proof/Machine/Bits.lean ====
section
/-! DEFINITION. Bit fields, sign extension, byte order, saturation and the check codes of the spec. -/
namespace Sys2Proof.Machine

/-- Bits `[lo + width - 1 : lo]` of a natural number (R6). -/
def bits (w lo width : Nat) : Nat := (w >>> lo) % 2 ^ width

/-- One bit. -/
def bit (w i : Nat) : Bool := (w >>> i) % 2 == 1

/-- `w` with bits `[lo + width - 1 : lo]` replaced by the low bits of `v`. -/
def setBits (w lo width v : Nat) : Nat :=
  w - bits w lo width * 2 ^ lo + (v % 2 ^ width) * 2 ^ lo

/-- A bit as a number. -/
def b2n (b : Bool) : Nat := if b then 1 else 0

/-- The two's-complement value of the low `width` bits. -/
def sx (width v : Nat) : Int :=
  let m := v % 2 ^ width
  if m < 2 ^ (width - 1) then (m : Int) else (m : Int) - (2 ^ width : Nat)

/-- The low `width` bits of an integer. -/
def lowBits (width : Nat) (v : Int) : Nat := (v % (2 ^ width : Nat)).toNat

/-- Saturation into a signed range of `width` bits. -/
def satS (width : Nat) (v : Int) : Int :=
  let hi : Int := (2 ^ (width - 1) : Nat) - 1
  let lo : Int := -(2 ^ (width - 1) : Nat)
  if hi < v then hi else if v < lo then lo else v

/-- Saturation at the greatest unsigned value of `width` bits. -/
def satU (width v : Nat) : Nat := if 2 ^ width ≤ v then 2 ^ width - 1 else v

/-- Bytes of a number, least significant first (R7). -/
def leBytes : Nat → Nat → List Byte
  | 0, _ => []
  | n + 1, v => BitVec.ofNat 8 v :: leBytes n (v / 256)

/-- Bytes of a number, most significant first (R7: Towline on the wire). -/
def beBytes (n v : Nat) : List Byte := (leBytes n v).reverse

/-- The number spelt by bytes, least significant first. -/
def leVal : List Byte → Nat
  | [] => 0
  | b :: r => b.toNat + 256 * leVal r

/-- The number spelt by bytes, most significant first. -/
def beVal (l : List Byte) : Nat := leVal l.reverse

/-- `n` bytes of a list from offset `o`, most significant first. -/
def beAt (l : List Byte) (o n : Nat) : Nat := beVal ((l.drop o).take n)

/-- `n` bytes of a list from offset `o`, least significant first. -/
def leAt (l : List Byte) (o n : Nat) : Nat := leVal ((l.drop o).take n)

/-- A list padded with zeros to `n` bytes, or cut there. -/
def padTo (n : Nat) (l : List Byte) : List Byte := (l ++ List.replicate n 0).take n

/-- Bit 0 of the exclusive or of every bit of the low `n` bits. -/
def parity : Nat → Nat → Nat
  | 0, _ => 0
  | n + 1, v => (v % 2 + parity n (v / 2)) % 2

/-- The number of ones among the low `n` bits. -/
def popCount : Nat → Nat → Nat
  | 0, _ => 0
  | n + 1, v => v % 2 + popCount n (v / 2)

/-- The numbers below `n`, rising. -/
def upto (n : Nat) : List Nat := List.range n

/-- The indices of the ones of a mask of `n` bits, rising. -/
def maskBits (n m : Nat) : List Nat := (upto n).filter (bit m)

/-- `k` steps of the reflected CRC-32C shift register. -/
def crc32cBits : Nat → Nat → Nat
  | 0, c => c
  | k + 1, c => crc32cBits k (if c % 2 = 1 then (c / 2) ^^^ 0x82F63B78 else c / 2)

/-- The CRC-32C register after a list of bytes. -/
def crc32cFold (c : Nat) (l : List Byte) : Nat := l.foldl (fun c b => crc32cBits 8 (c ^^^ b.toNat)) c

/-- CRC-32C (Castagnoli, reflected, initial and final XOR 0xFFFF_FFFF; Table 14-4). -/
def crc32c (l : List Byte) : Nat := (crc32cFold 0xFFFFFFFF l) ^^^ 0xFFFFFFFF

/-- CRC of width `w`, polynomial `poly`, most significant bit first, over `n` bits of `v` taken from bit `n - 1`
down: the CRC-16 of link frames (R230) and the CRC-8 of the fuse map (Table 17-5). -/
def crcMsb (w poly : Nat) (v : Nat) : Nat → Nat → Nat
  | 0, c => c
  | n + 1, c =>
    let top := (bits c (w - 1) 1 + bits v n 1) % 2
    let c' := (c * 2) % 2 ^ w
    crcMsb w poly v n (if top = 1 then c' ^^^ poly else c')

/-- CRC-16, polynomial 0x1021, initial 0xFFFF, over bits 495 to 0 of a link frame (R230). -/
def crc16Frame (v : Nat) : Nat := crcMsb 16 0x1021 v 496 0xFFFF

/-- CRC-8, polynomial 0x07, initial 0x00, over bits [23:0] (Table 17-5). -/
def crc8Fuse (v : Nat) : Nat := crcMsb 8 0x07 v 24 0

/-- Floor division of integers by a power of two (an arithmetic right shift). -/
def asr (v : Int) (n : Nat) : Int := v / (2 ^ n : Nat)

/-- Round half to even of `v / 2^n`. -/
def rshRne (v : Int) (n : Nat) : Int :=
  if n = 0 then v else
  let q := v / (2 ^ n : Nat)
  let r := v % (2 ^ n : Nat)
  let h : Int := (2 ^ (n - 1) : Nat)
  if h < r then q + 1 else if r < h then q else if q % 2 = 0 then q else q + 1

/-- Round half to even of the quotient of an integer by a positive number. -/
def divRne (v : Int) (m : Nat) : Int :=
  let q := v / (m : Int)
  let r := v % (m : Int)
  if (m : Int) < 2 * r then q + 1 else if 2 * r < (m : Int) then q else if q % 2 = 0 then q else q + 1

/-- The greatest integer whose square is at most `n`, by `k` steps of bisection on bits. -/
def isqrtBits (n : Nat) : Nat → Nat → Nat
  | 0, r => r
  | k + 1, r =>
    let c := r + 2 ^ k
    isqrtBits n k (if c * c ≤ n then c else r)

/-- Integer square root of a number below 2^128. -/
def isqrt (n : Nat) : Nat := isqrtBits n 64 0

end Sys2Proof.Machine
end

