-- ==== Sys2Proof/Machine/RegMap.lean ====
section
/-! DEFINITION. The register map of the RY1640: every structure of Table 15-6 with its unit types, entries and
transfer words, and every field of the field-map tables of the chapters as a descriptor (structure code, transfer
word, lowest bit, width). Structures of memory (descriptors, tables) carry code 0. Names are the spec's own (R14). -/
namespace Sys2Proof.Machine


/-! LKP_STATE (file 01 of spec/) -/
def LKP_STATE.DEVICE_STATE : Fld := ⟨0x0C01, 0, 0, 3⟩
def LKP_STATE.JOB_RUN : Fld := ⟨0x0C01, 0, 8, 8⟩
def LKP_STATE.QUAR_COUNT : Fld := ⟨0x0C01, 0, 16, 8⟩
def LKP_STATE.CONFLICT : Fld := ⟨0x0C01, 0, 24, 1⟩
def LKP_STATE.SAFE_N_LEVEL : Fld := ⟨0x0C01, 0, 25, 1⟩
/-! SLU_FMT (file 02 of spec/) -/
def SLU_FMT.MATCH_VALUE : Fld := ⟨0x0107, 0, 0, 64⟩
def SLU_FMT.MATCH_MASK : Fld := ⟨0x0107, 1, 0, 64⟩
def SLU_FMT.X : Fld := ⟨0x0107, 2, 0, 13⟩
def SLU_FMT.Y : Fld := ⟨0x0107, 2, 13, 13⟩
def SLU_FMT.POL : Fld := ⟨0x0107, 2, 26, 13⟩
def SLU_FMT.TIME : Fld := ⟨0x0107, 2, 39, 13⟩
def SLU_FMT.MASK : Fld := ⟨0x0107, 3, 0, 13⟩
def SLU_FMT.KIND : Fld := ⟨0x0107, 3, 13, 3⟩
def SLU_FMT.TIME_SHIFT : Fld := ⟨0x0107, 3, 16, 4⟩
def SLU_FMT.POL_INVERT : Fld := ⟨0x0107, 3, 20, 1⟩
def SLU_FMT.VALID : Fld := ⟨0x0107, 3, 21, 1⟩
/-! SLU_FRM (file 02 of spec/) -/
def SLU_FRM.BASE : Fld := ⟨0x0109, 0, 0, 40⟩
def SLU_FRM.TGT : Fld := ⟨0x0109, 0, 40, 1⟩
def SLU_FRM.BUFS_M1 : Fld := ⟨0x0109, 0, 41, 3⟩
/-! SLU_HOT (file 02 of spec/) -/
def SLU_HOT.X : Fld := ⟨0x0106, 0, 0, 12⟩
def SLU_HOT.Y : Fld := ⟨0x0106, 0, 12, 11⟩
def SLU_HOT.DROP_OFF : Fld := ⟨0x0106, 0, 23, 1⟩
def SLU_HOT.DROP_ON : Fld := ⟨0x0106, 0, 24, 1⟩
/-! SLU_PORT (file 02 of spec/) -/
def SLU_PORT.PHY : Fld := ⟨0x0101, 0, 0, 2⟩
def SLU_PORT.LANES : Fld := ⟨0x0101, 0, 2, 2⟩
def SLU_PORT.VC : Fld := ⟨0x0101, 0, 4, 5⟩
def SLU_PORT.DT : Fld := ⟨0x0101, 0, 9, 6⟩
def SLU_PORT.MODE : Fld := ⟨0x0101, 0, 15, 2⟩
def SLU_PORT.WORD_SIZE : Fld := ⟨0x0101, 0, 17, 2⟩
def SLU_PORT.FRAME_FMT : Fld := ⟨0x0101, 0, 19, 2⟩
def SLU_PORT.WIDTH_M1 : Fld := ⟨0x0101, 0, 21, 12⟩
def SLU_PORT.HEIGHT_M1 : Fld := ⟨0x0101, 0, 33, 11⟩
def SLU_PORT.BIN2 : Fld := ⟨0x0101, 0, 44, 1⟩
def SLU_PORT.HOME0 : Fld := ⟨0x0101, 0, 45, 4⟩
def SLU_PORT.HOME1 : Fld := ⟨0x0101, 0, 49, 4⟩
def SLU_PORT.SPLIT_ROW : Fld := ⟨0x0101, 0, 53, 11⟩
def SLU_PORT.ENABLE : Fld := ⟨0x0101, 1, 0, 1⟩
/-! SLU_FLT (file 02 of spec/) -/
def SLU_FLT.REFRACT_US : Fld := ⟨0x0103, 0, 0, 8⟩
def SLU_FLT.FLK_EN : Fld := ⟨0x0103, 0, 8, 1⟩
def SLU_FLT.FLK_LOCK : Fld := ⟨0x0103, 0, 9, 3⟩
def SLU_FLT.FLK_FMIN : Fld := ⟨0x0103, 0, 12, 10⟩
def SLU_FLT.FLK_FMAX : Fld := ⟨0x0103, 0, 22, 10⟩
def SLU_FLT.HOT_EN : Fld := ⟨0x0103, 0, 32, 1⟩
def SLU_FLT.RATE_MODE : Fld := ⟨0x0103, 0, 33, 2⟩
def SLU_FLT.RATE_MEVS : Fld := ⟨0x0103, 0, 35, 11⟩
def SLU_FLT.RATE_BURST : Fld := ⟨0x0103, 0, 46, 11⟩
/-! SLU_TAL (file 02 of spec/) -/
def SLU_TAL.SOURCE : Fld := ⟨0x0104, 0, 0, 2⟩
def SLU_TAL.KO : Fld := ⟨0x0104, 0, 2, 2⟩
def SLU_TAL.KD : Fld := ⟨0x0104, 0, 4, 3⟩
def SLU_TAL.MIN_PAIRS : Fld := ⟨0x0104, 0, 7, 3⟩
def SLU_TAL.ALIGN_TOL_US : Fld := ⟨0x0104, 0, 10, 16⟩
def SLU_TAL.DRIFT_LIMIT_US : Fld := ⟨0x0104, 0, 26, 32⟩
def SLU_TAL.ARR_LAT_NS : Fld := ⟨0x0104, 1, 0, 16⟩
def SLU_TAL.PAIR_TIMEOUT_MS : Fld := ⟨0x0104, 1, 16, 16⟩
def SLU_TAL.D_INIT : Fld := ⟨0x0104, 1, 32, 32⟩
/-! SLU_QUE (file 02 of spec/) -/
def SLU_QUE.SPILL_TGT : Fld := ⟨0x0105, 0, 0, 1⟩
def SLU_QUE.SPILL_LIMIT_MIB : Fld := ⟨0x0105, 0, 1, 9⟩
def SLU_QUE.OVF_POLICY : Fld := ⟨0x0105, 0, 10, 1⟩
/-! SLU_STAT (file 02 of spec/) -/
def SLU_STAT.LINK_UP : Fld := ⟨0x0108, 0, 0, 1⟩
def SLU_STAT.ALIGN : Fld := ⟨0x0108, 0, 1, 2⟩
def SLU_STAT.SPILLING : Fld := ⟨0x0108, 0, 3, 1⟩
def SLU_STAT.OVF_DECIM : Fld := ⟨0x0108, 0, 4, 1⟩
def SLU_STAT.LOCKED_BLOCKS : Fld := ⟨0x0108, 0, 5, 18⟩
def SLU_STAT.RESIDUAL_NS : Fld := ⟨0x0108, 0, 32, 32⟩
def SLU_STAT.D_RATE : Fld := ⟨0x0108, 1, 0, 32⟩
/-! INR_ENG (file 03 of spec/) -/
def INR_ENG.FORM : Fld := ⟨0x0201, 0, 0, 2⟩
def INR_ENG.RATE : Fld := ⟨0x0201, 0, 2, 3⟩
def INR_ENG.SPI_CMD : Fld := ⟨0x0201, 0, 5, 8⟩
def INR_ENG.SYNC_PIN_EN : Fld := ⟨0x0201, 0, 13, 1⟩
/-! INR_CH (file 03 of spec/) -/
def INR_CH.ENABLE : Fld := ⟨0x0202, 0, 0, 1⟩
def INR_CH.PRESET : Fld := ⟨0x0202, 0, 1, 2⟩
def INR_CH.PHASE : Fld := ⟨0x0202, 0, 3, 8⟩
def INR_CH.INVERT : Fld := ⟨0x0202, 0, 11, 1⟩
def INR_CH.AXIS : Fld := ⟨0x0202, 0, 12, 4⟩
def INR_CH.SENSOR : Fld := ⟨0x0202, 0, 16, 6⟩
def INR_CH.TO_STREAM : Fld := ⟨0x0202, 0, 22, 1⟩
def INR_CH.STREAM : Fld := ⟨0x0202, 0, 23, 6⟩
def INR_CH.SCALE : Fld := ⟨0x0202, 0, 32, 32⟩
def INR_CH.LAT_NS : Fld := ⟨0x0202, 1, 0, 16⟩
/-! SRF_INTR (file 04 of spec/) -/
def SRF_INTR.FX : Fld := ⟨0x0303, 0, 0, 32⟩
def SRF_INTR.FY : Fld := ⟨0x0303, 0, 32, 32⟩
def SRF_INTR.CX : Fld := ⟨0x0303, 1, 0, 32⟩
def SRF_INTR.CY : Fld := ⟨0x0303, 1, 32, 32⟩
def SRF_INTR.RCI : Fld := ⟨0x0303, 2, 0, 32⟩
def SRF_INTR.GROUP : Fld := ⟨0x0303, 6, 32, 6⟩
def SRF_INTR.VALID : Fld := ⟨0x0303, 6, 38, 1⟩
/-! SRF_PORT (file 04 of spec/) -/
def SRF_PORT.ENABLE : Fld := ⟨0x0301, 0, 0, 1⟩
def SRF_PORT.SLUICE : Fld := ⟨0x0301, 0, 1, 4⟩
def SRF_PORT.BASE : Fld := ⟨0x0301, 0, 5, 13⟩
def SRF_PORT.KEY_PREFIX : Fld := ⟨0x0301, 0, 18, 6⟩
def SRF_PORT.CLASS : Fld := ⟨0x0301, 0, 24, 2⟩
def SRF_PORT.RAW_EN : Fld := ⟨0x0301, 0, 26, 1⟩
def SRF_PORT.CORNER_EN : Fld := ⟨0x0301, 0, 27, 1⟩
def SRF_PORT.FLOW_EN : Fld := ⟨0x0301, 0, 28, 1⟩
def SRF_PORT.FULL_EN : Fld := ⟨0x0301, 0, 29, 1⟩
def SRF_PORT.POL_MERGE : Fld := ⟨0x0301, 0, 30, 1⟩
def SRF_PORT.DEROT_EN : Fld := ⟨0x0301, 0, 31, 1⟩
def SRF_PORT.INTR : Fld := ⟨0x0301, 0, 32, 6⟩
def SRF_PORT.NOTE_EN : Fld := ⟨0x0301, 0, 38, 1⟩
def SRF_PORT.NOTE_STREAM : Fld := ⟨0x0301, 0, 39, 6⟩
/-! SRF_CFG (file 04 of spec/) -/
def SRF_CFG.ARC3_MIN : Fld := ⟨0x0302, 0, 0, 4⟩
def SRF_CFG.ARC3_MAX : Fld := ⟨0x0302, 0, 4, 4⟩
def SRF_CFG.ARC4_MIN : Fld := ⟨0x0302, 0, 8, 5⟩
def SRF_CFG.ARC4_MAX : Fld := ⟨0x0302, 0, 13, 5⟩
def SRF_CFG.SCORE_SHIFT : Fld := ⟨0x0302, 0, 18, 3⟩
def SRF_CFG.SCORE_MIN : Fld := ⟨0x0302, 0, 21, 8⟩
def SRF_CFG.FLOW_TAU_US : Fld := ⟨0x0302, 0, 32, 16⟩
def SRF_CFG.FLOW_MIN_N : Fld := ⟨0x0302, 0, 48, 5⟩
def SRF_CFG.FLOW_CONF_MIN : Fld := ⟨0x0302, 0, 53, 7⟩
def SRF_CFG.APER_K : Fld := ⟨0x0302, 0, 60, 4⟩
def SRF_CFG.FLOW_RES_US : Fld := ⟨0x0302, 1, 0, 16⟩
def SRF_CFG.APER_MIN_M : Fld := ⟨0x0302, 1, 16, 4⟩
def SRF_CFG.DEROT_EPOCH_MS : Fld := ⟨0x0302, 1, 20, 8⟩
/-! NRN_GRP (file 05 of spec/) -/
def NRN_GRP.FIRST : Fld := ⟨0x0401, 0, 0, 16⟩
def NRN_GRP.COUNT_M1 : Fld := ⟨0x0401, 0, 16, 16⟩
def NRN_GRP.MODEL : Fld := ⟨0x0401, 0, 32, 3⟩
def NRN_GRP.CLASS : Fld := ⟨0x0401, 0, 35, 2⟩
def NRN_GRP.AXON_DELAY : Fld := ⟨0x0401, 0, 37, 8⟩
def NRN_GRP.EMIT_EN : Fld := ⟨0x0401, 0, 45, 1⟩
def NRN_GRP.CNT_EN : Fld := ⟨0x0401, 0, 46, 1⟩
def NRN_GRP.CNT_STREAM : Fld := ⟨0x0401, 0, 47, 6⟩
def NRN_GRP.CNT_WINDOW_US : Fld := ⟨0x0401, 0, 53, 20⟩
def NRN_GRP.TICK_US : Fld := ⟨0x0401, 1, 9, 16⟩
def NRN_GRP.VALID : Fld := ⟨0x0401, 1, 25, 1⟩
def NRN_GRP.OUT_KEY : Fld := ⟨0x0401, 1, 32, 32⟩
/-! NRN_MAT (file 05 of spec/) -/
def NRN_MAT.BASE : Fld := ⟨0x0402, 0, 0, 16⟩
def NRN_MAT.ROWS_M1 : Fld := ⟨0x0402, 0, 16, 16⟩
def NRN_MAT.COLS_M1 : Fld := ⟨0x0402, 0, 32, 12⟩
def NRN_MAT.FMT : Fld := ⟨0x0402, 0, 44, 2⟩
def NRN_MAT.W_SHIFT : Fld := ⟨0x0402, 0, 46, 5⟩
def NRN_MAT.VALID : Fld := ⟨0x0402, 0, 51, 1⟩
def NRN_MAT.TARGET : Fld := ⟨0x0402, 1, 0, 16⟩
def NRN_MAT.T_MAG : Fld := ⟨0x0402, 1, 16, 16⟩
/-! NRN_INMAP (file 05 of spec/) -/
def NRN_INMAP.KEY : Fld := ⟨0x0403, 0, 0, 32⟩
def NRN_INMAP.MASK : Fld := ⟨0x0403, 0, 32, 32⟩
def NRN_INMAP.MATRIX : Fld := ⟨0x0403, 1, 0, 5⟩
def NRN_INMAP.ROW_SHIFT : Fld := ⟨0x0403, 1, 5, 5⟩
def NRN_INMAP.ROW_BASE : Fld := ⟨0x0403, 1, 10, 16⟩
def NRN_INMAP.STAMP : Fld := ⟨0x0403, 1, 26, 1⟩
def NRN_INMAP.VALID : Fld := ⟨0x0403, 1, 27, 1⟩
def NRN_INMAP.MARKER : Fld := ⟨0x0403, 1, 28, 1⟩
/-! NRN_MODEL (file 05 of spec/) -/
def NRN_MODEL.START : Fld := ⟨0x0404, 0, 0, 8⟩
def NRN_MODEL.LENGTH : Fld := ⟨0x0404, 0, 8, 5⟩
def NRN_MODEL.ORDERED : Fld := ⟨0x0404, 0, 13, 1⟩
def NRN_MODEL.REFR_SHIFT : Fld := ⟨0x0404, 0, 14, 4⟩
def NRN_MODEL.DT_SHIFT0 : Fld := ⟨0x0404, 0, 18, 4⟩
def NRN_MODEL.DT_SHIFT1 : Fld := ⟨0x0404, 0, 22, 4⟩
def NRN_MODEL.VALID : Fld := ⟨0x0404, 0, 26, 1⟩
def NRN_MODEL.K0 : Fld := ⟨0x0404, 0, 32, 24⟩
def NRN_MODEL.D0 : Fld := ⟨0x0404, 4, 0, 16⟩
def NRN_MODEL.D1 : Fld := ⟨0x0404, 8, 0, 16⟩
/-! NRN_CFG (file 05 of spec/) -/
def NRN_CFG.TIME_MODE : Fld := ⟨0x0405, 0, 0, 1⟩
def NRN_CFG.REORDER_US : Fld := ⟨0x0405, 0, 1, 8⟩
def NRN_CFG.PACE : Fld := ⟨0x0405, 0, 9, 1⟩
def NRN_CFG.STEP_US : Fld := ⟨0x0405, 0, 10, 16⟩
def NRN_CFG.STEP_WALL_US : Fld := ⟨0x0405, 0, 26, 16⟩
def NRN_CFG.STRETCH_LIMIT_US : Fld := ⟨0x0405, 0, 42, 20⟩
def NRN_CFG.STEP_SOURCES : Fld := ⟨0x0405, 1, 0, 6⟩
def NRN_CFG.MARK_KEY : Fld := ⟨0x0405, 1, 32, 32⟩
/-! CNL_ENT (file 06 of spec/) -/
def CNL_ENT.KEY : Fld := ⟨0x0507, 0, 0, 32⟩
def CNL_ENT.MASK : Fld := ⟨0x0507, 0, 32, 32⟩
def CNL_ENT.NE : Fld := ⟨0x0507, 1, 0, 1⟩
def CNL_ENT.LOCKS : Fld := ⟨0x0507, 1, 1, 16⟩
def CNL_ENT.TEN : Fld := ⟨0x0507, 1, 17, 4⟩
def CNL_ENT.LINKS : Fld := ⟨0x0507, 1, 21, 4⟩
def CNL_ENT.FUSION : Fld := ⟨0x0507, 1, 25, 1⟩
def CNL_ENT.STREAM_EN : Fld := ⟨0x0507, 1, 26, 1⟩
def CNL_ENT.STREAM : Fld := ⟨0x0507, 1, 27, 6⟩
def CNL_ENT.QUEUE_EN : Fld := ⟨0x0507, 1, 33, 1⟩
def CNL_ENT.QUEUE : Fld := ⟨0x0507, 1, 34, 9⟩
def CNL_ENT.SRC_SEL : Fld := ⟨0x0507, 1, 43, 3⟩
def CNL_ENT.VALID : Fld := ⟨0x0507, 1, 46, 1⟩
/-! CNL_UPQ (file 06 of spec/) -/
def CNL_UPQ.CL0_RATE : Fld := ⟨0x0501, 0, 0, 8⟩
def CNL_UPQ.CL0_BURST : Fld := ⟨0x0501, 0, 8, 4⟩
/-! CNL_DEV (file 06 of spec/) -/
def CNL_DEV.DEV_ID : Fld := ⟨0x0502, 0, 0, 6⟩
def CNL_DEV.HEAD : Fld := ⟨0x0502, 0, 6, 1⟩
def CNL_DEV.ASSIGNED : Fld := ⟨0x0502, 0, 7, 1⟩
/-! CNL_LINK (file 06 of spec/) -/
def CNL_LINK.ENABLE : Fld := ⟨0x0503, 0, 0, 1⟩
def CNL_LINK.LANE_MODE : Fld := ⟨0x0503, 0, 1, 2⟩
def CNL_LINK.ALT_LINK : Fld := ⟨0x0503, 0, 3, 2⟩
def CNL_LINK.ALT_EN : Fld := ⟨0x0503, 0, 5, 1⟩
def CNL_LINK.REPLAY_MAX : Fld := ⟨0x0503, 0, 6, 10⟩
def CNL_LINK.SHADOW_TGT : Fld := ⟨0x0503, 0, 16, 1⟩
def CNL_LINK.SHADOW_LIMIT_MIB : Fld := ⟨0x0503, 0, 17, 10⟩
/-! CNL_LSTAT (file 06 of spec/) -/
def CNL_LSTAT.UP : Fld := ⟨0x0504, 0, 0, 1⟩
def CNL_LSTAT.LANES : Fld := ⟨0x0504, 0, 1, 2⟩
def CNL_LSTAT.PEER_DEV : Fld := ⟨0x0504, 0, 3, 6⟩
def CNL_LSTAT.PEER_ASSIGNED : Fld := ⟨0x0504, 0, 9, 1⟩
/-! CNL_JOB (file 06 of spec/) -/
def CNL_JOB.MODE : Fld := ⟨0x0505, 0, 0, 1⟩
def CNL_JOB.WIN_US : Fld := ⟨0x0505, 0, 1, 13⟩
/-! CNL_RLOG (file 06 of spec/) -/
def CNL_RLOG.WINDOW : Fld := ⟨0x0506, 0, 0, 32⟩
def CNL_RLOG.JOB : Fld := ⟨0x0506, 0, 32, 3⟩
def CNL_RLOG.SRC_DEV : Fld := ⟨0x0506, 0, 35, 6⟩
def CNL_RLOG.LOCAL : Fld := ⟨0x0506, 0, 41, 1⟩
def CNL_RLOG.OUT_LINKS : Fld := ⟨0x0506, 0, 42, 4⟩
def CNL_RLOG.GUARDED : Fld := ⟨0x0506, 0, 46, 1⟩
/-! ARR_RQ (file 07 of spec/) -/
def ARR_RQ.BIAS : Fld := ⟨0x0000, 0, 0, 32⟩
def ARR_RQ.SCALE : Fld := ⟨0x0000, 0, 32, 32⟩
def ARR_RQ.SHIFT : Fld := ⟨0x0000, 1, 0, 6⟩
def ARR_RQ.ZERO_POINT : Fld := ⟨0x0000, 1, 16, 16⟩
def ARR_RQ.CLAMP_LO : Fld := ⟨0x0000, 1, 32, 32⟩
def ARR_RQ.CLAMP_HI : Fld := ⟨0x0000, 2, 0, 32⟩
/-! ARR_LD (file 07 of spec/) -/
def ARR_LD.ADDR : Fld := ⟨0x0000, 0, 0, 40⟩
def ARR_LD.REL : Fld := ⟨0x0000, 0, 40, 1⟩
def ARR_LD.KIND : Fld := ⟨0x0000, 0, 41, 2⟩
def ARR_LD.LAYER : Fld := ⟨0x0000, 0, 43, 8⟩
def ARR_LD.WAIT_SEM : Fld := ⟨0x0000, 0, 51, 4⟩
def ARR_LD.WAIT_EN : Fld := ⟨0x0000, 0, 55, 1⟩
def ARR_LD.SIGNAL_SEM : Fld := ⟨0x0000, 0, 56, 4⟩
def ARR_LD.SIGNAL_EN : Fld := ⟨0x0000, 0, 60, 1⟩
def ARR_LD.CB : Fld := ⟨0x0000, 1, 0, 12⟩
def ARR_LD.OB : Fld := ⟨0x0000, 1, 12, 12⟩
def ARR_LD.TAP : Fld := ⟨0x0000, 1, 24, 8⟩
def ARR_LD.TILE_Y0 : Fld := ⟨0x0000, 1, 32, 8⟩
def ARR_LD.TILE_X0 : Fld := ⟨0x0000, 1, 40, 8⟩
def ARR_LD.TILES_Y_M1 : Fld := ⟨0x0000, 1, 48, 8⟩
def ARR_LD.TILES_X_M1 : Fld := ⟨0x0000, 1, 56, 8⟩
def ARR_LD.SCALE_ADDR : Fld := ⟨0x0000, 2, 0, 40⟩
def ARR_LD.SCALE_REL : Fld := ⟨0x0000, 2, 40, 1⟩
/-! ARR_CMP (file 07 of spec/) -/
def ARR_CMP.LAYER : Fld := ⟨0x0000, 0, 0, 8⟩
def ARR_CMP.WAIT_SEM : Fld := ⟨0x0000, 0, 8, 4⟩
def ARR_CMP.WAIT_EN : Fld := ⟨0x0000, 0, 12, 1⟩
def ARR_CMP.SIGNAL_SEM : Fld := ⟨0x0000, 0, 13, 4⟩
def ARR_CMP.SIGNAL_EN : Fld := ⟨0x0000, 0, 17, 1⟩
def ARR_CMP.FIRST : Fld := ⟨0x0000, 0, 18, 1⟩
def ARR_CMP.LAST : Fld := ⟨0x0000, 0, 19, 1⟩
def ARR_CMP.APPROX : Fld := ⟨0x0000, 0, 20, 2⟩
def ARR_CMP.W_FMT : Fld := ⟨0x0000, 0, 22, 4⟩
def ARR_CMP.A_FMT : Fld := ⟨0x0000, 0, 26, 4⟩
def ARR_CMP.MXW : Fld := ⟨0x0000, 0, 30, 1⟩
def ARR_CMP.TAP : Fld := ⟨0x0000, 0, 32, 8⟩
def ARR_CMP.TILES_M1 : Fld := ⟨0x0000, 0, 40, 2⟩
def ARR_CMP.SKIP_THRESH : Fld := ⟨0x0000, 1, 0, 32⟩
/-! ARR_ST (file 07 of spec/) -/
def ARR_ST.DST_ADDR : Fld := ⟨0x0000, 0, 0, 40⟩
def ARR_ST.REL : Fld := ⟨0x0000, 0, 40, 1⟩
def ARR_ST.LAYER : Fld := ⟨0x0000, 0, 41, 8⟩
def ARR_ST.OUT_FMT : Fld := ⟨0x0000, 0, 49, 4⟩
def ARR_ST.WAIT_SEM : Fld := ⟨0x0000, 0, 53, 4⟩
def ARR_ST.WAIT_EN : Fld := ⟨0x0000, 0, 57, 1⟩
def ARR_ST.SIGNAL_SEM : Fld := ⟨0x0000, 0, 58, 4⟩
def ARR_ST.SIGNAL_EN : Fld := ⟨0x0000, 0, 62, 1⟩
def ARR_ST.ZRC : Fld := ⟨0x0000, 0, 63, 1⟩
def ARR_ST.ACT : Fld := ⟨0x0000, 1, 0, 2⟩
def ARR_ST.OB : Fld := ⟨0x0000, 1, 2, 12⟩
def ARR_ST.SCALE_ADDR : Fld := ⟨0x0000, 2, 0, 40⟩
/-! ARR_PROG (file 07 of spec/) -/
def ARR_PROG.LD_LIST : Fld := ⟨0x0601, 0, 0, 40⟩
def ARR_PROG.LD_COUNT : Fld := ⟨0x0601, 0, 40, 12⟩
def ARR_PROG.TRIGGER : Fld := ⟨0x0601, 0, 52, 3⟩
def ARR_PROG.SRC : Fld := ⟨0x0601, 0, 55, 4⟩
def ARR_PROG.VALID : Fld := ⟨0x0601, 0, 59, 1⟩
def ARR_PROG.CMP_LIST : Fld := ⟨0x0601, 1, 0, 40⟩
def ARR_PROG.CMP_COUNT : Fld := ⟨0x0601, 1, 40, 12⟩
def ARR_PROG.ST_LIST : Fld := ⟨0x0601, 2, 0, 40⟩
def ARR_PROG.ST_COUNT : Fld := ⟨0x0601, 2, 40, 12⟩
def ARR_PROG.DONE_STREAM : Fld := ⟨0x0601, 3, 0, 6⟩
def ARR_PROG.DONE_EN : Fld := ⟨0x0601, 3, 6, 1⟩
/-! TEN_VOX (file 07 of spec/) -/
def TEN_VOX.KEY_PREFIX : Fld := ⟨0x0603, 0, 0, 6⟩
def TEN_VOX.KIND : Fld := ⟨0x0603, 0, 6, 2⟩
def TEN_VOX.VALID : Fld := ⟨0x0603, 0, 8, 1⟩
def TEN_VOX.BINS_M1 : Fld := ⟨0x0603, 0, 9, 4⟩
def TEN_VOX.POL_MODE : Fld := ⟨0x0603, 0, 13, 1⟩
def TEN_VOX.ACC : Fld := ⟨0x0603, 0, 14, 1⟩
def TEN_VOX.OUT_FMT : Fld := ⟨0x0603, 0, 15, 2⟩
def TEN_VOX.DS : Fld := ⟨0x0603, 0, 17, 2⟩
def TEN_VOX.PROG : Fld := ⟨0x0603, 0, 19, 4⟩
def TEN_VOX.TRIG_EN : Fld := ⟨0x0603, 0, 23, 1⟩
def TEN_VOX.WINDOW_US : Fld := ⟨0x0603, 0, 24, 20⟩
def TEN_VOX.PHASE_US : Fld := ⟨0x0603, 0, 44, 20⟩
def TEN_VOX.WIDTH_M1 : Fld := ⟨0x0603, 1, 0, 12⟩
def TEN_VOX.HEIGHT_M1 : Fld := ⟨0x0603, 1, 12, 11⟩
def TEN_VOX.LATE_US : Fld := ⟨0x0603, 1, 23, 16⟩
def TEN_VOX.DT_SHIFT : Fld := ⟨0x0603, 1, 39, 4⟩
def TEN_VOX.BUF_BASE : Fld := ⟨0x0603, 2, 0, 40⟩
def TEN_VOX.DECAY : Fld := ⟨0x0603, 3, 0, 64⟩
/-! ARR_LAYER (file 08 of spec/) -/
def ARR_LAYER.IN_C_M1 : Fld := ⟨0x0602, 0, 0, 16⟩
def ARR_LAYER.OUT_C_M1 : Fld := ⟨0x0602, 0, 16, 16⟩
def ARR_LAYER.IN_W_M1 : Fld := ⟨0x0602, 0, 32, 12⟩
def ARR_LAYER.IN_H_M1 : Fld := ⟨0x0602, 0, 44, 12⟩
def ARR_LAYER.KW_M1 : Fld := ⟨0x0602, 0, 56, 4⟩
def ARR_LAYER.KH_M1 : Fld := ⟨0x0602, 0, 60, 4⟩
def ARR_LAYER.STRIDE_X_M1 : Fld := ⟨0x0602, 1, 0, 3⟩
def ARR_LAYER.STRIDE_Y_M1 : Fld := ⟨0x0602, 1, 3, 3⟩
def ARR_LAYER.DIL_X_M1 : Fld := ⟨0x0602, 1, 6, 6⟩
def ARR_LAYER.DIL_Y_M1 : Fld := ⟨0x0602, 1, 12, 6⟩
def ARR_LAYER.TRANSPOSED : Fld := ⟨0x0602, 1, 18, 1⟩
def ARR_LAYER.IN_FMT : Fld := ⟨0x0602, 1, 19, 4⟩
def ARR_LAYER.IN_LAYOUT : Fld := ⟨0x0602, 1, 23, 2⟩
def ARR_LAYER.GROUPS_M1 : Fld := ⟨0x0602, 1, 32, 16⟩
def ARR_LAYER.PAD_L : Fld := ⟨0x0602, 2, 0, 10⟩
def ARR_LAYER.PAD_R : Fld := ⟨0x0602, 2, 10, 10⟩
def ARR_LAYER.PAD_T : Fld := ⟨0x0602, 2, 20, 10⟩
def ARR_LAYER.PAD_B : Fld := ⟨0x0602, 2, 30, 10⟩
def ARR_LAYER.MODE_L : Fld := ⟨0x0602, 2, 40, 2⟩
def ARR_LAYER.MODE_R : Fld := ⟨0x0602, 2, 42, 2⟩
def ARR_LAYER.MODE_T : Fld := ⟨0x0602, 2, 44, 2⟩
def ARR_LAYER.MODE_B : Fld := ⟨0x0602, 2, 46, 2⟩
def ARR_LAYER.PAD_CONST : Fld := ⟨0x0602, 3, 0, 32⟩
def ARR_LAYER.IN_ROW_PITCH : Fld := ⟨0x0602, 4, 0, 24⟩
def ARR_LAYER.IN_PLANE_PITCH : Fld := ⟨0x0602, 4, 24, 40⟩
def ARR_LAYER.OUT_ROW_PITCH : Fld := ⟨0x0602, 5, 0, 24⟩
def ARR_LAYER.OUT_PLANE_PITCH : Fld := ⟨0x0602, 5, 24, 40⟩
def ARR_LAYER.OUT_W_M1 : Fld := ⟨0x0602, 6, 0, 12⟩
def ARR_LAYER.OUT_H_M1 : Fld := ⟨0x0602, 6, 12, 12⟩
def ARR_LAYER.VALID : Fld := ⟨0x0602, 6, 24, 1⟩
/-! FUS_GRID (file 09 of spec/) -/
def FUS_GRID.TILES_X_M1 : Fld := ⟨0x0701, 0, 0, 5⟩
def FUS_GRID.TILES_Y_M1 : Fld := ⟨0x0701, 0, 5, 5⟩
def FUS_GRID.GRID_FMT : Fld := ⟨0x0701, 0, 10, 2⟩
def FUS_GRID.PITCH_MM : Fld := ⟨0x0701, 0, 12, 9⟩
def FUS_GRID.JOB : Fld := ⟨0x0701, 0, 21, 3⟩
def FUS_GRID.ENABLE : Fld := ⟨0x0701, 0, 24, 1⟩
def FUS_GRID.ORIGIN_X : Fld := ⟨0x0701, 1, 0, 32⟩
def FUS_GRID.ORIGIN_Y : Fld := ⟨0x0701, 1, 32, 32⟩
def FUS_GRID.CYCLE_US : Fld := ⟨0x0701, 2, 0, 16⟩
def FUS_GRID.PHASE_US : Fld := ⟨0x0701, 2, 16, 16⟩
def FUS_GRID.EGO_DELAY_US : Fld := ⟨0x0701, 2, 32, 16⟩
def FUS_GRID.GRID_BASE : Fld := ⟨0x0701, 3, 0, 40⟩
def FUS_GRID.GRID_STREAM_EN : Fld := ⟨0x0701, 3, 40, 1⟩
def FUS_GRID.GRID_STREAM : Fld := ⟨0x0701, 3, 41, 6⟩
def FUS_GRID.OBJ_STREAM : Fld := ⟨0x0701, 3, 47, 6⟩
def FUS_GRID.EGO_STREAM : Fld := ⟨0x0701, 3, 53, 6⟩
def FUS_GRID.GRID_SCALE : Fld := ⟨0x0701, 4, 0, 32⟩
/-! FUS_SRC (file 09 of spec/) -/
def FUS_SRC.KIND : Fld := ⟨0x0702, 0, 0, 2⟩
def FUS_SRC.VALID : Fld := ⟨0x0702, 0, 2, 1⟩
def FUS_SRC.SLUICE : Fld := ⟨0x0702, 0, 3, 4⟩
def FUS_SRC.SLUICE_EN : Fld := ⟨0x0702, 0, 7, 1⟩
def FUS_SRC.CLUSTER : Fld := ⟨0x0702, 0, 8, 2⟩
def FUS_SRC.PROG : Fld := ⟨0x0702, 0, 10, 4⟩
def FUS_SRC.IN_FMT : Fld := ⟨0x0702, 0, 14, 4⟩
def FUS_SRC.CH_BASE : Fld := ⟨0x0702, 0, 18, 6⟩
def FUS_SRC.CH_COUNT : Fld := ⟨0x0702, 0, 24, 7⟩
def FUS_SRC.FORCE_MASK : Fld := ⟨0x0702, 0, 31, 1⟩
def FUS_SRC.OCC_CH : Fld := ⟨0x0702, 0, 32, 6⟩
def FUS_SRC.COV_DS : Fld := ⟨0x0702, 0, 38, 4⟩
def FUS_SRC.EGO_USE : Fld := ⟨0x0702, 0, 42, 1⟩
def FUS_SRC.MAX_AGE_MS : Fld := ⟨0x0702, 1, 0, 16⟩
def FUS_SRC.TIMEOUT_MS : Fld := ⟨0x0702, 1, 16, 16⟩
def FUS_SRC.SCORE_MIN : Fld := ⟨0x0702, 1, 32, 8⟩
def FUS_SRC.LIE_CYCLES : Fld := ⟨0x0702, 1, 40, 4⟩
def FUS_SRC.CLEAR_CYCLES : Fld := ⟨0x0702, 1, 44, 4⟩
def FUS_SRC.MIN_OVERLAP : Fld := ⟨0x0702, 1, 48, 16⟩
def FUS_SRC.SNAP_BASE : Fld := ⟨0x0702, 2, 0, 40⟩
def FUS_SRC.SRC_W_M1 : Fld := ⟨0x0702, 3, 0, 12⟩
def FUS_SRC.SRC_H_M1 : Fld := ⟨0x0702, 3, 12, 12⟩
def FUS_SRC.SRC_ADDR : Fld := ⟨0x0702, 4, 0, 40⟩
def FUS_SRC.LUT_BASE : Fld := ⟨0x0702, 5, 0, 40⟩
def FUS_SRC.TILE_INDEX : Fld := ⟨0x0702, 6, 0, 40⟩
def FUS_SRC.COV_BASE : Fld := ⟨0x0702, 7, 0, 40⟩
def FUS_SRC.IN_SCALE : Fld := ⟨0x0702, 8, 0, 32⟩
def FUS_SRC.OCC_THR : Fld := ⟨0x0702, 8, 32, 32⟩
def FUS_SRC.Z_MIN : Fld := ⟨0x0702, 9, 0, 32⟩
def FUS_SRC.Z_STEP : Fld := ⟨0x0702, 9, 32, 32⟩
def FUS_SRC.EXT : Fld := ⟨0x0702, 10, 0, 64⟩
def FUS_SRC.QUEUE : Fld := ⟨0x0702, 18, 0, 9⟩
def FUS_SRC.KEY_PREFIX : Fld := ⟨0x0702, 18, 9, 6⟩
/-! FUS_LUT (file 09 of spec/) -/
def FUS_LUT.BIN_X : Fld := ⟨0x0000, 0, 0, 12⟩
def FUS_LUT.BIN_Y : Fld := ⟨0x0000, 0, 12, 12⟩
def FUS_LUT.GX : Fld := ⟨0x0000, 0, 24, 10⟩
def FUS_LUT.GY : Fld := ⟨0x0000, 0, 34, 10⟩
def FUS_LUT.FX : Fld := ⟨0x0000, 0, 44, 8⟩
def FUS_LUT.FY : Fld := ⟨0x0000, 0, 52, 8⟩
def FUS_LUT.VALID : Fld := ⟨0x0000, 0, 60, 1⟩
/-! FUS_EGO (file 09 of spec/) -/
def FUS_EGO.GYRO_GROUP : Fld := ⟨0x0703, 0, 0, 6⟩
def FUS_EGO.GYRO_EN : Fld := ⟨0x0703, 0, 6, 1⟩
def FUS_EGO.LIDAR_SRC : Fld := ⟨0x0703, 0, 7, 5⟩
def FUS_EGO.LIDAR_EN : Fld := ⟨0x0703, 0, 12, 1⟩
def FUS_EGO.REG_SHIFT : Fld := ⟨0x0703, 0, 13, 4⟩
def FUS_EGO.REG_YAW_STEPS : Fld := ⟨0x0703, 0, 17, 4⟩
def FUS_EGO.FLOW_EN : Fld := ⟨0x0703, 0, 21, 1⟩
def FUS_EGO.REG_YAW_STEP : Fld := ⟨0x0703, 0, 32, 32⟩
def FUS_EGO.GYRO_VAR : Fld := ⟨0x0703, 1, 0, 32⟩
def FUS_EGO.REG_VAR_K : Fld := ⟨0x0703, 1, 32, 32⟩
def FUS_EGO.FLOW_RES_MPS : Fld := ⟨0x0703, 2, 0, 32⟩
def FUS_EGO.FLOW_MIN : Fld := ⟨0x0703, 2, 32, 16⟩
def FUS_EGO.PRIOR_VAR : Fld := ⟨0x0703, 3, 0, 64⟩
def FUS_EGO.RVG : Fld := ⟨0x0703, 6, 0, 64⟩
/-! FUS_OBJ (file 09 of spec/) -/
def FUS_OBJ.HEAD_ADDR : Fld := ⟨0x0704, 0, 0, 40⟩
def FUS_OBJ.HEAD_EN : Fld := ⟨0x0704, 0, 40, 1⟩
def FUS_OBJ.CLUSTER : Fld := ⟨0x0704, 0, 41, 2⟩
def FUS_OBJ.PROG : Fld := ⟨0x0704, 0, 43, 4⟩
def FUS_OBJ.HEAD_FMT : Fld := ⟨0x0704, 0, 47, 4⟩
def FUS_OBJ.CLASSES_M1 : Fld := ⟨0x0704, 0, 51, 4⟩
def FUS_OBJ.VEL_EN : Fld := ⟨0x0704, 0, 55, 1⟩
def FUS_OBJ.BASE_CH : Fld := ⟨0x0704, 0, 56, 6⟩
def FUS_OBJ.HEAD_SCALE : Fld := ⟨0x0704, 1, 0, 32⟩
def FUS_OBJ.OCC_MIN : Fld := ⟨0x0704, 1, 32, 32⟩
def FUS_OBJ.CONF_MIN : Fld := ⟨0x0704, 2, 0, 8⟩
def FUS_OBJ.MIN_CELLS : Fld := ⟨0x0704, 2, 8, 16⟩
def FUS_OBJ.OBJ_MAX : Fld := ⟨0x0704, 2, 24, 11⟩
def FUS_OBJ.ASSOC_M : Fld := ⟨0x0704, 3, 0, 32⟩
/-! RES_STREAM (file 10 of spec/) -/
def RES_STREAM.BASE : Fld := ⟨0x0801, 0, 0, 40⟩
def RES_STREAM.ENABLE : Fld := ⟨0x0801, 0, 40, 1⟩
def RES_STREAM.KIND : Fld := ⟨0x0801, 0, 41, 4⟩
def RES_STREAM.JOB : Fld := ⟨0x0801, 0, 45, 3⟩
def RES_STREAM.SLOTS_M1 : Fld := ⟨0x0801, 0, 48, 16⟩
def RES_STREAM.SLOT_M1 : Fld := ⟨0x0801, 1, 0, 12⟩
def RES_STREAM.FLUSH_US : Fld := ⟨0x0801, 1, 12, 16⟩
def RES_STREAM.RELEASER : Fld := ⟨0x0801, 1, 28, 1⟩
/-! RES_SUB (file 10 of spec/) -/
def RES_SUB.STREAM : Fld := ⟨0x0803, 0, 0, 6⟩
def RES_SUB.PORT : Fld := ⟨0x0803, 0, 6, 3⟩
def RES_SUB.CLASS : Fld := ⟨0x0803, 0, 9, 2⟩
def RES_SUB.EVERY_M1 : Fld := ⟨0x0803, 0, 11, 8⟩
def RES_SUB.VALID : Fld := ⟨0x0803, 0, 19, 1⟩
/-! LKP_BPORT (file 11 of spec/) -/
def LKP_BPORT.GO : Fld := ⟨0x0000, 0, 0, 1⟩
def LKP_BPORT.BUSY : Fld := ⟨0x0000, 0, 1, 1⟩
def LKP_BPORT.DONE : Fld := ⟨0x0000, 0, 2, 1⟩
def LKP_BPORT.NOTE_EN : Fld := ⟨0x0000, 0, 3, 1⟩
def LKP_BPORT.REQ_BYTES : Fld := ⟨0x0000, 0, 16, 12⟩
def LKP_BPORT.REPLY_BYTES : Fld := ⟨0x0000, 0, 32, 12⟩
/-! LKP_JOBCTL (file 11 of spec/) -/
def LKP_JOBCTL.CKPT_GEN : Fld := ⟨0x0000, 0, 0, 32⟩
def LKP_JOBCTL.CKPT_ACK : Fld := ⟨0x0000, 0, 32, 32⟩
def LKP_JOBCTL.CKPT_HALF : Fld := ⟨0x0000, 1, 0, 40⟩
def LKP_JOBCTL.STREAM_EN : Fld := ⟨0x0000, 2, 0, 64⟩
def LKP_JOBCTL.ARRAY_EN : Fld := ⟨0x0000, 3, 0, 4⟩
def LKP_JOBCTL.TICK_EN : Fld := ⟨0x0000, 3, 4, 1⟩
def LKP_JOBCTL.CKPT_GRACE_US : Fld := ⟨0x0000, 3, 16, 16⟩
def LKP_JOBCTL.STOP_GRACE_US : Fld := ⟨0x0000, 3, 32, 32⟩
/-! BRG_SIDE (file 12 of spec/) -/
def BRG_SIDE.PARITY : Fld := ⟨0x0000, 0, 0, 16⟩
def BRG_SIDE.LAST : Fld := ⟨0x0000, 0, 16, 16⟩
def BRG_SIDE.POISON : Fld := ⟨0x0000, 0, 32, 16⟩
/-! BRG_Q (file 12 of spec/) -/
def BRG_Q.ENABLE : Fld := ⟨0x0901, 0, 0, 1⟩
def BRG_Q.PROD : Fld := ⟨0x0901, 0, 1, 3⟩
def BRG_Q.CONS : Fld := ⟨0x0901, 0, 4, 3⟩
def BRG_Q.JOB : Fld := ⟨0x0901, 0, 7, 3⟩
def BRG_Q.SPILL_TGT : Fld := ⟨0x0901, 0, 10, 1⟩
def BRG_Q.SPILL_LIMIT_MIB : Fld := ⟨0x0901, 0, 11, 9⟩
def BRG_Q.RETAIN : Fld := ⟨0x0901, 0, 20, 1⟩
def BRG_Q.MAX_PKT_M1 : Fld := ⟨0x0901, 0, 21, 12⟩
def BRG_Q.CONS_UNIT : Fld := ⟨0x0901, 0, 33, 4⟩
def BRG_Q.NOTE_HART : Fld := ⟨0x0901, 0, 37, 3⟩
def BRG_Q.INJ_CLASS : Fld := ⟨0x0901, 0, 40, 2⟩
def BRG_Q.SPILL_BASE : Fld := ⟨0x0901, 1, 0, 40⟩
def BRG_Q.CLOSE_WORDS : Fld := ⟨0x0901, 2, 0, 13⟩
def BRG_Q.CLOSE_US : Fld := ⟨0x0901, 2, 13, 16⟩
/-! BRG_QSTAT (file 12 of spec/) -/
def BRG_QSTAT.COMMITTED_WORDS : Fld := ⟨0x0902, 0, 0, 27⟩
def BRG_QSTAT.SPACE_WORDS : Fld := ⟨0x0902, 0, 32, 27⟩
def BRG_QSTAT.RETAINED_WORDS : Fld := ⟨0x0902, 1, 0, 27⟩
def BRG_QSTAT.OPEN : Fld := ⟨0x0902, 1, 27, 1⟩
def BRG_QSTAT.SPILLING : Fld := ⟨0x0902, 1, 28, 1⟩
def BRG_QSTAT.REWOUND : Fld := ⟨0x0902, 1, 29, 1⟩
def BRG_QSTAT.NOTE_EN : Fld := ⟨0x0902, 1, 30, 1⟩
def BRG_QSTAT.AVAIL_PKTS : Fld := ⟨0x0902, 1, 32, 32⟩
/-! TMU_TIME (file 13 of spec/) -/
def TMU_TIME.FRAC : Fld := ⟨0x0A01, 0, 0, 32⟩
def TMU_TIME.NS : Fld := ⟨0x0A01, 0, 32, 32⟩
def TMU_TIME.SEC : Fld := ⟨0x0A01, 1, 0, 48⟩
def TMU_TIME.DEVICE_NS : Fld := ⟨0x0A01, 2, 0, 64⟩
/-! TMU_INCR (file 13 of spec/) -/
def TMU_INCR.INCR_NOM : Fld := ⟨0x0A02, 0, 0, 40⟩
def TMU_INCR.INCR_NOW : Fld := ⟨0x0A02, 1, 0, 40⟩
/-! TMU_SERVO (file 13 of spec/) -/
def TMU_SERVO.SRC_PORT : Fld := ⟨0x0A03, 0, 0, 3⟩
def TMU_SERVO.ENABLE : Fld := ⟨0x0A03, 0, 3, 1⟩
def TMU_SERVO.KP_SHIFT : Fld := ⟨0x0A03, 0, 4, 6⟩
def TMU_SERVO.KI_SHIFT : Fld := ⟨0x0A03, 0, 10, 6⟩
def TMU_SERVO.ADJ_MAX_PPB : Fld := ⟨0x0A03, 0, 16, 19⟩
def TMU_SERVO.STEP_NS : Fld := ⟨0x0A03, 1, 0, 32⟩
def TMU_SERVO.OUTLIER_NS : Fld := ⟨0x0A03, 1, 32, 32⟩
def TMU_SERVO.LOCK_NS : Fld := ⟨0x0A03, 2, 0, 16⟩
def TMU_SERVO.LOCK_COUNT : Fld := ⟨0x0A03, 2, 16, 4⟩
def TMU_SERVO.OUTLIER_MAX : Fld := ⟨0x0A03, 2, 20, 4⟩
def TMU_SERVO.SYNC_TIMEOUT_MS : Fld := ⟨0x0A03, 2, 24, 16⟩
def TMU_SERVO.BACK_MAX_MS : Fld := ⟨0x0A03, 3, 0, 32⟩
def TMU_SERVO.HOLD_LIMIT_S : Fld := ⟨0x0A03, 3, 32, 16⟩
def TMU_SERVO.GM_CHANGE : Fld := ⟨0x0A03, 3, 48, 1⟩
/-! TMU_PORT (file 13 of spec/) -/
def TMU_PORT.INGRESS_PS : Fld := ⟨0x0A04, 0, 0, 32⟩
def TMU_PORT.EGRESS_PS : Fld := ⟨0x0A04, 0, 32, 32⟩
def TMU_PORT.ASYM_PS : Fld := ⟨0x0A04, 1, 0, 32⟩
def TMU_PORT.LINK_DELAY : Fld := ⟨0x0A04, 1, 32, 32⟩
def TMU_PORT.PTP_EN : Fld := ⟨0x0A04, 2, 0, 1⟩
def TMU_PORT.TXQ_OVF : Fld := ⟨0x0A04, 2, 1, 1⟩
def TMU_PORT.TXQ_LEVEL : Fld := ⟨0x0A04, 2, 2, 4⟩
/-! TMU_TXQ (file 13 of spec/) -/
def TMU_TXQ.KEY : Fld := ⟨0x0000, 0, 0, 16⟩
def TMU_TXQ.SEC : Fld := ⟨0x0000, 0, 16, 48⟩
def TMU_TXQ.NS : Fld := ⟨0x0000, 1, 0, 32⟩
def TMU_TXQ.VALID : Fld := ⟨0x0000, 1, 32, 1⟩
/-! TMU_CMP (file 13 of spec/) -/
def TMU_CMP.TARGET : Fld := ⟨0x0A05, 0, 0, 64⟩
def TMU_CMP.PERIOD_NS : Fld := ⟨0x0A05, 1, 0, 31⟩
def TMU_CMP.ARM : Fld := ⟨0x0A05, 1, 31, 1⟩
def TMU_CMP.LATE : Fld := ⟨0x0A05, 1, 32, 1⟩
/-! TMU_SYNCOUT (file 13 of spec/) -/
def TMU_SYNCOUT.START : Fld := ⟨0x0A06, 0, 0, 64⟩
def TMU_SYNCOUT.PERIOD_NS : Fld := ⟨0x0A06, 1, 0, 31⟩
def TMU_SYNCOUT.ENABLE : Fld := ⟨0x0A06, 1, 31, 1⟩
def TMU_SYNCOUT.WIDTH : Fld := ⟨0x0A06, 1, 32, 16⟩
def TMU_SYNCOUT.INVERT : Fld := ⟨0x0A06, 1, 48, 1⟩
def TMU_SYNCOUT.LATE : Fld := ⟨0x0A06, 1, 49, 1⟩
def TMU_SYNCOUT.COUNT : Fld := ⟨0x0A06, 2, 0, 16⟩
def TMU_SYNCOUT.LAST_EDGE : Fld := ⟨0x0A06, 3, 0, 64⟩
/-! TOW_PORT (file 14 of spec/) -/
def TOW_PORT.ROLE : Fld := ⟨0x0B01, 0, 0, 3⟩
def TOW_PORT.IPV6 : Fld := ⟨0x0B01, 0, 3, 1⟩
def TOW_PORT.TAG_EN : Fld := ⟨0x0B01, 0, 4, 1⟩
def TOW_PORT.VID : Fld := ⟨0x0B01, 0, 5, 12⟩
def TOW_PORT.PCP1 : Fld := ⟨0x0B01, 0, 17, 3⟩
def TOW_PORT.PCP2 : Fld := ⟨0x0B01, 0, 20, 3⟩
def TOW_PORT.PCP3 : Fld := ⟨0x0B01, 0, 23, 3⟩
def TOW_PORT.PCP_PTP : Fld := ⟨0x0B01, 0, 26, 3⟩
def TOW_PORT.MACSEC_EN : Fld := ⟨0x0B01, 0, 29, 1⟩
def TOW_PORT.MACSEC_XPN : Fld := ⟨0x0B01, 0, 30, 1⟩
def TOW_PORT.PTP_BYPASS : Fld := ⟨0x0B01, 0, 31, 1⟩
def TOW_PORT.MTU : Fld := ⟨0x0B01, 0, 32, 11⟩
def TOW_PORT.UDP_PORT : Fld := ⟨0x0B01, 0, 43, 16⟩
def TOW_PORT.OWN_IP4 : Fld := ⟨0x0B01, 1, 0, 32⟩
def TOW_PORT.NOTIFY_IP4 : Fld := ⟨0x0B01, 1, 32, 32⟩
def TOW_PORT.OWN_IP6 : Fld := ⟨0x0B01, 2, 0, 64⟩
def TOW_PORT.NOTIFY_IP6 : Fld := ⟨0x0B01, 4, 0, 64⟩
def TOW_PORT.NOTIFY_MAC : Fld := ⟨0x0B01, 6, 0, 48⟩
def TOW_PORT.NOTIFY_PORT : Fld := ⟨0x0B01, 6, 48, 16⟩
/-! TOW_HELM (file 14 of spec/) -/
def TOW_HELM.HOLDER : Fld := ⟨0x0B02, 0, 0, 4⟩
def TOW_HELM.HELM_TIMEOUT_MS : Fld := ⟨0x0B02, 0, 4, 16⟩
def TOW_HELM.HELM_OBJECT_MS : Fld := ⟨0x0B02, 0, 20, 8⟩
def TOW_HELM.HELM_EPOCH : Fld := ⟨0x0B02, 0, 32, 32⟩
/-! READINESS (file 16 of spec/) -/
def READINESS.SL : Fld := ⟨0x0000, 0, 0, 16⟩
def READINESS.CORE : Fld := ⟨0x0000, 0, 16, 16⟩
def READINESS.FA : Fld := ⟨0x0000, 0, 32, 4⟩
def READINESS.UP : Fld := ⟨0x0000, 0, 36, 4⟩
def READINESS.DDR : Fld := ⟨0x0000, 0, 40, 2⟩
def READINESS.ETH : Fld := ⟨0x0000, 0, 42, 5⟩
def READINESS.CK : Fld := ⟨0x0000, 0, 47, 4⟩
def READINESS.TMU : Fld := ⟨0x0000, 0, 51, 1⟩
def READINESS.INR : Fld := ⟨0x0000, 0, 52, 1⟩
def READINESS.FUS : Fld := ⟨0x0000, 0, 53, 1⟩
def READINESS.APX : Fld := ⟨0x0000, 0, 54, 1⟩
def READINESS.BRG : Fld := ⟨0x0000, 0, 55, 1⟩
def READINESS.SEC : Fld := ⟨0x0000, 0, 56, 1⟩
def READINESS.HUB : Fld := ⟨0x0000, 0, 57, 4⟩
def READINESS.LKP : Fld := ⟨0x0000, 0, 61, 1⟩
/-! SEC_ID (file 16 of spec/) -/
def SEC_ID.VARIANT : Fld := ⟨0x0000, 0, 0, 8⟩
def SEC_ID.LIFECYCLE : Fld := ⟨0x0000, 0, 8, 2⟩
def SEC_ID.KEY_REVOKED : Fld := ⟨0x0000, 0, 10, 3⟩
def SEC_ID.DEVICE_UID : Fld := ⟨0x0000, 1, 0, 64⟩
def SEC_ID.BASE_MAC : Fld := ⟨0x0000, 3, 0, 48⟩
def SEC_ID.BOOT_IP4 : Fld := ⟨0x0000, 4, 0, 32⟩
def SEC_ID.SVN_FUSES : Fld := ⟨0x0000, 5, 0, 64⟩
def SEC_ID.KEY_HASH0 : Fld := ⟨0x0000, 6, 0, 64⟩
def SEC_ID.KEY_HASH1 : Fld := ⟨0x0000, 10, 0, 64⟩
def SEC_ID.KEY_HASH2 : Fld := ⟨0x0000, 14, 0, 64⟩
def SEC_ID.DBG_KEY_HASH : Fld := ⟨0x0000, 18, 0, 64⟩
/-! DBG_CTRL (file 16 of spec/) -/
def DBG_CTRL.SYS_RESET : Fld := ⟨0x0000, 0, 0, 1⟩
def DBG_CTRL.HOLD_POWER : Fld := ⟨0x0000, 0, 1, 1⟩
def DBG_CTRL.LKP_HALT : Fld := ⟨0x0000, 0, 2, 1⟩
def DBG_CTRL.LKP_RESUME : Fld := ⟨0x0000, 0, 3, 1⟩
def DBG_CTRL.SESSION : Fld := ⟨0x0000, 0, 4, 1⟩
def DBG_CTRL.SCOPE : Fld := ⟨0x0000, 0, 5, 3⟩
def DBG_CTRL.LKP_HALTED : Fld := ⟨0x0000, 0, 8, 1⟩
/-! MEM_FUSE (file 17 of spec/) -/
def MEM_FUSE.ADDR : Fld := ⟨0x0000, 0, 0, 12⟩
def MEM_FUSE.KIND : Fld := ⟨0x0000, 0, 12, 1⟩
def MEM_FUSE.MACRO : Fld := ⟨0x0000, 0, 13, 6⟩
def MEM_FUSE.SPARE : Fld := ⟨0x0000, 0, 19, 3⟩
def MEM_FUSE.VALID : Fld := ⟨0x0000, 0, 23, 1⟩
def MEM_FUSE.CHECK : Fld := ⟨0x0000, 0, 24, 8⟩
/-! LKP_SPJOB (file 18 of spec/) -/
def LKP_SPJOB.SP_EN : Fld := ⟨0x0000, 0, 0, 1⟩
def LKP_SPJOB.FULL_RED : Fld := ⟨0x0000, 0, 1, 4⟩
def LKP_SPJOB.COMMIT_LAG_US : Fld := ⟨0x0000, 0, 16, 16⟩
def LKP_SPJOB.REPLAY_LIMIT_US : Fld := ⟨0x0000, 0, 32, 16⟩
def LKP_SPJOB.CKPT_CYCLES : Fld := ⟨0x0000, 0, 48, 8⟩
def LKP_SPJOB.CKPT_MS : Fld := ⟨0x0000, 1, 0, 16⟩
/-! SLU_WIN (file 02 of spec/) -/
def SLU_WIN.X0 : Fld := ⟨0x0102, 0, 0, 12⟩
def SLU_WIN.Y0 : Fld := ⟨0x0102, 0, 12, 11⟩
def SLU_WIN.X1 : Fld := ⟨0x0102, 0, 23, 12⟩
def SLU_WIN.Y1 : Fld := ⟨0x0102, 0, 35, 11⟩
/-! TMU_PPS (file 13 of spec/) -/
def TMU_PPS.ENABLE : Fld := ⟨0x0A07, 0, 0, 1⟩
def TMU_PPS.GATE : Fld := ⟨0x0A07, 0, 1, 1⟩
def TMU_PPS.WIDTH_US : Fld := ⟨0x0A07, 0, 2, 20⟩
def TMU_PPS.OFFSET_NS : Fld := ⟨0x0A07, 0, 22, 30⟩
/-! TOW_ROUTE (file 14 of spec/) -/
def TOW_ROUTE.LINK : Fld := ⟨0x0B03, 0, 0, 2⟩
def TOW_ROUTE.VALID : Fld := ⟨0x0B03, 0, 2, 1⟩
def TOW_ROUTE.DIRECT : Fld := ⟨0x0B03, 0, 3, 1⟩
/-! TOW_RXF (file 14 of spec/) -/
def TOW_RXF.PORT : Fld := ⟨0x0B04, 0, 0, 16⟩
def TOW_RXF.BASE : Fld := ⟨0x0B04, 0, 16, 40⟩
def TOW_RXF.SLOTS_M1 : Fld := ⟨0x0B04, 0, 56, 12⟩
def TOW_RXF.VALID : Fld := ⟨0x0B04, 1, 4, 1⟩

/-- The structures of Table 15-6 (R494): code, name, unit types, entries, transfer words, written by CONFIG_WRITE (part) -/
def regDescsPart0 : List RegDesc := [
  ⟨0x0101, "SLU_PORT", [1], 1, 2, true⟩,
  ⟨0x0102, "SLU_WIN", [1], 1, 1, true⟩,
  ⟨0x0103, "SLU_FLT", [1], 1, 1, true⟩,
  ⟨0x0104, "SLU_TAL", [1], 1, 2, true⟩,
  ⟨0x0105, "SLU_QUE", [1], 1, 1, true⟩,
  ⟨0x0106, "SLU_HOT", [1], 4096, 1, true⟩,
  ⟨0x0107, "SLU_FMT", [1], 4, 4, true⟩,
  ⟨0x0108, "SLU_STAT", [1], 1, 2, false⟩,
  ⟨0x0109, "SLU_FRM", [1], 1, 1, true⟩,
  ⟨0x0201, "INR_ENG", [15], 1, 1, true⟩,
  ⟨0x0202, "INR_CH", [14], 1, 2, true⟩,
  ⟨0x0301, "SRF_PORT", [3], 4, 1, true⟩,
  ⟨0x0302, "SRF_CFG", [3], 1, 2, true⟩,
  ⟨0x0303, "SRF_INTR", [63], 64, 8, true⟩,
  ⟨0x0401, "NRN_GRP", [4], 64, 2, true⟩,
  ⟨0x0402, "NRN_MAT", [4], 32, 2, true⟩]

/-- The structures of Table 15-6 (R494): code, name, unit types, entries, transfer words, written by CONFIG_WRITE (part) -/
def regDescsPart1 : List RegDesc := [
  ⟨0x0403, "NRN_INMAP", [4], 64, 2, true⟩,
  ⟨0x0404, "NRN_MODEL", [4], 8, 16, true⟩,
  ⟨0x0405, "NRN_CFG", [4], 1, 2, true⟩,
  ⟨0x0406, "NRN_UCODE", [4], 256, 1, true⟩,
  ⟨0x0501, "CNL_UPQ", [7], 1, 1, true⟩,
  ⟨0x0502, "CNL_DEV", [63], 1, 1, true⟩,
  ⟨0x0503, "CNL_LINK", [13], 1, 1, true⟩,
  ⟨0x0504, "CNL_LSTAT", [13], 1, 1, false⟩,
  ⟨0x0505, "CNL_JOB", [63], 8, 1, true⟩,
  ⟨0x0506, "CNL_RLOG", [63], 1024, 1, false⟩,
  ⟨0x0507, "CNL_ENT", [5, 13], 4096, 2, false⟩,
  ⟨0x0601, "ARR_PROG", [8], 16, 4, true⟩,
  ⟨0x0602, "ARR_LAYER", [8], 256, 8, true⟩,
  ⟨0x0603, "TEN_VOX", [9], 8, 8, true⟩,
  ⟨0x0701, "FUS_GRID", [16], 1, 5, true⟩,
  ⟨0x0702, "FUS_SRC", [16], 32, 20, true⟩]

/-- The structures of Table 15-6 (R494): code, name, unit types, entries, transfer words, written by CONFIG_WRITE (part) -/
def regDescsPart2 : List RegDesc := [
  ⟨0x0703, "FUS_EGO", [16], 1, 11, true⟩,
  ⟨0x0704, "FUS_OBJ", [16], 1, 4, true⟩,
  ⟨0x0705, "FUS_SSTAT", [16], 32, 1, false⟩,
  ⟨0x0801, "RES_STREAM", [24], 1, 2, true⟩,
  ⟨0x0802, "RES_SSTAT", [24], 1, 2, false⟩,
  ⟨0x0803, "RES_SUB", [63], 32, 1, false⟩,
  ⟨0x0901, "BRG_Q", [25], 1, 4, true⟩,
  ⟨0x0902, "BRG_QSTAT", [25], 1, 2, false⟩,
  ⟨0x0A01, "TMU_TIME", [21], 1, 3, false⟩,
  ⟨0x0A02, "TMU_INCR", [21], 1, 2, true⟩,
  ⟨0x0A03, "TMU_SERVO", [21], 1, 4, true⟩,
  ⟨0x0A04, "TMU_PORT", [12], 1, 3, true⟩,
  ⟨0x0A05, "TMU_CMP", [21], 8, 2, true⟩,
  ⟨0x0A06, "TMU_SYNCOUT", [1], 1, 4, true⟩,
  ⟨0x0A07, "TMU_PPS", [21], 1, 1, true⟩,
  ⟨0x0A08, "TMU_STAT", [21], 1, 4, false⟩]

/-- The structures of Table 15-6 (R494): code, name, unit types, entries, transfer words, written by CONFIG_WRITE (part) -/
def regDescsPart3 : List RegDesc := [
  ⟨0x0B01, "TOW_PORT", [12], 1, 7, true⟩,
  ⟨0x0B02, "TOW_HELM", [63], 1, 1, true⟩,
  ⟨0x0B03, "TOW_ROUTE", [63], 64, 1, true⟩,
  ⟨0x0B04, "TOW_RXF", [12], 8, 2, true⟩,
  ⟨0x0C01, "LKP_STATE", [63], 1, 1, false⟩]

/-- The structures of Table 15-6 (R494): code, name, unit types, entries, transfer words, written by CONFIG_WRITE. -/
def regDescs : List RegDesc := regDescsPart0 ++ regDescsPart1 ++ regDescsPart2 ++ regDescsPart3


/-- The counter blocks of Table 15-6 (R508): code, name, unit types, counters (part) -/
def cntDescsPart0 : List CntDesc := [
  ⟨0x010F, "SLU_CNT", [1], 24⟩,
  ⟨0x020F, "INR_CNT", [14], 6⟩,
  ⟨0x030F, "SRF_CNT", [2], 19⟩,
  ⟨0x040F, "NRN_CNT", [2], 17⟩,
  ⟨0x050F, "CNL_CNT", [5, 13, 7], 13⟩,
  ⟨0x060E, "TEN_CNT", [9], 8⟩,
  ⟨0x060F, "ARR_CNT", [8], 16⟩,
  ⟨0x070F, "FUS_CNT", [16], 17⟩,
  ⟨0x080F, "RES_CNT", [24], 10⟩,
  ⟨0x090F, "BRG_CNT", [25], 13⟩,
  ⟨0x0A0F, "TMU_CNT", [21], 11⟩,
  ⟨0x0B0F, "TOW_CNT", [12], 13⟩,
  ⟨0x0C0F, "LKP_APXCNT", [63], 6⟩]

/-- The counter blocks of Table 15-6 (R508): code, name, unit types, counters. -/
def cntDescs : List CntDesc := cntDescsPart0


/-- The value after a device reset of transfer word `word` of structure `reg`, from the Reset columns. -/
def resetWord (reg word : Nat) : Nat :=
  match reg, word with
  | 0x0101, 0 => 0x26008 -- SLU_PORT
  | 0x0103, 0 => 0x6580FA032800 -- SLU_FLT
  | 0x0104, 0 => 0x9C40000A48 -- SLU_TAL
  | 0x0104, 1 => 0x3E80000 -- SLU_TAL
  | 0x0105, 0 => 0x2 -- SLU_QUE
  | 0x0109, 0 => 0x20000000000 -- SLU_FRM
  | 0x0201, 0 => 0x2004 -- INR_ENG
  | 0x0202, 0 => 0x2 -- INR_CH
  | 0x0301, 0 => 0x1A000000 -- SRF_PORT
  | 0x0302, 0 => 0x4208138802090463 -- SRF_CFG
  | 0x0302, 1 => 0xA30032 -- SRF_CFG
  | 0x0401, 0 => 0x7D00003000000000 -- NRN_GRP
  | 0x0404, 0 => 0x1110000 -- NRN_MODEL
  | 0x0405, 0 => 0xFA00FA00FA228 -- NRN_CFG
  | 0x0501, 0 => 0x101 -- CNL_UPQ
  | 0x0503, 0 => 0x811000 -- CNL_LINK
  | 0x0505, 0 => 0x7D0 -- CNL_JOB
  | 0x0602, 1 => 0x80000 -- ARR_LAYER
  | 0x0603, 0 => 0x2710002800 -- TEN_VOX
  | 0x0603, 1 => 0x20000000000 -- TEN_VOX
  | 0x0701, 0 => 0x641EF -- FUS_GRID
  | 0x0701, 2 => 0x1B5800002710 -- FUS_GRID
  | 0x0701, 4 => 0x3F800000 -- FUS_GRID
  | 0x0702, 0 => 0x1004000 -- FUS_SRC
  | 0x0702, 1 => 0x100538000C80064 -- FUS_SRC
  | 0x0702, 8 => 0x3F0000003F800000 -- FUS_SRC
  | 0x0703, 0 => 0x3BA3D70A00088000 -- FUS_EGO
  | 0x0703, 1 => 0x3F80000000000000 -- FUS_EGO
  | 0x0703, 2 => 0x103E4CCCCD -- FUS_EGO
  | 0x0704, 0 => 0x800000000000 -- FUS_OBJ
  | 0x0704, 1 => 0x3F0000003F800000 -- FUS_OBJ
  | 0x0704, 2 => 0x400000420 -- FUS_OBJ
  | 0x0704, 3 => 0x3FC00000 -- FUS_OBJ
  | 0x0801, 0 => 0x1000000000000 -- RES_STREAM
  | 0x0801, 1 => 0x3E8000 -- RES_STREAM
  | 0x0803, 0 => 0x400 -- RES_SUB
  | 0x0901, 0 => 0x2001FE00800 -- BRG_Q
  | 0x0901, 2 => 0xC8100 -- BRG_Q
  | 0x0902, 0 => 0x8000000000 -- BRG_QSTAT
  | 0x0A02, 0 => 0x140000000 -- TMU_INCR
  | 0x0A02, 1 => 0x140000000 -- TMU_INCR
  | 0x0A03, 0 => 0x186A081C0 -- TMU_SERVO
  | 0x0A03, 1 => 0x2710000F4240 -- TMU_SERVO
  | 0x0A03, 2 => 0x177340064 -- TMU_SERVO
  | 0x0A03, 3 => 0x3C00002710 -- TMU_SERVO
  | 0x0A06, 1 => 0x800989680 -- TMU_SYNCOUT
  | 0x0A07, 0 => 0x61A82 -- TMU_PPS
  | 0x0B01, 0 => 0x5BFE5DC98BA0000 -- TOW_PORT
  | 0x0B01, 6 => 0xB7FC000000000000 -- TOW_PORT
  | 0x0B02, 0 => 0x140064F -- TOW_HELM
  | _, _ => 0


/-- The bits of a transfer word that the field maps mark RW (R10). -/
def rwMask (reg word : Nat) : Nat :=
  match reg, word with
  | 0x0101, 0 => 0xFFFFFFFFFFFFFFFF -- SLU_PORT
  | 0x0101, 1 => 0x1 -- SLU_PORT
  | 0x0102, 0 => 0x3FFFFFFFFFFF -- SLU_WIN
  | 0x0103, 0 => 0x1FFFFFFFFFFFFFF -- SLU_FLT
  | 0x0104, 0 => 0x3FFFFFFFFFFFFFF -- SLU_TAL
  | 0x0104, 1 => 0xFFFFFFFFFFFFFFFF -- SLU_TAL
  | 0x0105, 0 => 0x7FF -- SLU_QUE
  | 0x0106, 0 => 0x1FFFFFF -- SLU_HOT
  | 0x0107, 0 => 0xFFFFFFFFFFFFFFFF -- SLU_FMT
  | 0x0107, 1 => 0xFFFFFFFFFFFFFFFF -- SLU_FMT
  | 0x0107, 2 => 0xFFFFFFFFFFFFF -- SLU_FMT
  | 0x0107, 3 => 0x3FFFFF -- SLU_FMT
  | 0x0109, 0 => 0xFFFFFFFFFFF -- SLU_FRM
  | 0x0201, 0 => 0x3FFF -- INR_ENG
  | 0x0202, 0 => 0xFFFFFFFF1FFFFFFF -- INR_CH
  | 0x0202, 1 => 0xFFFF -- INR_CH
  | 0x0301, 0 => 0x1FFFFFFFFFFF -- SRF_PORT
  | 0x0302, 0 => 0xFFFFFFFF1FFFFFFF -- SRF_CFG
  | 0x0302, 1 => 0xFFFFFFF -- SRF_CFG
  | 0x0303, 0 => 0xFFFFFFFFFFFFFFFF -- SRF_INTR
  | 0x0303, 1 => 0xFFFFFFFFFFFFFFFF -- SRF_INTR
  | 0x0303, 2 => 0xFFFFFFFFFFFFFFFF -- SRF_INTR
  | 0x0303, 3 => 0xFFFFFFFFFFFFFFFF -- SRF_INTR
  | 0x0303, 4 => 0xFFFFFFFFFFFFFFFF -- SRF_INTR
  | 0x0303, 5 => 0xFFFFFFFFFFFFFFFF -- SRF_INTR
  | 0x0303, 6 => 0x7FFFFFFFFF -- SRF_INTR
  | 0x0401, 0 => 0xFFFFFFFFFFFFFFFF -- NRN_GRP
  | 0x0401, 1 => 0xFFFFFFFF03FFFFFF -- NRN_GRP
  | 0x0402, 0 => 0xFFFFFFFFFFFFF -- NRN_MAT
  | 0x0402, 1 => 0xFFFFFFFF -- NRN_MAT
  | 0x0403, 0 => 0xFFFFFFFFFFFFFFFF -- NRN_INMAP
  | 0x0403, 1 => 0x1FFFFFFF -- NRN_INMAP
  | 0x0404, 0 => 0xFFFFFF07FFFFFF -- NRN_MODEL
  | 0x0404, 1 => 0xFFFFFF00FFFFFF -- NRN_MODEL
  | 0x0404, 2 => 0xFFFFFF00FFFFFF -- NRN_MODEL
  | 0x0404, 3 => 0xFFFFFF00FFFFFF -- NRN_MODEL
  | 0x0404, 4 => 0xFFFFFFFFFFFFFFFF -- NRN_MODEL
  | 0x0404, 5 => 0xFFFFFFFFFFFFFFFF -- NRN_MODEL
  | 0x0404, 6 => 0xFFFFFFFFFFFFFFFF -- NRN_MODEL
  | 0x0404, 7 => 0xFFFFFFFFFFFFFFFF -- NRN_MODEL
  | 0x0404, 8 => 0xFFFFFFFFFFFFFFFF -- NRN_MODEL
  | 0x0404, 9 => 0xFFFFFFFFFFFFFFFF -- NRN_MODEL
  | 0x0404, 10 => 0xFFFFFFFFFFFFFFFF -- NRN_MODEL
  | 0x0404, 11 => 0xFFFFFFFFFFFFFFFF -- NRN_MODEL
  | 0x0405, 0 => 0x3FFFFFFFFFFFFFFF -- NRN_CFG
  | 0x0405, 1 => 0xFFFFFFFF0000003F -- NRN_CFG
  | 0x0406, 0 => 0xFFFFFFFF -- NRN_UCODE
  | 0x0501, 0 => 0xFFF -- CNL_UPQ
  | 0x0502, 0 => 0x3F -- CNL_DEV
  | 0x0503, 0 => 0x7FFFFFF -- CNL_LINK
  | 0x0505, 0 => 0x3FFF -- CNL_JOB
  | 0x0507, 0 => 0xFFFFFFFFFFFFFFFF -- CNL_ENT
  | 0x0507, 1 => 0x7FFFFFFFFFFF -- CNL_ENT
  | 0x0601, 0 => 0xFFFFFFFFFFFFFFF -- ARR_PROG
  | 0x0601, 1 => 0xFFFFFFFFFFFFF -- ARR_PROG
  | 0x0601, 2 => 0xFFFFFFFFFFFFF -- ARR_PROG
  | 0x0601, 3 => 0x7F -- ARR_PROG
  | 0x0602, 0 => 0xFFFFFFFFFFFFFFFF -- ARR_LAYER
  | 0x0602, 1 => 0xFFFF01FFFFFF -- ARR_LAYER
  | 0x0602, 2 => 0xFFFFFFFFFFFF -- ARR_LAYER
  | 0x0602, 3 => 0xFFFFFFFF -- ARR_LAYER
  | 0x0602, 4 => 0xFFFFFFFFFFFFFFFF -- ARR_LAYER
  | 0x0602, 5 => 0xFFFFFFFFFFFFFFFF -- ARR_LAYER
  | 0x0602, 6 => 0x1000000 -- ARR_LAYER
  | 0x0603, 0 => 0xFFFFFFFFFFFFFFFF -- TEN_VOX
  | 0x0603, 1 => 0x7FFFFFFFFFF -- TEN_VOX
  | 0x0603, 2 => 0xFFFFFFFFFF -- TEN_VOX
  | 0x0603, 3 => 0xFFFFFFFFFFFFFFFF -- TEN_VOX
  | 0x0603, 4 => 0xFFFFFFFFFFFFFFFF -- TEN_VOX
  | 0x0603, 5 => 0xFFFFFFFFFFFFFFFF -- TEN_VOX
  | 0x0603, 6 => 0xFFFFFFFFFFFFFFFF -- TEN_VOX
  | 0x0701, 0 => 0x1FFFFFF -- FUS_GRID
  | 0x0701, 1 => 0xFFFFFFFFFFFFFFFF -- FUS_GRID
  | 0x0701, 2 => 0xFFFFFFFFFFFF -- FUS_GRID
  | 0x0701, 3 => 0x7FFFFFFFFFFFFFF -- FUS_GRID
  | 0x0701, 4 => 0xFFFFFFFF -- FUS_GRID
  | 0x0702, 0 => 0x7FFFFFFFFFF -- FUS_SRC
  | 0x0702, 1 => 0xFFFFFFFFFFFFFFFF -- FUS_SRC
  | 0x0702, 2 => 0xFFFFFFFFFF -- FUS_SRC
  | 0x0702, 3 => 0xFFFFFF -- FUS_SRC
  | 0x0702, 4 => 0xFFFFFFFFFF -- FUS_SRC
  | 0x0702, 5 => 0xFFFFFFFFFF -- FUS_SRC
  | 0x0702, 6 => 0xFFFFFFFFFF -- FUS_SRC
  | 0x0702, 7 => 0xFFFFFFFFFF -- FUS_SRC
  | 0x0702, 8 => 0xFFFFFFFFFFFFFFFF -- FUS_SRC
  | 0x0702, 9 => 0xFFFFFFFFFFFFFFFF -- FUS_SRC
  | 0x0702, 10 => 0xFFFFFFFFFFFFFFFF -- FUS_SRC
  | 0x0702, 11 => 0xFFFFFFFFFFFFFFFF -- FUS_SRC
  | 0x0702, 12 => 0xFFFFFFFFFFFFFFFF -- FUS_SRC
  | 0x0702, 13 => 0xFFFFFFFFFFFFFFFF -- FUS_SRC
  | 0x0702, 14 => 0xFFFFFFFFFFFFFFFF -- FUS_SRC
  | 0x0702, 15 => 0xFFFFFFFFFFFFFFFF -- FUS_SRC
  | 0x0702, 16 => 0xFFFFFFFFFFFFFFFF -- FUS_SRC
  | 0x0702, 17 => 0xFFFFFFFFFFFFFFFF -- FUS_SRC
  | 0x0702, 18 => 0x7FFF -- FUS_SRC
  | 0x0703, 0 => 0xFFFFFFFF003FFFFF -- FUS_EGO
  | 0x0703, 1 => 0xFFFFFFFFFFFFFFFF -- FUS_EGO
  | 0x0703, 2 => 0xFFFFFFFFFFFF -- FUS_EGO
  | 0x0703, 3 => 0xFFFFFFFFFFFFFFFF -- FUS_EGO
  | 0x0703, 4 => 0xFFFFFFFFFFFFFFFF -- FUS_EGO
  | 0x0703, 5 => 0xFFFFFFFFFFFFFFFF -- FUS_EGO
  | 0x0703, 6 => 0xFFFFFFFFFFFFFFFF -- FUS_EGO
  | 0x0703, 7 => 0xFFFFFFFFFFFFFFFF -- FUS_EGO
  | 0x0703, 8 => 0xFFFFFFFFFFFFFFFF -- FUS_EGO
  | 0x0703, 9 => 0xFFFFFFFFFFFFFFFF -- FUS_EGO
  | 0x0703, 10 => 0xFFFFFFFF -- FUS_EGO
  | 0x0704, 0 => 0x3FFFFFFFFFFFFFFF -- FUS_OBJ
  | 0x0704, 1 => 0xFFFFFFFFFFFFFFFF -- FUS_OBJ
  | 0x0704, 2 => 0x7FFFFFFFF -- FUS_OBJ
  | 0x0704, 3 => 0xFFFFFFFF -- FUS_OBJ
  | 0x0801, 0 => 0xFFFFFFFFFFFFFFFF -- RES_STREAM
  | 0x0801, 1 => 0x1FFFFFFF -- RES_STREAM
  | 0x0803, 0 => 0xFFFFF -- RES_SUB
  | 0x0901, 0 => 0x3FFFFFFFFFF -- BRG_Q
  | 0x0901, 1 => 0xFFFFFFFFFF -- BRG_Q
  | 0x0901, 2 => 0x1FFFFFFF -- BRG_Q
  | 0x0902, 1 => 0x40000000 -- BRG_QSTAT
  | 0x0A02, 0 => 0xFFFFFFFFFF -- TMU_INCR
  | 0x0A03, 0 => 0x7FFFFFFFF -- TMU_SERVO
  | 0x0A03, 1 => 0xFFFFFFFFFFFFFFFF -- TMU_SERVO
  | 0x0A03, 2 => 0xFFFFFFFFFF -- TMU_SERVO
  | 0x0A03, 3 => 0xFFFFFFFFFFFF -- TMU_SERVO
  | 0x0A04, 0 => 0xFFFFFFFFFFFFFFFF -- TMU_PORT
  | 0x0A04, 1 => 0xFFFFFFFFFFFFFFFF -- TMU_PORT
  | 0x0A04, 2 => 0x1 -- TMU_PORT
  | 0x0A05, 0 => 0xFFFFFFFFFFFFFFFF -- TMU_CMP
  | 0x0A05, 1 => 0xFFFFFFFF -- TMU_CMP
  | 0x0A06, 0 => 0xFFFFFFFFFFFFFFFF -- TMU_SYNCOUT
  | 0x0A06, 1 => 0x1FFFFFFFFFFFF -- TMU_SYNCOUT
  | 0x0A07, 0 => 0xFFFFFFFFFFFFF -- TMU_PPS
  | 0x0B01, 0 => 0x7FFFFFFFFFFFFFF -- TOW_PORT
  | 0x0B01, 1 => 0xFFFFFFFFFFFFFFFF -- TOW_PORT
  | 0x0B01, 2 => 0xFFFFFFFFFFFFFFFF -- TOW_PORT
  | 0x0B01, 3 => 0xFFFFFFFFFFFFFFFF -- TOW_PORT
  | 0x0B01, 4 => 0xFFFFFFFFFFFFFFFF -- TOW_PORT
  | 0x0B01, 5 => 0xFFFFFFFFFFFFFFFF -- TOW_PORT
  | 0x0B01, 6 => 0xFFFFFFFFFFFFFFFF -- TOW_PORT
  | 0x0B02, 0 => 0xFFFFFF0 -- TOW_HELM
  | 0x0B03, 0 => 0xF -- TOW_ROUTE
  | 0x0B04, 0 => 0xFFFFFFFFFFFFFFFF -- TOW_RXF
  | 0x0B04, 1 => 0x1F -- TOW_RXF
  | _, _ => 0


/-- The bits of a transfer word that the field maps mark W1C (R10). -/
def w1cMask (reg word : Nat) : Nat :=
  match reg, word with
  | 0x0902, 1 => 0x20000000 -- BRG_QSTAT
  | 0x0A04, 2 => 0x2 -- TMU_PORT
  | 0x0A05, 1 => 0x100000000 -- TMU_CMP
  | 0x0A06, 1 => 0x2000000000000 -- TMU_SYNCOUT
  | _, _ => 0


end Sys2Proof.Machine
end

