-- ==== Sys2Proof/Machine/Float.lean ====
section
/-! DEFINITION. Floating-point formats and arithmetic (R145, R257, Table 7-2): values as exact integers times powers of
two, rounded to nearest with ties to even; subnormals are honoured, NaN is canonical. -/
namespace Sys2Proof.Machine

/-- A float value: NaN, an infinity, or a sign with a magnitude m × 2^e. -/
inductive FV
  | nan
  | inf (neg : Bool)
  | num (neg : Bool) (m : Nat) (e : Int)
deriving DecidableEq, Repr

/-- A layout: exponent bits, mantissa bits, and whether the all-ones exponent codes numbers (FP8-E4M3). -/
structure FpFmt where
  eb : Nat
  mb : Nat
  e4m3 : Bool := false
deriving DecidableEq, Repr

def fmt32 : FpFmt := ⟨8, 23, false⟩
def fmt16 : FpFmt := ⟨5, 10, false⟩
def fmtBf16 : FpFmt := ⟨8, 7, false⟩
def fmtE4m3 : FpFmt := ⟨4, 3, true⟩
def fmtE5m2 : FpFmt := ⟨5, 2, false⟩

/-- The exponent bias. -/
def FpFmt.bias (f : FpFmt) : Nat := 2 ^ (f.eb - 1) - 1

/-- The value of an encoding. -/
def fpDecode (f : FpFmt) (w : Nat) : FV :=
  let neg := bit w (f.eb + f.mb)
  let ex := bits w f.mb f.eb
  let m := bits w 0 f.mb
  if f.e4m3 ∧ ex = 2 ^ f.eb - 1 ∧ m = 2 ^ f.mb - 1 then .nan
  else if ¬ f.e4m3 ∧ ex = 2 ^ f.eb - 1 then (if m = 0 then .inf neg else .nan)
  else if ex = 0 then .num neg m (1 - (f.bias : Int) - f.mb)
  else .num neg (m + 2 ^ f.mb) ((ex : Int) - f.bias - f.mb)

/-- The canonical NaN of a format (R257). -/
def fpNan (f : FpFmt) : Nat := if f.e4m3 then 0x7F else (2 ^ f.eb - 1) * 2 ^ f.mb + 2 ^ (f.mb - 1)

/-- The encoding of the largest finite magnitude. -/
def fpMax (f : FpFmt) : Nat :=
  if f.e4m3 then (2 ^ f.eb - 1) * 2 ^ f.mb + 2 ^ f.mb - 2 else (2 ^ f.eb - 1) * 2 ^ f.mb - 1

/-- A magnitude over a power of two, rounded to nearest with ties to even. -/
def shrRne (m sh : Nat) : Nat :=
  if sh = 0 then m else
  let q := m / 2 ^ sh
  let r := m % 2 ^ sh
  let h := 2 ^ (sh - 1)
  if h < r then q + 1 else if r < h then q else q + q % 2

/-- The encoding of m × 2^e without its sign, rounded; it may exceed the greatest finite one. -/
def fpRound (f : FpFmt) (m : Nat) (e : Int) : Nat :=
  if m = 0 then 0 else
  let emin : Int := 1 - (f.bias : Int)
  let ex := max ((Nat.log2 m : Int) + e) emin
  let q := ex - f.mb
  let mm := if q ≤ e then m * 2 ^ (e - q).toNat else shrRne m (q - e).toNat
  if mm < 2 ^ f.mb then mm else (ex - emin + 1).toNat * 2 ^ f.mb + (mm - 2 ^ f.mb)

/-- The order of the magnitudes m × 2^e and n × 2^g. -/
def magLt (m : Nat) (e : Int) (n : Nat) (g : Int) : Bool :=
  let k := min e g
  decide (m * 2 ^ (e - k).toNat < n * 2 ^ (g - k).toNat)

/-- A magnitude m × 2^e lies beyond the largest finite value of a format. -/
def fpBeyond (f : FpFmt) (m : Nat) (e : Int) : Bool :=
  match fpDecode f (fpMax f) with
  | .num _ n g => magLt n g m e
  | _ => false

/-- Encoding in a format: IEEE overflow gives an infinity when `clip` is false, the largest finite value otherwise; the
flag says that a finite value was beyond the range. -/
def fpEncode (f : FpFmt) (clip : Bool) (v : FV) : Nat × Bool :=
  match v with
  | .nan => (fpNan f, false)
  | .inf neg => if f.e4m3 then (fpNan f, false)
    else (b2n neg * 2 ^ (f.eb + f.mb) + (2 ^ f.eb - 1) * 2 ^ f.mb, false)
  | .num neg m e =>
    let sgn := b2n neg * 2 ^ (f.eb + f.mb)
    let r := fpRound f m e
    if clip ∨ f.e4m3 then (sgn + min r (fpMax f), fpBeyond f m e)
    else if fpMax f < r then (sgn + (2 ^ f.eb - 1) * 2 ^ f.mb, true) else (sgn + r, false)

/-- An FP32 encoding of an exact value. -/
def f32 (v : FV) : Nat := (fpEncode fmt32 false v).1

/-- The value of an FP32 encoding. -/
def f32v (w : Nat) : FV := fpDecode fmt32 w

/-- The signed integer m of m × 2^e. -/
def signedM (neg : Bool) (m : Nat) : Int := if neg then -(m : Int) else m

/-- Exact sum. -/
def fvAdd (a b : FV) : FV :=
  match a, b with
  | .nan, _ => .nan
  | _, .nan => .nan
  | .inf x, .inf y => if x = y then .inf x else .nan
  | .inf x, _ => .inf x
  | _, .inf y => .inf y
  | .num x m e, .num y n g =>
    let k := min e g
    let v := signedM x m * 2 ^ (e - k).toNat + signedM y n * 2 ^ (g - k).toNat
    if v = 0 then .num (x && y) 0 k else .num (decide (v < 0)) v.natAbs k

/-- Negation. -/
def fvNeg : FV → FV
  | .nan => .nan
  | .inf x => .inf (!x)
  | .num x m e => .num (!x) m e

/-- Exact product. -/
def fvMul (a b : FV) : FV :=
  match a, b with
  | .nan, _ => .nan
  | _, .nan => .nan
  | .inf x, .inf y => .inf (x != y)
  | .inf x, .num y m _ => if m = 0 then .nan else .inf (x != y)
  | .num x m _, .inf y => if m = 0 then .nan else .inf (x != y)
  | .num x m e, .num y n g => .num (x != y) (m * n) (e + g)

/-- Quotient, with a sticky last bit where it is not exact (beyond every format's precision). -/
def fvDiv (a b : FV) : FV :=
  match a, b with
  | .nan, _ => .nan
  | _, .nan => .nan
  | .inf _, .inf _ => .nan
  | .inf x, .num y _ _ => .inf (x != y)
  | .num x _ _, .inf y => .num (x != y) 0 0
  | .num x m e, .num y n g =>
    if n = 0 then (if m = 0 then .nan else .inf (x != y))
    else
      let k := 40 + Nat.log2 n
      let q := m * 2 ^ k / n
      let r := m * 2 ^ k % n
      .num (x != y) (2 * q + b2n (r ≠ 0)) (e - g - k - 1)

/-- Square root of a non-negative value, with a sticky last bit. -/
def fvSqrt (a : FV) : FV :=
  match a with
  | .num neg m e =>
    if m = 0 then .num neg 0 e
    else if neg then .nan
    else
      let k : Nat := 60 + (if (e - 60) % 2 = 0 then 0 else 1)
      let v := m * 2 ^ k
      let r := isqrt v
      .num false (2 * r + b2n (r * r ≠ v)) ((e - k) / 2 - 1)
  | .inf false => .inf false
  | _ => .nan

/-- FP32 operations on encodings, each rounded (R145). -/
def fadd (a b : Nat) : Nat := f32 (fvAdd (f32v a) (f32v b))
def fsub (a b : Nat) : Nat := f32 (fvAdd (f32v a) (fvNeg (f32v b)))
def fmul (a b : Nat) : Nat := f32 (fvMul (f32v a) (f32v b))
def fdiv (a b : Nat) : Nat := f32 (fvDiv (f32v a) (f32v b))
def fneg (a : Nat) : Nat := f32 (fvNeg (f32v a))
def fsqrt (a : Nat) : Nat := f32 (fvSqrt (f32v a))

/-- An integer as FP32. -/
def fint (v : Int) : Nat := f32 (.num (decide (v < 0)) v.natAbs 0)

/-- An integer times a power of two as FP32. -/
def fscaled (v e : Int) : Nat := f32 (.num (decide (v < 0)) v.natAbs e)

/-- The order of two values that are not NaN: a < b. -/
def fvLt (a b : FV) : Bool :=
  match a, b with
  | .nan, _ => false
  | _, .nan => false
  | .inf x, .inf y => x && !y
  | .inf x, _ => x
  | _, .inf y => !y
  | .num x m e, .num y n g =>
    let k := min e g
    decide (signedM x m * 2 ^ (e - k).toNat < signedM y n * 2 ^ (g - k).toNat)

/-- a < b and a ≤ b on FP32 encodings; false for NaN. -/
def flt (a b : Nat) : Bool := fvLt (f32v a) (f32v b)
def fle (a b : Nat) : Bool := f32v a != .nan && f32v b != .nan && !fvLt (f32v b) (f32v a)

/-- A finite FP32 number. -/
def ffin (a : Nat) : Bool := match f32v a with | .num _ _ _ => true | _ => false

/-- The greater of two FP32 numbers, and the lesser. -/
def fmax (a b : Nat) : Nat := if flt a b then b else a
def fmin (a b : Nat) : Nat := if flt b a then b else a

/-- Absolute value. -/
def fabs (a : Nat) : Nat := a % 2 ^ 31

/-- The nearest integer with ties to even; none for NaN and infinities. -/
def fvRne (a : FV) : Option Int :=
  match a with
  | .num neg m e =>
    let r : Nat := if 0 ≤ e then m * 2 ^ e.toNat else shrRne m (-e).toNat
    some (signedM neg r)
  | _ => none

/-- The greatest integer not above the value. -/
def fvFloor (a : FV) : Option Int :=
  match a with
  | .num neg m e => some (if 0 ≤ e then signedM neg m * 2 ^ e.toNat else signedM neg m / (2 ^ (-e).toNat : Nat))
  | _ => none

/-- Frequent constants. -/
def f0 : Nat := 0
def f1 : Nat := 0x3F800000

end Sys2Proof.Machine
end

