-- ==== Sys2Proof/Machine/State.lean ====
section
/-! DEFINITION. The state of the RY1640 block: every register, buffer, queue, counter, mode and pin the spec gives it,
as plain data, the queue of commands, the reasons a step can stop, and the state after reset. -/
namespace Sys2Proof.Machine

/-- Why the block stops with a fault. -/
inductive Fault
  /-- Raised by no command: every behaviour of the spec that ends a command is a next state. Safe. -/
  | none
deriving DecidableEq, Repr

/-- Why a command has no meaning. -/
inductive Refusal
  /-- Raised by an arm of exec whose command has no meaning yet. Safe. -/
  | notModelled (mnemonic : String)
deriving DecidableEq, Repr

/-! ### Device, units and jobs (files 01, 15 of spec/) -/

/-- DEVICE_STATE of Table 1-5 (R33). -/
inductive DevState
  | boot | bringup | idle | loaded | running | degraded | safe
deriving DecidableEq, Repr

/-- What the Lockkeeper keeps of a unit (R43, R44, R501, UNIT_STATUS_GET); `hw` is the state that the unit's own hardware
reported when the two differed, which is then taken as true. -/
structure UnitRec where
  st : UnitSt := .unused
  conflict : Bool := false
  hw : Option UnitSt := none
  job : Nat := 0xFF
  fullRed : Bool := false
  vstep : Nat := 0
  fstep : Nat := 0
  since : Nat := 0
  movedTo : Nat := 0xFFFF
  resetting : Bool := false
  lastUe : Option Nat := none
  suspect : List Nat := []
deriving DecidableEq, Repr

/-- A memory region of a job (Table 15-4d). -/
structure Region where
  base : Nat
  len : Nat
  sram : Bool
  rw : Bool
  ro : Bool
deriving DecidableEq, Repr

/-- A checkpoint generation (R168, R378 to R380): the address of its half, and the state words and update stamps of the
job's neuron engines by core × 65,536 + neuron, and the step index of each core. -/
structure CkptGen where
  gen : Nat
  half : Nat
  words : List (Nat × Nat) := []
  stamps : List (Nat × Nat) := []
  steps : List (Nat × Nat) := []
deriving DecidableEq, Repr

/-- A checkpoint generation in progress (R379, R595): its commit window, the end of its grace, whether the guest has
acknowledged it, the state once its window has committed, and the JOB_CHECKPOINT berths that wait for it. `asked` says that
a command began it; the rest is what a COMMAND_ABORT of that command puts back (R17). -/
structure CkptRun where
  gen : Nat
  half : Nat
  win : Nat
  due : Nat
  acked : Bool := false
  snap : Option CkptGen := none
  berths : List Nat := []
  asked : Bool := false
  oldWin : Option Nat := none
  oldGen : Nat := 0
  oldLast : Nat := 0
  oldCtl : Nat × Nat := (0, 0)
deriving DecidableEq, Repr

/-- A job of the admitted graph (Table 15-4d) and its run state. -/
structure Job where
  exist : Bool := false
  run : Bool := false
  harts : Nat := 0
  berths : Nat := 0
  entry : Nat := 0
  ckptBase : Nat := 0
  ckptHalf : Nat := 0
  ckptGrace : Nat := 2000
  stopGrace : Nat := 5000
  jobctlGpa : Nat := 0
  spjob0 : Nat := 0x0005_1388_00C8_0000
  spjob1 : Nat := 1000
  streams : Nat := 0
  queues : Nat := 0
  fusion : Bool := false
  tickHart : Nat := 0
  arrayHart : Nat := 0
  berthHart : Nat := 0
  streamHart : Nat := 0
  captureQ : List Nat := []
  undoBase : List Nat := []
  undoBytes : Nat := 0
  regions : List Region := []
  gen : Nat := 0
  ckptRun : Option CkptRun := none
  ckptWin : Option Nat := none
  committed : Option CkptGen := none
  cyclesSince : Nat := 0
  lastCkpt : Nat := 0
  stopping : Option Nat := none
  stopBerth : Option Nat := none
  forced : Bool := false
  restarting : Bool := false
  resumedAt : Nat := 0
  poisoned : Bool := false
  partner : Nat := 0xFF
  partnerLink : Nat := 0
deriving DecidableEq, Repr

/-- The graph admitted (R485): the length of its image, which stands in the GRAPH buffer of DDR0 (R483), its SHA-256
measurement, its flags. -/
structure Graph where
  len : Nat
  meas : Nat
  spareCore : Bool
  jobs : Nat
deriving DecidableEq, Repr

/-- Device-level state, with the power level (file 20): LKP_STATE (Table 1-5) without the parts that are computed, the unit records, the readiness
map (Table 16-3), the jobs and the admitted graph. -/
structure DevSt where
  state : DevState := .boot
  level : Nat := 0
  units : Tbl UnitRec := []
  ready : Nat := 0
  jobs : Tbl Job := []
  graph : Option Graph := none
  romSafe : Bool := false
  ddrGib0 : Nat := 0
  ddrGib1 : Nat := 0
deriving DecidableEq, Repr

/-! ### Sluices (file 02) -/

/-- ALIGN of SLU_STAT (R84, R669). -/
inductive AlignSt
  | arrival | unaligned | aligned | suspect
deriving DecidableEq, Repr

/-- A flicker state (R76). -/
structure Flk where
  pol : Bool := false
  onset : Nat := 0
  period : Nat := 0
  hits : Nat := 0
  locked : Bool := false
deriving DecidableEq, Repr

/-- The frame being received (R68): its buffer, lines so far, whether a line was lost, its stamp and flags. -/
structure FrameRun where
  buf : Nat
  lines : Nat
  bad : Bool
  stamp : Nat
  poison : Bool
  suspect : Bool
deriving DecidableEq, Repr

/-- What waits in the packet buffer of a sluice (R48, R668): a packet of events with its start of transmission, a line of a
frame, a line lost on its way in, a Frame Start with the time of its arrival, a Frame End. -/
inductive Waiting
  | events (data : List Byte) (sot : Nat)
  | line (data : List Byte)
  | lostLine
  | frameStart (at_ : Nat)
  | frameEnd
deriving DecidableEq, Repr

/-- A frame buffer of the ring (R69): its completion order (0 empty), how many array users hold it, and whether one has taken it. -/
structure FrameBuf where
  order : Nat := 0
  complete : Bool := false
  holds : Nat := 0
  taken : Bool := false
deriving DecidableEq, Repr

/-- A sluice beside its registers: filter, limiter, alignment, packet buffer and frame-ring state (R57, R58, R74, R76,
R80 to R87, R90, R668). `bufBad` holds byte places of the packet buffer with an uncorrectable error, `dirty` that the word in
decoding is poisoned (Table 17-4). `held` holds SLU_FLT, SLU_TAL and SLU_QUE as they stood at the last packet boundary (R91). `base` is the time base in µs of sensor time; `badEnd` is the device ns at which ALIGN last left UNALIGNED or TIME_SUSPECT (R312). -/
structure Sluice where
  linkUp : Bool := false
  lastHdr : Nat := 0
  base : Option Int := none
  refr : Tbl (Option Nat) := []
  flk : Tbl Flk := []
  tokens : Nat := 0
  tokenUs : Nat := 0
  interval : Nat := 0
  offered : Nat := 0
  offerIx : Nat := 0
  k : Nat := 0
  passed : Nat := 0
  removed : Nat := 0
  source : Nat := 0
  align : AlignSt := .arrival
  npairs : Nat := 0
  oRef : Int := 0
  sRef : Int := 0
  dRate : Int := 0
  residual : Int := 0
  lastPair : Nat := 0
  epoch0 : Option Nat := none
  epoch1 : Option Nat := none
  clearing : Bool := false
  buffered : List Waiting := []
  frame : Option FrameRun := none
  bufs : Tbl FrameBuf := []
  frameNo : Nat := 0
  badEnd : Nat := 0
  bufBad : List Nat := []
  refrBad : Tbl Bool := []
  flkBad : Tbl Bool := []
  dirty : Bool := false
  held : Tbl (Option (List Nat)) := []
deriving DecidableEq, Repr

/-- A binned copy offered to an urgent pair (R22, R23): bin, polarity, device ns, sluice index in the cluster, poison. -/
structure Bin where
  bx : Nat
  hy : Nat
  pol : Bool
  t : Nat
  sl : Nat
  poison : Bool := false
deriving DecidableEq, Repr

/-! ### Inertial chain (file 03) -/

/-- A CIC decimator (R102, R103): integrators, combs and the position inside a decimation period. -/
structure Cic where
  integ : List Int := []
  comb : List Int := []
  n : Nat := 0
deriving DecidableEq, Repr

/-- A decimating FIR: its newest inputs first, and the position inside a decimation period. -/
structure Fir where
  hist : List Int := []
  n : Nat := 0
deriving DecidableEq, Repr

/-- Whether a path has output something since the reset, its latest output, saturation in the current output period,
and a check failure recorded since the reset (R107, R109, R123). -/
structure InrPath where
  out : Int := 0
  sat : Bool := false
  fail : Bool := false
deriving DecidableEq, Repr

/-- An INR_OUT record (Table 3-5). -/
structure InrRec where
  tov : Int := 0
  value : Int := 0
  status : Nat := 0
  path : Nat := 0
  checkFail : Bool := false
  coarse : Bool := false
  poison : Bool := false
  preset : Nat := 0
  seq : Nat := 0
deriving DecidableEq, Repr

/-- An input channel: its periods since the last reset, PHASE delay line (newest first), the registers of its paths,
the output number, a channel reset that waits for the next output instant (R119), its latest record, and ENABLE, PRESET and PHASE
as they act since its last reset. `periods` counts in edges of the 24.576 MHz sample clock. -/
structure InrCh where
  on : Bool := false
  preset : Nat := 1
  phase : Nat := 0
  periods : Nat := 0
  line : List Int := []
  pdm : Cic := {}
  halves : List Fir := []
  fin : Fir := {}
  fbCic : Cic := {}
  fbFir : Fir := {}
  fastCic : Cic := {}
  main : InrPath := {}
  fb : InrPath := {}
  fast : InrPath := {}
  checkFail : Bool := false
  n : Nat := 0
  resetDue : Bool := false
  latest : InrRec := {}
deriving DecidableEq, Repr

/-- The inertial chain: channels, and for each engine the earliest device times of the resets that wait (R115)
its sample-clock edges since the last engine-wide reset, and the 32 bits that INRe_SDO sent in its latest SPI frame (R98). -/
structure InrSt where
  ch : Tbl InrCh := []
  due : Tbl (List Nat) := []
  periods : Tbl Nat := []
  sdo : Tbl Nat := []
deriving DecidableEq, Repr

/-! ### Surface engines (file 04) -/

/-- A gyro history entry (R145): TOV, rate and angle as FP32, and whether it is poisoned (Table 17-4). -/
structure Gyro where
  tov : Int
  w : Nat
  th : Nat
  bad : Bool := false
deriving DecidableEq, Repr

/-- The reference of a de-rotation epoch (R146), FP32 per axis. -/
structure EpochRef where
  epoch : Nat
  x : Nat
  y : Nat
  z : Nat
deriving DecidableEq, Repr

/-- A port entry of a surface engine beside SRF_PORT: time base (EPOCH extended, R61), clearing, and the register word
in force for the queue packet in progress (R163). -/
structure SrfPort where
  epoch : Option Nat := none
  clearing : Bool := false
  word : Nat := 0
deriving DecidableEq, Repr

/-- A corner waiting for the aperture stage (R154): its packet fields, the ages of the 9 × 9 window, row by row, and the SRF_CFG in
force when its event was popped (R163). -/
structure Corner where
  prefix_ : Nat
  cls : Nat
  job : Nat
  pol : Bool
  x : Nat
  y : Nat
  t : Nat
  ages : List Nat
  poison : Bool
  cfg : List Nat
deriving DecidableEq, Repr

/-- A surface engine: surface words by (x, y) key of the main store and of the halo store, poisoned words, gyro
histories by group × 4 + axis (newest first), epoch references by group, port entries, the port whose queue packet is in
progress, waiting corners, the sweeper's position. -/
structure Srf where
  mem : Tbl Nat := []
  halo : Tbl Nat := []
  bad : Tbl Bool := []
  haloBad : Tbl Bool := []
  hist : Tbl (List Gyro) := []
  refs : Tbl (List EpochRef) := []
  ports : Tbl SrfPort := []
  cur : Option Nat := none
  rr : Nat := 0
  corners : List Corner := []
  sweep : Nat := 0
deriving DecidableEq, Repr

/-! ### Neuron engines (file 05) -/

/-- An accepted input (R177, R178): stamp or step (24 bits), key, matrix, row, poison, and whether it is late (R191). -/
structure NeIn where
  stamp : Nat
  key : Nat
  mat : Nat
  row : Nat
  poison : Bool
  late : Bool := false
deriving DecidableEq, Repr

/-- What a batch holds for one neuron: the sum of its contributions and, for ORDERED models, each one with its key;
poison (R179, R192, R193). -/
structure NeAcc where
  sum : Int := 0
  each : List (Nat × Int × Bool) := []
  poison : Bool := false
deriving DecidableEq, Repr

/-- A batch between the synapse and update stages: its stamp and the neurons it touches. -/
structure NeBatch where
  stamp : Nat
  acc : Tbl (Option NeAcc) := []
  poison : Bool := false
deriving DecidableEq, Repr

/-- Counts of a closed window on their way to the stream (R201, R202). -/
structure CntCopy where
  group : Nat
  start : Nat
  stop : Nat
  tov : Nat
  deferred : Bool
  counts : List Nat
  poison : Bool
  wins : List Nat := []
deriving DecidableEq, Repr

/-- A neuron engine: state words, update stamps and synapse store by index, its poisoned 32-bit words, reorder buffer in order of acceptance, ticks
that wait (full µs, group) and the latest one of each group, stamp of the last batch released, batches in the stages,
open step, close of the step before, markers by step; spike counts of the open window by neuron, of later windows by
65,536 + neuron; window starts, groups whose close is deferred, copies in progress. -/
structure Ne where
  words : Tbl Nat := []
  stamps : Tbl Nat := []
  syn : Tbl Byte := []
  synBad : Tbl Bool := []
  inputs : List NeIn := []
  ticks : List (Nat × Nat) := []
  tickLast : Tbl Nat := []
  last : Option Nat := none
  batches : List NeBatch := []
  step : Nat := 0
  closeAt : Nat := 0
  marks : Tbl Nat := []
  counts : Tbl Nat := []
  cntBad : Tbl Bool := []
  winStart : Tbl Nat := []
  cntSince : Tbl Nat := []
  deferred : Tbl Bool := []
  copies : List CntCopy := []
deriving DecidableEq, Repr

/-! ### Canal fabric (file 06) -/

/-- The destination set of a packet (R213). -/
structure Dst where
  ne : Bool := false
  locks : Nat := 0
  ten : Nat := 0
  links : Nat := 0
  fusion : Bool := false
  stream : Option Nat := none
  queue : Option Nat := none
deriving DecidableEq, Repr

/-- A Canal packet (Tables 6-1 and 6-6): `from_` is the kind of port it arrived on for SRC_SEL (0 engine, 1 other lock,
2 Canal link), `unit` the source engine, `dst` the destinations that still wait for their copies once it has been looked up,
`to_` the port a copy under way is bound for, `credit` that a link receiver still owes its credit. WIN, ATTEMPT and SRC_DEV
are those of the link it came over; `loc` and `jobs` say what its lookups reach on this device (R249, R250). -/
structure Pkt where
  key : Nat
  pay : Nat
  cls : Nat := 2
  poison : Bool := false
  prov : Bool := false
  parK : Nat := 0
  parP : Nat := 0
  hops : Nat := 15
  job : Nat := 0
  from_ : Nat := 0
  unit : Nat := 0
  win : Nat := 0
  att : Nat := 0
  src : Option Nat := none
  dst : Option Dst := none
  to_ : Option Nat := none
  credit : Bool := true
  jobs : Nat := 0
  loc : Bool := false
  step : Option Nat := none
deriving DecidableEq, Repr

/-- Provisional packets of one window and attempt at a link receiver (R244): how many arrived, and those held for this device. -/
structure Shadow where
  src : Nat
  job : Nat
  win : Nat
  att : Nat
  count : Nat
  pkts : List Pkt
deriving DecidableEq, Repr

/-- What a link sent, or passed on, of a job's window (R242, R246): the count of provisional packets; of its own windows
the packets themselves, for a new attempt (R245, R248), and whether its notice has been formed. -/
structure WinSent where
  src : Nat
  job : Nat
  win : Nat
  att : Nat
  count : Nat
  pkts : List Pkt := []
  ended : Bool := false
deriving DecidableEq, Repr

/-- A notice slot to send (Table 6-10). -/
structure LinkNote where
  kind : Nat
  job : Nat
  win : Nat
  att : Nat
  src : Nat
  count : Nat
deriving DecidableEq, Repr

/-- A link-control slot (R233) in typed form. -/
inductive LinkCtl
  | ack (seq : Nat)
  | nak (seq : Nat)
  | credit (cls : Nat) (n : Nat)
  | hello (dev : Nat) (assigned : Bool) (lanes : Nat) (caps : Nat)
  | mgmt (bits : Nat)
deriving DecidableEq, Repr, Inhabited

/-- A Canal link (R229 to R248). Credits are per class, notices under index 4; `replay` holds the frames not yet
acknowledged, oldest first, and `resend` how many of them are still to be sent again. -/
structure CkLink where
  up : Bool := false
  lanes : Nat := 0
  peerDev : Nat := 0
  peerAsg : Bool := false
  peerCaps : Nat := 0
  txSeq : Nat := 0
  rxSeq : Nat := 0
  sinceAck : Nat := 0
  nakSent : Bool := false
  replay : List (Nat × Nat) := []
  resend : Nat := 0
  txFrame : Nat := 0
  replayMs : Nat := 0
  replayN : Nat := 0
  ctl : List LinkCtl := []
  notes : List LinkNote := []
  credits : Tbl Nat := []
  withheld : Tbl Nat := []
  sent : List WinSent := []
  passed : List WinSent := []
  shadow : List Shadow := []
  latest : List (Nat × Nat × Nat × Nat) := []
  lastUse : Nat := 0
deriving DecidableEq, Repr

/-- An entry of the recipient log (Table 6-11), with the jobs whose units on this device received its packets (R250). -/
structure RLog where
  win : Nat
  job : Nat
  src : Nat
  loc : Bool
  links : Nat
  guarded : Bool
  jobs : Nat := 0
deriving DecidableEq, Repr

/-- An alarm on the class-0 path (R348, R492, Table 10-7): pair, zone, sluice in the cluster, bin, device ns, job, poison,
and its number at the pair. -/
structure Alarm where
  pair : Nat
  zone : Nat
  sl : Nat
  bx : Nat
  hy : Nat
  t : Nat
  job : Nat
  poison : Bool
  seq : Nat
deriving DecidableEq, Repr

/-- The class-0 policer of a hub (R225): tokens, alarms held, the 10 µs multiple it has reached. -/
structure Policer where
  tokens : Nat := 0
  hold : List Alarm := []
  slot : Nat := 0
deriving DecidableEq, Repr

/-- The Canal: class queues under port × 4 + class, links, policers, the recipient log (newest first). -/
structure CanalSt where
  q : Tbl (List Pkt) := []
  links : Tbl CkLink := []
  pol : Tbl Policer := []
  rlog : List RLog := []
  rr : Tbl Nat := []
  attempts : Tbl Nat := []
  assigned : Bool := false
deriving DecidableEq, Repr

/-! ### Feature arrays and tensor builders (files 07, 08) -/

/-- An operand, decoded, with its poison tag (R274). -/
structure Val where
  v : FV := .num false 0 0
  bad : Bool := false
deriving DecidableEq, Repr

/-- The buffer a trigger hands over (R269). -/
inductive ArrBuf
  | none
  | ten (entry buf : Nat)
  | frame (sluice buf : Nat)
  | grid (buf : Nat)
deriving DecidableEq, Repr

/-- A pending instance (R270): its buffer with base address, TOV and the time the input began (R312), and whether its hold
for a copy has been counted. -/
structure ArrPend where
  prog : Nat
  buf : ArrBuf
  base : Nat
  tov : Nat
  from_ : Nat
  sus : Bool := false
  counted : Bool := false
deriving DecidableEq, Repr

/-- A gathered input tile (R252): 256 input vectors of one tap and input-channel block. -/
structure Tile where
  layer : Nat
  ty : Nat
  tx : Nat
  vecs : List (List Val)
deriving DecidableEq, Repr

/-- A weight set: for each output channel of the block its weights, in the order of the input channels. -/
structure WSet where
  rows : List (List Val)
deriving DecidableEq, Repr

/-- An ARR_RQ entry (Table 7-3) as three transfer words. -/
structure RqEnt where
  words : List Nat
  bad : Bool
deriving DecidableEq, Repr

/-- An accumulator: an integer of 48 bits, or an FP32 encoding. -/
structure Acc where
  v : Int := 0
  bad : Bool := false
deriving DecidableEq, Repr

/-- A tile region of accumulators: output tile, whether FP32, and its accumulators by position and output channel. -/
structure AccTile where
  ty : Nat
  tx : Nat
  fp : Bool
  acc : List (List Acc)
deriving DecidableEq, Repr

/-- The instance that runs (R269, R270): programme, number, buffer, START, ARR_PROG as it stood, and the position of each
engine: next load descriptor with the tiles of it already gathered and whether it has started, next compute and store
descriptors; whether an output has been poisoned. -/
structure ArrInst where
  prog : Nat
  num : Nat
  start : Nat
  pend : ArrPend
  words : List Nat
  ld : Nat := 0
  ldTile : Nat := 0
  ldOn : Bool := false
  cp : Nat := 0
  st : Nat := 0
  poison : Bool := false
deriving DecidableEq, Repr

/-- A feature array: pending instances, the one that runs, gathered tiles and weight sets in order of production, the
requantisation table, the accumulator halves with the one being accumulated and those handed to the store engine,
semaphores, instances started and triggers dropped by programme, buffers kept for second passage under their window. -/
structure Fa where
  queue : List ArrPend := []
  run : Option ArrInst := none
  tiles : List Tile := []
  wsets : List WSet := []
  rq : List RqEnt := []
  half0 : List AccTile := []
  half1 : List AccTile := []
  cur : Nat := 0
  ready : List Nat := []
  sems : Tbl Nat := []
  started : Tbl Nat := []
  dropped : Tbl Nat := []
  held : List (Nat × ArrBuf) := []
deriving DecidableEq, Repr

/-- A TEN_VOX entry at work (R277): the open window and its buffer, the window in grace and its buffer, and the use of the
three buffers: 0 free, 1 open or in grace, 2 held by the array, 3 being cleared. -/
structure TenEnt where
  open_ : Option (Nat × Nat) := none
  grace : Option (Nat × Nat) := none
  wait : Option Nat := none
  bufs : Tbl Nat := []
deriving DecidableEq, Repr

/-! ### Result streams (file 10) -/

/-- An entry on its way to an entry-kind stream (R349): 16 bytes, the key that pairs flow entries (none for other
kinds), time of validity, poison, the source unit and its commit window. -/
structure Entry where
  bytes : List Byte
  key : Option Nat
  tov : Nat
  poison : Bool
  unit : Nat
  win : Nat
  kind : Nat := 0
deriving DecidableEq, Repr

/-- A record before its commit: its slot, body bytes in memory, entries, times, the entry that may have to move to the
next record with the poison and the steps before it, the steps (unit and window) it holds output of, and whether a replay's output
took the place of its own (R350). -/
structure Rec where
  slot : Nat
  kind : Nat
  job : Nat
  bytes : Nat := 0
  entries : Nat := 0
  tov : Nat := 0
  poison : Bool := false
  opened : Nat := 0
  flush : Nat := 0
  overdue : Bool := false
  lastV : Option Entry := none
  before : Bool × List (Nat × Nat) := (false, [])
  steps : List (Nat × Nat) := []
  held : Bool := false
  replayed : Bool := false
  swapped : Bool := false
deriving DecidableEq, Repr

/-- A slot of a ring: the committed record it holds, its read marks (R355) and release (R358). -/
structure Slot where
  seq : Nat := 0
  bytes : Nat := 0
  marks : Nat := 0
  released : Bool := false
deriving DecidableEq, Repr

/-- A result stream beside RES_STREAM. -/
structure Stream where
  cur : Option Rec := none
  waiting : List Rec := []
  lastSeq : Nat := 0
  relSeq : Nat := 0
  next : Nat := 0
  slots : Tbl Slot := []
deriving DecidableEq, Repr

/-- A subscription beside RES_SUB (R359, R361, R507): the link that created it, the SEQ of its first record, the gap not yet
reported, and its push count. -/
structure SubSt where
  creator : Option Link := none
  first : Option Nat := none
  gap : Nat := 0
  count : Nat := 0
deriving DecidableEq, Repr

/-- A selected record waiting for a push engine. -/
structure PushJob where
  sub : Nat
  stream : Nat
  seq : Nat
  slot : Nat
deriving DecidableEq, Repr

/-- The push engine of a port (R361): waiting records in commit order, the record in the push buffer and how much of
it has been handed on. -/
structure Push where
  waiting : List PushJob := []
  cur : Option PushJob := none
  buf : List Byte := []
  sent : Nat := 0
  gap : Nat := 0
deriving DecidableEq, Repr

/-- The result writers: streams, entries offered by producers other than the Canal, subscriptions, push engines. -/
structure ResSt where
  streams : Tbl Stream := []
  offered : Tbl (List Entry) := []
  subs : Tbl SubSt := []
  push : Tbl Push := []
deriving DecidableEq, Repr

/-! ### Application complex (file 11) -/

/-- A berth portal beside its berth (Table 11-5): the register, the request area by offset, the reply area. -/
structure BPort where
  req : Tbl Byte := []
  busy : Bool := false
  fin : Bool := false
  noteEn : Bool := false
  reqBytes : Nat := 0
  replyBytes : Nat := 0
  reply : List Byte := []
deriving DecidableEq, Repr

/-- LKP_JOBCTL of a job (Table 11-7) beside the parts that come from the graph image. -/
structure JobCtl where
  ckptGen : Nat := 0
  ckptAck : Nat := 0
  ckptHalf : Nat := 0
  streamEn : Nat := 0
  arrayEn : Nat := 0
  tickEn : Bool := false
deriving DecidableEq, Repr

/-- The privilege modes of a hart (Table 11-1). -/
inductive HartMode
  | m | hs | vs | vu
deriving DecidableEq, Repr

/-- A hart as the monitor runs it (Table 11-1, R365, R378, R380 to R382): its mode; in a guest or halted, with the argument registers
of its entry and the guest's satp; the timer compare registers; the PMP entries (configuration, address); pending and enable bits of
the IMSIC files by file × 1,024 + identity, but for the pending bits of guest file 1; the bytes of the guest's latest load; the
latest access fault. -/
structure Hart where
  mode : HartMode := .m
  satp : Nat := 0
  stimecmp : Nat := 0
  vstimecmp : Nat := 0
  pmp : Tbl (Nat × Nat) := []
  imsicP : Tbl Bool := []
  imsicE : Tbl Bool := []
  loaded : List Byte := []
  inGuest : Bool := false
  job : Nat := 0
  pc : Nat := 0
  a0 : Nat := 0
  a1 : Nat := 0
  a2 : Nat := 0
  a3 : Nat := 0
  a4 : Nat := 0
  faults : Nat := 0
  faultAddr : Nat := 0
deriving DecidableEq, Repr

/-- The application complex: pending bits of guest file 1 by job, hart within the job and identity; berth portals; job
control pages; harts. -/
structure ApxSt where
  msi : Tbl Bool := []
  bports : Tbl BPort := []
  jobctl : Tbl JobCtl := []
  harts : Tbl Hart := []
deriving DecidableEq, Repr

/-! ### Barge queues (file 12) -/

/-- A stored word with its tags (R395, R399), and the INJ_CLASS that its packet opened with (R405). -/
structure QWord where
  w : Nat
  poison : Bool := false
  last : Bool := false
  first : Bool := false
  inj : Nat := 2
deriving DecidableEq, Repr

/-- A retained packet (R403): the commit window in which its last word was popped, and its words. -/
structure Retained where
  window : Nat
  words : List QWord
deriving DecidableEq, Repr

/-- A barge queue (R389): its words oldest first, how many stand in the head registers and in the middle (the rest is
the tail), the words of the open packet at the back, and the packet state of R395, R397, R403: `badN` counts the words that the
producer has written of a packet that went bad, `opn` is BRG_Q as the latest packet found it when it opened (R405), `side` the
entries of the side line being written (R392). `latched` is a word popped and held for the engine that consumes the queue. -/
structure Queue where
  ws : List QWord := []
  headN : Nat := 0
  midN : Nat := 0
  midIx : Nat := 0
  openN : Nat := 0
  openAt : Nat := 0
  opn : List Nat := []
  bad : Bool := false
  badN : Nat := 0
  side : List Nat := []
  popMid : Bool := false
  rewound : Bool := false
  noteEn : Bool := false
  cur : List QWord := []
  retained : List Retained := []
  replayIx : Nat := 0
  latched : List QWord := []
  decim : Bool := false
  toggle : Bool := false
deriving DecidableEq, Repr

/-! ### Time unit (file 13) -/

/-- SYNC_STATE of R420. -/
inductive SyncState
  | freeRun | acquiring | locked | holdover
deriving DecidableEq, Repr

/-- A pending two-step Sync of a port engine (R428): sequenceId, ingress stamp and correction in 2^-16 ns. -/
structure PendSync where
  seq : Nat
  t2 : Int
  corr : Int
deriving DecidableEq, Repr

/-- A transmit stamp (R429). -/
structure TxStamp where
  key : Nat
  sec : Nat
  ns : Nat
deriving DecidableEq, Repr

/-- A SYNC_IN stamp of a sluice (R435). -/
structure SyncStamp where
  t : Nat
  used : Bool
deriving DecidableEq, Repr

/-- The PTP state of an Ethernet port (R428, R430, R499). -/
structure PtpPort where
  pend : Option PendSync := none
  txq : List TxStamp := []
  found : Option TxStamp := none
  profile : Nat := 0
  role : Nat := 0
  logSync : Int := 0
  logPdelay : Int := 0
  logAnnounce : Int := 0
  prio1 : Nat := 0
  prio2 : Nat := 0
  rxStamps : List (Nat × Nat) := []
deriving DecidableEq, Repr

/-- A SYNC_OUT scheduler (R434): the next target, the width in force, the ball and its pulse end in ticks. -/
structure SyncOut where
  target : Nat := 0
  period : Nat := 10000000
  width : Nat := 8
  late : Bool := false
  high : Bool := false
  endTick : Nat := 0
  count : Nat := 0
  lastEdge : Nat := 0
  hist : List (Nat × Nat) := []
deriving DecidableEq, Repr

/-- The time unit: counter (R412), servo (R418), sync state (R420), comparators, schedulers, stamps. -/
structure TimeSt where
  sec : Nat := 0
  ns : Nat := 0
  frac : Nat := 0
  latch1 : Nat := 0
  ticks : Nat := 0
  incrNow : Nat := 0x0140000000
  adj : Int := 0
  integ : Int := 0
  sync : SyncState := .freeRun
  slewing : Bool := false
  stepPending : Bool := false
  holdLong : Bool := false
  masterRej : Bool := false
  utcOff : Int := 0
  lastOff : Int := 0
  holdStart : Nat := 0
  lastSample : Nat := 0
  inRun : Nat := 0
  outRun : Nat := 0
  everLocked : Bool := false
  integLocked : Bool := false
  newMaster : Bool := false
  gmId : Nat := 0
  ptp : Tbl PtpPort := []
  cmpLate : Nat := 0
  syncOut : Tbl SyncOut := []
  ppsHigh : Bool := false
  ppsSec : Nat := 0
  ppsEnd : Nat := 0
  syncIn : Tbl (List SyncStamp) := []
  inertStamp : Nat := 0
deriving DecidableEq, Repr

/-! ### Towline, berths, helm, notices, commands in progress (files 14, 15) -/

/-- A frame or message queued for a port or for the relay: destination address and port, the bytes of the message
from its first header byte, and what it is. -/
inductive TxKind
  | alarm | ptp | reply | notice | push | other
deriving DecidableEq, Repr

/-- One message waiting for transmission. -/
structure TxMsg where
  kind : TxKind
  dst : Nat
  dstPort : Nat
  bytes : List Byte
deriving DecidableEq, Repr

/-- A berth (R453): its grant to a job, the command it holds with its request, progress, and the last reply. -/
structure Berth where
  cmd : Option Instr := none
  req : Option Req := none
  src : Nat := 0
  srcPort : Nat := 0
  code : Nat := 0
  started : Option Nat := none
  stepsDone : Nat := 0
  bytesDone : Nat := 0
  fin : Bool := false
  lastLink : Option Link := none
  lastSeq : Nat := 0
  reply : List Byte := []
deriving DecidableEq, Repr

/-- A notice of the log (R465). -/
structure Notice where
  seq : Nat
  code : Nat
  ports : Nat
  status : Nat
  unit : Nat
  time : Nat
  detail : List Byte
deriving DecidableEq, Repr

/-- A forced claim that waits (R461). -/
structure Claim where
  berth : Nat
  link : Link
  due : Nat
deriving DecidableEq, Repr

/-- A message being reassembled from MGMT fragments (R468). -/
structure Reasm where
  src : Nat
  dst : Nat
  tag : Nat
  link : Nat
  direct : Bool
  data : List Byte
deriving DecidableEq, Repr

/-- A message cut into MGMT fragments for a Canal link (R467): the bytes still to send, and whether a fragment has left. -/
structure MgmtMsg where
  dst : Nat
  src : Nat
  tag : Nat
  direct : Bool
  bytes : List Byte
  begun : Bool := false
deriving DecidableEq, Repr

/-- A staging buffer (R483). -/
structure Stage where
  begun : Bool := false
  total : Nat := 0
  data : List Byte := []
deriving DecidableEq, Repr

/-- A matrix row in assembly (R496). -/
structure RowAsm where
  matrix : Nat
  row : Nat
  data : List Byte
deriving DecidableEq, Repr

/-- An I3C transaction that the target has not ended (R497). -/
structure I3cRun where
  berth : Nat
  started : Nat
deriving DecidableEq, Repr

/-- An Ethernet port beside its configuration registers. `trained` says that its PHY has trained since it was last started. `tc10` is the latest TC10 answer or request its PHY sent (R637): 0 none,
1 sleep request, 2 sleep acknowledge, 3 sleep reject, 4 wake-up request; `badFcs` says that the frame in transmission leaves with an inverted FCS (Table 17-4). -/
structure EthPort where
  phyUp : Bool := false
  trained : Bool := false
  q0 : List TxMsg := []
  q1 : List TxMsg := []
  q2 : List TxMsg := []
  q3 : List TxMsg := []
  q4 : List TxMsg := []
  wire : Option TxMsg := none
  wireEnd : Nat := 0
  tag : Option Nat := none
  noticeSeq : Nat := 0
  ringSeq : Tbl Nat := []
  macsecCak : Nat := 0
  macsecCkn : Nat := 0
  cknLen : Nat := 0
  saks : List Nat := []
  downSince : Nat := 0
  sleepListen : Bool := false
  tc10 : Nat := 0
  badFcs : Bool := false
deriving DecidableEq, Repr

/-- A request that waits for berth service to resume (R535): its header, source, command and code. -/
structure WaitReq where
  req : Req
  src : Nat
  srcPort : Nat
  cmd : Option Instr
  code : Nat
deriving DecidableEq, Repr

/-- Where the head device sends the replies of a relayed request (R455, R466): device, ingress port, berth; IP address and UDP
port of the host. -/
structure Relayed where
  dev : Nat
  port : Nat
  berth : Nat
  src : Nat
  srcPort : Nat
deriving DecidableEq, Repr

/-- The Towline side of the Lockkeeper. -/
structure TowSt where
  ports : Tbl EthPort := []
  berths : Tbl Berth := []
  lastServed : Tbl Nat := []
  holder : Nat := 15
  epoch : Nat := 0
  claim : Option Claim := none
  lastReq : Tbl Nat := []
  silent : Bool := false
  log : List Notice := []
  logSeq : Nat := 0
  mgmtTx : Tbl (List MgmtMsg) := []
  reasm : List Reasm := []
  lastFrom : Tbl Nat := []
  tag : Nat := 0
  headDev : Nat := 0
  stages : Tbl Stage := []
  rows : Tbl (Option RowAsm) := []
  i3c : Tbl (Option I3cRun) := []
  shadow : Tbl Nat := []
  waiting : List WaitReq := []
  relayed : List Relayed := []
  relaySeq : Nat := 0
deriving DecidableEq, Repr

/-! ### Urgent pairs and safety (files 15, 18, 19) -/

/-- A zone of an urgent pair (Table 15-4e). -/
structure UpZone where
  x0 : Nat
  y0 : Nat
  x1 : Nat
  y1 : Nat
  mask : Nat
  minBins : Nat
  windowUs : Nat
  rearmUs : Nat
  minSpeed : Nat
deriving DecidableEq, Repr

/-- An urgent pair (R492, R580, R581, R610): its URGENT record, binned stamps by (sluice, row, column), last alarm stamp of each
zone, alarms raised, alarms offered to the policer, whether it is being reset, its latest probe. -/
structure Up where
  used : Bool := false
  job : Nat := 0xFF
  ports : Nat := 0
  stream : Nat := 0xFF
  zones : List UpZone := []
  stamps : Tbl Nat := []
  last : Tbl (Option Nat) := []
  seq : Nat := 0
  offered : List Alarm := []
  resetting : Bool := false
  probeAt : Nat := 0
deriving DecidableEq, Repr

/-- What a framer receives in class 0: an alarm, or the probe of a pair. -/
inductive Cl0
  | alarm (a : Alarm)
  | probe (key : Nat)
deriving DecidableEq, Repr

/-- A framer's checker for a pair (R610): device ns its limit runs from, and consecutive probes since it reported. -/
structure Chk where
  since : Nat := 0
  good : Nat := 3
deriving DecidableEq, Repr

/-- The urgent path beside policers and binned copies: pairs, framer inputs of T1A and T1B, checkers by port × 4 + pair. -/
structure UrgSt where
  pairs : Tbl Up := []
  framers : Tbl (List Cl0) := []
  chk : Tbl Chk := []
deriving DecidableEq, Repr

/-- The safe state (R609 to R616): active causes, cause and unit of the entry, its time, entries since reset, STOP_SEQ and
time of the latest SAFE_STOP of T1A and T1B, latest sensor readings, the sensors that read +135 °C or more in the latest sample, diagnostics that have failed and their consecutive passes,
consecutive passing visits of a failed pair. -/
structure SafeSt where
  active : Nat := 0
  reason : Nat := 0
  unit : Nat := 0xFFFF
  time : Nat := 0
  entries : Nat := 0
  stopSeq : Tbl Nat := []
  stopAt : Tbl Nat := []
  temps : List Int := []
  hot : Nat := 0
  mechBad : Nat := 0
  mechOk : Tbl Nat := []
  pairBad : Nat := 0
  pairOk : Tbl Nat := []
deriving DecidableEq, Repr

/-! ### Fusion engine (file 09) -/

/-- A contribution of a source (R311 to R313, R320): snapshot slot, TOV, completion time, TIME_SUSPECT, lateness. -/
structure Contrib where
  slot : Nat
  tov : Nat
  from_ : Nat := 0
  done_ : Nat := 0
  sus : Bool := false
  late : Bool := false
deriving DecidableEq, Repr

/-- A source beside FUS_SRC: the contribution being filled, the latest complete one and the one
before it, the one in use by the current cycle, its state at the latest tick (R336) and its lie state (R323). -/
structure FusSrc where
  fill : Option Contrib := none
  latest : Option Contrib := none
  before : Option Contrib := none
  inUse : Option Contrib := none
  state : Nat := 0
  reason : Nat := 0
  ageUs : Nat := 0
  score : Nat := 0
  lie : Bool := false
  bad : Nat := 0
  good : Nat := 0
deriving DecidableEq, Repr

/-- A fusion cycle (R319): tick, cycle number, its values, its grid buffer, whether a grid element is poisoned, the elements that an
error in the tile buffers poisons (R339), and the fusion registers as its tick found them (R337). -/
structure FusCycle where
  tick : Nat
  cycle : Nat
  tov : Nat
  oldest : Nat
  used : Nat
  masked : Nat
  late : Nat
  empty : Bool
  buf : Nat
  t0 : Int
  t1 : Int
  poison : Bool := false
  swept : Bool := false
  head : Bool := false
  tileBad : List Nat := []
  cfg : Tbl W64 := []
deriving DecidableEq, Repr

/-- An object of the previous cycle (R333): identity, centre and velocity as FP32, age. -/
structure FusObj where
  id : Nat
  cx : Nat
  cy : Nat
  vx : Nat
  vy : Nat
  age : Nat
deriving DecidableEq, Repr

/-- A flow vector (R328): source, pixel, velocity, stamp, poison. -/
structure FlowVec where
  src : Nat
  x : Nat
  y : Nat
  vx : Int
  vy : Int
  t : Nat
  bad : Bool := false
deriving DecidableEq, Repr

/-- The vote window of a sweep (R327): its TOV and the occupied cells of the 128 × 128 window. -/
structure Sweep where
  tov : Nat
  cells : List (Nat × Nat)
deriving DecidableEq, Repr

/-- Fusion state of a checkpoint (R338). -/
structure FusCkpt where
  lastTick : Option Nat := none
  nextId : Nat := 1
  prev : List FusObj := []
  sweeps : Tbl (List Sweep) := []
  prevT1 : Option Int := none
  lies : List (Nat × Bool × Nat × Nat) := []
deriving DecidableEq, Repr

/-- The fusion engine: sources, latest tick handled, the cycles in each stage (grid, ego-motion, objects), the
increments of cycles whose objects are due with their poison, t1 of the latest cycle, holds on the three grid buffers, gyro history
by group × 4 + axis, stored flow vectors and the FLOW_V that waits for its FLOW_T (payload and poison) by source and key, the two
latest sweeps of every LIDAR source, the sources with a sweep since the previous cycle, next object identity, previous objects, the
fusion registers as the latest tick found them (R337), and the fusion part of the checkpoint in progress and of the committed
one. -/
structure Fus where
  srcs : Tbl FusSrc := []
  lastTick : Option Nat := none
  grid : Option FusCycle := none
  ego : List FusCycle := []
  obj : List FusCycle := []
  incs : List (Nat × List Nat × Bool) := []
  prevT1 : Option Int := none
  bufHold : Tbl Nat := []
  hist : Tbl (List Gyro) := []
  flows : List FlowVec := []
  flowV : Tbl (Option (Nat × Bool)) := []
  sweeps : Tbl (List Sweep) := []
  newSweep : List Nat := []
  nextId : Nat := 1
  prev : List FusObj := []
  cfg : Option (Tbl W64) := none
  ckptNew : FusCkpt := {}
  ckptOld : FusCkpt := {}
deriving DecidableEq, Repr

/-! ### Commit windows, second passage, test content, window log (file 18) -/

/-- A step (R585 to R592): the work of one unit in one commit window of its job: suspect mark, confirmation, running
signature register over what it emitted or stored, whether a replay replaced its output. -/
structure StepRec where
  job : Nat
  win : Nat
  unit : Nat
  sus : Bool := false
  ok : Bool := false
  crc : Nat := 0xFFFFFFFF
  replayed : Bool := false
deriving DecidableEq, Repr

/-- A replay in progress (R591): window, unit, target (0xFFFF while it waits for the next one), its start, and the targets that have
been discarded (Table 18-9). -/
structure Replay where
  win : Nat
  unit : Nat
  target : Nat
  started : Nat
  tried : List Nat := []
deriving DecidableEq, Repr

/-- An undo record of a neuron engine (R589): window, neuron, old state word, old stamp. -/
structure Undo where
  win : Nat
  neuron : Nat
  word : Nat
  stamp : Nat
deriving DecidableEq, Repr

/-- A record range committed to a stream in a window, for the log. -/
structure WinRange where
  job : Nat
  win : Nat
  stream : Nat
  first : Nat
  last : Nat
deriving DecidableEq, Repr

/-- A window log entry (Table 18-8). -/
structure WinEntry where
  win : Nat
  job : Nat
  flags : Nat
  attempt : Nat
  time : Nat
  recip : Nat
  streams : Nat
  ranges : List (Nat × Nat)
deriving DecidableEq, Repr

/-- The test state of a unit (R599 to R602): start of its latest visit and of the one before,
whether a mismatch of its redundant pair has stopped it (R585), whether the visit runs, end of the last passing one, lateness already reported, and the margin ladder position with the visits passed there. -/
structure TestSt where
  start : Nat := 0
  prev : Nat := 0
  stopped : Bool := false
  running : Bool := false
  lastPass : Nat := 0
  late : Bool := false
  ladder : Option Nat := none
  passes : Nat := 0
deriving DecidableEq, Repr

/-- A restart of a job in progress (R596), with what its POISON notice will carry. -/
structure Restart where
  at_ : Nat
  cause : Nat
  unit : Nat
  win : Nat
  gen : Nat
  taint : Nat
  berths : List Nat
deriving DecidableEq, Repr

/-- Second passage and test content: steps, next window to commit per job, replays, restarts, undo regions per core, what
batches after a checkpoint's window have overwritten and the step that was open at its end,
ranges and log, windows where the job already consumed poison, attempts, test visits; the test content in use: section
unit types, suspect units, and the rotation. -/
structure PassSt where
  steps : List StepRec := []
  next : Tbl Nat := []
  replay : Tbl (Option Replay) := []
  restart : Tbl (Option Restart) := []
  undo : Tbl (List Undo) := []
  ckptUndo : Tbl (List Undo) := []
  ckptStep : Tbl (Option Nat) := []
  ranges : List WinRange := []
  log : List WinEntry := []
  reported : List (Nat × Nat) := []
  tests : Tbl TestSt := []
  content : Option Nat := none
  sections : List (Nat × Nat) := []
  suspects : List Nat := []
  testOn : Bool := true
  rotation : Nat := 500
deriving DecidableEq, Repr

/-! ### Firmware, security and debug (file 16) -/

/-- A verified image (Table 16-4, R523): version, security version, key slot, measurement, moduli, its bytes. -/
structure FwImg where
  version : Nat
  svn : Nat
  slot : Nat
  meas : Nat
  pub : Nat
  dbgPub : Nat
  bytes : List Byte
deriving DecidableEq, Repr

/-- An activation (R533, R534): the berth of FW_ACTIVATE, its request time, the exchange and the firmware exchanged out. -/
structure Activation where
  berth : Nat
  image : FwImg
  exchanged : Option Nat := none
  old : Option FwImg := none
deriving DecidableEq, Repr

/-- The fuses (Table 16-5) and the identity OTP, the always-on registers, the flash, and the security and debug
state. `svnFuses` is the word of Table 16-5; `rewrite` is how many attempts of a flash rewrite remain. -/
structure SecSt where
  variant : Nat := 1
  lifecycle : Nat := 0
  revoked : Nat := 0
  uid : Nat := 0
  baseMac : Nat := 0
  bootIp4 : Nat := 0
  svnFuses : Nat := 0
  keyHash0 : Nat := 0
  keyHash1 : Nat := 0
  keyHash2 : Nat := 0
  dbgKeyHash : Nat := 0
  devKey : Bool := false
  chain : List Byte := []
  flash : List Byte := []
  flashBad : Bool := false
  rstc : Nat := 1
  brownout : Bool := false
  bootMode : Bool := false
  towBoot : Bool := false
  bootSource : Nat := 0
  flashFails : Nat := 0
  told : Bool := false
  fw : Option FwImg := none
  staged : Option FwImg := none
  act : Option Activation := none
  rewrite : Nat := 0
  ranFrom : Option Nat := none
  challenge : Option (Nat × Nat) := none
  session : Option (Nat × Nat) := none
  holdPower : Bool := false
  halted : Bool := false
  dbgStatus : Nat := 0
  dbgData : Nat := 0
  contentMeas : Nat := 0
  journal : List Byte := []
deriving DecidableEq, Repr

/-! ### Memory integrity (file 17) -/

/-- A spare row or column switched in or being copied (R571, Table 17-5): memory region, macro, kind, address, spare,
and the byte offset that showed the fault. -/
structure Repair where
  region : Nat
  mac : Nat
  col : Bool
  addr : Nat
  spare : Nat
  byte : Nat := 0
deriving DecidableEq, Repr

/-- A memory of one unit (a row of Table 17-4), under unit × 64 + row: errors since the latest LAP notice, latest lap and its
start, latest notice, locations (macro, row, column) corrected in this lap and those with hard faults, repairs in force, field
entries of its fuse map, locations kept in service without a spare with the times of their later errors, latest uncorrectable error. -/
structure MemReg where
  ce : Nat := 0
  ue : Nat := 0
  lapMs : Nat := 0
  lapStart : Nat := 0
  told : Nat := 0
  fixed : List (Nat × Nat × Nat) := []
  hard : List (Nat × Nat × Nat) := []
  repairs : List Repair := []
  fuses : List Nat := []
  kept : List ((Nat × Nat × Nat) × List Nat) := []
  lastUe : Nat := 0
deriving DecidableEq, Repr

/-- Memory integrity: memories, times of the latest correctable errors of a unit, copies in progress, entries waiting for
their burn, remapped DDR5 pages (channel × 2^32 + page), those being copied, the latest Lockkeeper error, whether the
pair is being reset, the memory and address that reset a unit, the parts of a core and the slices of the barge manager whose
start-up self-test has passed, the parity-error counters of the crossings by the unit they lead into (R30), and the job and commit window each unit last
reported a residue mismatch for (R579). -/
structure MemSt where
  regs : Tbl MemReg := []
  ceTimes : Tbl (List Nat) := []
  copying : List Repair := []
  burns : List Repair := []
  pages : List Nat := []
  paging : List Nat := []
  lkpUe : Nat := 0
  lkpReset : Bool := false
  why : Tbl (Option (Nat × Nat)) := []
  tested : Tbl Bool := []
  crossings : Tbl Nat := []
  residues : Tbl (Option (Nat × Nat)) := []
deriving DecidableEq, Repr

/-! ### Power (file 20) -/

/-- An entry to PL2, PL3 or PL4 (R629): target, the berth of its command, the T1 ports whose TC10 sleep requests it answers,
whether the last point of refusal has passed, the wake source and port that arrived after it. -/
structure PwrEntry where
  target : Nat
  berth : Option Nat := none
  ports : List Nat := []
  quiesced : Bool := false
  wake : Option (Nat × Option Nat) := none
deriving DecidableEq, Repr

/-- An exit (R632): wake source, target level, the berth of its command, the port of a TC10 wake. -/
structure PwrExit where
  src : Nat
  target : Nat
  berth : Option Nat := none
  port : Option Nat := none
deriving DecidableEq, Repr

/-- Power: limit in W, latest average in mW, rung positions (0 top) in the order of Table 20-7, end of the hold, time from
which the step-up condition has held, latest GOV_FLOOR, throttling, refusals with the latest refuser, the change of level in
progress, the readiness map before the level was entered, VDD_CORE set point, failed AVS transactions, clock-stopped islands
(Table 1-4 in order), enables, and the internal power-on reset. -/
structure PwrSt where
  limit : Nat := 110
  mw : Nat := 0
  rungs : Tbl Nat := []
  hold : Nat := 0
  coolFrom : Option Nat := none
  floorAt : Nat := 0
  throttled : Bool := false
  refusals : Nat := 0
  lastKind : Nat := 0
  lastDetail : Nat := 0
  entry : Option PwrEntry := none
  exit_ : Option PwrExit := none
  wasReady : Nat := 0
  vddMv : Nat := 750
  avsFails : Nat := 0
  stopped : List Nat := []
  enAux : Bool := false
  enDdr : Bool := false
  enCore : Bool := false
  por : Bool := true
  lowPower : Bool := false
deriving DecidableEq, Repr

/-! ### The whole state -/

/-- The state of the block. `regs` holds transfer words of the register structures of Table 15-6 that differ from
their reset value, under `regKey`; `cnt` the hardware counters; `ram` cluster SRAM and DDR5 by physical address;
`freeCount` is the model's own field: the number of free values drawn so far. -/
structure State where
  dev : DevSt := {}
  regs : Tbl W64 := []
  cnt : Tbl Nat := []
  ram : Tbl Byte := []
  time : TimeSt := {}
  tow : TowSt := {}
  slu : Tbl Sluice := []
  upIn : Tbl (List Bin) := []
  brg : Tbl Queue := []
  apx : ApxSt := {}
  inr : InrSt := {}
  srf : Tbl Srf := []
  ne : Tbl Ne := []
  fa : Tbl Fa := []
  ten : Tbl TenEnt := []
  fus : Fus := {}
  canal : CanalSt := {}
  res : ResSt := {}
  pass : PassSt := {}
  urg : UrgSt := {}
  safe : SafeSt := {}
  sec : SecSt := {}
  mem : MemSt := {}
  pwr : PwrSt := {}
  ramPoison : Tbl Bool := []
  freeCount : Nat := 0
  pending : List Instr := []
deriving DecidableEq, Repr

/-- The block right after a device reset: every field at the value the spec states for reset, or the value the
assumption log names. The queue of commands is empty. -/
def State.reset : State := {}

end Sys2Proof.Machine
end

