-- ==== Sys2Proof/Machine/Tables.lean ====
section
/-! DEFINITION. Sparse tables in one canonical form: the one representation of memories, register files and per-unit
state. Keys rise strictly and no listed value equals the default of its key, so equal tables are equal data. -/
namespace Sys2Proof.Machine

variable {α : Type}

/-- The value at a key; `d` gives what an unlisted key reads as. -/
def fget (d : Nat → α) (t : Tbl α) (k : Nat) : α :=
  match t with
  | [] => d k
  | (k', v) :: r => if k < k' then d k else if k = k' then v else fget d r k

/-- Writing a key; writing the default removes the entry. -/
def fset [DecidableEq α] (d : Nat → α) (t : Tbl α) (k : Nat) (v : α) : Tbl α :=
  match t with
  | [] => if v = d k then [] else [(k, v)]
  | (k', v') :: r =>
    if k < k' then (if v = d k then (k', v') :: r else (k, v) :: (k', v') :: r)
    else if k = k' then (if v = d k then r else (k, v) :: r)
    else (k', v') :: fset d r k v

/-- Every listed key is at least `lo`, keys rise strictly, no listed value is its default. -/
def fwfFrom [DecidableEq α] (d : Nat → α) (lo : Nat) (t : Tbl α) : Bool :=
  match t with
  | [] => true
  | (k, v) :: r => decide (lo ≤ k) && decide (v ≠ d k) && fwfFrom d (k + 1) r

/-- The canonical form of a table. -/
def fwf [DecidableEq α] (d : Nat → α) (t : Tbl α) : Bool := fwfFrom d 0 t

/-- Reading a table whose unlisted keys all read as `d`. -/
def tget (d : α) (t : Tbl α) (k : Nat) : α := fget (fun _ => d) t k

/-- Writing such a table. -/
def tset [DecidableEq α] (d : α) (t : Tbl α) (k : Nat) (v : α) : Tbl α := fset (fun _ => d) t k v

/-- Changing one entry of such a table. -/
def tmod [DecidableEq α] (d : α) (t : Tbl α) (k : Nat) (f : α → α) : Tbl α := tset d t k (f (tget d t k))

/-- Removing every entry whose key satisfies `p`: those keys read as their default again. -/
def tclear (p : Nat → Bool) (t : Tbl α) : Tbl α := t.filter (fun e => !p e.1)

/-- A fixed-length run of consecutive keys, read in order. -/
def trange (d : α) (t : Tbl α) (k : Nat) : Nat → List α
  | 0 => []
  | n + 1 => tget d t k :: trange d t (k + 1) n

/-- Writing a list at consecutive keys, lowest key first. -/
def tput [DecidableEq α] (d : α) (t : Tbl α) (k : Nat) : List α → Tbl α
  | [] => t
  | v :: r => tput d (tset d t k v) (k + 1) r

/-- Insertion before the first element that `lt` puts after. -/
def insertBy (lt : α → α → Bool) (x : α) : List α → List α
  | [] => [x]
  | y :: r => if lt x y then x :: y :: r else y :: insertBy lt x r

/-- A stable sort. -/
def sortBy (lt : α → α → Bool) : List α → List α
  | [] => []
  | x :: r => insertBy (fun a b => !lt b a) x (sortBy lt r)

end Sys2Proof.Machine
end

