-- ==== Sys2Proof/Machine/Ops.lean ====
section
/-! DEFINITION. The named operations over the state that every meaning uses: unit identifiers (Table 15-1),
registers and fields (R10, R477), counters (R93), device memory (R7), time (R413), units, jobs and free values. -/
namespace Sys2Proof.Machine

/-! ### Unit identifiers (R478, Table 15-1) -/

/-- A unit identifier from its type and index. -/
def uid (t i : Nat) : Nat := t * 1024 + i
def utype (u : Nat) : Nat := u / 1024
def uindex (u : Nat) : Nat := u % 1024
def uSL (n : Nat) : Nat := uid 0x01 n
def uC (n : Nat) : Nat := uid 0x02 n
def uSE (n : Nat) : Nat := uid 0x03 n
def uNE (n : Nat) : Nat := uid 0x04 n
def uLOCK (n : Nat) : Nat := uid 0x05 n
def uSEQ (n : Nat) : Nat := uid 0x06 n
def uHUB (n : Nat) : Nat := uid 0x07 n
def uFA (n : Nat) : Nat := uid 0x08 n
def uTEN (n : Nat) : Nat := uid 0x09 n
def uUP (n : Nat) : Nat := uid 0x0A n
def uDDR (n : Nat) : Nat := uid 0x0B n
def uETH (n : Nat) : Nat := uid 0x0C n
def uCK (n : Nat) : Nat := uid 0x0D n
def uIN (n : Nat) : Nat := uid 0x0E n
def uFE (n : Nat) : Nat := uid 0x0F n
def uFUS : Nat := uid 0x10 0
def uINR : Nat := uid 0x11 0
def uAPX : Nat := uid 0x12 0
def uHART (n : Nat) : Nat := uid 0x13 n
def uBRG : Nat := uid 0x14 0
/-- A slice of the barge manager (R27), which has no identifier of its own in Table 15-1: slice 0 bears the manager's. -/
def sliceUnit (n : Nat) : Nat := uid 0x14 n
def uTMU : Nat := uid 0x15 0
def uSEC : Nat := uid 0x16 0
def uLKP : Nat := uid 0x17 0
def uSTREAM (n : Nat) : Nat := uid 0x18 n
def uQUEUE (n : Nat) : Nat := uid 0x19 n
def uJOB (n : Nat) : Nat := uid 0x1A n
/-- The device as a whole. -/
def uDEV : Nat := 0xFFFF

/-- How many indices each unit type has (Table 15-1). -/
def unitRange (t : Nat) : Nat :=
  match t with
  | 0x01 | 0x02 | 0x03 | 0x04 | 0x05 | 0x06 => 16
  | 0x07 | 0x08 | 0x09 | 0x0A => 4
  | 0x0B => 2
  | 0x0C => 5
  | 0x0D => 4
  | 0x0E => 24
  | 0x0F => 3
  | 0x10 | 0x11 | 0x12 => 1
  | 0x13 => 8
  | 0x14 | 0x15 | 0x16 | 0x17 => 1
  | 0x18 => 64
  | 0x19 => 512
  | 0x1A => 8
  | _ => 0

/-- A listed type with an index in its range, or the device (R478). -/
def unitValid (u : Nat) : Bool := u == uDEV || (u < 0x10000 && uindex u < unitRange (utype u))

/-! ### Clock islands (R26 to R32, Table 1-4) -/

/-- The sluice whose ingest queue a queue number names (queues 0 to 31, R27). -/
def sliceOfQueue (q : Nat) : Nat := if q < 32 then q % 16 / 4 else (q - 32) / 120

/-- The island of Table 1-4 that holds a unit, numbered in the table's order: 0 to 15 cores, 16 to 31 sluices, 32 to 35
arrays, 36 to 39 cluster hubs, 40 and 41 DDR5, 42 to 46 Ethernet MACs, 47 to 50 Canal links, 51 application complex, 52
inertial chain, 53 fusion engine, 54 Lockkeeper, 55 time unit, 56 security engine; 57 debug, 58 boot and fuse and 59 the
regulator supervisor hold no unit of Table 15-1. Streams and queues stand in the slices of the barge manager (R27). -/
def islandOf (u : Nat) : Option Nat :=
  let i := uindex u
  match utype u with
  | 0x02 | 0x03 | 0x04 | 0x05 | 0x06 => some i
  | 0x01 => some (16 + i)
  | 0x08 => some (32 + i)
  | 0x07 | 0x09 | 0x0A | 0x14 => some (36 + i)
  | 0x0B => some (40 + i)
  | 0x0C => some (42 + i)
  | 0x0D => some (47 + i)
  | 0x12 | 0x13 => some 51
  | 0x0E | 0x0F | 0x11 => some 52
  | 0x10 => some 53
  | 0x17 => some 54
  | 0x15 => some 55
  | 0x16 => some 56
  | 0x18 => some (36 + i / 16)
  | 0x19 => some (36 + sliceOfQueue i)
  | _ => none

/-- The clock of an island in kHz at nominal operation (Table 1-4). -/
def islandKhz (i : Nat) : Nat :=
  if i < 16 then 1250000 else if i < 32 then 625000 else if i < 36 then 1100000 else if i < 40 then 1250000
  else if i < 42 then 1600000 else if i < 46 then 125000 else if i < 47 then 312500 else if i < 51 then 390625
  else if i = 51 then 2000000 else if i = 52 then 200000 else if i = 53 then 1000000 else if i = 54 then 400000
  else if i ≤ 56 then 800000 else if i ≤ 58 then 100000 else if i = 59 then 25000 else 0

/-- The island of a unit has its clock: a stopped one takes no word, and its crossings hold every sender back (R32). -/
def islandRuns (s : State) (u : Nat) : Bool := (islandOf u).all (fun i => !s.pwr.stopped.contains i)

/-- Work from outside the chip reaches the crossings of a unit's island, which restarts (R624). -/
def wakeIsland (u : Nat) (s : State) : State :=
  if islandRuns s u then s
  else { s with pwr := { s.pwr with stopped := s.pwr.stopped.filter (fun i => some i != islandOf u) } }

/-- A word passes a crossing into a unit (R30): on a parity failure the crossing's counter counts it, and the word goes on
with its poison tag set. -/
def crossParity (u : Nat) (bad : Bool) (s : State) : State :=
  if bad then { s with mem := { s.mem with crossings := tset 0 s.mem.crossings u (satU 32 (tget 0 s.mem.crossings u + 1)) } }
  else s

/-! ### Registers (R10, R477, R493) -/

/-- The key of a transfer word. -/
def regKey (unit reg entry word : Nat) : Nat := ((unit * 65536 + reg) * 65536 + entry) * 32 + word

/-- The micro-code words after reset (R188, Table 5-11). -/
def ucodeReset (a : Nat) : Nat :=
  match a with
  | 0 | 8 => 0x50000000
  | 1 | 9 => 0x12260001
  | 2 | 10 => 0x30270000
  | 3 | 11 => 0x10044000
  | 4 | 12 => 0x800B0000
  | 5 | 13 => 0x30094005
  | 6 | 14 => 0x60004000
  | 7 => 0x70C94001
  | 15 => 0x70CA4000
  | _ => 0

/-- The reset value of a transfer word of one unit's structure: the Reset columns, with the fields whose reset
depends on the unit or entry (Table 5-10, R188, Table 14-2). -/
def regReset (unit reg entry word : Nat) : Nat :=
  if reg = 0x0404 ∧ word = 0 then
    resetWord reg word + (if entry = 0 then 0x4000800 else if entry = 1 then 0x4000808 else 0)
  else if reg = 0x0406 then ucodeReset entry
  else if reg = 0x0B01 ∧ word = 0 then resetWord reg word + (if unit = uETH 0 ∨ unit = uETH 1 then 1 else 0)
  else resetWord reg word

/-- The value an unlisted transfer word reads as: its reset value. -/
def regDefault (k : Nat) : W64 :=
  BitVec.ofNat 64 (regReset (k / (32 * 65536 * 65536)) ((k / (32 * 65536)) % 65536) ((k / 32) % 65536) (k % 32))

/-- A transfer word as stored. -/
def regWord (s : State) (unit reg entry word : Nat) : Nat := (fget regDefault s.regs (regKey unit reg entry word)).toNat

/-- Storing a transfer word. -/
def setRegWord (s : State) (unit reg entry word v : Nat) : State :=
  { s with regs := fset regDefault s.regs (regKey unit reg entry word) (BitVec.ofNat 64 v) }

/-- The transfer words whose key satisfies `p` back at their reset values. -/
def regsClear (p : Nat → Bool) (s : State) : State := { s with regs := tclear p s.regs }

/-- A field of entry `e` of a unit's structure. -/
def rd (s : State) (unit : Nat) (f : Fld) (e : Nat := 0) : Nat :=
  if f.lo + f.width ≤ 64 then bits (regWord s unit f.reg e f.word) f.lo f.width
  else bits (regWord s unit f.reg e f.word + regWord s unit f.reg e (f.word + 1) * 2 ^ 64) f.lo f.width

/-- Writing a field that lies in one transfer word. -/
def wr (s : State) (unit : Nat) (f : Fld) (v : Nat) (e : Nat := 0) : State :=
  setRegWord s unit f.reg e f.word (setBits (regWord s unit f.reg e f.word) f.lo f.width v)

/-- A one-bit field. -/
def rdB (s : State) (unit : Nat) (f : Fld) (e : Nat := 0) : Bool := rd s unit f e == 1

/-- A field of a structure held as a list of transfer words (a descriptor in memory, a write under check). -/
def fldOf (ws : List Nat) (f : Fld) : Nat :=
  bits (ws.getD f.word 0 + ws.getD (f.word + 1) 0 * 2 ^ 64) f.lo f.width

/-- The transfer words of an entry, in order. -/
def entryWords (s : State) (unit reg entry n : Nat) : List Nat := (upto n).map (regWord s unit reg entry)

/-! ### Counters (R93, Table 15-6) -/

/-- The key of a counter: unit, block, entry, word. -/
def cntKey (unit block entry word : Nat) : Nat := ((unit * 65536 + block) * 65536 + entry) * 64 + word

/-- A hardware counter. -/
def counter (s : State) (unit block word : Nat) (entry : Nat := 0) : Nat := tget 0 s.cnt (cntKey unit block entry word)

/-- Adding to a counter: 32 bits, saturating (R93). -/
def bumpN (n unit block word : Nat) (s : State) (entry : Nat := 0) : State :=
  { s with cnt := tset 0 s.cnt (cntKey unit block entry word) (satU 32 (counter s unit block word entry + n)) }

/-- Counting one. -/
def bump (unit block word : Nat) (s : State) (entry : Nat := 0) : State := bumpN 1 unit block word s entry

/-! ### Device memory (R7) -/

/-- What an unlisted byte of cluster SRAM or DDR5 reads as: the fill value of R557. -/
def ramDefault : Byte := 0

/-- One byte of memory by physical address. -/
def ramByte (s : State) (a : Nat) : Byte := tget ramDefault s.ram a

/-- `n` bytes from an address. -/
def ramBytes (s : State) (a n : Nat) : List Byte := trange ramDefault s.ram a n

/-- A little-endian number of `n` bytes. -/
def ramNat (s : State) (a n : Nat) : Nat := leVal (ramBytes s a n)

/-- The bytes that share one poison tag when they are read: a 32-bit word of SRAM (R551), a line of DDR5 (R555). -/
def tagGrain (a : Nat) : Nat := if a < 0x1000000000 then 64 else 4

/-- A byte range read with its poison tag set: a byte of a word or line that it touches is a poison marker. -/
def ramBad (s : State) (a n : Nat) : Bool :=
  let g := tagGrain a
  s.ramPoison.any (fun e => decide (a / g * g ≤ e.1 ∧ e.1 < (a + n + g - 1) / g * g))

/-- The bytes that a tagged write of a range poisons: those it names in SRAM (R552), every line it touches in DDR5 (R555). -/
def tagSpan (a n : Nat) : Nat × Nat :=
  if a < 0x1000000000 then (a / 64 * 64, (a + n + 63) / 64 * 64 - a / 64 * 64) else (a, n)

/-- The poison markers of a byte range set, or overwritten by good bytes. -/
def setRamBad (s : State) (a n : Nat) (bad : Bool) : State :=
  { s with ramPoison :=
      if bad then (upto (tagSpan a n).2).foldl (fun t i => tset false t ((tagSpan a n).1 + i) true) s.ramPoison
      else tclear (fun k => decide (a ≤ k ∧ k < a + n)) s.ramPoison }

/-- Storing bytes, lowest address first: the bytes written lose their poison (R552). -/
def ramPut (s : State) (a : Nat) (l : List Byte) : State :=
  setRamBad { s with ram := tput ramDefault s.ram a l } a l.length false

/-- Bytes from an address cleared to zero, the fill value, with their poison. -/
def ramClear (s : State) (a n : Nat) : State :=
  setRamBad { s with ram := tclear (fun x => decide (a ≤ x ∧ x < a + n)) s.ram } a n false

/-- Storing a little-endian number of `n` bytes. -/
def ramPutNat (s : State) (a n v : Nat) : State := ramPut s a (leBytes n v)

/-- `n` transfer words from an address. -/
def ramWords (s : State) (a n : Nat) : List Nat := (upto n).map (fun i => ramNat s (a + 8 * i) 8)

/-! ### Time (R413) -/

/-- Device time in ns. -/
def now (s : State) : Nat := s.time.sec * 1000000000 + s.time.ns

/-- Device time in µs, for stamps (R9). -/
def nowUs (s : State) : Nat := now s / 1000

/-! ### Units and jobs -/

/-- The record of a unit. -/
def unitOf (s : State) (u : Nat) : UnitRec := tget {} s.dev.units u

/-- Changing the record of a unit. -/
def setUnit (s : State) (u : Nat) (r : UnitRec) : State :=
  { s with dev := { s.dev with units := tset {} s.dev.units u r } }

/-- A job. -/
def jobOf (s : State) (j : Nat) : Job := tget {} s.dev.jobs j

/-- Changing a job. -/
def setJob (s : State) (j : Nat) (r : Job) : State :=
  { s with dev := { s.dev with jobs := tset {} s.dev.jobs j r } }

/-- Job `j` is running. -/
def jobRuns (s : State) (j : Nat) : Bool := (jobOf s j).run

/-- JOB_RUN of Table 1-5. -/
def jobRunMask (s : State) : Nat := ((upto 8).map (fun j => if jobRuns s j then 2 ^ j else 0)).sum

/-- A job is running. -/
def anyJob (s : State) : Bool := jobRunMask s != 0

/-- Units now quarantined. -/
def quarCount (s : State) : Nat := (s.dev.units.filter (fun e => e.2.st == .quarantined)).length

/-- A unit is quarantined. -/
def anyQuar (s : State) : Bool := quarCount s != 0

/-- DEVICE_STATE coded as Table 1-5. -/
def stateCode : DevState → Nat
  | .boot => 0 | .bringup => 1 | .idle => 2 | .loaded => 3 | .running => 4 | .degraded => 5 | .safe => 6

/-- The level driven on SAFE_N (R615): high only in IDLE, LOADED, RUNNING and DEGRADED at PL0 or PL1, and
low while the enables are (R659). -/
def safeNHigh (s : State) : Bool :=
  decide (s.dev.level ≤ 1) && s.pwr.enCore && (match s.dev.state with | .idle | .loaded | .running | .degraded => true | _ => false)

/-- The state word LKP_STATE (R33). -/
def lkpState (s : State) : Nat :=
  stateCode s.dev.state + jobRunMask s * 2 ^ 8 + min (quarCount s) 255 * 2 ^ 16
    + b2n (s.dev.units.any (fun e => e.2.conflict)) * 2 ^ 24 + b2n (safeNHigh s) * 2 ^ 25

/-- UNIT_STATE coded as UNIT_STATUS_GET. -/
def unitCode : UnitSt → Nat
  | .unused => 0 | .assigned => 1 | .spare => 2 | .quarantined => 3 | .failed => 4

/-- A readiness bit (Table 16-3). -/
def readyBit (s : State) (i : Nat) : Bool := bit s.dev.ready i

/-- Setting or clearing a readiness bit. -/
def setReady (i : Nat) (v : Bool) (s : State) : State :=
  { s with dev := { s.dev with ready := setBits s.dev.ready i 1 (b2n v) } }

/-! ### Free values -/

/-- Drawing a free value of `w` bits: nothing in the model constrains it (the spec leaves the value open). -/
def drawFree (w : Nat) (s : State) : Nat × State :=
  ((Config.freeValue s.freeCount).toNat % 2 ^ w, { s with freeCount := s.freeCount + 1 })

/-! ### Outcome -/

/-- A command whose effect is always a next state. -/
abbrev Out := Host.Outcome State Fault Refusal

end Sys2Proof.Machine
end

