-- ==== Sys2Proof/Machine/Notices.lean ====
section
/-! DEFINITION. Messages from the device: the Towline header (Table 14-4), where a message goes, notices and their
log (R464, R465), changes of DEVICE_STATE (R34). -/
namespace Sys2Proof.Machine

/-- An Ethernet port. -/
def ethOf (s : State) (p : Nat) : EthPort := tget {} s.tow.ports p

/-- Changing an Ethernet port. -/
def setEth (s : State) (p : Nat) (e : EthPort) : State :=
  { s with tow := { s.tow with ports := tset {} s.tow.ports p e } }

/-- The port's ROLE is HOST (Table 14-2). -/
def isHost (s : State) (p : Nat) : Bool := rd s (uETH p) TOW_PORT.ROLE == 1

/-- The host ports in order (R442). -/
def hostPorts (s : State) : List Nat := (upto 5).filter (isHost s)

/-- CNL_DEV.HEAD: a HOST port has its PHY up (Table 6-8). -/
def isHead (s : State) : Bool := (hostPorts s).any (fun p => (ethOf s p).phyUp)

/-- CNL_DEV.DEV_ID. -/
def devId (s : State) : Nat := rd s uDEV CNL_DEV.DEV_ID

/-- The HOLDER code of a link (Table 14-7); a portal never holds the helm. -/
def linkCode : Link → Nat
  | .port p => p
  | .relay p => 8 + p
  | .portal _ => 14

/-- The fields of a message header that its sender chooses. -/
structure TowHdr where
  kind : Nat
  cls : Nat
  berth : Nat := 0
  relay : Bool := false
  code : Nat := 0
  seq : Nat := 0
  status : Nat := 0
  helm : Bool := false
  origin : Option Nat := none
deriving DecidableEq, Repr

/-- The ROM speaks: in BOOT, and in SAFE entered from BOOT (R38, R527). -/
def romServes (s : State) : Bool := s.dev.state == .boot || s.dev.romSafe

/-- The bytes of a message from the device (Table 14-4, R450): header with CRC-32C, then the payload. The ROM replies
with DEV, HELM_EPOCH and HELM 0 (R527). -/
def towBytes (s : State) (h : TowHdr) (payload : List Byte) : List Byte :=
  let dev := if romServes s then 0 else devId s + b2n h.relay * 64
  let front := beBytes 2 0x5457 ++ beBytes 1 1 ++ beBytes 1 (h.kind * 16 + h.cls % 4) ++ beBytes 1 (h.berth % 16)
    ++ beBytes 1 dev ++ beBytes 2 h.code ++ beBytes 4 h.seq ++ beBytes 2 h.status
    ++ beBytes 2 ((if romServes s then 0 else b2n h.helm * 2) + b2n (s.dev.state == .safe))
    ++ beBytes 2 payload.length ++ beBytes 1 (match h.origin with | some p => 16 + p | none => 0) ++ beBytes 1 0
    ++ beBytes 4 (lkpState s) ++ beBytes 4 (if romServes s then 0 else s.tow.epoch)
  let crc := crc32c (front ++ beBytes 4 0 ++ payload)
  front ++ beBytes 4 crc ++ payload

/-- Appending to a port's transmit queue of strict precedence `q` (R447): 0 alarm, 1 PTP, 2 to 4 classes 1 to 3. -/
def enqueue (p q : Nat) (m : TxMsg) (s : State) : State :=
  let e := ethOf s p
  setEth s p (match q with
    | 0 => { e with q0 := e.q0 ++ [m] }
    | 1 => { e with q1 := e.q1 ++ [m] }
    | 2 => { e with q2 := e.q2 ++ [m] }
    | 3 => { e with q3 := e.q3 ++ [m] }
    | _ => { e with q4 := e.q4 ++ [m] })

/-- The transmit queue of a Towline class (R447, R452): class 0 leaves as class 1. -/
def classQueue (cls : Nat) : Nat := if cls ≤ 1 then 2 else if cls = 2 then 3 else 4

/-- The link that TOW_ROUTE names for a device, or the one its latest message came on (R468). -/
def routeTo (s : State) (dst : Nat) : Option (Nat × Bool) :=
  if rdB s uDEV TOW_ROUTE.VALID dst then some (rd s uDEV TOW_ROUTE.LINK dst, rdB s uDEV TOW_ROUTE.DIRECT dst)
  else match tget 0 s.tow.lastFrom dst with
    | 0 => none
    | k + 1 => some (k, false)

/-- Sending a message over the Canal links (R467), or counting its loss (R468). -/
def sendMgmt (dst : Nat) (bytes : List Byte) (s : State) : State :=
  match routeTo s dst with
  | none => bump uDEV 0x0B0F 11 s
  | some (k, direct) =>
    if ¬ (tget {} s.canal.links k).up then bump uDEV 0x0B0F 11 s else
    let m : MgmtMsg := { dst := dst, src := devId s, tag := s.tow.tag % 64, direct := direct, bytes := bytes }
    { s with tow := { s.tow with mgmtTx := tmod [] s.tow.mgmtTx k (· ++ [m]), tag := (s.tow.tag + 1) % 64 } }

/-- Sending a message of a class to a link: its port, or the head device, with the port there as ORIGIN (R455, R469). -/
def sendTo (l : Link) (kind : TxKind) (dst dstPort : Nat) (h : TowHdr) (payload : List Byte) (s : State) : State :=
  match l with
  | .port p =>
    let b := towBytes s { h with helm := s.tow.holder == p } payload
    enqueue p (classQueue h.cls) ⟨kind, dst, dstPort, b⟩ s
  | .relay p =>
    let b := towBytes s { h with
      relay := true, helm := s.tow.holder == 8 + p, origin := if kind = .notice then none else some p } payload
    sendMgmt s.tow.headDev b s
  | .portal _ => s

/-- The notification address of a port (R465). -/
def notifyIp (s : State) (p : Nat) : Nat :=
  if rdB s (uETH p) TOW_PORT.IPV6 then regWord s (uETH p) 0x0B01 0 4 * 2 ^ 64 + regWord s (uETH p) 0x0B01 0 5
  else rd s (uETH p) TOW_PORT.NOTIFY_IP4

/-- The notice block and its detail (Table 14-10). -/
def noticeBody (status unit time : Nat) (detail : List Byte) : List Byte :=
  beBytes 2 status ++ beBytes 2 unit ++ beBytes 8 time ++ beBytes 4 detail.length ++ detail

/-- Sending one notice on one port in class 1, with the port's notice count as SEQ (R465). -/
def noticeOnPort (code : Nat) (body : List Byte) (p : Nat) (s : State) : State :=
  let e := ethOf s p
  let s := setEth s p { e with noticeSeq := (e.noticeSeq + 1) % 2 ^ 32 }
  sendTo (.port p) .notice (notifyIp s p) (rd s (uETH p) TOW_PORT.NOTIFY_PORT)
    { kind := 2, cls := 1, code := code, seq := (e.noticeSeq + 1) % 2 ^ 32 } body s

/-- Sending one notice towards the head device, with the count of that link as SEQ (R469). -/
def noticeOnRelay (code : Nat) (body : List Byte) (p : Nat) (s : State) : State :=
  let n := (s.tow.relaySeq + 1) % 2 ^ 32
  sendTo (.relay p) .notice 0 0 { kind := 2, cls := 1, code := code, seq := n } body
    { s with tow := { s.tow with relaySeq := n } }

/-- Logging a notice: the last 256 are kept (R465). -/
def logNotice (code ports status unit : Nat) (detail : List Byte) (s : State) : State :=
  let n : Notice := ⟨(s.tow.logSeq + 1) % 2 ^ 32, code, ports, status, unit, now s, detail⟩
  { s with tow := { s.tow with log := (n :: s.tow.log).take 256, logSeq := (s.tow.logSeq + 1) % 2 ^ 32 } }

/-- NOTICE_SEND (R465): logged, and sent to every HOST port; a device behind the head sends it there as well. -/
def notice (code status unit : Nat) (detail : List Byte) (s : State) : State :=
  let ps := hostPorts s
  let body := noticeBody status unit (now s) detail
  let s := logNotice code ((ps.map (2 ^ ·)).sum) status unit detail s
  let s := ps.foldl (fun s p => noticeOnPort code body p s) s
  if isHead s then s
  else if s.tow.headDev = devId s then s
  else noticeOnRelay code body 0 s

/-- HELM_CHALLENGE goes to the holder only (R465). -/
def noticeToHolder (code unit : Nat) (detail : List Byte) (s : State) : State :=
  let body := noticeBody ST_OK unit (now s) detail
  let s := logNotice code (if s.tow.holder < 5 then 2 ^ s.tow.holder else 0) ST_OK unit detail s
  if s.tow.holder < 5 then noticeOnPort code body s.tow.holder s
  else noticeOnRelay code body (s.tow.holder - 8) s

/-- A change of DEVICE_STATE with its STATE notice of 4 bytes (Table 14-10a). -/
def setState (d : DevState) (s : State) : State :=
  if s.dev.state = d then s else
  let old := s.dev.state
  let s := { s with dev := { s.dev with state := d } }
  notice NT_STATE ST_OK uDEV (beBytes 1 (stateCode old) ++ beBytes 1 (stateCode d) ++ beBytes 2 0) s

/-- The state that running jobs and quarantined units give (Table 1-6): LOADED, RUNNING or DEGRADED. -/
def settleState (s : State) : State :=
  match s.dev.state with
  | .loaded | .running | .degraded =>
    setState (if anyJob s then (if anyQuar s then .degraded else .running) else .loaded) s
  | _ => s

/-- The UNIT notice of a unit-state event (Table 14-10a, 16 bytes). -/
def unitNotice (kind status u cause other : Nat) (s : State) : State :=
  let r := unitOf s u
  notice NT_UNIT status u (beBytes 1 kind ++ beBytes 1 (unitCode r.st) ++ beBytes 1 r.job ++ beBytes 1 r.vstep
    ++ beBytes 1 r.fstep ++ beBytes 1 cause ++ beBytes 2 other ++ beBytes 8 0) s

/-- The LINK notice (Table 14-10a, 8 bytes). -/
def linkNotice (kind index event lanes peer flags status : Nat) (s : State) : State :=
  notice NT_LINK status (if kind = 0 then uETH index else uCK index)
    (beBytes 1 kind ++ beBytes 1 index ++ beBytes 1 event ++ beBytes 1 lanes ++ beBytes 1 peer ++ beBytes 1 flags
      ++ beBytes 2 0) s

end Sys2Proof.Machine
end

