-- ==== Sys2Proof/Machine/Barge.lean ====
section
/-! DEFINITION. Barge queues (file 12): the three parts of a queue, packets, rewinds, pops, retention and portals. -/
namespace Sys2Proof.Machine

/-- BRG_CNT (Table 12-8). -/
def brgBump (q w : Nat) (s : State) : State := bump (uQUEUE q) 0x090F w s

/-- A queue. -/
def queueOf (s : State) (q : Nat) : Queue := tget {} s.brg q

/-- A sluice. -/
def sluOf (s : State) (n : Nat) : Sluice := tget {} s.slu n

/-- A field of a sluice's registers as its datapath uses it: while the port runs, SLU_FLT, SLU_TAL and SLU_QUE act as they
stood at the last packet boundary (R91). -/
def sl (s : State) (n : Nat) (f : Fld) : Nat :=
  match (if rdB s (uSL n) SLU_PORT.ENABLE then tget none (sluOf s n).held f.reg else none) with
  | some ws => fldOf ws f
  | none => rd s (uSL n) f

/-- Queue `q` is an ingest queue of R388, and its sluice: queue n, or 16 + n while SLn has a second home core. -/
def ingestSluice (s : State) (q : Nat) : Option Nat :=
  if q < 16 then some q
  else if q < 32 ∧ rd s (uSL (q - 16)) SLU_PORT.SPLIT_ROW ≠ 0 then some (q - 16) else none

/-- The home core of an ingest queue as a core index 0 to 15 (R404). -/
def homeCore (s : State) (q : Nat) : Nat :=
  let n := q % 16
  (n / 4) * 4 + (if q < 16 then rd s (uSL n) SLU_PORT.HOME0 else rd s (uSL n) SLU_PORT.HOME1) % 4

/-- SP_EN of a job's LKP_SPJOB (Table 18-2). -/
def spEn (s : State) (j : Nat) : Bool := bit (jobOf s j).spjob0 0

/-- BRG_Q.ENABLE, following the sluice in an ingest queue (R404). -/
def qEnable (s : State) (q : Nat) : Bool :=
  match ingestSluice s q with
  | some n => rdB s (uSL n) SLU_PORT.ENABLE
  | none => rdB s (uQUEUE q) BRG_Q.ENABLE

def qProd (s : State) (q : Nat) : Nat :=
  match ingestSluice s q with | some _ => 0 | none => rd s (uQUEUE q) BRG_Q.PROD
def qCons (s : State) (q : Nat) : Nat :=
  match ingestSluice s q with | some _ => 0 | none => rd s (uQUEUE q) BRG_Q.CONS
def qConsUnit (s : State) (q : Nat) : Nat :=
  match ingestSluice s q with | some _ => homeCore s q | none => rd s (uQUEUE q) BRG_Q.CONS_UNIT
def qJob (s : State) (q : Nat) : Nat :=
  match ingestSluice s q with | some _ => (unitOf s (uC (homeCore s q))).job | none => rd s (uQUEUE q) BRG_Q.JOB
def qSpillTgt (s : State) (q : Nat) : Nat :=
  match ingestSluice s q with | some n => sl s n SLU_QUE.SPILL_TGT | none => rd s (uQUEUE q) BRG_Q.SPILL_TGT
def qSpillMib (s : State) (q : Nat) : Nat :=
  match ingestSluice s q with
  | some n => sl s n SLU_QUE.SPILL_LIMIT_MIB
  | none => rd s (uQUEUE q) BRG_Q.SPILL_LIMIT_MIB
def qRetain (s : State) (q : Nat) : Bool :=
  match ingestSluice s q with | some _ => spEn s (qJob s q) | none => rdB s (uQUEUE q) BRG_Q.RETAIN
def qMaxPkt (s : State) (q : Nat) : Nat :=
  match ingestSluice s q with | some _ => 256 | none => rd s (uQUEUE q) BRG_Q.MAX_PKT_M1 + 1

/-- A physical address of DDR5 or cluster SRAM (Table 11-2). -/
def inRam (a : Nat) : Bool := a < 0x1004000000

/-- The memory at a physical address has reported ready: its DDR5 channel, or the hub of its cluster SRAM (R369, R411). -/
def memReady (s : State) (a : Nat) : Bool :=
  if a < 0x0800000000 then readyBit s RB_DDR
  else if a < 0x1000000000 then readyBit s (RB_DDR + 1)
  else if a < 0x1004000000 then readyBit s (RB_HUB + (a - 0x1000000000) / 0x1000000)
  else false

/-- The middle of a queue is usable (R89, R391, R411): SPILL_BASE lies in the memory that SPILL_TGT selects, and that memory
has reported ready. DESIGN CHOICE: a queue whose SPILL_BASE lies in the other memory has no middle. -/
def middleReady (s : State) (q : Nat) : Bool :=
  let a := rd s (uQUEUE q) BRG_Q.SPILL_BASE
  decide ((qSpillTgt s q = 1) = (a < 0x1000000000)) && memReady s a

/-- The capacity C in words (R391): the middle counts only while its memory is ready. -/
def qCap (s : State) (q : Nat) : Nat := if middleReady s q then 128 + qSpillMib s q * 262144 else 128

/-- Retained words (R403): retained packets and the popped words of a packet not fully popped. -/
def retainedWords (v : Queue) : Nat := ((v.retained.map (fun r => r.words.length)).sum) + v.cur.length

/-- Words of a queue that count towards fullness (R391). -/
def fullWords (v : Queue) : Nat := v.ws.length + retainedWords v
def qOcc (s : State) (q : Nat) : Nat := fullWords (queueOf s q)

/-- The decimation of R90: active from 7/8 of the limit until below 3/4. -/
def ovfActive (was : Bool) (occ limit : Nat) : Bool :=
  if limit * 7 ≤ occ * 8 then true else if occ * 4 < limit * 3 then false else was

/-- OVF_POLICY of the sluice that fills a queue is DECIMATE. -/
def ovfDecimates (s : State) (q : Nat) : Bool :=
  match ingestSluice s q with | some n => sl s n SLU_QUE.OVF_POLICY == 1 | none => false

/-- Whether an ingest queue decimates, judged on its content as it stands (R90). -/
def ovfNow (s : State) (q : Nat) (v : Queue) : Bool := ovfDecimates s q && ovfActive v.decim (fullWords v) (qCap s q - 16)

/-- Changing a queue: every change of its occupancy starts or ends the decimation of R90. -/
def setQueue (s : State) (q : Nat) (v : Queue) : State :=
  { s with brg := tset {} s.brg q { v with decim := ovfNow s q v, toggle := ovfNow s q v && v.toggle } }

/-- Committed words not yet popped. -/
def committedWords (v : Queue) : Nat := v.ws.length - v.openN

/-- Committed packets not fully popped (AVAIL_PKTS). -/
def availPkts (v : Queue) : Nat := ((v.ws.take (committedWords v)).filter (·.last)).length

/-- Words pass from the tail straight to the head while the middle is empty and the head has room (R390). -/
def settleQ (v : Queue) : Queue :=
  if v.midN = 0 then { v with headN := min 64 v.ws.length } else v

/-- Words in the tail registers. -/
def tailN (v : Queue) : Nat := v.ws.length - v.headN - v.midN

/-- A line may move from the tail to the middle (R390). -/
def lineReady (v : Queue) : Bool := (v.headN == 64 || v.midN != 0) && 16 ≤ tailN v

/-- The address of middle line `i` of a queue: a ring of 64-byte lines at SPILL_BASE (R389). -/
def lineAddr (s : State) (q i : Nat) : Nat :=
  rd s (uQUEUE q) BRG_Q.SPILL_BASE + (i % max 1 (qSpillMib s q * 16384)) * 64

/-- The address of its side entry, directly after the middle (R391). -/
def sideAddr (s : State) (q i : Nat) : Nat :=
  rd s (uQUEUE q) BRG_Q.SPILL_BASE + qSpillMib s q * 1048576 + (i % max 1 (qSpillMib s q * 16384)) * 8

/-- The side entry of a line (Table 12-1). -/
def sideEntry (l : List QWord) : Nat :=
  let m (f : QWord → Bool) : Nat := ((l.zipIdx).map (fun e => if f e.1 then 2 ^ e.2 else 0)).sum
  m (fun w => parity 32 w.w == 1) + m (·.last) * 2 ^ 16 + m (·.poison) * 2 ^ 32

/-- The entries before line `i` of the side line it belongs to: the register holds them, but for those of a line that a rewind
has gone back to, which come from memory again. -/
def sideBefore (s : State) (q i : Nat) : List Nat :=
  let v := queueOf s q
  if i % 8 ≤ v.side.length then v.side.take (i % 8)
  else (upto (i % 8)).map (fun k => ramNat s (sideAddr s q (i - i % 8 + k)) 8)

/-- One line of 16 words moves from the tail to the middle (R390); its side entry joins the side line, which is written whole with
its eighth entry (R392). -/
def moveLine (q : Nat) (s : State) : State :=
  let v := queueOf s q
  let line := (v.ws.drop (v.headN + v.midN)).take 16
  let i := v.midIx + v.midN / 16
  let side := sideBefore s q i ++ [sideEntry line]
  let full : Bool := i % 8 == 7
  let s := ramPut s (lineAddr s q i) (line.flatMap (fun w => leBytes 4 w.w))
  let s := if full then ramPut s (sideAddr s q (i - 7)) (side.flatMap (leBytes 8)) else s
  brgBump q 10 (setQueue s q { v with midN := v.midN + 16, side := if full then [] else side })

/-- A queue without its open packet (R395): the words are freed from the back. DEDUCED: words that stay of a line of the middle no
longer make a whole line, and stand in the tail again (R390). -/
def dropOpen (v : Queue) : Queue :=
  let n := v.ws.length - v.openN
  let h := min v.headN n
  settleQ { v with ws := v.ws.take n, headN := h, midN := min v.midN (n - h) / 16 * 16, openN := 0 }

/-- The rewind of the open packet (R395), counted by its cause. -/
def rewind (q cause : Nat) (s : State) : State := brgBump q cause (setQueue s q { dropOpen (queueOf s q) with rewound := true })

/-- The words that the producer has written of its present packet, those of a bad one included. -/
def packetLen (v : Queue) : Nat := v.openN + v.badN

/-- Marking the last word of the open packet. -/
def markLast : List QWord → List QWord
  | [] => []
  | [w] => [{ w with last := true }]
  | w :: r => w :: markLast r

/-- A pending guest interrupt (R384): an identity already pending absorbs the MSI. -/
def raiseMsi (job hart ident : Nat) (s : State) : State :=
  { s with apx := { s.apx with msi := tset false s.apx.msi ((job * 8 + hart) * 1024 + ident) true } }

/-- One notice to the consumer of a committed packet (R402), to the hart that BRG_Q named when the packet opened (R405). -/
def queueNotice (q : Nat) (s : State) : State :=
  let s := brgBump q 2 s
  if qCons s q = 2 then
    if (queueOf s q).noteEn then raiseMsi (qJob s q) (fldOf (queueOf s q).opn BRG_Q.NOTE_HART) (128 + q) s else s
  else s

/-- A packet that went bad ends: what the producer writes next opens a new one (R395). -/
def endBad (v : Queue) : Queue := { v with bad := false, badN := 0 }

/-- The producer's packet ends. Commit of the open packet (R394): its last word is marked, the consumer sees it, one notice goes. -/
def commitQ (q : Nat) (s : State) : State :=
  let v := queueOf s q
  if v.bad then setQueue s q (endBad v)
  else if v.openN = 0 then s else
  let s := setQueue s q { v with ws := markLast v.ws, openN := 0 }
  queueNotice q (bumpN v.openN (uQUEUE q) 0x090F 1 (brgBump q 0 s))

/-- BRG_Q as it stands (R405). -/
def brgWords (s : State) (q : Nat) : List Nat := entryWords s (uQUEUE q) 0x0901 0 4

/-- The queue as a word of its producer finds it: the first of a packet opens one, which keeps BRG_Q and the time (R394, R405). -/
def openQ (s : State) (q : Nat) : Queue :=
  let v := queueOf s q
  if packetLen v = 0 then { v with openAt := now s, opn := brgWords s q } else v

/-- A word appended to the open packet, opening one if none is open (R394). -/
def appendQ (q : Nat) (w : QWord) (s : State) : State :=
  let v := openQ s q
  let v := settleQ { v with ws := v.ws ++ [{ w with inj := fldOf v.opn BRG_Q.INJ_CLASS }], openN := v.openN + 1 }
  let s := setQueue s q v
  if 64 < tailN v ∧ lineReady v then moveLine q s else s

/-- The open packet goes bad, if there is one, with the words the producer has written of it (R395); what the producer still writes
for it is discarded when `more` follows. -/
def spoil (q cause : Nat) (more : Bool) (n : Nat) (s : State) : State :=
  let s := rewind q cause s
  setQueue s q { queueOf s q with bad := more, badN := if more then n else 0 }

/-- A word that a producer writes (R395, R396): `last` ends the packet. -/
def writeQ (q : Nat) (w : QWord) (last : Bool) (s : State) : State :=
  let v := queueOf s q
  if v.bad then setQueue s q (if last then endBad v else { v with badN := v.badN + 1 })
  else if ¬ qEnable s q then s
  else if qMaxPkt s q ≤ v.openN then spoil q 5 (!last) (v.openN + 1) s
  else if qCap s q ≤ qOcc s q then
    if qProd s q = 2 then spoil q 5 (!last) (v.openN + 1) (brgBump q 8 s) else s
  else
    let s := appendQ q w s
    if last then commitQ q s else s

/-- The open packet goes bad (R395); what its producer still writes for it is discarded. -/
def markBad (q cause : Nat) (more : Bool) (s : State) : State :=
  if (queueOf s q).openN = 0 then s else spoil q cause more (queueOf s q).openN s

/-- The commit window of a job at this moment: device time divided by WIN (R241). -/
def jobWindow (s : State) (j : Nat) : Nat := now s / (max 1 (rd s uDEV CNL_JOB.WIN_US j) * 1000)

/-- A residue mismatch in a unit of a job (R579): the first of each commit window is reported to the Lockkeeper, which keeps the
job and the window it named. -/
def reportResidue (u j : Nat) (s : State) : State :=
  if tget none s.mem.residues u = some (j, jobWindow s j) then s
  else { s with mem := { s.mem with residues := tset none s.mem.residues u (some (j, jobWindow s j)) } }

/-- Freeing the retained packets of windows that satisfy `p` (R403). -/
def freeRetained (q : Nat) (p : Nat → Bool) (s : State) : State :=
  let v := queueOf s q
  let (gone, kept) := v.retained.partition (fun r => p r.window)
  bumpN gone.length (uQUEUE q) 0x090F 11 (setQueue s q { v with retained := kept })

/-- The consumer's pop of one committed word from the head (R398, R399): the word with its tags and whether it is
the first of its packet. `parBad` is the result of the parity check at the read. -/
def popQ (q : Nat) (parBad : Bool) (s : State) : Option (QWord × Bool) × State :=
  let v := queueOf s q
  match v.ws with
  | [] => (none, s)
  | w :: r =>
    if committedWords v = 0 ∨ v.headN = 0 then (none, s) else
    let w' := { w with poison := w.poison || parBad }
    let keep := qRetain s q
    let cur := if keep then v.cur ++ [w'] else []
    let ret := if keep ∧ w.last then v.retained ++ [⟨jobWindow s (qJob s q), cur⟩] else v.retained
    let v' := settleQ { v with
      ws := r, headN := v.headN - 1, popMid := !w.last,
      cur := if w.last then [] else cur, retained := ret }
    let s := setQueue s q v'
    (some (w', !v.popMid), if parBad then brgBump q 6 s else s)

/-- What an engine consumer takes next: the word already popped for it, or a pop. -/
def takeQ (q : Nat) (s : State) : Option QWord × State :=
  let v := queueOf s q
  match v.latched with
  | w :: r => (some w, setQueue s q { v with latched := r })
  | [] => let (r, s) := popQ q false s; (r.map (·.1), s)

/-- The middle of a queue can take lines. -/
def spills (s : State) (q : Nat) : Bool := middleReady s q && qSpillMib s q != 0

/-- A line of the middle reaches the head registers (R390, R401). An uncorrectable error poisons its committed words (R399); it
rewinds an open packet that has words in the line, and so does a word of that packet that fails its parity check at the move, as
`parBad` says (R395). A committed word is checked when the consumer reads it (R399). -/
def readLine (q : Nat) (parBad : Bool) (s : State) : State :=
  let v := queueOf s q
  if v.midN = 0 ∨ 64 < v.headN + 16 then s else
  let n := min 16 v.midN
  let bad := ramBad s (lineAddr s q v.midIx) 64
  let inLine := v.headN + n
  let com := committedWords v
  let hit := if bad then min inLine com - min v.headN com else 0
  let ws := if bad then (v.ws.zipIdx).map (fun e =>
      if v.headN ≤ e.2 ∧ e.2 < inLine ∧ e.2 < com then { e.1 with poison := true } else e.1) else v.ws
  let s := setQueue s q { v with ws := ws, headN := v.headN + n, midN := v.midN - n, midIx := v.midIx + 1 }
  let s := bumpN hit (uQUEUE q) 0x090F 7 s
  let s := if (bad ∨ parBad) ∧ com < inLine then markBad q 4 true s else s
  setQueue s q (settleQ (queueOf s q))

/-- The line that would move next holds words of the open packet. -/
def lineOpen (v : Queue) : Bool := decide (committedWords v < v.headN + v.midN + 16)

/-- MIDDLE_LINE_WRITE (R390); a word of the open packet that fails its parity check at the move rewinds the packet (R395). -/
def middleLineWrite (q : Nat) (parBad : Bool) (s : State) : State :=
  let v := queueOf s q
  if ¬ lineReady v ∨ ¬ spills s q then s
  else if parBad ∧ lineOpen v then markBad q 4 true s
  else moveLine q s

/-- MIDDLE_LINE_READ (R390). -/
def middleLineRead (q : Nat) (parBad : Bool) (s : State) : State := readLine q parBad s

/-- CANAL_CLOSE_TIMEOUT (R397), under the CLOSE_US that the packet opened with (R405). -/
def canalClose (q : Nat) (s : State) : State :=
  let v := queueOf s q
  if qProd s q = 1 ∧ 2 ≤ packetLen v ∧ v.openAt + fldOf v.opn BRG_Q.CLOSE_US * 1000 ≤ now s then commitQ q s else s

/-- The writer's packet ends after the CLOSE_WORDS that it opened with (R397, R405). -/
def closeFull (q : Nat) (s : State) : State :=
  if fldOf (queueOf s q).opn BRG_Q.CLOSE_WORDS ≤ packetLen (queueOf s q) then commitQ q s else s

/-- A Canal copy as KEY and PAYLOAD words; CLOSE_WORDS closes the packet (R396, R397), and the copies of a bad one are discarded
(R395). False when the queue is full: the writer holds back-pressure. -/
def canalToQueue (q : Nat) (key payload : Nat) (poison : Bool) (s : State) : Bool × State :=
  let v := queueOf s q
  if v.bad then (true, closeFull q (setQueue s q { v with badN := v.badN + 2 }))
  else if ¬ qEnable s q then (true, s)
  else if qCap s q < qOcc s q + 2 then (false, s)
  else (true, closeFull q (appendQ q { w := payload, poison := poison } (appendQ q { w := key, poison := poison } s)))

/-- Clearing BRG_Q.ENABLE (R405): the open packet is rewound. -/
def queueDisable (q : Nat) (s : State) : State := markBad q 3 false s

/-! ### Portals (R407) -/

/-- A PUSH that Table 12-6 allows: PROD is PORTAL and ENABLE is 1, from a guest of the queue's job (R368). -/
def pushAllowed (s : State) (q : Nat) : Bool := qProd s q == 2 && qEnable s q

/-- Words written through a portal; the last ends the packet when `fin`. -/
def portalWords (q : Nat) (fin : Bool) : List Nat → State → State
  | [], s => s
  | [w], s => writeQ q { w := w % 2 ^ 32 } fin s
  | w :: r, s => portalWords q fin r (writeQ q { w := w % 2 ^ 32 } false s)

/-- The guest's job owns the queue (R368); an access from another job faults (R377). -/
def ownsQueue (s : State) (job q : Nat) : Bool := bit (jobOf s job).queues q

/-- GUEST_FAULT (R377). -/
def guestFault (s : State) : State := bump uDEV 0x0C0F 0 s

/-- PORTAL_PUSH and PORTAL_PUSH_END (R407); a word that fails its parity check at the store makes the packet bad. -/
def portalPush (q job : Nat) (words : List Nat) (fin parBad : Bool) (s : State) : State :=
  let s := wakeIsland (uQUEUE q) s
  if ¬ ownsQueue s job q then guestFault s
  else if ¬ pushAllowed s q ∨ words.length = 0 ∨ 2 < words.length then brgBump q 9 s
  else if parBad then markBad q 4 (!fin) (portalWords q false words s)
  else portalWords q fin words s

/-- PORTAL_ABORT (R395). -/
def portalAbort (q job : Nat) (s : State) : State :=
  if ¬ ownsQueue s job q then guestFault s
  else if qProd s q ≠ 2 then brgBump q 9 s
  else markBad q 3 false s

/-- PORTAL_POP (R407): the word returned to the guest goes with its flags into the queue's latch register. -/
def portalPop (q job : Nat) (parBad : Bool) (s : State) : State :=
  if ¬ ownsQueue s job q then guestFault s
  else if qCons s q ≠ 2 then brgBump q 9 s
  else
    let (r, s) := popQ q parBad s
    match r with
    | none => setQueue s q { queueOf s q with latched := [] }
    | some (w, f) => setQueue s q { queueOf s q with latched := [{ w with first := f }] }

/-- SPACE_WORDS (Table 12-5). -/
def spaceWords (s : State) (q : Nat) : Nat := qCap s q - qOcc s q

/-- BRG_QSTAT words 0 and 1 (Table 12-5). -/
def qstatWord (s : State) (q w : Nat) : Nat :=
  let v := queueOf s q
  if w = 0 then committedWords v + spaceWords s q * 2 ^ 32
  else retainedWords v + b2n (v.openN ≠ 0) * 2 ^ 27 + b2n (v.midN ≠ 0) * 2 ^ 28 + b2n v.rewound * 2 ^ 29
    + b2n v.noteEn * 2 ^ 30 + availPkts v * 2 ^ 32

/-- A write of BRG_QSTAT word 1 (R406): REWOUND is W1C, NOTE_EN is RW. -/
def writeQstat (q v : Nat) (s : State) : State :=
  let z := queueOf s q
  setQueue s q { z with rewound := z.rewound && !bit v 29, noteEn := bit v 30 }

/-- The field rules of BRG_Q (R404, R405); `old` are the words held before the write. -/
def checkBrgQ (s : State) (q : Nat) (ws : List Nat) : Nat :=
  let u := uQUEUE q
  let cw := fldOf ws BRG_Q.CLOSE_WORDS
  if (ingestSluice s q).isSome then
    firstFail [(1 ≤ fldOf ws BRG_Q.INJ_CLASS, ST_UNSUPPORTED), (fldOf ws BRG_Q.SPILL_BASE % 64 = 0, ST_UNSUPPORTED),
      (2 ≤ cw ∧ cw ≤ qMaxPkt s q ∧ cw % 2 = 0, ST_UNSUPPORTED), (1 ≤ fldOf ws BRG_Q.CLOSE_US, ST_UNSUPPORTED),
      (¬ qEnable s q ∨ fldOf ws BRG_Q.SPILL_BASE = rd s u BRG_Q.SPILL_BASE, ST_WRONG_STATE)]
  else
  let lim := if fldOf ws BRG_Q.SPILL_TGT = 0 then 4 else 256
  let same (f : Fld) : Bool := fldOf ws f == rd s u f
  firstFail [(fldOf ws BRG_Q.PROD ≤ 2, ST_UNSUPPORTED), (fldOf ws BRG_Q.CONS ≤ 3, ST_UNSUPPORTED),
    (fldOf ws BRG_Q.SPILL_LIMIT_MIB ≤ lim, ST_UNSUPPORTED), (fldOf ws BRG_Q.MAX_PKT_M1 ≤ 4095, ST_UNSUPPORTED),
    (1 ≤ fldOf ws BRG_Q.INJ_CLASS, ST_UNSUPPORTED), (fldOf ws BRG_Q.SPILL_BASE % 64 = 0, ST_UNSUPPORTED),
    (2 ≤ cw ∧ cw ≤ 4096 ∧ cw % 2 = 0, ST_UNSUPPORTED), (cw ≤ fldOf ws BRG_Q.MAX_PKT_M1 + 1, ST_UNSUPPORTED),
    (1 ≤ fldOf ws BRG_Q.CLOSE_US, ST_UNSUPPORTED),
    (¬ rdB s u BRG_Q.ENABLE ∨ (same BRG_Q.PROD ∧ same BRG_Q.CONS ∧ same BRG_Q.JOB ∧ same BRG_Q.SPILL_TGT
      ∧ same BRG_Q.SPILL_LIMIT_MIB ∧ same BRG_Q.SPILL_BASE ∧ same BRG_Q.RETAIN ∧ same BRG_Q.MAX_PKT_M1
      ∧ same BRG_Q.CONS_UNIT), ST_WRONG_STATE)]

/-! ### The commands -/

def execPortalPush (queue job : Nat) (words : List Nat) (parBad : Bool) (s : State) : Out :=
  .next (portalPush queue job words false parBad s)
def execPortalPushEnd (queue job : Nat) (words : List Nat) (parBad : Bool) (s : State) : Out :=
  .next (portalPush queue job words true parBad s)
def execPortalAbort (queue job : Nat) (s : State) : Out := .next (portalAbort queue job s)
def execCanalCloseTimeout (queue : Nat) (s : State) : Out := .next (canalClose queue s)
def execMiddleLineWrite (queue : Nat) (parBad : Bool) (s : State) : Out := .next (middleLineWrite queue parBad s)
def execMiddleLineRead (queue : Nat) (parBad : Bool) (s : State) : Out := .next (middleLineRead queue parBad s)

end Sys2Proof.Machine
end

