-- ==== Sys2Proof/Machine/Crypto.lean ====
section
/-! DEFINITION. SHA-256, MGF1 and the RSASSA-PSS verification of R522 (SHA-256, MGF1 with SHA-256, a salt of 32 bytes,
public exponent 65,537), on byte lists. The spec names the algorithms; their text is their standards'. -/
namespace Sys2Proof.Machine

/-- The 32-bit rotation to the right. -/
def rotr32 (n x : Nat) : Nat := (x >>> n) ||| ((x <<< (32 - n)) % 2 ^ 32)

/-- The eight 32-bit words that a number of 256 bits spells, the most significant first. -/
def octet (v : Nat) : List Nat := (upto 8).map (fun i => v / 2 ^ (224 - 32 * i) % 2 ^ 32)

/-- The round constants of SHA-256, eight to a number: the first 32 bits of the fractions of the cube roots of the first 64
primes, in order. -/
def shaK : List Nat := ([
  0x428A2F9871374491B5C0FBCFE9B5DBA53956C25B59F111F1923F82A4AB1C5ED5,
  0xD807AA9812835B01243185BE550C7DC372BE5D7480DEB1FE9BDC06A7C19BF174,
  0xE49B69C1EFBE47860FC19DC6240CA1CC2DE92C6F4A7484AA5CB0A9DC76F988DA,
  0x983E5152A831C66DB00327C8BF597FC7C6E00BF3D5A7914706CA635114292967,
  0x27B70A852E1B21384D2C6DFC53380D13650A7354766A0ABB81C2C92E92722C85,
  0xA2BFE8A1A81A664BC24B8B70C76C51A3D192E819D6990624F40E3585106AA070,
  0x19A4C1161E376C082748774C34B0BCB5391C0CB34ED8AA4A5B9CCA4F682E6FF3,
  0x748F82EE78A5636F84C878148CC7020890BEFFFAA4506CEBBEF9A3F7C67178F2] : List Nat).flatMap octet

/-- The initial hash words: the first 32 bits of the fractions of the square roots of the first eight primes. -/
def shaInit : List Nat := octet 0x6A09E667BB67AE853C6EF372A54FF53A510E527F9B05688C1F83D9AB5BE0CD19

/-- The next words of a message schedule, newest first. -/
def shaExtend : Nat → List Nat → List Nat
  | 0, w => w
  | n + 1, w =>
    let a := w.getD 14 0
    let b := w.getD 1 0
    let s0 := rotr32 7 a ^^^ rotr32 18 a ^^^ (a >>> 3)
    let s1 := rotr32 17 b ^^^ rotr32 19 b ^^^ (b >>> 10)
    shaExtend n (((w.getD 15 0 + s0 + w.getD 6 0 + s1) % 2 ^ 32) :: w)

/-- One round over the eight working words. -/
def shaRound (h : List Nat) (kw : Nat × Nat) : List Nat :=
  match h with
  | [a, b, c, d, e, f, g, x] =>
    let s1 := rotr32 6 e ^^^ rotr32 11 e ^^^ rotr32 25 e
    let ch := (e &&& f) ^^^ ((0xFFFFFFFF - e) &&& g)
    let t1 := x + s1 + ch + kw.1 + kw.2
    let s0 := rotr32 2 a ^^^ rotr32 13 a ^^^ rotr32 22 a
    let mj := (a &&& b) ^^^ (a &&& c) ^^^ (b &&& c)
    [(t1 + s0 + mj) % 2 ^ 32, a, b, c, (d + t1) % 2 ^ 32, e, f, g]
  | _ => h

/-- One block of 64 bytes. -/
def shaBlock (h : List Nat) (b : List Byte) : List Nat :=
  let w := ((upto 16).map (fun i => beAt b (4 * i) 4)).reverse
  let r := (shaK.zip (shaExtend 48 w).reverse).foldl shaRound h
  (h.zip r).map (fun p => (p.1 + p.2) % 2 ^ 32)

/-- `n` blocks of a padded message. -/
def shaBlocks : Nat → List Nat → List Byte → List Nat
  | 0, h, _ => h
  | n + 1, h, l => shaBlocks n (shaBlock h (l.take 64)) (l.drop 64)

/-- SHA-256 of a byte list, as a number of 256 bits. -/
def sha256 (l : List Byte) : Nat :=
  let pad := 64 - (l.length + 9) % 64
  let m := l ++ [0x80] ++ List.replicate (if pad = 64 then 0 else pad) 0 ++ beBytes 8 (8 * l.length)
  (shaBlocks (m.length / 64) shaInit m).foldl (fun a w => a * 2 ^ 32 + w) 0

/-- SHA-256 as 32 bytes. -/
def sha256Bytes (l : List Byte) : List Byte := beBytes 32 (sha256 l)

/-- `k` squarings modulo `n`. -/
def sqMod (n : Nat) : Nat → Nat → Nat
  | 0, x => x
  | k + 1, x => sqMod n k (x * x % n)

/-- The RSA public operation with exponent 65,537. -/
def rsaPublic (n x : Nat) : Nat := sqMod n 16 (x % n) * x % n

/-- MGF1 with SHA-256 (`k` blocks of 32 bytes). -/
def mgf1 (seed : List Byte) (k : Nat) : List Byte := (upto k).flatMap (fun i => sha256Bytes (seed ++ beBytes 4 i))

/-- The bit length of a number below 2^3072. -/
def bitLen (n : Nat) : Nat := ((upto 3073).find? (fun i => n < 2 ^ i)).getD 3073

/-- RSASSA-PSS verification: modulus, message, signature of 384 bytes. -/
def pssVerify (n : Nat) (msg sig : List Byte) : Bool :=
  let s := beVal sig
  let emBits := bitLen n - 1
  let emLen := (emBits + 7) / 8
  if n = 0 ∨ sig.length ≠ 384 ∨ n ≤ s ∨ emLen < 66 then false else
  let m := rsaPublic n s
  if 2 ^ (8 * emLen) ≤ m then false else
  let em := beBytes emLen m
  let dbLen := emLen - 33
  let masked := em.take dbLen
  let h := (em.drop dbLen).take 32
  let db := (masked.zip (mgf1 h ((dbLen + 31) / 32))).map (fun p => p.1 ^^^ p.2)
  let top := 8 * emLen - emBits
  let db := beBytes dbLen (beVal db % 2 ^ (8 * dbLen - top))
  let ps := db.take (emLen - 66)
  let salt := db.drop (emLen - 65)
  beVal masked < 2 ^ (8 * dbLen - top) && em.getLast? == some 0xBC && ps.all (· == 0)
    && leAt db (emLen - 66) 1 == 1
    && sha256Bytes (List.replicate 8 0 ++ sha256Bytes msg ++ salt) == h

end Sys2Proof.Machine
end

