-- ==== Sys2Proof/Machine/Towline.lean ====
section
/-! DEFINITION. Towline requests: the command tables (Tables 15-3 to 15-12), the checks of Table 14-5, berths,
replies, duplicates (R453 to R455), and the generic course of a command with R17. -/
namespace Sys2Proof.Machine

/-- TOW_CNT (Table 14-12): words 0 to 9 and 12 per port, 10 and 11 for the device. -/
def towBump (p w : Nat) (s : State) : State := bump (uETH p) 0x0B0F w s

/-- The port that counters of a link are kept by; relayed and portal requests count nowhere. -/
def linkBump (l : Link) (w : Nat) (s : State) : State :=
  match l with
  | .port p => towBump p w s
  | _ => s

/-- A berth. -/
def berthOf (s : State) (b : Nat) : Berth := tget {} s.tow.berths b

/-- Changing a berth. -/
def setBerth (s : State) (b : Nat) (v : Berth) : State :=
  { s with tow := { s.tow with berths := tset {} s.tow.berths b v } }

/-- A berth portal. -/
def bportOf (s : State) (b : Nat) : BPort := tget {} s.apx.bports b

/-- Changing a berth portal. -/
def setBport (s : State) (b : Nat) (v : BPort) : State :=
  { s with apx := { s.apx with bports := tset {} s.apx.bports b v } }

/-- A row of the command tables (R474): code, rights (HELM, P), states by Table 15-2 as a mask of DEVICE_STATE codes,
LONG. -/
structure CmdRow where
  code : Nat
  helm : Bool
  portal : Bool
  states : Nat
  long : Bool
deriving DecidableEq, Repr

/-- State masks: bits 0 B, 1 U, 2 I, 3 L, 4 R, 5 D, 6 S. -/
def mAll : Nat := 0b1111110
def mB : Nat := 0b0000001

/-- Tables 15-3 to 15-8. -/
def cmdTableA : List CmdRow := [
  ⟨0x0A01, true, false, mAll + mB, false⟩, ⟨0x0A02, true, false, mAll + mB, false⟩,
  ⟨0x0101, true, false, 0b0000100, true⟩, ⟨0x0102, true, false, 0b0001000, true⟩,
  ⟨0x0103, true, false, 0b0111000, true⟩, ⟨0x0104, true, false, 0b0110000, true⟩,
  ⟨0x0105, true, false, 0b0110000, true⟩, ⟨0x0106, true, false, 0b0110000, true⟩,
  ⟨0x0107, true, false, 0b1000000, true⟩, ⟨0x0201, true, true, mAll, false⟩,
  ⟨0x0202, false, true, mAll, false⟩, ⟨0x0203, true, true, 0b0111110, false⟩,
  ⟨0x0204, true, true, 0b0111000, false⟩, ⟨0x0205, true, true, 0b0111110, true⟩,
  ⟨0x0206, true, true, 0b0111110, false⟩, ⟨0x0301, false, true, mAll, false⟩,
  ⟨0x0302, true, false, mAll, false⟩, ⟨0x0401, true, false, 0b1111100, true⟩,
  ⟨0x0402, true, false, mAll, false⟩, ⟨0x0403, false, true, mAll, false⟩,
  ⟨0x0501, true, false, 0b0111000, true⟩, ⟨0x0502, true, false, 0b0111100, true⟩,
  ⟨0x0503, true, false, 0b0111100, false⟩, ⟨0x0504, true, false, 0b0111110, true⟩,
  ⟨0x0505, true, false, 0b0111100, false⟩, ⟨0x0506, false, true, 0b1111000, false⟩]

/-- Tables 15-9 to 15-12. -/
def cmdTableB : List CmdRow := [
  ⟨0x0601, true, false, mAll + mB, true⟩, ⟨0x0602, true, false, 0b1111101, true⟩,
  ⟨0x0603, false, false, mAll, true⟩, ⟨0x0604, false, false, mAll, false⟩,
  ⟨0x0605, true, false, 0b0111100, true⟩, ⟨0x0606, true, false, mAll, false⟩,
  ⟨0x0607, true, false, mAll, true⟩, ⟨0x0608, true, false, mAll, false⟩,
  ⟨0x0609, true, false, mAll, false⟩, ⟨0x060A, true, false, 0b1001100, true⟩,
  ⟨0x0701, false, true, mAll, false⟩, ⟨0x0702, false, true, 0b1111000, false⟩,
  ⟨0x0703, false, false, 0b1111000, false⟩, ⟨0x0704, false, false, 0b1111000, false⟩,
  ⟨0x0801, false, true, mAll + mB, false⟩, ⟨0x0802, false, true, mAll, false⟩,
  ⟨0x0803, false, false, mAll, false⟩, ⟨0x0804, false, true, mAll, false⟩,
  ⟨0x0901, false, false, mAll, true⟩, ⟨0x0902, true, false, mAll, false⟩,
  ⟨0x0903, true, false, mAll, false⟩, ⟨0x0904, true, false, mAll, false⟩,
  ⟨0x0905, false, true, mAll, false⟩, ⟨0x0906, true, false, mAll, false⟩]

/-- The state-legality table (R474). -/
def cmdTable : List CmdRow := cmdTableA ++ cmdTableB

/-- A link named by a HOLDER code (Table 14-7). -/
def linkCodeOk (l : Nat) : Bool := l < 5 || (8 ≤ l && l ≤ 12)

/-- The payload fields of PTP_CONFIG. -/
def ptpFieldsOk (port profile role : Nat) (ls lp la : Int) (p1 p2 : Nat) : Bool :=
  decide (port < 5 ∧ profile ≤ 2 ∧ role ≤ 2 ∧ -7 ≤ ls ∧ ls ≤ 1 ∧ -3 ≤ lp ∧ lp ≤ 3 ∧ -3 ≤ la ∧ la ≤ 3 ∧ p1 < 256 ∧ p2 < 256)

/-- Check 5 of Table 14-5: the payload fields of a command lie in the ranges of its request layout (R475, R478, R501). -/
def fieldsOk (i : Instr) : Bool :=
  match i with
  | .configWrite _ unit _ entry word data => unitValid unit && 1 ≤ data.length && data.length ≤ 149 && word < 256 && entry < 65536
  | .configRead _ unit _ entry word count => unitValid unit && 1 ≤ count && count ≤ 149 && word < 256 && entry < 65536
  | .routeWrite _ unit _ data => unitValid unit && 2 ≤ data.length && data.length ≤ 16 && data.length % 2 == 0
  | .weightsWrite _ core matrix _ _ _ data => core < 16 && matrix < 32 && 1 ≤ data.length && data.length ≤ 1192
  | .sensorI3c _ sluice target _ wdata rlen _ => sluice < 16 && target < 128 && wdata.length < 256 && rlen < 256
  | .filterSync _ engines => engines < 8
  | .ptpConfig _ port profile role ls lp la p1 p2 => ptpFieldsOk port profile role ls lp la p1 p2
  | .resultRead _ stream selector _ _ length => stream < 64 && selector ≤ 2 && 1 ≤ length && length ≤ 1160
  | .resultRelease _ stream _ => stream < 64
  | .subscribe _ stream port cls everyM1 => stream < 64 && port ≤ 5 && 1 ≤ cls && cls ≤ 3 && everyM1 < 256
  | .unsubscribe _ sub => sub < 32
  | .countersRead _ unit _ _ _ count _ => unitValid unit && 1 ≤ count && count ≤ 64
  | .noticeLogRead _ _ count => 1 ≤ count && count ≤ 16
  | .unitStatusGet _ unit => unitValid unit
  | .windowLogRead _ _ count => 1 ≤ count && count ≤ 16
  | .testControl _ _ rotation => 50 ≤ rotation && rotation ≤ 5000
  | .jobStart _ mask _ => mask < 256
  | .jobStop _ mask => mask < 256
  | .powerLevelSet _ level => level ≤ 4
  | .powerLimitSet _ limit => 40 ≤ limit && limit ≤ 110
  | .unitQuarantine _ unit => unitValid unit && 1 ≤ utype unit && utype unit ≤ 0x0F
  | .unitRelease _ unit => unitValid unit && 1 ≤ utype unit && utype unit ≤ 0x0F
  | .unitMargin _ unit vstep fstep => unitValid unit && vstep ≤ 3 && fstep ≤ 4
  | .blobBegin _ kind _ => kind ≤ 2
  | .blobWrite _ kind _ data => kind ≤ 2 && 1 ≤ data.length && data.length ≤ 1192
  | .keyRevoke _ slot sig => slot ≤ 2 && sig.length == 384
  | .macsecKeySet _ port len _ ckn => decide (port < 5 ∧ 1 ≤ len ∧ len ≤ 32 ∧ ckn % 2 ^ (8 * (32 - len)) = 0)
  | .debugUnlock _ scope sig => scope < 8 && sig.length == 384
  | .lifecycleSet _ target sig => target < 256 && sig.length == 384
  | .helmHandover _ link => linkCodeOk link
  | .progressGet _ berth => berth < 16
  | .commandAbort _ berth => berth < 16
  | _ => true

/-- The row of a code. -/
def cmdRow (code : Nat) : Option CmdRow := cmdTable.find? (fun r => r.code == code)

/-- LONG commands that cannot be aborted (R482). -/
def unabortable (code : Nat) : Bool := code == 0x0602 || code == 0x0605 || code == 0x060A

/-- States in which this very command is legal: the row's, narrowed for the staging buffers by KIND (Table 15-3), for
CONFIG_WRITE in SAFE to codes 0x0Axx and 0x0Bxx (Table 15-5), and for POWER_LEVEL_SET to LEVEL 4 (R626). -/
def statesOf (i : Instr) (r : CmdRow) : Nat :=
  match i with
  | .blobBegin _ kind _ => if kind = 0 then 0b0000100 else if kind = 1 then mAll + mB else 0b0111110
  | .blobWrite _ kind _ _ => if kind = 0 then 0b0000100 else if kind = 1 then mAll + mB else 0b0111110
  | .configWrite _ _ reg _ _ _ =>
    if reg / 256 = 0x0A ∨ reg / 256 = 0x0B then mAll else 0b0111110
  | .powerLevelSet _ level => if level = 4 then 0b1000100 else r.states
  | _ => r.states

/-- The device serves a command of this state mask now (R37, R480): a device that entered SAFE from BOOT serves only
what R38 allows. -/
def legalNow (s : State) (code mask : Nat) : Bool :=
  if s.dev.romSafe then code == 0x0801 else bit mask (stateCode s.dev.state)

/-- The job to which a berth is granted (R376). -/
def berthJob (s : State) (b : Nat) : Option Nat :=
  (upto 8).find? (fun j => (jobOf s j).exist && bit (jobOf s j).berths b)

/-- The same command apart from what the I3C target will answer: the identity of a request in a berth. -/
def sameCmd (a b : Instr) : Bool :=
  match a, b with
  | .sensorI3c q n t i w r _, .sensorI3c q' n' t' i' w' r' _ => q == q' && n == n' && t == t' && i == i' && w == w' && r == r'
  | _, _ => a == b

/-- A reply lands in the reply area of a berth portal of job `j`, and its MSI is raised (R374, R375). -/
def portalReply (j b : Nat) (reply : List Byte) (s : State) : State :=
  let s := setBport s b { bportOf s b with busy := false, fin := true, replyBytes := reply.length, reply := reply }
  if (bportOf s b).noteEn then raiseMsi j (bits (jobOf s j).berthHart (8 * b) 8) (4 + b) s else s

/-- Storing and sending a reply (R453, R455): to the link of the request, or to the berth portal (R374, R375). -/
def deliverReply (q : Req) (src srcPort code st : Nat) (payload : List Byte) (s : State) : List Byte × State :=
  match q.link with
  | .portal j =>
    let b := towBytes s { kind := 1, cls := q.cls, berth := q.berth, code := code, seq := q.seq, status := st } payload
    let b := b.take 28 ++ beBytes 4 0 ++ b.drop 32
    (b, portalReply j q.berth b s)
  | .port p =>
    let h : TowHdr := { kind := 1, cls := q.cls, berth := q.berth, code := code, seq := q.seq, status := st }
    (towBytes s { h with helm := s.tow.holder == p } payload, sendTo q.link .reply src srcPort h payload s)
  | .relay p =>
    let h : TowHdr := { kind := 1, cls := q.cls, berth := q.berth, code := code, seq := q.seq, status := st }
    (towBytes s { h with relay := true, helm := s.tow.holder == 8 + p, origin := some p } payload, sendTo q.link .reply src srcPort h payload s)

/-- A reply from the steps before the berth is occupied leaves the berth as it was (R453). -/
def rejectReq (q : Req) (src srcPort code st : Nat) (s : State) : State :=
  let s := if st = ST_BUSY then linkBump q.link 9 s else s
  (deliverReply q src srcPort code st [] s).2

/-- A completed command: the berth keeps the last reply and is free again (R455). -/
def complete (q : Req) (code st : Nat) (payload : List Byte) (s : State) : State :=
  let v := berthOf s q.berth
  let s := if st = ST_BUSY then linkBump q.link 9 s else s
  let (bytes, s) := deliverReply q v.src v.srcPort code st payload s
  setBerth s q.berth { v with
    cmd := none, code := code, fin := true,
    lastLink := some q.link, lastSeq := q.seq, reply := bytes }

/-- What became of a request at the checks of Table 14-5. -/
inductive Admit
  | absorbed (s : State)
  | rejected (st : Nat) (s : State)
  | accepted (s : State)

/-- Berth service runs: the ROM's in BOOT, the firmware's from readiness bit LKP on, except in the pause of an activation
(R533), while the pair is halted (R543), while it is being reset (R563) and in PL4 (R625). -/
def svcRuns (s : State) : Bool :=
  romServes s || (readyBit s RB_LKP && !s.sec.halted && !s.mem.lkpReset && !(s.sec.act.any (·.exchanged.isSome))
    && s.dev.level != 4)

/-- The ROM cannot take a request: it has not decided yet, or holds one command already (R527, Table 16-9). -/
def romBusy (s : State) : Bool :=
  s.dev.state == .boot && (!s.sec.towBoot || (upto 16).any (fun b => (berthOf s b).cmd.isSome))

/-- The ROM serves T1A and T1B only (R527). -/
def romHears (s : State) (q : Req) : Bool :=
  !romServes s || q.link == .port 0 || q.link == .port 1

/-- Checks 1 to 3 (R453, R454): grant, duplicate, occupancy. -/
def checkBerth (q : Req) (src srcPort : Nat) (s : State) : Admit :=
  let v := berthOf s q.berth
  let granted : Bool := match q.link with
    | .portal j => berthJob s q.berth == some j
    | _ => (berthJob s q.berth).isNone
  if ¬ granted then .rejected ST_AUTH s
  else if v.cmd.isSome ∧ v.req.any (fun r => r.link == q.link && r.seq == q.seq) then .absorbed (linkBump q.link 8 s)
  else if v.fin ∧ v.lastLink = some q.link ∧ v.lastSeq = q.seq then
    .absorbed (linkBump q.link 8 (match q.link with
      | .port p => enqueue p (classQueue q.cls) ⟨.reply, src, srcPort, v.reply⟩ s
      | .relay _ => sendMgmt s.tow.headDev v.reply s
      | .portal j => portalReply j q.berth v.reply s))
  else if v.cmd.isSome ∨ romBusy s then .rejected ST_BUSY s
  else .accepted s

/-- The security engine works (Table 17-4). -/
def secReady (s : State) : Bool := readyBit s RB_SEC

/-- The 16 bytes of DEVICE_UID, most significant first. -/
def uidBytes (s : State) : List Byte := beBytes 16 s.sec.uid

/-- A signature over a message against PUBKEY of the running image. -/
def signedByFw (s : State) (msg sig : List Byte) : Bool := s.sec.fw.any (fun f => pssVerify f.pub msg sig)

/-- The bytes that KEY_REVOKE signs (R531). -/
def revokeMsg (slot : Nat) : List Byte := [0x4D, 0x57, 0x52, 0x56, 0x4B, 0x45, 0x59, 0x53] ++ beBytes 1 slot

/-- The bytes that LIFECYCLE_SET signs (R540). -/
def lifecycleMsg (target : Nat) (s : State) : List Byte := [0x4D, 0x57, 0x4C, 0x43] ++ beBytes 1 target ++ uidBytes s

/-- Check 7 (Table 14-5): the signature of a command that carries one and that some states do not admit. A command in a state
that admits it makes its checks of lifecycle and signature in its own step. -/
def authOk (i : Instr) (s : State) : Bool :=
  match i with
  | .keyRevoke _ slot sig => !secReady s || signedByFw s (revokeMsg slot) sig
  | .lifecycleSet _ target sig => !secReady s || signedByFw s (lifecycleMsg target s) sig
  | _ => true

/-- Checks 6 to 8 (R459, R479, R480) of a command whose code and fields passed checks 4 and 5. -/
def checkRights (q : Req) (i : Instr) (r : CmdRow) (s : State) : Admit :=
  let portal : Bool := match q.link with | .portal _ => true | _ => false
  if portal ∧ ¬ r.portal then .rejected ST_AUTH s
  else if r.helm ∧ ¬ portal ∧ s.dev.state ≠ .boot ∧ ¬ (linkCode q.link = s.tow.holder ∧ q.epoch = s.tow.epoch) then
    .rejected ST_AUTH (bump uDEV 0x0B0F 10 s)
  else if ¬ legalNow s r.code (statesOf i r) then .rejected (if authOk i s then ST_WRONG_STATE else ST_AUTH) s
  else .accepted s

/-- A valid request from a link (R461: what silence is measured from), counted (Table 14-12). -/
def noteRequest (l : Link) (s : State) : State :=
  let s := linkBump l 0 s
  match l with
  | .portal _ => s
  | _ => { s with tow := { s.tow with
      lastReq := tset 0 s.tow.lastReq (linkCode l) (now s + 1),
      silent := if linkCode l = s.tow.holder then false else s.tow.silent } }

/-- The request checks of Table 14-5 in order. -/
def admitReq (q : Req) (i : Instr) (code src srcPort : Nat) (s : State) : Admit :=
  match checkBerth q src srcPort s with
  | .accepted s =>
    match cmdRow code with
    | none => .rejected ST_UNSUPPORTED s
    | some r => if fieldsOk i then checkRights q i r s else .rejected ST_UNSUPPORTED s
  | a => a

/-- The berth takes the command. -/
def occupy (q : Req) (i : Instr) (code src srcPort : Nat) (s : State) : State :=
  setBerth s q.berth { berthOf s q.berth with
    cmd := some i, req := some q, src := src, srcPort := srcPort, code := code, started := none, stepsDone := 0,
    bytesDone := 0, fin := false }

/-- What a step of a command answers: none while it waits, or its status and reply payload. -/
structure CmdRes where
  res : Option (Nat × List Byte)
  st : State
  keep : Bool := false

def ans (st : Nat) (payload : List Byte) (s : State) : CmdRes := { res := some (st, payload), st := s }
def waits (s : State) : CmdRes := { res := none, st := s }
/-- A failure whose rule itself changes the state. -/
def ansKeep (st : Nat) (payload : List Byte) (s : State) : CmdRes := { res := some (st, payload), st := s, keep := true }

/-- A command held by a berth that waits for another to end before it can begin: a change of power level for the one in
progress (Table 20-8), a sensor transaction for the one on its bus (R497). -/
def mustWait (s : State) (v : Berth) : Bool :=
  match v.cmd with
  | some (.powerLevelSet _ _) => s.pwr.entry.isSome || s.pwr.exit_.isSome
  | some (.sensorI3c _ n _ _ _ _ _) => (tget none s.tow.i3c n).isSome
  | _ => false

/-- A berth holds a command of class `c` with a step ready (R456). A LONG command that waits for an event has none. -/
def stepReady (s : State) (c b : Nat) : Bool :=
  let v := berthOf s b
  v.cmd.isSome && v.started.isNone && !mustWait s v && v.req.any (fun q => q.cls == c)

/-- The first berth after the one last served in class `c`, in ascending order mod 16, with a step ready. -/
def nextInClass (s : State) (c : Nat) : Option Nat :=
  let last := tget 15 s.tow.lastServed c
  ((upto 16).map (fun i => (last + 1 + i) % 16)).find? (stepReady s c)

/-- The berth whose step the Lockkeeper runs next (R456): classes in order, round robin within a class. Its internal work
never waits here: each command does its own within its step. -/
def nextBerth (s : State) : Option Nat := (upto 4).findSome? (nextInClass s)

/-- A berth has been served. -/
def servedBerth (q : Req) (s : State) : State :=
  { s with tow := { s.tow with lastServed := tset 15 s.tow.lastServed q.cls q.berth } }

/-- The first step of a command held by its berth: legality is judged again (R37), the effect runs, and a status
other than ST_OK, ST_NOT_READY and ST_OVERRUN leaves the state as it was (R17). -/
def runHeld (q : Req) (i : Instr) (code : Nat) (eff : State → CmdRes) (s : State) : State :=
  let v := berthOf s q.berth
  let s := servedBerth q (setBerth s q.berth { v with started := some (v.started.getD (now s)), stepsDone := v.stepsDone + 1 })
  let mask := match cmdRow code with | some r => statesOf i r | none => 0
  if ¬ legalNow s code mask then complete q code ST_WRONG_STATE [] s
  else
    let r := eff s
    match r.res with
    | none => r.st
    | some (st, payload) => complete q code st payload (if keepsEffects st || r.keep then r.st else s)

/-- A request passes the checks of Table 14-5 and takes its berth, or is answered, or absorbed. -/
def takeReq (w : WaitReq) (s : State) : State :=
  match w.cmd with
  | none =>
    match checkBerth w.req w.src w.srcPort (noteRequest w.req.link s) with
    | .absorbed s => s
    | .rejected st s => rejectReq w.req w.src w.srcPort w.code st s
    | .accepted s => rejectReq w.req w.src w.srcPort w.code ST_UNSUPPORTED s
  | some i =>
    match admitReq w.req i w.code w.src w.srcPort (noteRequest w.req.link s) with
    | .absorbed s => s
    | .rejected st s => rejectReq w.req w.src w.srcPort w.code st s
    | .accepted s => occupy w.req i w.code w.src w.srcPort s

/-- A request while berth service does not run waits in the 64-frame receive queue of its port (R535). -/
def holdReq (w : WaitReq) (s : State) : State :=
  if 64 ≤ (s.tow.waiting.filter (fun x => x.req.link == w.req.link)).length then linkBump w.req.link 3 s
  else { s with tow := { s.tow with waiting := s.tow.waiting ++ [w] } }

/-- Berth service resumes: the requests that waited are taken in order. -/
def resumeService (s : State) : State :=
  if ¬ svcRuns s then s else
  s.tow.waiting.foldl (fun s w => takeReq w s) { s with tow := { s.tow with waiting := [] } }

/-- The step of a held command, when it is the one the Lockkeeper runs next (R456); else the berth goes on waiting. -/
def runInTurn (q : Req) (i : Instr) (code : Nat) (eff : State → CmdRes) (s : State) : State :=
  if nextBerth s = some q.berth then runHeld q i code eff s else s

/-- The course of a command of chapter 15: a command that its berth already holds runs in its turn; any other arrives as a
request, passes Table 14-5, and runs if no other berth goes before it. -/
def serve (q : Req) (i : Instr) (code : Nat) (eff : State → CmdRes) (s : State) : State :=
  let v := berthOf s q.berth
  if ¬ svcRuns s then
    if v.cmd.any (sameCmd i) ∧ v.started.isNone then s else holdReq ⟨q, 0, 0, some i, code⟩ s
  else if ¬ romHears s q then s
  else if v.cmd.any (sameCmd i) ∧ v.started.isNone then runInTurn q i code eff s
  else
    match admitReq q i code 0 0 (noteRequest q.link s) with
    | .absorbed s => s
    | .rejected st s => rejectReq q 0 0 code st s
    | .accepted s => runInTurn q i code eff (occupy q i code 0 0 s)

/-- A LONG command in berth `b` has completed by itself: an abort of it that waits for its step boundary ends with
ST_CONFLICT (Table 15-13). -/
def endAborts (b : Nat) (s : State) : State :=
  (upto 16).foldl (fun s a =>
    let v := berthOf s a
    match v.cmd, v.req with
    | some (.commandAbort _ t), some q => if t = b ∧ v.started.isSome then complete q v.code ST_CONFLICT [] s else s
    | _, _ => s) s

/-- A waiting LONG command completes with a status from elsewhere: an event, an abort, entry to SAFE (R37, R482). -/
def finishBerth (b st : Nat) (payload : List Byte) (s : State) : State :=
  let v := berthOf s b
  match v.req with
  | some q => if v.cmd.isSome then endAborts b (complete q v.code st payload s) else s
  | none => s

/-- A JOB_STOP that is stopped: its jobs that have not stopped are no longer asked to. -/
def unaskStop (b : Nat) (s : State) (j : Nat) : State :=
  let v := jobOf s j
  if v.stopBerth ≠ some b then s
  else
    let s := setJob s j { v with stopping := none, stopBerth := none, forced := false }
    { s with apx := { s.apx with msi := tclear (fun k => k / 8192 == j && k % 1024 == 2) s.apx.msi } }

/-- A JOB_CHECKPOINT that is stopped: a generation that it alone began is given up, and the job is as before it. -/
def unaskCkpt (b : Nat) (s : State) (j : Nat) : State :=
  let v := jobOf s j
  match v.ckptRun with
  | none => s
  | some r =>
    if ¬ r.berths.contains b then s
    else if r.berths = [b] ∧ r.asked then
      let s := setJob s j { v with ckptRun := none, ckptWin := r.oldWin, gen := r.oldGen, lastCkpt := r.oldLast }
      { s with apx := { s.apx with
          jobctl := tmod {} s.apx.jobctl j (fun x => { x with ckptGen := r.oldCtl.1, ckptHalf := r.oldCtl.2 }),
          msi := tclear (fun k => k / 8192 == j && k % 1024 == 1) s.apx.msi } }
    else setJob s j { v with ckptRun := some { r with berths := r.berths.filter (· != b) } }

/-- What a LONG command stopped at its step boundary had begun is taken back (R17, R482). -/
def undoLong (b : Nat) (s : State) : State :=
  match (berthOf s b).cmd with
  | some (.helmClaim _ _) =>
    if s.tow.claim.any (fun c => c.berth == b) then { s with tow := { s.tow with claim := none } } else s
  | some (.jobStop _ _) => (upto 8).foldl (unaskStop b) s
  | some (.jobCheckpoint _ j) => unaskCkpt b s j
  | some (.powerLevelSet _ _) =>
    { s with pwr := { s.pwr with
        entry := if s.pwr.entry.any (fun e => e.berth == some b) then none else s.pwr.entry,
        exit_ := if s.pwr.exit_.any (fun x => x.berth == some b) then none else s.pwr.exit_ } }
  | some (.sensorI3c _ n _ _ _ _ _) =>
    if (tget none s.tow.i3c n).any (fun r => r.berth == b) then { s with tow := { s.tow with i3c := tset none s.tow.i3c n none } } else s
  | _ => s

/-- A LONG command is stopped: its effects are taken back and it completes with ST_ABORTED. -/
def abortBerth (b : Nat) (s : State) : State := finishBerth b ST_ABORTED [] (undoLong b s)

/-- Every LONG command in progress is aborted at entry to SAFE, but those of R482 (R37, Table 15-13). One that has not begun
is judged at its first step. -/
def abortLong (s : State) : State :=
  (upto 16).foldl (fun s b =>
    let v := berthOf s b
    let long : Bool := match cmdRow v.code with | some r => r.long | none => false
    if v.cmd.isSome ∧ v.started.isSome ∧ long ∧ ¬ unabortable v.code then abortBerth b s else s) s

/-! ### Helm (R459 to R463) -/

/-- The holder is silent: no valid request for HELM_TIMEOUT_MS, or its PHY is down (R461). -/
def holderSilent (s : State) : Bool :=
  s.tow.silent
  || decide (tget 0 s.tow.lastReq s.tow.holder + rd s uDEV TOW_HELM.HELM_TIMEOUT_MS * 1000000 ≤ now s + 1)
  || (s.tow.holder < 5 && !(ethOf s s.tow.holder).phyUp)

/-- No holder, or a silent one. -/
def helmFree (s : State) : Bool := s.tow.holder == 15 || holderSilent s

/-- A change of HOLDER: the epoch increments and a HELM notice goes to every host link (R461). A holder that stays is none. -/
def setHelm (h cause : Nat) (s : State) : State :=
  let old := s.tow.holder
  if old = h then s else
  let s := { s with tow := { s.tow with
    holder := h, epoch := (s.tow.epoch + 1) % 2 ^ 32, silent := false,
    lastReq := if h = 15 then s.tow.lastReq else tset 0 s.tow.lastReq h (now s + 1) } }
  notice NT_HELM ST_OK uDEV (beBytes 1 h ++ beBytes 1 old ++ beBytes 1 cause ++ beBytes 1 0 ++ beBytes 4 s.tow.epoch) s

/-- HELM_CLAIM (Tables 14-8 and 14-9). -/
def helmClaim (q : Req) (force : Bool) (s : State) : CmdRes :=
  let c := linkCode q.link
  if s.tow.claim.isSome then ans (if force then ST_BUSY else ST_CONFLICT) [] s
  else if helmFree s then ans ST_OK [] (setHelm c (if force then 1 else 0) s)
  else if ¬ force then ans ST_CONFLICT [] s
  else
    let due := now s + rd s uDEV TOW_HELM.HELM_OBJECT_MS * 1000000
    let s := { s with tow := { s.tow with claim := some ⟨q.berth, q.link, due⟩ } }
    waits (noticeToHolder NT_HELM_CHALLENGE uDEV (beBytes 1 c ++ beBytes 1 q.berth ++ beBytes 2 0
      ++ beBytes 4 s.tow.epoch ++ beBytes 8 due) s)

/-- HELM_KEEP (R510): a waiting forced claim completes with ST_CONFLICT. -/
def helmKeep (s : State) : CmdRes :=
  match s.tow.claim with
  | none => ans ST_OK [] s
  | some c => ans ST_OK [] (finishBerth c.berth ST_CONFLICT [] { s with tow := { s.tow with claim := none } })

/-- HELM_OBJECT_EXPIRY (Table 14-8). -/
def helmObjectExpiry (s : State) : State :=
  match s.tow.claim with
  | none => s
  | some c =>
    if c.due ≤ now s then
      finishBerth c.berth ST_OK [] (setHelm (linkCode c.link) 2 { s with tow := { s.tow with claim := none } })
    else s

/-- HELM_SILENCE (R461). -/
def helmSilence (s : State) : State :=
  if s.tow.holder ≠ 15 ∧ holderSilent s then { s with tow := { s.tow with silent := true } } else s

/-- HELM_HANDOVER (Table 14-8): the named link is a host link whose PHY is up; a relayed link is one the head serves. -/
def helmHandover (link : Nat) (s : State) : CmdRes :=
  if link < 5 ∧ isHost s link ∧ (ethOf s link).phyUp then ans ST_OK [] (setHelm link 4 s)
  else if 8 ≤ link ∧ link ≤ 12 ∧ tget 0 s.tow.lastReq link ≠ 0 then ans ST_OK [] (setHelm link 4 s)
  else ans ST_WRONG_STATE [] s

/-- A restart under way has its next step boundary where it ends (R596): the units and the guest of the job are gone from
where they stood. -/
def restartRuns (s : State) (b : Nat) : Bool :=
  match (berthOf s b).cmd with
  | some (.jobRestart _ _) => (berthOf s b).started.isSome
  | _ => false

/-- COMMAND_ABORT (R482, R510, Table 15-13): the LONG command ends at its step boundary, and its reply goes first. -/
def commandAbort (b : Nat) (s : State) : CmdRes :=
  let v := berthOf s b
  let long : Bool := match cmdRow v.code with | some r => r.long | none => false
  if v.cmd.isNone ∨ ¬ long then ans ST_WRONG_STATE [] s
  else if unabortable v.code then ans ST_UNSUPPORTED [] s
  else if restartRuns s b then waits s
  else ans ST_OK [] (abortBerth b s)

/-- The progress record (Table 14-6). -/
def progressRecord (s : State) (b : Nat) : List Byte :=
  let v := berthOf s b
  let held := v.cmd.isSome || v.fin
  let link := match v.req with
    | some q => (match q.link with | .port p => p | .relay p => p | .portal _ => 0x0F)
    | none => 0
  beBytes 2 (if held then v.code else 0) ++ beBytes 1 (if v.cmd.isSome then 1 else if v.fin then 2 else 0)
    ++ beBytes 1 (if held then link else 0) ++ beBytes 4 (if held then (v.req.map (·.seq)).getD 0 else 0)
    ++ beBytes 4 v.stepsDone ++ beBytes 4 0 ++ beBytes 4 v.bytesDone ++ beBytes 4 0 ++ beBytes 8 (v.started.getD 0)

def execHelmClaim (q : Req) (force : Bool) (s : State) : Out :=
  .next (serve q (.helmClaim q force) 0x0901 (helmClaim q force) s)
def execHelmKeep (q : Req) (s : State) : Out := .next (serve q (.helmKeep q) 0x0902 helmKeep s)
def execHelmRelease (q : Req) (s : State) : Out :=
  .next (serve q (.helmRelease q) 0x0903 (fun s => ans ST_OK [] (setHelm 15 3 s)) s)
def execHelmHandover (q : Req) (link : Nat) (s : State) : Out :=
  .next (serve q (.helmHandover q link) 0x0904 (helmHandover link) s)
def execProgressGet (q : Req) (berth : Nat) (s : State) : Out :=
  .next (serve q (.progressGet q berth) 0x0905 (fun s => ans ST_OK (progressRecord s berth) s) s)
def execCommandAbort (q : Req) (berth : Nat) (s : State) : Out :=
  .next (serve q (.commandAbort q berth) 0x0906 (commandAbort berth) s)
def execHelmSilence (s : State) : Out := .next (helmSilence s)
def execHelmObjectExpiry (s : State) : Out := .next (helmObjectExpiry s)

end Sys2Proof.Machine
end

