-- ==== Sys2Proof/Machine/Steps.lean ====
section
/-! DEFINITION. Steps of units in commit windows, suspect marks and signatures (R585 to R588, R592), and the POISON
notice (R597): what every engine and writer reports to second passage. -/
namespace Sys2Proof.Machine

/-- Changing second passage. -/
def setPass (s : State) (p : PassSt) : State := { s with pass := p }

/-- The same step. -/
def sameStep (job win unit : Nat) (r : StepRec) : Bool := r.job == job && r.win == win && r.unit == unit

/-- The core a unit's record is kept by: engines of core n share its record (Table 15-4). -/
def recordUnit (u : Nat) : Nat :=
  if utype u = 0x03 ∨ utype u = 0x04 ∨ utype u = 0x05 ∨ utype u = 0x06 then uC (uindex u)
  else if utype u = 0x14 then uBRG else u

/-- The job of a unit. -/
def unitJob (s : State) (u : Nat) : Nat := (unitOf s (recordUnit u)).job

/-- Every step of a unit is suspect while it is on the suspect list, margined or its visit is late (Table 18-3). -/
def alwaysSuspect (s : State) (u : Nat) : Bool :=
  s.pass.suspects.contains u || s.pass.suspects.contains (recordUnit u)
    || (unitOf s (recordUnit u)).vstep != 0 || (unitOf s (recordUnit u)).fstep != 0
    || (tget {} s.pass.tests u).late || (tget {} s.pass.tests (recordUnit u)).late

/-- The record of a step, made when it is first seen. -/
def stepOf (s : State) (job win unit : Nat) : StepRec :=
  match s.pass.steps.find? (sameStep job win unit) with
  | some r => r
  | none => { job := job, win := win, unit := unit, sus := alwaysSuspect s unit }

/-- Changing the record of a step. -/
def setStep (r : StepRec) (s : State) : State :=
  setPass s { s.pass with
    steps := if s.pass.steps.any (sameStep r.job r.win r.unit)
      then s.pass.steps.map (fun x => if sameStep r.job r.win r.unit x then r else x)
      else s.pass.steps ++ [r] }

/-- Continuing the signature of a step over bytes (R592). -/
def signStep (job win unit : Nat) (l : List Byte) (s : State) : State :=
  if job < 8 ∧ spEn s job then
    let r := stepOf s job win unit
    setStep { r with crc := crc32cFold r.crc l } s
  else s

/-- Kinds of unit with a replay entry (Table 18-1): neuron engines and arrays. -/
def replayable (u : Nat) : Bool := utype u == 0x04 || utype u == 0x08

/-- A unit's step in a window is suspect and not yet confirmed: of a kind that is replayed, in a job with second passage. -/
def stepWaits (s : State) (job win unit : Nat) : Bool :=
  replayable unit && spEn s job && s.pass.steps.any (fun r => sameStep job win unit r && r.sus && !r.ok)

/-- The first window of a job that has not committed. -/
def nextWin (s : State) (j : Nat) : Nat := tget 0 s.pass.next j

/-- A replay that runs on the unit is discarded and waits for its next target (Table 18-9). -/
def dropReplaysOn (u : Nat) (s : State) : State :=
  setPass s { s.pass with
    replay := s.pass.replay.map (fun e => (e.1, e.2.map (fun r =>
      if r.target ≠ 0xFFFF ∧ recordUnit r.target = recordUnit u then { r with target := 0xFFFF, tried := r.target :: r.tried }
      else r))) }

/-- A mark on the step of a unit in a window; a step in progress is open again. -/
def markStep (j u now_ : Nat) (w : Nat) (s : State) : State :=
  let r := stepOf s j w u
  setStep { r with sus := true, ok := r.ok && w != now_ } s

/-- Marking the steps of a unit in every uncommitted window suspect (R588), the current one among them. A replay that runs on the unit
is discarded. -/
def suspectUnit (u : Nat) (s : State) : State :=
  let s := dropReplaysOn u s
  let u := if utype u = 0x02 then uNE (uindex u) else u
  let j := unitJob s u
  if 8 ≤ j then s else
  let w := jobWindow s j
  (upto (min 1024 (w + 1 - min w (nextWin s j)))).foldl (fun s i => markStep j u w (w - i) s) s

/-- The POISON notice (Table 18-5). -/
def poisonNotice (j : Nat) (r : Restart) (s : State) : State :=
  let st := match r.cause with | 0 => ST_POISONED | 2 | 3 => ST_CONFLICT | 4 => ST_ABORTED | _ => ST_OK
  notice NT_POISON st r.unit (beBytes 1 j ++ beBytes 1 r.cause ++ beBytes 2 r.unit ++ beBytes 4 r.win
    ++ beBytes 4 r.gen ++ beBytes 8 r.taint ++ beBytes 8 (now s) ++ beBytes 4 0) s

/-! ### Links and windows -/

/-- A Canal link. -/
def linkOf (s : State) (k : Nat) : CkLink := tget {} s.canal.links k

/-- Changing a Canal link. -/
def setLink (s : State) (k : Nat) (v : CkLink) : State :=
  { s with canal := { s.canal with links := tset {} s.canal.links k v } }

/-- The job runs in guarded mode (Table 6-9). -/
def guarded (s : State) (j : Nat) : Bool := rdB s uDEV CNL_JOB.MODE j

/-- The attempt of a job's window (R245). -/
def attemptOf (s : State) (j w : Nat) : Nat := tget 0 s.canal.attempts (w * 8 + j)

/-- Setting it. -/
def setAttempt (j w a : Nat) (s : State) : State :=
  { s with canal := { s.canal with attempts := tset 0 s.canal.attempts (w * 8 + j) a } }

/-- A packet of a kind waits for link `k`: in its transmitter, or on its way there through the hubs (ports 72 + k and from 768). -/
def queuedFor (s : State) (k : Nat) (mine : Pkt → Bool) : Bool :=
  s.canal.q.any (fun e => (e.1 / 4 == 72 + k || decide (768 ≤ e.1 / 4))
    && e.2.any (fun p => mine p && (e.1 / 4 == 72 + k || p.to_ == some (72 + k))))

/-- A notice of a kind for (job, window) is due on every link that carried its provisional packets, or still waits to carry
them again (R242). -/
def windowNotices (kind j w : Nat) (s : State) : State :=
  (upto 4).foldl (fun s k =>
    let l := linkOf s k
    let mine (e : WinSent) : Bool := e.src == devId s && e.job == j && e.win == w && !e.ended
    let a := attemptOf s j w
    let again : Bool := !l.sent.any mine && queuedFor s k (fun p => p.prov && p.src == some (devId s) && p.job == j
      && p.win == w % 1024 && p.att == a)
    let notes := (l.sent.filter mine).map (fun e => (⟨kind, j, w, e.att, e.src, e.count⟩ : LinkNote))
      ++ (if again then [⟨kind, j, w, a, devId s, 0⟩] else [])
    let kept := (l.sent.filter (fun e => decide (w ≤ e.win + 1024) || e.job != j)).map
      (fun e => if mine e then { e with ended := true } else e)
    setLink s k { l with notes := l.notes ++ notes, sent := kept }) s

/-- The uncommitted windows of a job that sent provisional packets. -/
def openSent (s : State) (j : Nat) : List Nat :=
  ((upto 4).flatMap (fun k => ((linkOf s k).sent.filter (fun e => e.src == devId s && e.job == j && !e.ended)).map (·.win))).eraseDups

/-! ### Window log (R605) -/

/-- Devices that received a window's traffic, from the recipient log: the peers of the links it left on. -/
def recipients (s : State) (j w : Nat) : Nat :=
  let links := (s.canal.rlog.filter (fun e => e.job == j && e.win == w % 2 ^ 32 && e.src == devId s)).foldl
    (fun a e => a ||| e.links) 0
  (maskBits 4 links).foldl (fun a k => a ||| 2 ^ (linkOf s k).peerDev) 0

/-- A window log entry of (job, window), the newest first; 1,024 are kept. -/
def logWindow (j w flags : Nat) (s : State) : State :=
  let rs := sortBy (fun a b => decide (a.stream < b.stream)) (s.pass.ranges.filter (fun r => r.job == j && r.win == w))
  let streams := rs.foldl (fun a r => a ||| 2 ^ r.stream) 0
  let st := s.pass.steps.filter (fun r => r.job == j && r.win == w)
  let f := flags ||| b2n (guarded s j) ||| b2n (st.any (·.sus)) * 2 ||| b2n (st.any (·.replayed)) * 4
    ||| b2n (4 < rs.length) * 128
  let e : WinEntry := ⟨w, j, f, attemptOf s j w, now s, recipients s j w, streams,
    (rs.take 4).map (fun r => (r.first, r.last))⟩
  setPass s { s.pass with
    log := (e :: s.pass.log).take 1024,
    steps := s.pass.steps.filter (fun r => !(r.job == j && r.win == w)),
    ranges := s.pass.ranges.filter (fun r => !(r.job == j && r.win == w)) }

/-! ### The start of a job restart (R594, R596) -/

/-- Queues of a job. -/
def jobQueues (s : State) (j : Nat) : List Nat := (upto 512).filter (fun q => qJob s q == j && (bit (jobOf s j).queues q
  || (ingestSluice s q).isSome))

/-- The job's units take input: it runs and no restart is in progress. -/
def jobTakes (s : State) (j : Nat) : Bool := jobRuns s j && !(jobOf s j).restarting

/-- The monitor has started on every hart, and the IMSIC files are cleared (R387). -/
def monitorStarts (s : State) : State :=
  { s with apx := { s.apx with
      harts := (upto 8).foldl (fun t h => tmod {} t h (fun x => { x with mode := .hs, imsicP := [], imsicE := [] })) s.apx.harts,
      msi := [] } }

/-- The harts of a job are halted by the monitor and their interrupt state is discarded (R380). -/
def haltHarts (j : Nat) (s : State) : State :=
  let hs := maskBits 8 (jobOf s j).harts
  { s with apx := { s.apx with
      harts := hs.foldl (fun t h => tmod {} t h (fun x => { x with mode := .hs, inGuest := false, imsicP := [], imsicE := [] })) s.apx.harts,
      msi := tclear (fun k => k / 8192 == j) s.apx.msi } }

/-- Cores whose engines belong to a job. -/
def jobCores (s : State) (j : Nat) : List Nat := (upto 16).filter (fun n => (unitOf s (uC n)).job == j
  && (unitOf s (uC n)).st == .assigned)

/-- The unit whose image records a unit carries out: the one its work moved from, or itself (R43). -/
def originOf (s : State) (u : Nat) : Nat :=
  match s.dev.units.find? (fun e => e.2.movedTo == u) with
  | some e => e.1
  | none => u

/-- The open packets of a job's producers are rewound; committed ones stay (Table 12-7). -/
def rewindOpen (j : Nat) (s : State) : State :=
  ((jobQueues s j).filter (fun q => qProd s q != 0)).foldl (fun s q => markBad q 3 false s) s

/-- Freeing what a job retains: retained packets and undo records (Table 18-4). -/
def freeJobRetained (j : Nat) (s : State) : State :=
  let s := (jobQueues s j).foldl (fun s q => setQueue (freeRetained q (fun _ => true) s) q
    { queueOf (freeRetained q (fun _ => true) s) q with cur := [] }) s
  setPass s { s.pass with undo := (jobCores s j).foldl (fun t c => tset [] t c []) s.pass.undo }

/-- A checkpoint generation in progress is discarded (R379): JOB_CHECKPOINT completes with ST_ABORTED. -/
def dropCkpt (j : Nat) (s : State) : State :=
  let v := jobOf s j
  let s := match v.ckptRun with
    | some r => r.berths.foldl (fun s b => finishBerth b ST_ABORTED [] s) s
    | none => s
  let s := setJob s j { jobOf s j with ckptRun := none, ckptWin := none }
  setPass s { s.pass with
    ckptUndo := (jobCores s j).foldl (fun t c => tset [] t c []) s.pass.ckptUndo,
    ckptStep := (jobCores s j).foldl (fun t c => tset none t c none) s.pass.ckptStep }

/-- Records of a job that hold output of a step that was never confirmed are discarded: their windows do not commit (R350, R587). -/
def dropUnconfirmed (j : Nat) (s : State) : State :=
  let bad (r : Rec) : Bool := r.job == j && r.steps.any (fun e => stepWaits s j e.2 e.1)
  { s with res := { s.res with streams := s.res.streams.map (fun e => (e.1,
      if e.2.waiting.any bad || e.2.cur.any bad then
        { e.2 with waiting := e.2.waiting.filter (fun r => !bad r), cur := e.2.cur.filter (fun r => !bad r) }
      else e.2)) } }

/-- A restart of a job begins, unless one is in progress, which it then joins (R606). The uncommitted windows end. -/
def startRestart (j cause unit taint : Nat) (berth : Option Nat) (s : State) : State :=
  let b := berth.toList
  match tget none s.pass.restart j with
  | some r => setPass s { s.pass with restart := tset none s.pass.restart j (some { r with berths := r.berths ++ b }) }
  | none =>
    if ¬ jobRuns s j then s else
    let w0 := nextWin s j
    let w1 := jobWindow s j
    let g := match (jobOf s j).committed with | some c => c.gen | none => 0
    let r : Restart := ⟨now s, cause, unit, w0 % 2 ^ 32, g, taint, b⟩
    let s := if guarded s j then (openSent s j).foldl (fun s w => windowNotices 1 j w s) s else s
    let flags := 32 + (if cause = 0 then 16 else 0) + (if guarded s j then 8 else 0)
    let s := dropUnconfirmed j s
    let s := (upto (min 1024 (w1 + 1 - w0))).foldl (fun s i => logWindow j (w0 + i) flags s) s
    let s := haltHarts j (freeJobRetained j (rewindOpen j s))
    let s := dropCkpt j s
    let s := setJob s j { jobOf s j with restarting := true }
    setPass s { s.pass with
      restart := tset none s.pass.restart j (some r),
      replay := tset none s.pass.replay j none,
      next := tset 0 s.pass.next j (w1 + 1) }

/-- The jobs that consumed what a job's windows from `w` on sent over links in open mode, from the entries of this device (R250). -/
def consumers (s : State) (j w : Nat) : Nat :=
  (s.canal.rlog.filter (fun e => e.src == devId s && e.job == j && decide (w ≤ e.win) && e.loc && !e.guarded)).foldl
    (fun m e => m ||| e.jobs) 0

/-- The first window that a fault may have touched: the first uncommitted one, or that of the time from which windows are tainted. -/
def faultFrom (s : State) (j taint : Nat) : Nat :=
  let w := taint / (max 1 (rd s uDEV CNL_JOB.WIN_US j) * 1000)
  if taint = 0 then nextWin s j else min w (nextWin s j)

/-- A restart of a job begins; one in open mode restarts the jobs of this device that consumed its traffic too (R250). -/
def beginRestart (j cause unit taint : Nat) (berth : Option Nat) (s : State) : State :=
  let ks := if jobTakes s j ∧ ¬ guarded s j then (maskBits 8 (consumers s j (faultFrom s j taint))).filter (· != j) else []
  ks.foldl (fun s k => startRestart k cause unit taint none s) (startRestart j cause unit taint berth s)

/-- A unit of a job consumed poison (R594): the first consumption in a commit window restarts the job. -/
def consumePoison (j unit : Nat) (s : State) : State :=
  if 8 ≤ j then s else
  let w := jobWindow s j
  if s.pass.reported.contains (j, w) then s
  else beginRestart j 0 unit 0 none
    (setPass s { s.pass with reported := (j, w) :: s.pass.reported.filter (·.1 != j) })

end Sys2Proof.Machine
end

