-- ==== Sys2Proof/Machine/Results.lean ====
section
/-! DEFINITION. Result streams (file 10): rings, records, commit, read, release, subscriptions and push engines. -/
namespace Sys2Proof.Machine

/-- RES_CNT (Table 10-9); words 7 and 8 are kept per subscription under its index. -/
def resBump (k w : Nat) (s : State) : State := bump (uSTREAM k) 0x080F w s

/-- A stream. -/
def strOf (s : State) (k : Nat) : Stream := tget {} s.res.streams k

/-- Changing a stream. -/
def setStr (s : State) (k : Nat) (v : Stream) : State :=
  { s with res := { s.res with streams := tset {} s.res.streams k v } }

def resF (s : State) (k : Nat) (f : Fld) : Nat := rd s (uSTREAM k) f
def strOn (s : State) (k : Nat) : Bool := resF s k RES_STREAM.ENABLE == 1
def strSlots (s : State) (k : Nat) : Nat := resF s k RES_STREAM.SLOTS_M1 + 1
def strSlotBytes (s : State) (k : Nat) : Nat := (resF s k RES_STREAM.SLOT_M1 + 1) * 64
def slotAddr (s : State) (k i : Nat) : Nat := resF s k RES_STREAM.BASE + i * strSlotBytes s k

/-- How far `b` lies after `a`, as a 32-bit signed difference (R354). -/
def seqAfter (b a : Nat) : Int := sx 32 (b + 2 ^ 32 - a)

/-- The slots of a ring that hold a committed record. -/
def liveSlots (s : State) (k : Nat) : List (Nat × Slot) := (strOf s k).slots.filter (fun e => e.2.seq != 0)

/-- OLDEST_SEQ: the oldest record still in the ring, 0 when there is none. -/
def oldestSeq (s : State) (k : Nat) : Nat :=
  (liveSlots s k).foldl (fun a e => if a = 0 ∨ seqAfter e.2.seq a < 0 then e.2.seq else a) 0

/-- The slot that holds a sequence number. -/
def slotOfSeq (s : State) (k q : Nat) : Option (Nat × Slot) := (liveSlots s k).find? (fun e => e.2.seq == q)

/-! ### Opening, filling and closing records (R349, R351) -/

/-- Taking the next slot in cyclic order: its SEQ becomes 0 before any byte is written, an unreleased record in it
counts as an overrun, its read marks clear. -/
def takeSlot (k : Nat) (s : State) : Nat × State :=
  let v := strOf s k
  let i := v.next % strSlots s k
  let old := tget {} v.slots i
  let s := if old.seq ≠ 0 ∧ ¬ old.released then resBump k 1 s else s
  let s := ramPutNat s (slotAddr s k i) 4 0
  (i, setStr s k { v with next := (i + 1) % strSlots s k, slots := tset {} v.slots i {} })

/-- Entries that fit one slot of an entry-kind stream. -/
def slotEntries (s : State) (k : Nat) : Nat := (strSlotBytes s k - 32) / 16

/-- Opening a record for its first entry. -/
def openRec (k : Nat) (e : Entry) (s : State) : State :=
  let (i, s) := takeSlot k s
  setStr s k { strOf s k with
    cur := some {
      slot := i, kind := resF s k RES_STREAM.KIND, job := resF s k RES_STREAM.JOB, tov := e.tov,
      opened := now s, flush := resF s k RES_STREAM.FLUSH_US } }

/-- Key bits of a flow entry (R349). -/
def isFlowV (e : Entry) : Bool := e.key.any (fun k => bits k 24 2 == 2)

/-- Writing an entry into the open record: body bytes in memory with their poison, the step they come from. -/
def writeEntry (k : Nat) (e : Entry) (s : State) : State :=
  match (strOf s k).cur with
  | none => s
  | some r =>
    let a := slotAddr s k r.slot + 32 + r.entries * 16
    let s := ramPut s a e.bytes
    let s := if e.poison then setRamBad s a 16 true else s
    setStr s k { strOf s k with
      cur := some { r with
        entries := r.entries + 1, bytes := (r.entries + 1) * 16, poison := r.poison || e.poison,
        lastV := if isFlowV e then some e else none, before := (r.poison, r.steps),
        steps := if r.steps.contains (e.unit, e.win) then r.steps else r.steps ++ [(e.unit, e.win)] } }

/-- Closing the open record with every entry it holds: it waits for its commit. -/
def shutRec (k : Nat) (s : State) : State :=
  let v := strOf s k
  match v.cur with
  | none => s
  | some r => setStr s k { v with cur := none, waiting := v.waiting ++ [r] }

/-- Closing at a full record or a flush time (R349): a last FLOW_V that has company opens the next record. -/
def closeRec (k : Nat) (s : State) : State :=
  let v := strOf s k
  match v.cur with
  | none => s
  | some r =>
    match r.lastV with
    | none => shutRec k s
    | some e =>
      if slotEntries s k = 1 then shutRec k s
      else if 2 ≤ r.entries then
        let s := setStr s k { v with
          cur := some { r with
            entries := r.entries - 1, bytes := (r.entries - 1) * 16, lastV := none, poison := r.before.1, steps := r.before.2 } }
        writeEntry k e (openRec k e (shutRec k s))
      else setStr s k { v with cur := some { r with overdue := true } }

/-- An entry arrives at the writer of an entry-kind stream. -/
def addEntry (k : Nat) (e : Entry) (s : State) : State :=
  let s := if (strOf s k).cur.isNone then openRec k e s else s
  let past := (strOf s k).cur.any (·.overdue)
  let s := writeEntry k e s
  match (strOf s k).cur with
  | none => s
  | some r => if past then shutRec k s else if slotEntries s k ≤ r.entries then closeRec k s else s

/-- An entry of a producer of record kind `kind`; a stream of another kind or a disabled one discards it (R670). -/
def takeEntry (k kind : Nat) (e : Entry) (s : State) : State :=
  if strOn s k ∧ resF s k RES_STREAM.KIND = kind then addEntry k e s else resBump k 9 s

/-- Offering an entry to the writer of a stream (R112, R144). -/
def offerEntry (k : Nat) (e : Entry) (s : State) : State :=
  { s with res := { s.res with offered := tmod [] s.res.offered k (· ++ [e]) } }

/-- A producer that writes a whole body into the slot itself and hands over the commit (R349, R352). -/
def putRecord (k kind tov : Nat) (body : List Byte) (poison : Bool) (steps : List (Nat × Nat)) (s : State) : State :=
  if ¬ strOn s k ∨ resF s k RES_STREAM.KIND ≠ kind ∨ strSlotBytes s k < body.length + 32 then s else
  let (i, s) := takeSlot k s
  let a := slotAddr s k i + 32
  let s := ramPut s a body
  let s := if poison then setRamBad s a body.length true else s
  let v := strOf s k
  setStr s k { v with
    waiting := v.waiting ++ [{
      slot := i, kind := kind, job := resF s k RES_STREAM.JOB, bytes := body.length,
      tov := tov, poison := poison, steps := steps }] }

/-! ### Commit (R350) -/

/-- The header of a committed record (Table 10-2). -/
def recHeader (k seq time : Nat) (r : Rec) : List Byte :=
  leBytes 8 (seq + r.kind * 2 ^ 32 + r.job * 2 ^ 36 + b2n r.poison * 2 ^ 39 + b2n r.held * 2 ^ 41
    + b2n r.replayed * 2 ^ 42)
  ++ leBytes 8 (r.bytes + r.entries % 65536 * 2 ^ 32 + k * 2 ^ 48) ++ leBytes 8 r.tov ++ leBytes 8 time

/-- A record holds output of a step that is suspect and not yet confirmed. -/
def recWaits (s : State) (r : Rec) : Bool := r.steps.any (fun e => stepWaits s r.job e.2 e.1)

/-- The next sequence number: 0 is skipped. -/
def nextSeq (n : Nat) : Nat := if (n + 1) % 2 ^ 32 = 0 then 1 else (n + 1) % 2 ^ 32

/-- A subscription's entry of RES_SUB. -/
def subF (s : State) (i : Nat) (f : Fld) : Nat := rd s uDEV f i

/-- A committed record that a subscription selects joins its port's list (R359). -/
def selectFor (i k seq slot : Nat) (s : State) : State :=
  if subF s i RES_SUB.VALID = 0 ∨ subF s i RES_SUB.STREAM ≠ k then s else
  let v : SubSt := tget {} s.res.subs i
  let first := v.first.getD seq
  let s := { s with res := { s.res with subs := tset {} s.res.subs i { v with first := some first } } }
  if (seq + 2 ^ 32 - first) % 2 ^ 32 % (subF s i RES_SUB.EVERY_M1 + 1) = 0 then
    { s with res := { s.res with push := tmod {} s.res.push (subF s i RES_SUB.PORT) (fun p =>
        { p with waiting := p.waiting ++ [⟨i, k, seq, slot⟩] }) } }
  else s

/-- The window log learns of a record committed in a window of its job (Table 18-8). -/
def noteRange (j w k seq : Nat) (s : State) : State :=
  let same (r : WinRange) : Bool := r.job == j && r.win == w && r.stream == k
  setPass s { s.pass with
    ranges := if s.pass.ranges.any same
      then s.pass.ranges.map (fun r => if same r then { r with last := seq } else r)
      else s.pass.ranges ++ [⟨j, w, k, seq, seq⟩] }

/-- Committing a closed record: header written last, counters, the guest's notice (Table 11-6), subscriptions. -/
def commitRec (k : Nat) (r : Rec) (s : State) : State :=
  let v := strOf s k
  let seq := nextSeq v.lastSeq
  let s := ramPut s (slotAddr s k r.slot) (recHeader k seq (now s) r)
  let s := setStr s k { v with
    lastSeq := seq, slots := tset {} v.slots r.slot { seq := seq, bytes := r.bytes + 32 } }
  let s := resBump k 0 (if r.held then resBump k 5 s else s)
  let s := if r.swapped then resBump k 6 s else s
  let s := noteRange r.job (match r.steps with | e :: _ => e.2 | [] => jobWindow s r.job) k seq s
  let s := if bit (tget {} s.apx.jobctl r.job).streamEn k then
      raiseMsi r.job (bits (jobOf s r.job).streamHart (8 * (k % 64)) 8) (32 + k) s else s
  (upto 32).foldl (fun s i => selectFor i k seq r.slot s) s

/-- RECORD_COMMIT (R350): the oldest closed record, unless it waits for a second passage. -/
def recordCommit (k : Nat) (s : State) : State :=
  let v := strOf s k
  if s.dev.state = .safe then s else
  match v.waiting with
  | [] => s
  | r :: rest =>
    if recWaits s r then setStr s k { v with waiting := { r with held := true } :: rest }
    else commitRec k r (setStr s k { v with waiting := rest })

/-- RECORD_FLUSH (R349). -/
def recordFlush (k : Nat) (s : State) : State :=
  match (strOf s k).cur with
  | some r => if r.flush ≠ 0 ∧ r.opened + r.flush * 1000 ≤ now s then closeRec k s else s
  | none => s

/-- RES_STREAM.ENABLE goes from 0 to 1 (R345): every slot's SEQ and the counts become 0. A record that still waits for a second passage
stays in its slot. -/
def streamEnable (k : Nat) (s : State) : State :=
  let s := (upto (strSlots s k)).foldl (fun s i =>
    if ramNat s (slotAddr s k i) 4 = 0 then s else ramPutNat s (slotAddr s k i) 4 0) s
  let w := (strOf s k).waiting
  setStr s k { waiting := w, next := match w.getLast? with | some r => (r.slot + 1) % strSlots s k | none => 0 }

/-- Committing closed records in turn, as far as none waits for a second passage. -/
def commitAll (k : Nat) : List Rec → State → State
  | [], s => s
  | _ :: l, s => commitAll k l (recordCommit k s)

/-- RES_STREAM.ENABLE is cleared (R345): the open record closes with every entry it holds and is committed, after those before it. -/
def streamDisable (k : Nat) (s : State) : State :=
  let s := shutRec k s
  commitAll k (strOf s k).waiting s

/-! ### Reading (R353 to R358) -/

/-- RES_SSTAT (R353). -/
def sstatWord (s : State) (k w : Nat) : Nat :=
  if w = 0 then (strOf s k).lastSeq + oldestSeq s k * 2 ^ 32 else (strOf s k).relSeq

/-- The reader bit of a requester (R355): T1A to MG0, 5 the application complex, 6 the relay. -/
def readerBit : Link → Nat
  | .port p => p
  | .portal _ => 5
  | .relay _ => 6

/-- What RESULT_READ finds (R354): a status, and for a record that is present its slot. -/
inductive Found
  | fail (st : Nat)
  | record (i : Nat) (v : Slot)
deriving DecidableEq, Repr

/-- Resolving a selector: 0 BY_SEQ, 1 OLDEST, 2 NEWEST (Table 15-10). -/
def resolveRead (s : State) (k sel seq : Nat) : Found :=
  let v := strOf s k
  if ¬ strOn s k ∧ v.lastSeq = 0 then .fail ST_WRONG_STATE
  else
    let q := if sel = 1 then oldestSeq s k else if sel = 2 then v.lastSeq else seq
    if q = 0 ∨ 0 < seqAfter q v.lastSeq then .fail ST_NOT_READY
    else if seqAfter q (oldestSeq s k) < 0 then .fail ST_OVERRUN
    else match slotOfSeq s k q with
      | none => .fail ST_OVERRUN
      | some (i, v) => .record i v

/-- RESULT_RELEASE (R358). -/
def resultRelease (k seq : Nat) (s : State) : Nat × State :=
  let v := strOf s k
  if 0 < seqAfter seq v.lastSeq then (ST_NOT_READY, s)
  else
    let hit (e : Slot) : Bool := e.seq != 0 && seqAfter e.seq seq ≤ 0
    let fresh := (liveSlots s k).filter (fun e => hit e.2 && !e.2.released)
    if fresh.length = 0 then (ST_OK, s)
    else
      let newest := ((liveSlots s k).filter (fun e => hit e.2)).foldl
        (fun a e => if a = 0 ∨ 0 < seqAfter e.2.seq a then e.2.seq else a) 0
      (ST_OK, setStr s k { v with
        relSeq := newest,
        slots := v.slots.map (fun e => if hit e.2 then (e.1, { e.2 with released := true }) else e) })

/-- Setting a reader's bit in a slot. -/
def markRead (k i b : Nat) (s : State) : State :=
  let v := strOf s k
  setStr s k { v with slots := tmod {} v.slots i (fun e => { e with marks := setBits e.marks b 1 1 }) }

/-! ### Push engines (R360, R361) -/

/-- A push engine: port 0 to 4, or 5 for the head-device relay. -/
def pushOf (s : State) (p : Nat) : Push := tget {} s.res.push p

/-- Changing it. -/
def setPush (s : State) (p : Nat) (v : Push) : State :=
  { s with res := { s.res with push := tset {} s.res.push p v } }

/-- PUSH_COPY (R361): the next selected record into the free buffer, or a skip when its slot has been reused. -/
def pushCopy (p : Nat) (s : State) : State :=
  let v := pushOf s p
  match v.cur, v.waiting with
  | some _, _ => s
  | none, [] => s
  | none, j :: r =>
    let slot : Slot := tget {} (strOf s j.stream).slots j.slot
    let sub : SubSt := tget {} s.res.subs j.sub
    if subF s j.sub RES_SUB.VALID = 0 then setPush s p { v with waiting := r }
    else if slot.seq ≠ j.seq then
      bump (uSTREAM j.stream) 0x080F 8 (setPush
        { s with res := { s.res with subs := tset {} s.res.subs j.sub { sub with gap := sub.gap + 1 } } } p
        { v with waiting := r }) j.sub
    else
      let buf := ramBytes s (slotAddr s j.stream j.slot) slot.bytes
      setPush { s with res := { s.res with subs := tset {} s.res.subs j.sub { sub with gap := 0 } } } p
        { waiting := r, cur := some j, buf := buf, sent := 0, gap := sub.gap }

/-- Record bytes of the largest fragment: the payload limit of 1,200 bytes (R445) less the prefix (R360). -/
def pushMax : Nat := 1184

/-- The prefix of a fragment (R360). -/
def pushPrefix (j : PushJob) (gap off total : Nat) (last : Bool) : List Byte :=
  beBytes 1 j.stream ++ beBytes 1 (b2n last + b2n (gap ≠ 0) * 2) ++ beBytes 2 (min gap 65535) ++ beBytes 4 j.seq
    ++ beBytes 4 off ++ beBytes 4 total

/-- PUSH_FRAGMENT (R361): the next fragment goes to the transmit queue of its class; the last one frees the buffer. -/
def pushFragment (p : Nat) (s : State) : State :=
  let v := pushOf s p
  match v.cur with
  | none => s
  | some j =>
    let part := (v.buf.drop v.sent).take pushMax
    let last : Bool := v.buf.length ≤ v.sent + part.length
    let body := pushPrefix j v.gap v.sent v.buf.length last ++ part
    let sub : SubSt := tget {} s.res.subs j.sub
    let n := (sub.count + 1) % 2 ^ 32
    let s := { s with res := { s.res with subs := tset {} s.res.subs j.sub { sub with count := n } } }
    let h : TowHdr := { kind := 3, cls := subF s j.sub RES_SUB.CLASS, code := 0, seq := n }
    let s := if p < 5 then sendTo (.port p) .push (notifyIp s p) (rd s (uETH p) TOW_PORT.NOTIFY_PORT) h body s
      else sendTo (match sub.creator with | some (.relay o) => .relay o | _ => .relay 0) .push 0 0 h body s
    if last then
      let s := setPush s p { v with cur := none, buf := [], sent := 0, gap := 0 }
      let s := if (tget {} (strOf s j.stream).slots j.slot).seq = j.seq then
          markRead j.stream j.slot (if p < 5 then p else 6) s else s
      bump (uSTREAM j.stream) 0x080F 7 s j.sub
    else setPush s p { v with sent := v.sent + part.length }

/-- The field rules of RES_STREAM (R342, R344). -/
def checkResStream (s : State) (k : Nat) (ws : List Nat) : Nat :=
  let f := fldOf ws
  let same (g : Fld) : Bool := f g == resF s k g
  let on := strOn s k
  firstFail [(f RES_STREAM.KIND ≤ 9, ST_UNSUPPORTED), (1 ≤ f RES_STREAM.SLOTS_M1, ST_UNSUPPORTED),
    (f RES_STREAM.BASE % 64 = 0 ∧ inRam (f RES_STREAM.BASE), ST_UNSUPPORTED),
    (¬ on ∨ (same RES_STREAM.BASE ∧ same RES_STREAM.KIND ∧ same RES_STREAM.JOB ∧ same RES_STREAM.SLOTS_M1
      ∧ same RES_STREAM.SLOT_M1), ST_WRONG_STATE),
    (on ∨ f RES_STREAM.ENABLE = 0 ∨ memReady s (f RES_STREAM.BASE), ST_WRONG_STATE)]

/-! ### The commands -/

def execRecordFlush (stream : Nat) (s : State) : Out := .next (recordFlush stream s)
def execRecordCommit (stream : Nat) (s : State) : Out := .next (recordCommit stream s)
def execPushCopy (port : Nat) (s : State) : Out := .next (pushCopy port s)
def execPushFragment (port : Nat) (s : State) : Out := .next (pushFragment port s)

end Sys2Proof.Machine
end

