-- ==== Sys2Proof/Machine/Fabric.lean ====
section
/-! DEFINITION. Ports and class queues of the Canal (R209, R210, R218), the way of a copy through the hubs, and how an engine
offers a packet. The credits of an on-die queue are its free places (R218). -/
namespace Sys2Proof.Machine

/-! ### Ports: 0 to 15 surface engine to lock, 16 to 31 neuron engine to lock, 32 to 47 hub to lock, 48 to 51 link
receivers, 52 to 67 neuron engine inputs, 68 to 71 tensor builders, 72 to 75 link transmitters, 76 fusion, 77 and 78
alarm framers of T1A and T1B, 80 to 83 urgent pairs at the policer, 128 to 191 streams, 256 to 767 queues, 768 to 783 lock
outputs to the hub, 784 to 799 hub to hub, 800 to 803 service ports of the hubs. -/

def pSE (c : Nat) : Nat := c
def pNE (c : Nat) : Nat := 16 + c
def pHub (c : Nat) : Nat := 32 + c
def pRx (k : Nat) : Nat := 48 + k
def pNeIn (c : Nat) : Nat := 52 + c
def pTen (k : Nat) : Nat := 68 + k
def pTx (k : Nat) : Nat := 72 + k
def pFus : Nat := 76
def pFramer (p : Nat) : Nat := 77 + p
def pUp (n : Nat) : Nat := 80 + n
def pStream (k : Nat) : Nat := 128 + k
def pQueue (q : Nat) : Nat := 256 + q
def pOut (c : Nat) : Nat := 768 + c
def pMesh (h g : Nat) : Nat := 784 + 4 * h + g
def pSvc (h : Nat) : Nat := 800 + h

/-- The class queue of a port. -/
def cq (s : State) (port cls : Nat) : List Pkt := tget [] s.canal.q (port * 4 + cls)

/-- Changing it. -/
def setCq (s : State) (port cls : Nat) (l : List Pkt) : State :=
  { s with canal := { s.canal with q := tset [] s.canal.q (port * 4 + cls) l } }

/-- Copies a class queue holds (R218): 8 in class 0, 128 at a link receiver, 16 elsewhere. -/
def cqCap (port cls : Nat) : Nat := if cls = 0 then 8 else if 48 ≤ port ∧ port < 52 then 128 else 16

/-- Space for one more copy. -/
def cqRoom (s : State) (port cls : Nat) : Bool := (cq s port cls).length < cqCap port cls

/-- A copy joins a class queue. -/
def putCq (port : Nat) (p : Pkt) (s : State) : State := setCq s port p.cls (cq s port p.cls ++ [p])

/-- The oldest copy of the lowest class waiting at a port. -/
def firstCq (s : State) (port : Nat) : Option Pkt :=
  ((upto 4).find? (fun c => (cq s port c) != [])).bind (fun c => (cq s port c).head?)

/-- That copy leaves. -/
def dropCq (port : Nat) (s : State) : State :=
  match (upto 4).find? (fun c => (cq s port c) != []) with
  | none => s
  | some c => setCq s port c ((cq s port c).drop 1)

/-- All copies waiting at a port. -/
def portLen (s : State) (port : Nat) : Nat := ((upto 4).map (fun c => (cq s port c).length)).sum

/-- The hub that a port is a port of; streams, queues and fusion stand behind the service port of every hub. -/
def hubOfPort (f : Nat) : Option Nat :=
  if 32 ≤ f ∧ f < 48 then some ((f - 32) / 4) else if 68 ≤ f ∧ f < 72 then some (f - 68)
  else if 72 ≤ f ∧ f < 76 then some (f - 72) else none

/-- The output port of hub `h` for a copy bound for port `f`: its own, the mesh towards that port's hub, or its service port. -/
def fromHub (h f : Nat) : Nat :=
  match hubOfPort f with
  | some g => if g = h then f else pMesh h g
  | none => pSvc h

/-- The input ports of a hub: its four locks, its link receiver, the other hubs. -/
def hubInputs (h : Nat) : List Nat :=
  (upto 4).map (fun i => pOut (4 * h + i)) ++ [pRx h] ++ ((upto 4).filter (· != h)).map (fun g => pMesh g h)

/-- The input ports that compete for an output port (R219): a core's engines and hub for its lock's outputs, a hub's inputs
for its ports, the service ports for what stands behind them. -/
def feeders (o : Nat) : List Nat :=
  if 52 ≤ o ∧ o < 68 then [pSE (o - 52), pNE (o - 52), pHub (o - 52)]
  else if 768 ≤ o ∧ o < 784 then [pSE (o - 768), pNE (o - 768), pHub (o - 768)]
  else if 784 ≤ o ∧ o < 800 then hubInputs ((o - 784) / 4)
  else if 800 ≤ o ∧ o < 804 then hubInputs (o - 800)
  else match hubOfPort o with
    | some h => hubInputs h
    | none => (upto 4).map pSvc

/-- A packet as its source engine forms it (R210): even parity, HOPS 15. -/
def mkPkt (key pay cls job unit : Nat) (poison : Bool) : Pkt :=
  { key := key, pay := pay, cls := cls, poison := poison, parK := parity 32 key, parP := parity 32 pay, job := job,
    unit := unit }

/-- The parity check of a receiver (R30, R210): a failed check poisons the packet and counts in word 3 of CNL_CNT. -/
def checkParity (unit : Nat) (p : Pkt) (s : State) : Pkt × State :=
  if p.parK = parity 32 p.key ∧ p.parP = parity 32 p.pay then (p, s)
  else ({ p with poison := true }, bump unit 0x050F 3 s)

/-- The same check at a hub or another crossing (R30), which counts in its parity-error counter. -/
def crossCheck (unit : Nat) (p : Pkt) (s : State) : Pkt × State :=
  if p.parK = parity 32 p.key ∧ p.parP = parity 32 p.pay then (p, s) else ({ p with poison := true }, crossParity unit true s)

end Sys2Proof.Machine
end

