-- ==== Sys2Proof/Machine/Ladder.lean ====
section
/-! DEFINITION. What every part of the block may do to a change of power level (R629 to R631, R634): the power notice, the
abort of an entry, and a wake source. -/
namespace Sys2Proof.Machine

/-- A change of the power state. -/
def setPwr (s : State) (p : PwrSt) : State := { s with pwr := p }

/-- TJ_MAX (R640): the highest sensor. -/
def tjMax (s : State) : Int := s.safe.temps.foldl max (s.safe.temps.headD 0)

/-- The power notice (R634, Table 20-6). -/
def powerNotice (kind from_ dest wake rkind rdetail : Nat) (s : State) : State :=
  notice NT_UNIT (if kind = 1 ∨ kind = 2 then ST_ABORTED else ST_OK) uDEV
    (beBytes 1 kind ++ beBytes 1 from_ ++ beBytes 1 dest ++ beBytes 1 wake ++ beBytes 2 rkind ++ beBytes 2 rdetail
      ++ beBytes 8 (now s) ++ beBytes 4 s.pwr.mw ++ beBytes 2 (lowBits 16 (tjMax s)) ++ beBytes 2 0) s

/-- The reply payload of POWER_LEVEL_SET (R500). -/
def levelReply (level rkind rdetail : Nat) : List Byte :=
  beBytes 1 level ++ beBytes 1 0 ++ beBytes 2 rkind ++ beBytes 2 rdetail

/-- The TC10 symbol a port sends (R637). -/
def sendTc10 (what : Nat) (s : State) (p : Nat) : State := setEth s p { ethOf s p with tc10 := what }

/-- The entry in progress is aborted by a refuser (R629): the sleep requests it answers are rejected, its command ends with
ST_ABORTED. -/
def abortEntry (rkind rdetail : Nat) (s : State) : State :=
  match s.pwr.entry with
  | none => s
  | some e =>
    let s := setPwr s { s.pwr with entry := none }
    let s := powerNotice 2 s.dev.level e.target 0xFF rkind rdetail s
    let s := e.ports.foldl (sendTc10 3) s
    match e.berth with
    | some b => finishBerth b ST_ABORTED (levelReply s.dev.level rkind rdetail) s
    | none => s

/-- The levels that a wake source leaves (Table 20-5). -/
def wakes (src level : Nat) : Bool :=
  match src with
  | 0 => level == 1 || level == 2
  | 1 => level == 3
  | 2 => decide (1 ≤ level ∧ level ≤ 4)
  | 4 => level == 4
  | _ => decide (2 ≤ level ∧ level ≤ 4)

/-- A wake source (R629, R631): it aborts an entry before its last point of refusal, starts an exit as an entry past it
completes, leaves the level otherwise, and takes an exit to PL1 on to PL0. -/
def powerWake (src : Nat) (port : Option Nat) (s : State) : State :=
  match s.pwr.entry with
  | some e =>
    if ¬ wakes src e.target then s
    else if e.quiesced then setPwr s { s.pwr with entry := some { e with wake := e.wake.or (some (src, port)) } }
    else abortEntry 1 (match port with | some p => uETH p | none => 0xFFFF) s
  | none =>
    if ¬ wakes src s.dev.level then s
    else match s.pwr.exit_ with
      | some x => setPwr s { s.pwr with exit_ := some { x with target := 0 } }
      | none => setPwr s { s.pwr with exit_ := some { src := src, target := 0, port := port } }

end Sys2Proof.Machine
end

