-- ==== Sys2Proof/Machine/Time.lean ====
section
/-! DEFINITION. The time unit: the counter (R412 to R416), compare logic and scheduled outputs (R431 to R436), the
transmit stamp queue (R429, R430). -/
namespace Sys2Proof.Machine

/-- Changing the time unit. -/
def setTime (s : State) (t : TimeSt) : State := { s with time := t }

/-- INCR_NOW of the next tick: INCR_NOM − ADJ (R416). -/
def incrNext (s : State) : Nat := ((rd s uTMU TMU_INCR.INCR_NOM : Int) - s.time.adj).toNat

/-- `(sec, ns, frac)` after adding `d` in 2^-32 ns, with the carry into SEC (R412). -/
def addTime (t : TimeSt) (d : Nat) : TimeSt :=
  let v := t.ns * 2 ^ 32 + t.frac + d
  let lim := 1000000000 * 2 ^ 32
  { t with sec := (t.sec + v / lim) % 2 ^ 48, ns := (v % lim) / 2 ^ 32, frac := v % 2 ^ 32 }

/-- `n` ticks of the counter, each adding INCR_NOW times `k` (k is 1, or 32 in the slow mode of R635). -/
def tickBy (n k : Nat) (s : State) : State :=
  if n = 0 then s else
  let i := incrNext s
  setTime s { addTime s.time (n * k * i) with ticks := s.time.ticks + n * k, incrNow := i }

/-- Device time of the first tick after an edge, in 2^-32 ns, less a fixed input delay in ps, rounded to whole ns,
ties to even (R435). -/
def edgeStamp (s : State) (delayPs : Nat) : Nat :=
  let t := (now s : Int) * 2 ^ 32 + (s.time.frac : Int) + (incrNext s : Int) - ((delayPs * 2 ^ 32 / 1000 : Nat) : Int)
  (divRne t (2 ^ 32)).toNat

/-- The fixed input delay of SYNC_IN and SYNC_INERT, 3.75 ns (R663). -/
def syncInDelayPs : Nat := 3750

/-- A hardware comparison of device time with a target (R431). -/
def due (s : State) (t : Nat) : Bool :=
  decide (0 ≤ sx 32 (lowBits 32 ((now s : Int) - (t : Int))))

/-- A target that an arming write may set: at most 2^31 − 1 ns ahead, by full 64-bit values (R431). -/
def armable (s : State) (t : Nat) : Bool := t ≤ now s + 2147483647

/-- The next target of a periodic action after a firing at `t`: the first `t + k * p` after device time, with the
`k - 1` periods passed over (R432). -/
def nextTarget (s : State) (t p : Nat) : Nat × Nat :=
  if now s < t + p then (t + p, 0)
  else let k := (now s - t) / p + 1
       (t + k * p, k - 1)

/-- The TIME notice (Table 14-10a). -/
def timeNotice (kind index flags value : Nat) (s : State) : State :=
  let sync := match s.time.sync with | .freeRun => 0 | .acquiring => 1 | .locked => 2 | .holdover => 3
  notice NT_TIME ST_OK uTMU (beBytes 1 kind ++ beBytes 1 sync ++ beBytes 1 index ++ beBytes 1 flags
    ++ beBytes 4 (lowBits 32 s.time.lastOff) ++ beBytes 8 value) s

/-! ### Comparators (R431 to R433) -/

/-- Arming a comparator after a write: a target at or before device time will fire late (R431). -/
def armCmp (i : Nat) (s : State) : State :=
  let late := rdB s uTMU TMU_CMP.ARM i && rd s uTMU TMU_CMP.TARGET i ≤ now s
  setTime s { s.time with cmpLate := setBits s.time.cmpLate i 1 (b2n late) }

/-- Firing a comparator: LATE and CMP_LATE for a late one, re-arming or clearing ARM, the time notice (R433); comparator 7
wakes the device (R631). -/
def fireCmp (i : Nat) (s : State) : State :=
  let t := rd s uTMU TMU_CMP.TARGET i
  let p := rd s uTMU TMU_CMP.PERIOD_NS i
  let late := bit s.time.cmpLate i
  let s := if late then bump uTMU 0x0A0F 5 (wr s uTMU TMU_CMP.LATE 1 i) else s
  let s := setTime s { s.time with cmpLate := setBits s.time.cmpLate i 1 0 }
  let s := if p = 0 then wr s uTMU TMU_CMP.ARM 0 i
    else bumpN (nextTarget s t p).2 uTMU 0x0A0F 6 (wr s uTMU TMU_CMP.TARGET (nextTarget s t p).1 i)
  let s := timeNotice 4 i (b2n late) t s
  if i = 7 then powerWake 3 none s else s

/-- A comparator's target is reached, or lies in the past. -/
def cmpDue (s : State) (i : Nat) : Bool :=
  rdB s uTMU TMU_CMP.ARM i && (bit s.time.cmpLate i || due s (rd s uTMU TMU_CMP.TARGET i))

/-- COMPARATOR_FIRE (R431). -/
def comparatorFire (i : Nat) (s : State) : State := if i < 8 ∧ cmpDue s i then fireCmp i s else s

/-! ### SYNC_OUT schedulers (R434) -/

/-- A scheduler. -/
def syncOutOf (s : State) (n : Nat) : SyncOut := tget {} s.time.syncOut n

/-- Changing a scheduler. -/
def setSyncOut (s : State) (n : Nat) (o : SyncOut) : State :=
  setTime s { s.time with syncOut := tset {} s.time.syncOut n o }

/-- Setting TMU_SYNCOUT.ENABLE: COUNT is zeroed, the first target is START, late when it has passed. -/
def syncOutEnable (n : Nat) (s : State) : State :=
  let st := rd s (uSL n) TMU_SYNCOUT.START
  setSyncOut s n { syncOutOf s n with
    target := st, late := st ≤ now s, count := 0, hist := [],
    period := rd s (uSL n) TMU_SYNCOUT.PERIOD_NS, width := rd s (uSL n) TMU_SYNCOUT.WIDTH }

/-- A rising edge: LAST_EDGE is the scheduled time, COUNT advances, the written period and width take effect. -/
def syncOutFire (n : Nat) (s : State) : State :=
  let o := syncOutOf s n
  let s := if o.late then bump uTMU 0x0A0F 5 (wr s (uSL n) TMU_SYNCOUT.LATE 1) else s
  let p := rd s (uSL n) TMU_SYNCOUT.PERIOD_NS
  let k := nextTarget s o.target p
  bumpN k.2 uTMU 0x0A0F 6 (setSyncOut s n { o with
    target := k.1, late := false, period := p, width := rd s (uSL n) TMU_SYNCOUT.WIDTH,
    high := true, endTick := s.time.ticks + o.width, count := (o.count + 1) % 2 ^ 16, lastEdge := o.target,
    hist := ((o.count, o.target) :: o.hist).take 4 })

/-- SYNC_OUT_EDGE (R434). -/
def syncOutEdge (n : Nat) (s : State) : State :=
  let o := syncOutOf s n
  if rdB s (uSL n) TMU_SYNCOUT.ENABLE ∧ (o.late ∨ due s o.target) then syncOutFire n s else s

/-- SYNC_OUT_PULSE_END (R434): WIDTH ticks after the rising edge. -/
def syncOutPulseEnd (n : Nat) (s : State) : State :=
  let o := syncOutOf s n
  if o.high ∧ o.endTick ≤ s.time.ticks then setSyncOut s n { o with high := false } else s

/-- The level of SLn_SYNC_OUT: the inactive level outside a pulse (R434). -/
def syncOutLevel (s : State) (n : Nat) : Bool := (syncOutOf s n).high != rdB s (uSL n) TMU_SYNCOUT.INVERT

/-! ### PTP_PPS_OUT (R436) -/

/-- Pulses are emitted: always with GATE = 0, otherwise while LOCKED or HOLDOVER. -/
def ppsGate (s : State) : Bool :=
  !rdB s uTMU TMU_PPS.GATE || s.time.sync == .locked || s.time.sync == .holdover

/-- The next edge after a write of TMU_PPS or a step: in this second while NS is before OFFSET_NS, in the next one otherwise. -/
def ppsRestart (s : State) : State :=
  setTime s { s.time with
    ppsSec := if rd s uTMU TMU_PPS.OFFSET_NS ≤ s.time.ns then s.time.sec + 1 else s.time.sec }

/-- PPS_EDGE: NS has reached OFFSET_NS in this second. -/
def ppsEdge (s : State) : State :=
  if rdB s uTMU TMU_PPS.ENABLE ∧ rd s uTMU TMU_PPS.OFFSET_NS ≤ s.time.ns ∧ s.time.ppsSec ≠ s.time.sec + 1 then
    if ppsGate s then
      setTime s { s.time with
        ppsSec := s.time.sec + 1, ppsHigh := true,
        ppsEnd := s.time.sec * 1000000000 + rd s uTMU TMU_PPS.OFFSET_NS + rd s uTMU TMU_PPS.WIDTH_US * 1000 }
    else setTime s { s.time with ppsSec := s.time.sec + 1 }
  else s

/-- PPS_PULSE_END: WIDTH_US after the rise. -/
def ppsPulseEnd (s : State) : State :=
  if s.time.ppsHigh ∧ s.time.ppsEnd ≤ now s then setTime s { s.time with ppsHigh := false } else s

/-! ### SYNC_IN stamps (R435) -/

/-- Placing a stamp in a sluice's 4-entry buffer; an unused oldest one that is replaced is counted. -/
def pushSyncIn (n t : Nat) (s : State) : State :=
  let l := tget [] s.time.syncIn n
  match l with
  | a :: r =>
    if 4 ≤ l.length then
      let s := setTime s { s.time with syncIn := tset [] s.time.syncIn n (r ++ [⟨t, false⟩]) }
      if a.used then s else bump uTMU 0x0A0F 7 s
    else setTime s { s.time with syncIn := tset [] s.time.syncIn n (l ++ [⟨t, false⟩]) }
  | [] => setTime s { s.time with syncIn := tset [] s.time.syncIn n [⟨t, false⟩] }

/-- SYNC_IN_EDGE (R435). -/
def syncInEdge (n : Nat) (s : State) : State := pushSyncIn n (edgeStamp s syncInDelayPs) s

/-! ### PTP stamps (R425, R429, R430) -/

/-- The PTP state of a port. -/
def ptpOf (s : State) (p : Nat) : PtpPort := tget {} s.time.ptp p

/-- Changing it. -/
def setPtp (s : State) (p : Nat) (v : PtpPort) : State := setTime s { s.time with ptp := tset {} s.time.ptp p v }

/-- A latency in ps as 2^-16 ns (R427). -/
def psTo16 (ps : Int) : Int := ps * 65536 / 1000

/-- Device time in 2^-16 ns. -/
def now16 (s : State) : Int := (now s : Int) * 65536 + ((s.time.frac / 65536 : Nat) : Int)

/-- The ingress stamp of a port (R425). -/
def ingress16 (s : State) (p : Nat) : Int := now16 s - psTo16 (sx 32 (rd s (uETH p) TMU_PORT.INGRESS_PS))

/-- The egress stamp of a port (R425). -/
def egress16 (s : State) (p : Nat) : Int := now16 s + psTo16 (sx 32 (rd s (uETH p) TMU_PORT.EGRESS_PS))

/-- PTP_EVENT_TX (R429): the stamp enters the 8-entry queue under its key, or is discarded. -/
def ptpEventTx (p kind seq : Nat) (s : State) : State :=
  let q := ptpOf s p
  let t := (asr (egress16 s p) 16).toNat
  if q.txq.length < 8 then
    setPtp s p { q with txq := q.txq ++ [⟨(kind % 16) * 4096 + seq % 4096, t / 1000000000, t % 1000000000⟩] }
  else bump uTMU 0x0A0F 8 (wr s (uETH p) TMU_PORT.TXQ_OVF 1) p

/-- The queue without its oldest entry under a key. -/
def takeStamp (key : Nat) : List TxStamp → Option TxStamp × List TxStamp
  | [] => (none, [])
  | a :: r => if a.key = key then (some a, r) else let (f, r') := takeStamp key r; (f, a :: r')

/-- TXQ_LOOKUP (R430). -/
def txqLookup (p key : Nat) (s : State) : State :=
  let q := ptpOf s p
  let (f, r) := takeStamp key q.txq
  let s := setPtp s p { q with found := f, txq := r }
  if f.isSome then s else bump uTMU 0x0A0F 9 s p

/-! ### The commands -/

def execTmuTickLock (s : State) : Out := .next (setReady RB_TMU true s)
def execComparatorFire (index : Nat) (s : State) : Out := .next (comparatorFire index s)
def execSyncOutEdge (sluice : Nat) (s : State) : Out := .next (syncOutEdge sluice s)
def execSyncOutPulseEnd (sluice : Nat) (s : State) : Out := .next (syncOutPulseEnd sluice s)
def execPpsEdge (s : State) : Out := .next (ppsEdge s)
def execPpsPulseEnd (s : State) : Out := .next (ppsPulseEnd s)
def execSyncInEdge (sluice : Nat) (s : State) : Out := .next (syncInEdge sluice s)
def execPtpEventTx (port kind seq : Nat) (s : State) : Out := .next (ptpEventTx port kind seq s)
def execTxqLookup (port key : Nat) (s : State) : Out := .next (txqLookup port key s)

/-- The field rules of TMU_CMP (R431, Table 13-8): an armed target inside the window, a period of 0 or at least
1,000 ns. -/
def checkCmp (s : State) (ws : List Nat) : Nat :=
  let p := fldOf ws TMU_CMP.PERIOD_NS
  firstFail [(p = 0 ∨ 1000 ≤ p, ST_UNSUPPORTED),
    (fldOf ws TMU_CMP.ARM = 0 ∨ armable s (fldOf ws TMU_CMP.TARGET), ST_UNSUPPORTED)]

/-- The field rules of TMU_SYNCOUT (R434, Table 13-8). -/
def checkSyncOut (s : State) (n : Nat) (ws : List Nat) : Nat :=
  let p := fldOf ws TMU_SYNCOUT.PERIOD_NS
  let w := fldOf ws TMU_SYNCOUT.WIDTH
  let was := rdB s (uSL n) TMU_SYNCOUT.ENABLE
  firstFail [(1000 ≤ p, ST_UNSUPPORTED), (1 ≤ w ∧ w * 5 < p * 4, ST_UNSUPPORTED),
    (¬ was ∨ fldOf ws TMU_SYNCOUT.START = rd s (uSL n) TMU_SYNCOUT.START, ST_WRONG_STATE),
    (was ∨ fldOf ws TMU_SYNCOUT.ENABLE = 0 ∨ armable s (fldOf ws TMU_SYNCOUT.START), ST_UNSUPPORTED)]

/-- The field rules of TMU_PPS (R436). -/
def checkPps (ws : List Nat) : Nat :=
  let w := fldOf ws TMU_PPS.WIDTH_US
  firstFail [(1 ≤ w ∧ w ≤ 999999, ST_UNSUPPORTED), (fldOf ws TMU_PPS.OFFSET_NS ≤ 999999999, ST_UNSUPPORTED)]

/-- The range of INCR_NOM (Table 13-2). -/
def checkIncr (ws : List Nat) : Nat :=
  let v := fldOf ws TMU_INCR.INCR_NOM
  firstFail [(0x013F000000 ≤ v ∧ v ≤ 0x0140FFFFFF, ST_UNSUPPORTED)]

/-- The ranges of TMU_SERVO (R417, Table 13-3). -/
def checkServo (ws : List Nat) : Nat :=
  let r (f : Fld) (lo hi : Nat) : Bool × Nat := (lo ≤ fldOf ws f ∧ fldOf ws f ≤ hi, ST_UNSUPPORTED)
  firstFail [r TMU_SERVO.SRC_PORT 0 5, r TMU_SERVO.KP_SHIFT 16 47, r TMU_SERVO.KI_SHIFT 16 47,
    r TMU_SERVO.ADJ_MAX_PPB 1 500000, r TMU_SERVO.STEP_NS 100 1000000000, r TMU_SERVO.OUTLIER_NS 1 1000000000,
    r TMU_SERVO.LOCK_NS 1 65535, r TMU_SERVO.LOCK_COUNT 1 15, r TMU_SERVO.OUTLIER_MAX 1 15,
    r TMU_SERVO.SYNC_TIMEOUT_MS 10 65535, r TMU_SERVO.BACK_MAX_MS 1 4294967295, r TMU_SERVO.HOLD_LIMIT_S 1 65535]

/-- The ranges of TMU_PORT (R426, Table 13-6). -/
def checkTmuPort (ws : List Nat) : Nat :=
  let r (f : Fld) : Bool × Nat := (decide (-1000000 ≤ sx 32 (fldOf ws f) ∧ sx 32 (fldOf ws f) ≤ 1000000), ST_UNSUPPORTED)
  firstFail [r TMU_PORT.INGRESS_PS, r TMU_PORT.EGRESS_PS, r TMU_PORT.ASYM_PS]

end Sys2Proof.Machine
end

