-- ==== Sys2Proof/Machine/Inertial.lean ====
section
/-! DEFINITION. The inertial chain (file 03): filter paths sample by sample with their widths, output records, resets,
checks. The coefficients of the response ROM are not printed in the spec: they are free constants of Config. -/
namespace Sys2Proof.Machine

/-- INR_CNT (Table 3-12). -/
def inrBump (ch w : Nat) (s : State) : State := bump (uIN ch) 0x020F w s

/-- A channel. -/
def inrOf (s : State) (ch : Nat) : InrCh := tget {} s.inr.ch ch

/-- Changing a channel. -/
def setInr (s : State) (ch : Nat) (v : InrCh) : State := { s with inr := { s.inr with ch := tset {} s.inr.ch ch v } }

def inF (s : State) (ch : Nat) (f : Fld) : Nat := rd s (uIN ch) f
/-- The channel runs: ENABLE as it stood at its last reset (R119). -/
def inrOn (s : State) (ch : Nat) : Bool := (inrOf s ch).on
/-- INR_CH.ENABLE as written. -/
def inrEnabled (s : State) (ch : Nat) : Bool := inF s ch INR_CH.ENABLE == 1
def engForm (s : State) (e : Nat) : Nat := rd s (uFE e) INR_ENG.FORM
def engRate (s : State) (e : Nat) : Nat := rd s (uFE e) INR_ENG.RATE

/-- f_in in Hz (Table 3-10). -/
def rateHz (r : Nat) : Nat :=
  match r with
  | 0 => 3072000 | 1 => 6144000 | 2 => 12288000 | 3 => 24576000 | 4 => 192000 | _ => 384000

/-- Edges of the 24.576 MHz inertial sample clock in one input period (R96, R100). -/
def periodEdges (s : State) (e : Nat) : Nat := 24576000 / rateHz (engRate s e)

/-- Edges of the sample clock in one output period (Table 3-3). -/
def outEdges (preset : Nat) : Nat := 24576 / 2 ^ preset

/-- PDM input decimation, 1 for word inputs (R102). -/
def dIn (s : State) (e : Nat) : Nat := if engForm s e = 0 then rateHz (engRate s e) / 384000 else 1

/-- r in Hz: 384 kHz behind the PDM stage, f_in for words. -/
def rHz (s : State) (e : Nat) : Nat := if engForm s e = 0 then 384000 else rateHz (engRate s e)

/-- f_out in Hz (Table 3-3). -/
def outHz (preset : Nat) : Nat := 1000 * 2 ^ preset

/-- N = r / f_out (R103). -/
def nOf (s : State) (e preset : Nat) : Nat := rHz s e / outHz preset

/-- The number of half-band stages H = log2(N/3). -/
def hOf (n : Nat) : Nat := Nat.log2 (n / 3)

/-- Order M of the fallback CIC (Table 3-3). -/
def mOf (preset : Nat) : Nat := match preset with | 0 | 1 => 5 | 2 => 4 | _ => 3

/-- ROM entry of the compensation FIR. -/
def compEntry (preset : Nat) : Nat := match preset with | 0 | 1 => 6 | 2 => 5 | _ => 4

/-- ROM entry of the final FIR. -/
def finEntry (preset : Nat) : Nat := if preset = 0 then 2 else 3

/-- Taps of a ROM entry that a channel selects (Table 3-2). -/
def romTaps (e : Nat) : Nat :=
  match e with
  | 0 => 11 | 1 => 19 | 2 => 25 | 3 => 19 | 4 => 9 | 5 => 15 | 6 => 21 | _ => 1

/-- Coefficient `i` of a ROM entry, 20-bit signed at scale 2^-19; the response is symmetric (R104). -/
def romCoef (e i : Nat) : Int := (Config.romCoef e (min i (romTaps e - 1 - i))).toInt

/-- round_conv of R106. -/
def roundConv (a : Int) (n : Nat) : Int := rshRne a n

/-! ### Stages (R103, Table 3-4) -/

/-- Integrators of a CIC in cascade, in registers of `w` bits. -/
def cicInteg (w : Nat) (x : Int) : List Int → List Int
  | [] => []
  | a :: r => let y := sx w (lowBits w (a + x)); y :: cicInteg w y r

/-- Combs in cascade: the new register contents and the output. -/
def cicComb (w : Nat) (x : Int) : List Int → List Int × Int
  | [] => ([], x)
  | a :: r => let (t, y) := cicComb w (sx w (lowBits w (x - a))) r; (x :: t, y)

/-- One input of a CIC of order `m`, decimation `d`, register width `w`; an output at every `d`-th input. -/
def cicStep (m d w : Nat) (x : Int) (c : Cic) : Option Int × Cic :=
  let integ := cicInteg w x (if c.integ.length = m then c.integ else List.replicate m 0)
  let comb := if c.comb.length = m then c.comb else List.replicate m 0
  if c.n + 1 = d then
    let (comb, y) := cicComb w (integ.getLastD 0) comb
    (some y, ⟨integ, comb, 0⟩)
  else (none, ⟨integ, comb, c.n + 1⟩)

/-- The sum of a FIR over its newest inputs. -/
def firSum (e : Nat) : Nat → List Int → Int
  | _, [] => 0
  | i, x :: r => romCoef e i * x + firSum e (i + 1) r

/-- Clipping to a word of `w` bits (R107): the value and whether it was clipped. -/
def clipW (w : Nat) (v : Int) : Int × Bool := (satS w v, satS w v != v)

/-- One input of a FIR of ROM entry `e` that decimates by `d`: an output, with its clip mark, at every `d`-th input. -/
def firStep (e d : Nat) (x : Int) (f : Fir) : Option (Int × Bool) × Fir :=
  let h := (x :: f.hist).take (romTaps e)
  if f.n + 1 = d then
    (some (clipW 32 (roundConv (sx 60 (lowBits 60 (firSum e 0 h))) 19)), ⟨h, 0⟩)
  else (none, ⟨h, f.n + 1⟩)

/-- One input through the half-band cascade, HB1 in every stage but the last, HB2 there: the output if the last stage gives
one, whether a stage clipped, the stages. -/
def halfStep (left : Nat) (x : Int) (sat : Bool) : List Fir → Option Int × Bool × List Fir
  | [] => (some x, sat, [])
  | f :: r =>
    let (o, f) := firStep (if left ≤ 1 then 1 else 0) 2 x f
    match o with
    | none => (none, sat, f :: r)
    | some (y, b) => let (o, sat, r) := halfStep (left - 1) y (sat || b) r; (o, sat, f :: r)

/-- A path takes an output. -/
def pathOut (o : Option (Int × Bool)) (p : InrPath) : InrPath :=
  match o with
  | none => p
  | some (v, b) => { p with out := v, sat := p.sat || b }

/-- One word at rate r, scale 2^-28, through the three paths of a channel. -/
def wordStep (n preset : Nat) (x : Int) (c : InrCh) : InrCh :=
  let h := hOf n
  let c := if preset ≤ 1 then
      let hs := if c.halves.length = h then c.halves else List.replicate h {}
      let (o, b, hs) := halfStep h x false hs
      let c := { c with halves := hs, main := { c.main with sat := c.main.sat || b } }
      match o with
      | none => c
      | some y =>
        let (o, f) := firStep (finEntry preset) 3 y c.fin
        { c with fin := f, main := pathOut o c.main }
    else c
  let d := n / 3
  let (o, k) := cicStep (mOf preset) d 72 x c.fbCic
  let c := match o with
    | none => { c with fbCic := k }
    | some y =>
      let (y, b) := clipW 32 (roundConv y (mOf preset * Nat.log2 d))
      let (o, f) := firStep (compEntry preset) 3 y c.fbFir
      { c with fbCic := k, fbFir := f, fb := pathOut o { c.fb with sat := c.fb.sat || b } }
  let (o, k) := cicStep 3 (n / 6) 50 x c.fastCic
  { c with fastCic := k, fast := pathOut (o.map (fun y => clipW 32 (roundConv y (3 * Nat.log2 (n / 6))))) c.fast }

/-- A raw sample as a word of scale 2^-28, or a PDM bit as ±1 (Table 3-4); INVERT negates it first. -/
def sampleVal (form raw : Nat) (inv : Bool) : Int :=
  let v : Int := if form = 0 then (if bit raw 0 then 1 else -1) else sx 24 raw * 32
  if inv then -v else v

/-- What slot `j` reads in an input period from the balls INRe_D0 to INRe_D7: of a PDM ball bit 0 at the rising edge of INRe_CLK
for even slots and bit 1 at the falling edge for odd ones (R97), of a SPI ball the last 24 of its 32 bits (R98), of a TDM ball
the upper 24 bits of the slot's half of the 64-bit frame (R99); SPI and TDM words hold the first bit on the ball as their
highest. -/
def slotRaw (form : Nat) (balls : List Nat) (j : Nat) : Nat :=
  match form with
  | 0 => bits (balls.getD (j / 2) 0) (j % 2) 1
  | 1 => bits (balls.getD j 0) 0 24
  | _ => bits (balls.getD (j / 2) 0) (40 - 32 * (j % 2)) 24

/-- One input period of one channel: the PHASE delay line, the PDM stage, the paths. -/
def chanStep (s : State) (e ch raw : Nat) : InrCh :=
  let c := inrOf s ch
  let ph := c.phase
  let x0 := sampleVal (engForm s e) raw (inF s ch INR_CH.INVERT == 1)
  let line := (x0 :: c.line).take (ph + 1)
  let c := { c with periods := c.periods + periodEdges s e, line := line }
  let x := line.getD ph 0
  let preset := c.preset
  let n := nOf s e preset
  if engForm s e = 0 then
    let d := dIn s e
    let (o, k) := cicStep 4 d 25 x c.pdm
    let c := { c with pdm := k }
    match o with
    | none => c
    | some y => wordStep n preset (y * 2 ^ (28 - 4 * Nat.log2 d)) c
  else wordStep n preset x c

/-- The inertial notice of a failed path (R123, Table 14-10a): the first record affected is the next one. -/
def inertialNotice (ch path : Nat) (s : State) : State :=
  notice NT_INERTIAL ST_OK (uIN ch) (beBytes 1 ch ++ beBytes 1 path ++ beBytes 1 (ch / 8) ++ beBytes 1 0
    ++ beBytes 4 ((inrOf s ch).n + 1)) s

/-- A residue mismatch in a path (R122, R123): the path fails until the channel's next reset. -/
def failPath (ch path : Nat) (s : State) : State :=
  let c := inrOf s ch
  let p := match path with | 0 => c.main | 1 => c.fb | _ => c.fast
  if p.fail then s else
  let c := { c with checkFail := true }
  let c := match path with
    | 0 => { c with main := { c.main with fail := true } }
    | 1 => { c with fb := { c.fb with fail := true } }
    | _ => { c with fast := { c.fast with fail := true } }
  inertialNotice ch path (inrBump ch (3 + path) (setInr s ch c))

/-- INPUT_PERIOD (R97 to R99): what the engine's balls carried, the filter stages of every running channel, and the residue checks
that fail in it as (slot, path); in SPI form INRe_SDO sent SPI_CMD and 24 zeros. -/
def inputPeriod (e : Nat) (balls : List Nat) (bad : List (Nat × Nat)) (s : State) : State :=
  if ¬ islandRuns s uINR then s else
  let s := { s with inr := { s.inr with
      periods := tmod 0 s.inr.periods e (· + periodEdges s e),
      sdo := if engForm s e = 1 then tset 0 s.inr.sdo e (rd s (uFE e) INR_ENG.SPI_CMD * 2 ^ 24) else s.inr.sdo } }
  let s := (upto 8).foldl (fun s j =>
    let ch := e * 8 + j
    if inrOn s ch then setInr s ch (chanStep s e ch (slotRaw (engForm s e) balls j)) else s) s
  bad.foldl (fun s b => if b.1 < 8 ∧ b.2 < 3 ∧ inrOn s (e * 8 + b.1) then failPath (e * 8 + b.1) b.2 s else s) s

/-! ### Output records (R108 to R112) -/

/-- settle(p) (Table 3-8). -/
def settle (preset path : Nat) : Nat :=
  match preset, path with
  | 0, 0 => 13 | 0, _ => 9 | 1, 0 => 11 | 1, _ => 9 | 2, _ => 6 | _, _ => 4

/-- The fine path in use: 0 main, 1 fallback, 2 none (R109). -/
def finePath (preset : Nat) (c : InrCh) : Nat :=
  if preset ≤ 1 ∧ ¬ c.main.fail then 0 else if ¬ c.fb.fail then 1 else 2

/-- The group delay of a path in half samples of r, without the PDM stage: twice the delay of R114's formulas. -/
def delay2 (n preset path : Nat) : Nat :=
  let d := n / 3
  match path with
  | 0 => 2 * ((7 + (romTaps (finEntry preset) - 1) / 2) * 2 ^ hOf n - 5)
  | 1 => mOf preset * (d - 1) + (romTaps (compEntry preset) - 1) * d
  | _ => 3 * (n / 6 - 1)

/-- TOV (R110), exact and then rounded to ns with ties to even: the output instant, the skew of odd PDM slots
(half an input period), the delay, PHASE and LAT_NS. -/
def tovOf (s : State) (e ch preset path : Nat) : Int :=
  let f := rateHz (engRate s e)
  let pdm := engForm s e = 0
  let halfIn : Int := 1000000000 * 2 ^ 32
  let r := rHz s e
  let num : Int := ((now s : Int) * 2 ^ 32 + s.time.frac - inF s ch INR_CH.LAT_NS * 2 ^ 32) * (2 * f * r)
    + (if pdm ∧ ch % 2 = 1 then halfIn * r else 0)
    - halfIn * (delay2 (nOf s e preset) preset path) * f
    - (if pdm then halfIn * (4 * (dIn s e - 1)) * r else 0)
    - halfIn * (2 * (inrOf s ch).phase) * r
  divRne num (2 ^ 32 * (2 * f * r))

/-- The record of output `n` (R109). -/
def selectRec (s : State) (ch : Nat) : InrRec :=
  let c := inrOf s ch
  let e := ch / 8
  let preset := c.preset
  let p := finePath preset c
  let n := c.n + 1
  let coarse : Bool := n = 1 || p = 2 || n < settle preset p
  let st := if n = 1 ∨ p = 2 then 0 else if n < settle preset p then 1 else 2
  let src := if coarse then c.fast else if p = 0 then c.main else c.fb
  let (v, clip) := clipW 24 (roundConv src.out 5)
  {
    tov := tovOf s e ch preset (if coarse then 2 else p), value := v,
    status := if src.sat || clip then 3 else st, path := p, checkFail := c.checkFail, coarse := coarse,
    poison := coarse && c.fast.fail, preset := preset, seq := n % 2 ^ 24 }

/-- The 16 bytes of an INR_OUT record (Table 3-5). -/
def inrBytes (ch : Nat) (r : InrRec) : List Byte :=
  leBytes 8 (lowBits 64 r.tov) ++ leBytes 8 (lowBits 24 r.value + r.status * 2 ^ 24 + r.path * 2 ^ 26
    + b2n r.checkFail * 2 ^ 28 + b2n r.coarse * 2 ^ 29 + b2n r.poison * 2 ^ 30 + ch * 2 ^ 32 + r.preset * 2 ^ 37
    + r.seq * 2 ^ 40)

/-- The registers of a channel become zero (R115), and ENABLE, PRESET and PHASE as they stand act from now on (R119); a failed path
stays failed when its retest fails (R124). -/
def resetChan (ch : Nat) (stillBad : List Nat) (s : State) : State :=
  let c := inrOf s ch
  let keep (p : InrPath) (i : Nat) : InrPath := { fail := p.fail && stillBad.contains i }
  let m := keep c.main 0
  let b := keep c.fb 1
  let f := keep c.fast 2
  inrBump ch 1 (setInr s ch {
    on := inrEnabled s ch, preset := inF s ch INR_CH.PRESET, phase := inF s ch INR_CH.PHASE, main := m, fb := b, fast := f, checkFail := m.fail || b.fail || f.fail, latest := c.latest })

/-- The current input period ends an output period of the channel; a period that a waiting reset, of the channel or of its
engine, abandons before output 1 has no record (R116). -/
def outputDue (s : State) (ch : Nat) : Bool :=
  let c := inrOf s ch
  decide (outEdges c.preset * (c.n + 1) ≤ c.periods) && !(c.n == 0 && (c.resetDue || tget [] s.inr.due (ch / 8) != []))

/-- INR_OUTPUT (R108): one record at the output instant, kept for the surface engines and fusion, and offered to a
stream with TO_STREAM. -/
def inrOutput (ch : Nat) (s : State) : State :=
  if ¬ inrOn s ch ∨ ¬ outputDue s ch then s else
  let r := selectRec s ch
  let c := inrOf s ch
  let s := setInr s ch { c with
    n := c.n + 1, latest := r, main := { c.main with sat := false }, fb := { c.fb with sat := false },
    fast := { c.fast with sat := false } }
  let s := inrBump ch 0 s
  let s := if r.status = 3 then inrBump ch 2 s else s
  if inF s ch INR_CH.TO_STREAM = 1 then
    offerEntry (inF s ch INR_CH.STREAM) ⟨inrBytes ch r, none, lowBits 64 r.tov, r.poison, uIN ch, 0, 1⟩ s
  else s

/-! ### Resets (R115, R116, R119, R124) -/

/-- A trigger for an engine at this moment: the reset falls on the first sample-clock edge at least 80 ns later. -/
def scheduleReset (e : Nat) (s : State) : State :=
  { s with inr := { s.inr with due := tmod [] s.inr.due e (· ++ [now s + 80]) } }

/-- SYNC_INERT_EDGE (R115): stamped like SYNC_IN. -/
def syncInertEdge (s : State) : State :=
  let s := setTime s { s.time with inertStamp := edgeStamp s syncInDelayPs }
  (upto 3).foldl (fun s e => if rdB s (uFE e) INR_ENG.SYNC_PIN_EN then scheduleReset e s else s) s

/-- The retest results of a channel among those of its engine. -/
def badOf (ch : Nat) (stillBad : List (Nat × Nat)) : List Nat :=
  (stillBad.filter (fun b => b.1 == ch % 8)).map (·.2)

/-- The engine's latest input period ended an output period on the grid of its last engine-wide reset (R119). DESIGN CHOICE: a
channel whose PRESET was written takes the grid of the new preset. -/
def gridInstant (s : State) (ch : Nat) : Bool :=
  let t := tget 0 s.inr.periods (ch / 8)
  let d := outEdges (inF s ch INR_CH.PRESET)
  (t - periodEdges s (ch / 8)) / d != t / d

/-- SYNCHRONISING_RESET: a sample-clock edge at which the engine's waiting resets whose instant has come take effect,
one reset for all of them (R116), and channel resets whose output instant has come (R119); `stillBad` names the
paths (slot, path) whose retest fails (R124). -/
def synchronisingReset (e : Nat) (stillBad : List (Nat × Nat)) (s : State) : State :=
  let l := tget [] s.inr.due e
  if l.any (fun t => t ≤ now s) then
    let s := { s with inr := { s.inr with
        due := tset [] s.inr.due e (l.filter (fun t => now s < t)), periods := tset 0 s.inr.periods e 0 } }
    (upto 8).foldl (fun s j => resetChan (e * 8 + j) (badOf (e * 8 + j) stillBad) s) s
  else
    (upto 8).foldl (fun s j =>
      let ch := e * 8 + j
      if (inrOf s ch).resetDue ∧ gridInstant s ch then
        resetChan ch (badOf ch stillBad) s
      else s) s

/-- What a write of INR_CH does beyond storing (R119): a change of ENABLE, PRESET or PHASE resets the channel at its
next output instant. -/
def inrChWritten (ch old : Nat) (s : State) : State :=
  if old % 2 ^ 11 ≠ regWord s (uIN ch) 0x0202 0 0 % 2 ^ 11 then setInr s ch { inrOf s ch with resetDue := true } else s

/-- The field rules of INR_ENG (R125, R126). -/
def checkInrEng (s : State) (e : Nat) (ws : List Nat) : Nat :=
  let f := fldOf ws
  let form := f INR_ENG.FORM
  let rate := f INR_ENG.RATE
  let same : Bool := form == engForm s e && rate == engRate s e
  firstFail [(form ≤ 2 ∧ rate ≤ 5, ST_UNSUPPORTED), (form = 0 ↔ rate ≤ 3, ST_UNSUPPORTED),
    (same ∨ (upto 8).all (fun j => !inrEnabled s (e * 8 + j)), ST_WRONG_STATE)]

/-- The field rules of INR_CH (R125). -/
def checkInrCh (ws : List Nat) : Nat := firstFail [(fldOf ws INR_CH.AXIS ≤ 7, ST_UNSUPPORTED)]

/-! ### The commands -/

def execInputPeriod (engine : Nat) (balls : List Nat) (residueFail : List (Nat × Nat)) (s : State) : Out :=
  .next (inputPeriod engine balls residueFail s)
def execSyncInertEdge (s : State) : Out := .next (syncInertEdge s)
def execSynchronisingReset (engine : Nat) (retestFail : List (Nat × Nat)) (s : State) : Out :=
  .next (synchronisingReset engine retestFail s)

end Sys2Proof.Machine
end

