-- ==== Sys2Proof/Machine/Sluice.lean ====
section
/-! DEFINITION. Sluices (file 02): packets, EVW words and format layouts, the filter stages in the order of R71, the
limiter, time alignment, ingest queue writing, enable and clearing. Frame input is in Frames.lean. -/
namespace Sys2Proof.Machine

/-- SLU_CNT (Table 2-11). -/
def sluBump (n w : Nat) (s : State) : State := bump (uSL n) 0x010F w s
def sluBumpN (k n w : Nat) (s : State) : State := bumpN k (uSL n) 0x010F w s

/-- UNALIGNED or TIME_SUSPECT (R84). -/
def alignBad (a : AlignSt) : Bool := a == .unaligned || a == .suspect

/-- Changing a sluice. -/
def setSlu (s : State) (n : Nat) (v : Sluice) : State :=
  let o := sluOf s n
  let left : Bool := alignBad o.align && !alignBad v.align
  { s with slu := tset {} s.slu n { v with badEnd := if left then now s else max v.badEnd o.badEnd } }

/-- The port was UNALIGNED or TIME_SUSPECT at some moment since a device time (R312). -/
def badSince (s : State) (n t : Nat) : Bool := alignBad (sluOf s n).align || decide (t ≤ (sluOf s n).badEnd ∧ (sluOf s n).badEnd ≠ 0)

def sluWidth (s : State) (n : Nat) : Nat := sl s n SLU_PORT.WIDTH_M1 + 1
def sluHeight (s : State) (n : Nat) : Nat := sl s n SLU_PORT.HEIGHT_M1 + 1

/-- Delivered width and height (R77). -/
def delivW (s : State) (n : Nat) : Nat :=
  let w := sl s n SLU_WIN.X1 + 1 - sl s n SLU_WIN.X0
  if rdB s (uSL n) SLU_PORT.BIN2 then (w + 1) / 2 else w
def delivH (s : State) (n : Nat) : Nat :=
  let h := sl s n SLU_WIN.Y1 + 1 - sl s n SLU_WIN.Y0
  if rdB s (uSL n) SLU_PORT.BIN2 then (h + 1) / 2 else h

/-! ### Writing the ingest queues (R61, R62, R79, R90) -/

/-- The base last written to the open packet of a home queue. -/
def openEpoch (v : Sluice) (second : Bool) : Option Nat := if second then v.epoch1 else v.epoch0

def setEpoch (n : Nat) (second : Bool) (e : Option Nat) (s : State) : State :=
  let v := sluOf s n
  setSlu s n (if second then { v with epoch1 := e } else { v with epoch0 := e })

/-- The ingest queue of a home core. -/
def homeQueue (n : Nat) (second : Bool) : Nat := if second then 16 + n else n

/-- The EPOCH base and offset of a device time (R61). -/
def epochOf (t : Nat) : Nat := (t / 128000) % 2 ^ 30
def offsetOf (t : Nat) : Nat := (t % 128000) / 1000

/-- The words a queue word of base `e` needs: itself, and an EPOCH at the head of a packet or at a new base. -/
def needEpoch (s : State) (n : Nat) (second : Bool) (e : Nat) : Bool :=
  packetLen (queueOf s (homeQueue n second)) == 0 || openEpoch (sluOf s n) second != some e

/-- Closing the open packet of a home queue (R62). -/
def closeHome (n : Nat) (second : Bool) (s : State) : State :=
  setEpoch n second none (commitQ (homeQueue n second) s)

/-- Writing one word with the EPOCH it needs; the packet closes at 256 words. DEDUCED: a packet of 255 words closes before
a word that needs an EPOCH, since an EPOCH is written only together with a word that needs it (R90) and starts every packet
(R61). -/
def putHome (n : Nat) (second : Bool) (e w : Nat) (s : State) : State :=
  let q := homeQueue n second
  let s := if needEpoch s n second e ∧ 255 ≤ packetLen (queueOf s q) then closeHome n second s else s
  let s := if needEpoch s n second e then
      setEpoch n second (some e) (writeQ q { w := 2 ^ 30 + e } false s) else s
  let s := writeQ q { w := w, poison := (sluOf s n).dirty } false s
  if 256 ≤ packetLen (queueOf s q) then closeHome n second s else s

/-- An event at an ingest queue: dropped at the limit, decimated, or written (R90). The first event after decimation began
is kept, and each home queue that removes an event counts it (DESIGN CHOICE: the rules leave both open). -/
def queueEvent (n : Nat) (second : Bool) (t w : Nat) (s : State) : State :=
  let q := homeQueue n second
  let e := epochOf t
  let z := queueOf s q
  let act := ovfNow s q z
  let s := setQueue s q { z with toggle := !z.toggle }
  let gone (word : Nat) : State := sluBump n word (setSlu s n { sluOf s n with removed := (sluOf s n).removed + 1 })
  if qCap s q - 16 < qOcc s q + 1 + b2n (needEpoch s n second e) then gone 15
  else if act ∧ z.toggle then gone 16
  else putHome n second e w s

/-- A SERVICE word for HOME0's queue, with its EPOCH; it may use the reserve (R79, R90). -/
def queueService (n t w : Nat) (s : State) : State :=
  let e := epochOf t
  let need := 1 + b2n (needEpoch s n false e)
  if qCap s n < qOcc s n + need then sluBump n 15 s
  else putHome n false e (w / 128 * 128 + offsetOf t) s

/-- A delivered event at its home queues (R79). -/
def homeEvent (n x y : Nat) (pol : Bool) (t : Nat) (s : State) : State :=
  let w := 2 ^ 31 + b2n pol * 2 ^ 30 + y * 2 ^ 19 + x * 2 ^ 7 + offsetOf t
  let sr := sl s n SLU_PORT.SPLIT_ROW
  if sr = 0 then queueEvent n false t w s
  else
    let s := if y < sr + 4 then queueEvent n false t w s else s
    if sr ≤ y + 4 then queueEvent n true t w s else s

/-! ### The event-rate limiter (R80, R81) -/

/-- Bucket depth. -/
def rateDepth (s : State) (n : Nat) : Nat := sl s n SLU_FLT.RATE_BURST * 1024

/-- The limiter stage: the event passes, or is discarded and counted. -/
def limiter (n : Nat) (s : State) : Bool × State :=
  let v := sluOf s n
  match sl s n SLU_FLT.RATE_MODE with
  | 1 =>
    if 1 ≤ v.tokens then (true, setSlu s n { v with tokens := v.tokens - 1 })
    else (false, sluBump n 13 (setSlu s n { v with removed := v.removed + 1 }))
  | 2 =>
    let ix := v.offerIx
    let v := { v with offered := v.offered + 1, offerIx := v.offerIx + 1 }
    if ix % 2 ^ v.k ≠ 0 then (false, sluBump n 14 (setSlu s n { v with removed := v.removed + 1 }))
    else if sl s n SLU_FLT.RATE_MEVS * 64 ≤ v.passed then
      (false, sluBump n 13 (setSlu s n { v with removed := v.removed + 1 }))
    else (true, setSlu s n { v with passed := v.passed + 1 })
  | _ => (true, s)

/-- RATE_TOKEN_ADD (R80): RATE_MEVS tokens for each whole µs of device time since the last addition. -/
def rateTokenAdd (n : Nat) (s : State) : State :=
  let v := sluOf s n
  if sl s n SLU_FLT.RATE_MODE = 1 ∧ v.tokenUs < nowUs s then
    setSlu s n { v with
      tokens := min (rateDepth s n) (v.tokens + sl s n SLU_FLT.RATE_MEVS * (nowUs s - v.tokenUs)), tokenUs := nowUs s }
  else setSlu s n { v with tokenUs := nowUs s }

/-- The smallest decimation shift in 0 to 8 that meets the limit (R81); 8 where none does (DESIGN CHOICE: the rule gives no
value). -/
def decimShift (offered limit : Nat) : Nat := ((upto 8).filter (fun k => limit < offered >>> k)).length

/-- RATE_INTERVAL (R81, R82): the shift of the new 64 µs interval, and the sluice's own rate-limit notice for the
ended one, written into the packet in progress or into a packet of its own. -/
def rateInterval (n : Nat) (s : State) : State :=
  let v := sluOf s n
  let iv := now s / 64000
  if iv ≤ v.interval then s else
  let stop := (v.interval + 1) * 64000
  let offered := if iv = v.interval + 1 then v.offered else 0
  let s := if v.removed = 0 then s else
    let wasOpen := packetLen (queueOf s n) ≠ 0
    let s := queueService n stop (2 ^ 28 + 3 * 2 ^ 24 + 2 ^ 23 + min v.removed 65535 * 2 ^ 7) s
    if wasOpen then s else closeHome n false s
  setSlu s n { sluOf s n with
    interval := iv, offered := 0, passed := 0, removed := 0,
    k := decimShift offered (sl s n SLU_FLT.RATE_MEVS * 64) }

/-! ### The filters (R72 to R76) -/

/-- A non-empty SLU_HOT entry matches the event and drops its polarity (R72). -/
def hotHit (s : State) (n x y : Nat) (pol : Bool) : Bool :=
  let k0 := regKey (uSL n) 0x0106 0 0
  let k1 := regKey (uSL n) 0x0106 4096 0
  s.regs.any (fun e => decide (k0 ≤ e.1 ∧ e.1 < k1) && bits e.2.toNat 0 12 == x && bits e.2.toNat 12 11 == y
    && bit e.2.toNat (if pol then 24 else 23))

/-- The refractory cell of a pixel: one pixel, or one 2 × 2 block for the largest sensors. -/
def refrCell (s : State) (n x y : Nat) : Nat :=
  let w := sluWidth s n
  if w * sluHeight s n ≤ 2097152 then y * w + x else (y / 2) * ((w + 1) / 2) + x / 2

/-- The refractory filter (R74). A cell with an uncorrectable error is rewritten to its cleared state, and the event passes poisoned
(Table 17-4). -/
def refractory (n x y tUs : Nat) (s : State) : Bool × State :=
  let r := sl s n SLU_FLT.REFRACT_US
  if r = 0 then (true, s) else
  let v := sluOf s n
  let c := refrCell s n x y
  if tget false v.refrBad c then
    (true, setSlu s n { v with refr := tset none v.refr c none, refrBad := tset false v.refrBad c false, dirty := true })
  else
  let pass := match tget none v.refr c with
    | none => true
    | some st => decide (r ≤ (tUs + 1024 - st) % 1024)
  if pass then (true, setSlu s n { v with refr := tset none v.refr c (some (tUs % 1024)) })
  else (false, sluBump n 10 s)

/-- One update of a flicker state (R76). -/
def flkStep (pmin pmax lock : Nat) (f : Flk) (t : Nat) (p : Bool) : Flk :=
  let d0 := (t + 2 ^ 24 - f.onset) % 2 ^ 24
  let f := if f.locked ∧ 2 * f.period < d0 then { f with locked := false, hits := 0 } else f
  let f := if p ∧ ¬ f.pol then
      let d := (t + 2 ^ 24 - f.onset) % 2 ^ 24
      let near := (d - f.period) + (f.period - d) ≤ f.period / 8
      let hits := if pmin ≤ d ∧ d ≤ pmax ∧ near then min (f.hits + 1) 7 else 0
      { f with hits := hits, period := min d 32767, onset := t, locked := decide (lock ≤ hits) }
    else f
  { f with pol := p }

/-- The flicker filter (R76). A block with an uncorrectable error is rewritten to its cleared state, and the event passes poisoned
(Table 17-4). -/
def flicker (n x y tUs : Nat) (pol : Bool) (s : State) : Bool × State :=
  if sl s n SLU_FLT.FLK_EN = 0 then (true, s) else
  let fmax := max 1 (sl s n SLU_FLT.FLK_FMAX)
  let fmin := max 1 (sl s n SLU_FLT.FLK_FMIN)
  let v := sluOf s n
  let b := (y / 8) * 512 + x / 8
  if tget false v.flkBad b then
    (true, setSlu s n { v with flk := tset {} v.flk b {}, flkBad := tset false v.flkBad b false, dirty := true })
  else
  let f := flkStep ((1000000 + fmax - 1) / fmax) (1000000 / fmin) (sl s n SLU_FLT.FLK_LOCK) (tget {} v.flk b)
    (tUs % 2 ^ 24) pol
  let s := setSlu s n { v with flk := tset {} v.flk b f }
  if f.locked then (false, sluBump n 11 s) else (true, s)

/-- The binned copy offered to the urgent pair of the cluster (R22, R23). -/
def offerBin (n x y : Nat) (pol : Bool) (t : Nat) (s : State) : State :=
  { s with upIn := tmod [] s.upIn (n / 4) (· ++ [⟨x / 4, y / 4, pol, t, n % 4, (sluOf s n).dirty⟩]) }

/-- The delivery window and binning (R77), the limiter, the queues. -/
def deliver (n x y : Nat) (pol : Bool) (t : Nat) (s : State) : State :=
  let x0 := sl s n SLU_WIN.X0
  let y0 := sl s n SLU_WIN.Y0
  if x < x0 ∨ sl s n SLU_WIN.X1 < x ∨ y < y0 ∨ sl s n SLU_WIN.Y1 < y then sluBump n 12 s else
  let b := if rdB s (uSL n) SLU_PORT.BIN2 then 2 else 1
  let (ok, s) := limiter n s
  if ok then homeEvent n ((x - x0) / b) ((y - y0) / b) pol t s else s

/-- The stages after time conversion, in the order of R71; `t` is device time in ns. -/
def filterEvent (n x y : Nat) (pol : Bool) (t : Nat) (s : State) : State :=
  let tUs := t / 1000
  let dirty := (sluOf s n).dirty
  if sl s n SLU_FLT.HOT_EN = 1 ∧ hotHit s n x y pol then sluBump n 9 s else
  let (ok, s) := refractory n x y tUs s
  if ¬ ok then s else
  let (ok, s) := flicker n x y tUs pol s
  if ¬ ok then s else
  let s := deliver n x y pol t (offerBin n x y pol t s)
  setSlu s n { sluOf s n with dirty := dirty }

/-! ### Sensor time to device time (R83 to R87) -/

/-- conv of R84: sensor ns to device ns by the port's model. -/
def convTime (v : Sluice) (t : Int) : Int :=
  let ds := t - v.sRef
  v.oRef + ds + asr (ds * v.dRate) 32

/-- Entry to TIME_SUSPECT (R86): counted once per entry; npairs is 0 in every case; d_rate is kept. -/
def enterSuspect (n : Nat) (s : State) : State :=
  let v := sluOf s n
  let s' := setSlu s n { v with align := .suspect, npairs := 0 }
  if v.align = .suspect then s' else sluBump n 18 s'

/-- The update of R84 on a pair (sensor ns, device ns). -/
def pairUpdate (n : Nat) (sk dk : Int) (s : State) : State :=
  let v := sluOf s n
  let e := dk - convTime v sk
  let v := { v with residual := e, lastPair := now s }
  let aligned := v.align = .aligned
  let tol := (sl s n SLU_TAL.ALIGN_TOL_US : Int) * 1000
  let lim := (sl s n SLU_TAL.DRIFT_LIMIT_US : Int) * 1000
  if aligned ∧ lim < e.natAbs then enterSuspect n (setSlu s n v)
  else if v.npairs = 0 ∨ (¬ aligned ∧ tol < e.natAbs) then
    setSlu s n { v with oRef := dk, sRef := sk, npairs := 1 }
  else
    let o := convTime v sk + asr e (sl s n SLU_TAL.KO)
    let d := v.dRate + asr (Int.tdiv (e * 2 ^ 32) (sk - v.sRef)) (sl s n SLU_TAL.KD)
    let np := min (v.npairs + 1) 7
    let v := { v with oRef := o, sRef := sk, dRate := d, npairs := np }
    setSlu s n (if ¬ aligned ∧ sl s n SLU_TAL.MIN_PAIRS ≤ np then { v with align := .aligned } else v)

/-- The oldest stamp no marker has taken is marked used (R83). -/
def takeSyncStamp : List SyncStamp → Option Nat × List SyncStamp
  | [] => (none, [])
  | a :: r => if a.used then let (f, r') := takeSyncStamp r; (f, a :: r') else (some a.t, ⟨a.t, true⟩ :: r)

/-- A drift marker of sensor time `tUs` and sequence `q` (R60, R83, R84). -/
def driftMarker (n : Nat) (tUs : Int) (q : Nat) (s : State) : State :=
  let v := sluOf s n
  let sk : Int := tUs * 1000
  if v.source = 0 then s else
  let (d, s) : Option Nat × State :=
    if v.source = 1 then
      (((syncOutOf s n).hist.find? (fun e => e.1 % 2 ^ 16 == q)).map (·.2), s)
    else
      let (f, l) := takeSyncStamp (tget [] s.time.syncIn n)
      (f, setTime s { s.time with syncIn := tset [] s.time.syncIn n l })
  match d with
  | none => sluBump n 20 s
  | some d =>
    if 1 ≤ v.npairs ∧ sk = v.sRef then sluBump n 20 s
    else pairUpdate n sk (d : Int) (sluBump n 19 s)

/-! ### Decoding a packet -/

/-- What a packet carries along while its words are decoded: start of transmission in device ns, the sensor time of
its first event (R87; none where it holds no event), a RUN header that waits for its mask. -/
structure PktCtx where
  sot : Nat
  first : Option Int := none
  run : Option Nat := none
deriving DecidableEq, Repr

/-- The device time of a word of sensor time `tUs` (R84, R87). DESIGN CHOICE: a time before 0, which the rules do not
speak of, is taken as 0. -/
def stampOf (s : State) (n : Nat) (tUs : Int) (c : PktCtx) : Nat :=
  let v := sluOf s n
  if v.align = .aligned then (convTime v (tUs * 1000)).toNat
  else ((c.sot : Int) - sl s n SLU_TAL.ARR_LAT_NS + (tUs - c.first.getD tUs) * 1000).toNat

/-- A decoded coordinate: a negative one lies outside every geometry (R59). -/
def coord (i : Int) : Nat := if i < 0 then 2 ^ 32 else i.toNat

/-- An event inside the geometry (R59). -/
def inGeometry (s : State) (n x y : Nat) : Bool := decide (x < sluWidth s n ∧ y < sluHeight s n)

/-- An event in sensor coordinates and sensor µs: R57, R59, time conversion, the filters. -/
def sensorEvent (n x y : Nat) (pol : Bool) (tUs : Option Int) (sc : State × PktCtx) : State × PktCtx :=
  let (s, c) := sc
  match tUs with
  | none => (sluBump n 6 s, c)
  | some t =>
    if ¬ inGeometry s n x y then (sluBump n 8 s, c)
    else (filterEvent n x y pol (stampOf s n t c) s, c)

/-- A new time base of a `width`-bit field in units of 2^shift µs, and whether it steps back (R58, R65). -/
def baseStep (width shift v : Nat) (base : Option Int) : Int × Bool :=
  match base with
  | none => ((v : Int) * 2 ^ shift, false)
  | some b =>
    let d := ((v : Int) - b / 2 ^ shift) % 2 ^ width
    if d < 2 ^ (width - 1) then ((b / 2 ^ shift + d) * 2 ^ shift, false)
    else ((b / 2 ^ shift + d - 2 ^ width) * 2 ^ shift, true)

/-- A new time base taken (R58): a backward step is counted, and is a misalignment of a port that keeps a model. -/
def newBase (n width shift v : Nat) (s : State) : State :=
  let z := sluOf s n
  let (b, back) := baseStep width shift v z.base
  let s := setSlu s n { z with base := some b }
  if ¬ back then s
  else
    let s := sluBump n 17 s
    if z.source = 0 then s else enterSuspect n s

/-- The STATUS notice of a sensor (Table 14-10a). -/
def sensorStatusNotice (n w : Nat) (s : State) : State :=
  notice NT_SENSOR ST_OK (uSL n) (beBytes 1 n ++ beBytes 1 0 ++ beBytes 1 0 ++ beBytes 1 4 ++ beBytes 4 w ++ beBytes 8 0) s

/-- A SERVICE word (Table 2-4). -/
def serviceWord (n w : Nat) (sc : State × PktCtx) : State × PktCtx :=
  let (s, c) := sc
  let sub := bits w 24 4
  if sub = 4 then (s, c)
  else if 5 ≤ sub then (sluBump n 7 s, c)
  else match (sluOf s n).base with
    | none => (sluBump n 6 s, c)
    | some b =>
      let t := b + bits w 0 7
      if sub = 2 then (driftMarker n t (bits w 8 16) s, c)
      else
        let d := stampOf s n t c
        let s := queueService n d w s
        if sub = 1 then (sensorStatusNotice n (w / 128 * 128 + offsetOf d) (sluBump n 21 s), c) else (s, c)

/-- The sensor time of an EVW word in µs, where a base has arrived (R55). -/
def offsetTime (base : Option Int) (w : Nat) : Option Int := base.map (fun b => b + (bits w 0 7 : Nat))

/-- The events of a RUN in ascending x (R56). -/
def runEvents (n : Nat) (x : Int) (y : Nat) (pol : Bool) (t : Option Int) (mask : Nat) : Nat → Nat → State × PktCtx → State × PktCtx
  | 0, _, sc => sc
  | k + 1, i, sc =>
    runEvents n x y pol t mask k (i + 1) (if bit mask i then sensorEvent n (coord (x + i)) y pol t sc else sc)

/-- One EVW word (Table 2-3). -/
def evwWord (n : Nat) (sc : State × PktCtx) (w : Nat) : State × PktCtx :=
  let (s, c) := sc
  let t := offsetTime (sluOf s n).base w
  match c.run with
  | some h =>
    runEvents n (4 * bits h 7 10) (bits h 17 11) (bits h 28 1 == 1) (offsetTime (sluOf s n).base h) w 32 0
      (s, { c with run := none })
  | none =>
    if bit w 31 then sensorEvent n (bits w 7 12) (bits w 19 11) (bit w 30) t (s, c)
    else if bit w 30 then (newBase n 30 7 (bits w 0 30) s, c)
    else if bit w 29 then (s, { c with run := some w })
    else if bit w 28 then serviceWord n w (s, c)
    else (sluBump n 5 s, c)

/-- A field of a format descriptor (13 bits: offset, width, signed): absent, or its value (R63). -/
def descVal (d w : Nat) : Option Int :=
  let wd := bits d 6 6
  if wd = 0 then none
  else some (if bit d 12 then sx wd (bits w (bits d 0 6) wd) else (bits w (bits d 0 6) wd : Int))

/-- The mask of a vector layout: the bits of its field as they are (R65). -/
def maskVal (d w : Nat) : Nat := bits w (bits d 0 6) (bits d 6 6)

/-- The first valid layout that matches a word (R64). -/
def findLayout (s : State) (n w : Nat) : Option Nat :=
  (upto 4).find? (fun i => rdB s (uSL n) SLU_FMT.VALID i
    && (w &&& rd s (uSL n) SLU_FMT.MATCH_MASK i) == rd s (uSL n) SLU_FMT.MATCH_VALUE i)

/-- One word of a FORMAT port (R64, R65). -/
def formatWord (n : Nat) (sc : State × PktCtx) (w : Nat) : State × PktCtx :=
  let (s, c) := sc
  match findLayout s n w with
  | none => (sluBump n 5 s, c)
  | some i =>
    let u := uSL n
    let sh := rd s u SLU_FMT.TIME_SHIFT i
    let fv (f : Fld) : Int := (descVal (rd s u f i) w).getD 0
    let tv := fv SLU_FMT.TIME
    let t := (sluOf s n).base.map (· + tv * 2 ^ sh)
    let x := fv SLU_FMT.X
    let y := coord (fv SLU_FMT.Y)
    let pol := (fv SLU_FMT.POL != 0) != rdB s u SLU_FMT.POL_INVERT i
    match rd s u SLU_FMT.KIND i with
    | 1 => sensorEvent n (coord x) y pol t (s, c)
    | 2 =>
      let d := rd s u SLU_FMT.TIME i
      (newBase n (max 1 (bits d 6 6)) sh (bits w (bits d 0 6) (bits d 6 6)) s, c)
    | 3 =>
      runEvents n x y pol t (maskVal (rd s u SLU_FMT.MASK i) w) 32 0 (s, c)
    | 4 => match t with
      | none => (sluBump n 6 s, c)
      | some t =>
        (queueService n (stampOf s n t c) (2 ^ 28 + b2n pol * 2 ^ 23 + lowBits 4 x * 2 ^ 19) s, c)
    | _ => (s, c)

/-- Little-endian words of `k` bytes; a last piece shorter than a word is dropped. -/
def wordsOf (k : Nat) : Nat → List Byte → List Nat
  | 0, _ => []
  | f + 1, l => if l.length < k then [] else leVal (l.take k) :: wordsOf k f (l.drop k)

/-- Word size in bytes of a port (Table 2-7). -/
def wordBytes (s : State) (n : Nat) : Nat :=
  if sl s n SLU_PORT.MODE = 1 then
    (match sl s n SLU_PORT.WORD_SIZE with | 0 => 2 | 1 => 4 | _ => 8)
  else 4

/-- One word decoded, poisoned where a byte of it, or of the RUN header it completes, lies in a bad word of the packet
buffer (Table 17-4), or where the residue of its time conversion or filter arithmetic mismatches (R579, Table 18-1): the words
of `flawed`, which the sluice reports. -/
def taintedWord (n k : Nat) (bad flawed : List Nat) (step : State × PktCtx → Nat → State × PktCtx) (sc : State × PktCtx) (e : Nat × Nat) :
    State × PktCtx :=
  if bad = [] ∧ flawed = [] then step sc e.1
  else
    let first := if sc.2.run.isSome then e.2 - 1 else e.2
    let f := flawed.contains e.2
    let d := f || bad.any (fun b => decide (b < (e.2 + 1) * k ∧ first * k < b + 4))
    let s := if f then reportResidue (uSL n) (unitOf sc.1 (uSL n)).job sc.1 else sc.1
    let (s, c) := step (setSlu s n { sluOf s n with dirty := d }, sc.2) e.1
    (setSlu s n { sluOf s n with dirty := false }, c)

/-- What the search for a packet's first event carries: the base so far, a RUN header, the event found. -/
structure Ahead where
  base : Option Int
  run : Option Nat := none
  found : Option Int := none
deriving DecidableEq, Repr

/-- The first event among x, … of a mask that lies in the geometry, at sensor time `t`. -/
def aheadRun (s : State) (n : Nat) (x : Int) (y m : Nat) (t : Option Int) (a : Ahead) : Ahead :=
  if (maskBits 32 m).any (fun i => inGeometry s n (coord (x + i)) y) then { a with found := t } else a

/-- One EVW word of the search. -/
def aheadEvw (s : State) (n : Nat) (a : Ahead) (w : Nat) : Ahead :=
  if a.found.isSome then a else
  match a.run with
  | some h => aheadRun s n (4 * bits h 7 10) (bits h 17 11) w (offsetTime a.base h) { a with run := none }
  | none =>
    if bit w 31 then aheadRun s n (bits w 7 12) (bits w 19 11) 1 (offsetTime a.base w) a
    else if bit w 30 then { a with base := some (baseStep 30 7 (bits w 0 30) a.base).1 }
    else if bit w 29 then { a with run := some w }
    else a

/-- One word of a FORMAT port of the search. -/
def aheadFormat (s : State) (n : Nat) (a : Ahead) (w : Nat) : Ahead :=
  if a.found.isSome then a else
  match findLayout s n w with
  | none => a
  | some i =>
    let u := uSL n
    let sh := rd s u SLU_FMT.TIME_SHIFT i
    let fv (f : Fld) : Int := (descVal (rd s u f i) w).getD 0
    let t := a.base.map (· + fv SLU_FMT.TIME * 2 ^ sh)
    let d := rd s u SLU_FMT.TIME i
    match rd s u SLU_FMT.KIND i with
    | 1 => aheadRun s n (fv SLU_FMT.X) (coord (fv SLU_FMT.Y)) 1 t a
    | 2 => { a with base := some (baseStep (max 1 (bits d 6 6)) sh (bits w (bits d 0 6) (bits d 6 6)) a.base).1 }
    | 3 => aheadRun s n (fv SLU_FMT.X) (coord (fv SLU_FMT.Y)) (maskVal (rd s u SLU_FMT.MASK i) w) t a
    | _ => a

/-- The sensor time of the first event of a packet that is converted (R57, R59, R87). -/
def firstEvent (s : State) (n : Nat) (ws : List Nat) : Option Int :=
  let step := if sl s n SLU_PORT.MODE = 1 then aheadFormat s n else aheadEvw s n
  (ws.foldl step { base := (sluOf s n).base }).found

/-- Decoding an accepted packet of events: its words in order, then the end of its queue packets (R54 to R66). -/
def decodePacket (n sot : Nat) (data : List Byte) (s : State) (bad flawed : List Nat := []) : State :=
  let k := wordBytes s n
  let ws := wordsOf k data.length data
  let step := if sl s n SLU_PORT.MODE = 1 then formatWord n else evwWord n
  let (s, c) := ws.zipIdx.foldl (taintedWord n k bad flawed step) (s, { sot := sot, first := firstEvent s n ws })
  let s := if c.run.isSome then sluBump n 5 s else s
  closeHome n true (closeHome n false s)

/-- What a changed SLU_FLT changes in the limiter (R80, R81). -/
def fltWritten (n oldMode : Nat) (s : State) : State :=
  let v := sluOf s n
  let m := sl s n SLU_FLT.RATE_MODE
  if m = 1 ∧ oldMode ≠ 1 then setSlu s n { v with tokens := rateDepth s n, tokenUs := nowUs s }
  else if m = 2 ∧ oldMode ≠ 2 then setSlu s n { v with offered := 0, offerIx := 0, k := 0, passed := 0 }
  else setSlu s n { v with tokens := min v.tokens (rateDepth s n) }

/-- SLU_FLT, SLU_TAL and SLU_QUE as they stand (R91). -/
def heldRegs (s : State) (n : Nat) : Tbl (Option (List Nat)) :=
  [(0x0103, some (entryWords s (uSL n) 0x0103 0 1)), (0x0104, some (entryWords s (uSL n) 0x0104 0 2)),
    (0x0105, some (entryWords s (uSL n) 0x0105 0 1))]

/-- The decimation of the two home queues judged anew, under the limits that now hold (R90). -/
def limitsChanged (n : Nat) (s : State) : State :=
  let s := setQueue s n (queueOf s n)
  setQueue s (16 + n) (queueOf s (16 + n))

/-- A change of SOURCE takes effect at a packet boundary (R669). A change to ARRIVAL keeps d_rate and the last residual as
they read (DESIGN CHOICE: the rule drops the model and does not say what SLU_STAT then reads). -/
def sourceChange (n : Nat) (s : State) : State :=
  let v := sluOf s n
  let src := sl s n SLU_TAL.SOURCE
  if v.source = src then s
  else if src = 0 then setSlu s n { v with source := 0, align := .arrival, npairs := 0 }
  else
    let s := setTime s { s.time with syncIn := tset [] s.time.syncIn n [] }
    setSlu s n { v with source := src, align := .unaligned, npairs := 0 }

/-- A CSI-2 packet boundary (R91, R669): the fields written since the last one take effect. -/
def packetBoundary (n : Nat) (s : State) : State :=
  let mode := sl s n SLU_FLT.RATE_MODE
  let s := setSlu s n { sluOf s n with held := heldRegs s n }
  sourceChange n (fltWritten n mode (limitsChanged n s))

/-- The sluice takes input: its port is enabled, it has reported ready, the device is not in SAFE (Table 19-3), and no entry
to PL2 to PL4 quiesces it (Table 20-4), and its island has its clock (R32). -/
def sluTakes (s : State) (n : Nat) : Bool :=
  islandRuns s (uSL n) && rdB s (uSL n) SLU_PORT.ENABLE && readyBit s (RB_SL + n) && !(s.dev.state == .safe) && s.pwr.entry.isNone

/-- Bytes of one entry of the packet buffer; short packets take none. -/
def Waiting.bytes : Waiting → Nat
  | .events d _ => d.length
  | .line d => d.length
  | _ => 0

/-- Bytes held in the packet buffer (R49). -/
def bufferedBytes (v : Sluice) : Nat := (v.buffered.map Waiting.bytes).sum

/-- An entry at the end of the packet buffer of a port that is being cleared (R668). -/
def waitPacket (n : Nat) (w : Waiting) (s : State) : State :=
  setSlu s n { sluOf s n with buffered := (sluOf s n).buffered ++ [w] }

/-- A long packet finds no place: it is too long, or the packet buffer has no room (R49). -/
def packetOver (v : Sluice) (data : List Byte) : Bool := decide (16384 < data.length ∨ 32768 < bufferedBytes v + data.length)

/-- A header that passed its ECC check, clean or corrected (R47, R92). -/
def goodHeader (n : Nat) (ecc : EccResult) (s : State) : State :=
  let s := setSlu s n { sluOf s n with linkUp := true, lastHdr := now s }
  if ecc = .corrected then sluBump n 1 s else s

/-- The data type a port accepts (R46, R67). -/
def portDt (s : State) (n : Nat) : Nat :=
  if sl s n SLU_PORT.MODE = 2 then
    (match sl s n SLU_PORT.FRAME_FMT with | 0 => 0x2B | 1 => 0x2C | _ => 0x1E)
  else sl s n SLU_PORT.DT

/-- A long packet of events whose header passed: size, room, CRC, then its words (R48, R49). -/
def eventPacket (n sot : Nat) (crcOk : Bool) (data : List Byte) (flawed : List Nat) (s : State) : State :=
  let v := sluOf s n
  if packetOver v data then sluBump n 4 s
  else if ¬ crcOk then sluBump n 3 s
  else
    let s := sluBump n 0 s
    if v.clearing then waitPacket n (.events data sot) s else decodePacket n sot data s [] flawed

/-- PAIR_TIMEOUT (R86). DESIGN CHOICE: the timeout runs on in a port whose ENABLE has been cleared while it was ALIGNED, since
no rule stops it. -/
def pairTimeout (n : Nat) (s : State) : State :=
  let v := sluOf s n
  if v.align = .aligned ∧ v.lastPair + sl s n SLU_TAL.PAIR_TIMEOUT_MS * 1000000 ≤ now s then enterSuspect n s else s

/-- REFRACT_SWEEP (R75). -/
def refractSweep (n cell : Nat) (s : State) : State :=
  let v := sluOf s n
  match tget none v.refr cell with
  | none => s
  | some st =>
    if 256 ≤ (nowUs s % 1024 + 1024 - st) % 1024 then setSlu s n { v with refr := tset none v.refr cell none } else s

/-- SLU_LINK_UP_TIMEOUT (R92): no good header for 100 ms. -/
def linkUpTimeout (n : Nat) (s : State) : State :=
  let v := sluOf s n
  if v.linkUp ∧ v.lastHdr + 100000000 ≤ now s then setSlu s n { v with linkUp := false } else s

/-! ### Enable, disable, configuration (R91, R668) -/

/-- The cleared state of R668: the port decodes nothing until the clearing ends. A frame buffer that an array instance of the
earlier run still reads stays held until that instance has completed (R69). -/
def clearedSluice (s : State) (n : Nat) : Sluice :=
  let s := setSlu s n { sluOf s n with held := heldRegs s n }
  let v := sluOf s n
  let src := sl s n SLU_TAL.SOURCE
  { linkUp := v.linkUp, lastHdr := v.lastHdr, clearing := true, tokens := rateDepth s n, tokenUs := nowUs s,
    interval := now s / 64000, source := src, align := if src = 0 then .arrival else .unaligned,
    dRate := sx 32 (sl s n SLU_TAL.D_INIT), lastPair := now s, held := heldRegs s n,
    bufs := (v.bufs.filter (fun e => e.2.holds ≠ 0)).map (fun e => (e.1, { holds := e.2.holds })) }

/-- SLU_PORT.ENABLE goes from 0 to 1 (R668). -/
def portEnable (n : Nat) (s : State) : State :=
  let fresh (s : State) (q : Nat) : State := setQueue s q { queueOf s q with decim := false, toggle := false }
  let s := fresh (fresh (setSlu s n (clearedSluice s n)) n) (16 + n)
  setTime s { s.time with syncIn := tset [] s.time.syncIn n [] }

/-- A frame not complete is discarded and its buffer reused (R68). -/
def dropFrame (n : Nat) (s : State) : State :=
  match (sluOf s n).frame with
  | none => s
  | some _ => sluBump n 22 (setSlu s n { sluOf s n with frame := none })

/-- SLU_PORT.ENABLE goes from 1 to 0: a frame in progress is discarded (R68), an open queue packet ends. -/
def portDisable (n : Nat) (s : State) : State :=
  let s := dropFrame n (closeHome n true (closeHome n false s))
  setSlu s n { sluOf s n with buffered := [], clearing := false }

/-- Full area of a geometry as SLU_WIN (Table 2-7). -/
def fullWin (wm1 hm1 : Nat) : Nat := wm1 * 2 ^ 23 + hm1 * 2 ^ 35

/-- Delivered pixels of a written geometry and the two home cores (R78). -/
def geometryOk (port win : List Nat) : Bool :=
  let b := if fldOf port SLU_PORT.BIN2 = 1 then 2 else 1
  let w := (fldOf win SLU_WIN.X1 + b - fldOf win SLU_WIN.X0) / b
  let h := (fldOf win SLU_WIN.Y1 + b - fldOf win SLU_WIN.Y0) / b
  if fldOf port SLU_PORT.SPLIT_ROW = 0 then w * h ≤ 1048576
  else w * h ≤ 2097152 && fldOf port SLU_PORT.HOME0 != fldOf port SLU_PORT.HOME1

/-- A descriptor that fits the word and is present when its KIND needs it (R66). -/
def descFits (size d : Nat) (needed : Bool) : Bool :=
  let wd := bits d 6 6
  (wd == 0 && !needed) || (1 ≤ wd && wd ≤ 32 && bits d 0 6 + wd ≤ size)

/-- Bits of a word by WORD_SIZE. -/
def wordSizeBits (f : Nat) : Nat := match f with | 0 => 16 | 1 => 32 | _ => 64

/-- The descriptors of a layout fit words of `size` bits, and those its KIND needs are present (R66). DEDUCED: which fields
a KIND requires is read from what it decodes: X, Y, POL and TIME for CHANGE and RUN, MASK for RUN, TIME for TIME_BASE and
TRIGGER. -/
def layoutFits (size : Nat) (f : Fld → Nat) : Bool :=
  let k := f SLU_FMT.KIND
  let ev : Bool := k == 1 || k == 3
  descFits size (f SLU_FMT.X) ev && descFits size (f SLU_FMT.Y) ev
    && descFits size (f SLU_FMT.POL) ev && descFits size (f SLU_FMT.TIME) (ev || k == 2 || k == 4)
    && descFits size (f SLU_FMT.MASK) (k == 3)

/-- The field rules of SLU_PORT (R45, R78, R91, R92). DESIGN CHOICE: Table 2-1 ties the channels 16 to 31 to the PHY in use, so
a VC of 16 and more is refused under D-PHY and taken while PHY is off. -/
def checkSluPort (s : State) (n : Nat) (ws : List Nat) : Nat :=
  let u := uSL n
  let f := fldOf ws
  let same (g : Fld) : Bool := f g == rd s u g
  let geo := same SLU_PORT.WIDTH_M1 && same SLU_PORT.HEIGHT_M1
  let win := if geo then [regWord s u 0x0102 0 0] else [fullWin (f SLU_PORT.WIDTH_M1) (f SLU_PORT.HEIGHT_M1)]
  firstFail [(f SLU_PORT.PHY ≤ 2, ST_UNSUPPORTED), (f SLU_PORT.LANES ≤ 2, ST_UNSUPPORTED),
    (f SLU_PORT.PHY ≠ 1 ∨ f SLU_PORT.VC ≤ 15, ST_UNSUPPORTED),
    (0x30 ≤ f SLU_PORT.DT ∧ f SLU_PORT.DT ≤ 0x37, ST_UNSUPPORTED), (f SLU_PORT.MODE ≤ 2, ST_UNSUPPORTED),
    (f SLU_PORT.WORD_SIZE ≤ 2, ST_UNSUPPORTED), (f SLU_PORT.FRAME_FMT ≤ 2, ST_UNSUPPORTED),
    (f SLU_PORT.HOME0 ≤ 3 ∧ f SLU_PORT.HOME1 ≤ 3, ST_UNSUPPORTED),
    ((upto 4).all (fun i => layoutFits (wordSizeBits (f SLU_PORT.WORD_SIZE)) (fun g => rd s u g i)), ST_UNSUPPORTED),
    (¬ rdB s u SLU_PORT.ENABLE ∨ (same SLU_PORT.MODE ∧ same SLU_PORT.PHY ∧ same SLU_PORT.LANES ∧ geo
      ∧ same SLU_PORT.BIN2 ∧ same SLU_PORT.SPLIT_ROW ∧ same SLU_PORT.HOME0 ∧ same SLU_PORT.HOME1), ST_WRONG_STATE),
    (f SLU_PORT.ENABLE = 0 ∨ geometryOk ws win, ST_NO_RESOURCE)]

/-- The field rules of SLU_WIN (R78, R91); R92 states no range for its fields, and a window that is empty or lies beyond the
sensor discards what falls outside it (R77). -/
def checkSluWin (s : State) (n : Nat) (ws : List Nat) : Nat :=
  let u := uSL n
  let en := rdB s u SLU_PORT.ENABLE
  firstFail [(¬ en ∨ ws.getD 0 0 = regWord s u 0x0102 0 0, ST_WRONG_STATE),
    (¬ en ∨ geometryOk (entryWords s u 0x0101 0 2) ws, ST_NO_RESOURCE)]

/-- The ranges of SLU_FLT (Table 2-8). -/
def checkSluFlt (ws : List Nat) : Nat :=
  let f := fldOf ws
  firstFail [(2 ≤ f SLU_FLT.FLK_LOCK, ST_UNSUPPORTED), (50 ≤ f SLU_FLT.FLK_FMIN ∧ f SLU_FLT.FLK_FMIN ≤ 1000, ST_UNSUPPORTED),
    (f SLU_FLT.FLK_FMIN ≤ f SLU_FLT.FLK_FMAX ∧ f SLU_FLT.FLK_FMAX ≤ 1000, ST_UNSUPPORTED),
    (f SLU_FLT.RATE_MODE ≤ 2, ST_UNSUPPORTED), (1 ≤ f SLU_FLT.RATE_MEVS ∧ f SLU_FLT.RATE_MEVS ≤ 1200, ST_UNSUPPORTED),
    (1 ≤ f SLU_FLT.RATE_BURST ∧ f SLU_FLT.RATE_BURST ≤ 1024, ST_UNSUPPORTED)]

/-- The ranges of SLU_TAL (Table 2-9). -/
def checkSluTal (ws : List Nat) : Nat :=
  let f := fldOf ws
  firstFail [(f SLU_TAL.SOURCE ≤ 2, ST_UNSUPPORTED), (2 ≤ f SLU_TAL.MIN_PAIRS, ST_UNSUPPORTED),
    (1 ≤ f SLU_TAL.PAIR_TIMEOUT_MS, ST_UNSUPPORTED)]

/-- The ranges of SLU_QUE (Table 2-10). -/
def checkSluQue (ws : List Nat) : Nat :=
  firstFail [(fldOf ws SLU_QUE.SPILL_LIMIT_MIB ≤ (if fldOf ws SLU_QUE.SPILL_TGT = 0 then 4 else 256), ST_UNSUPPORTED)]

/-- The field rules of SLU_FRM (R70). -/
def checkSluFrm (s : State) (n : Nat) (ws : List Nat) : Nat :=
  firstFail [(1 ≤ fldOf ws SLU_FRM.BUFS_M1, ST_UNSUPPORTED), (fldOf ws SLU_FRM.BASE % 64 = 0, ST_UNSUPPORTED),
    (¬ rdB s (uSL n) SLU_PORT.ENABLE ∨ ws.getD 0 0 = regWord s (uSL n) 0x0109 0 0, ST_WRONG_STATE)]

/-- The field rules of an SLU_FMT layout (R63, R66). -/
def checkSluFmt (s : State) (n : Nat) (ws : List Nat) : Nat :=
  firstFail [(fldOf ws SLU_FMT.KIND ≤ 4, ST_UNSUPPORTED),
    (layoutFits (wordSizeBits (rd s (uSL n) SLU_PORT.WORD_SIZE)) (fldOf ws), ST_UNSUPPORTED)]

/-- SLU_STAT words 0 and 1 (Table 2-10). -/
def sluStat (s : State) (n w : Nat) : Nat :=
  let v := sluOf s n
  let al := match v.align with | .arrival => 0 | .unaligned => 1 | .aligned => 2 | .suspect => 3
  if w = 0 then
    b2n (v.linkUp && sl s n SLU_PORT.PHY != 0) + al * 2 + b2n ((queueOf s n).midN != 0 || (queueOf s (16 + n)).midN != 0
      && (ingestSlu2 s n)) * 8
      + b2n (ovfNow s n (queueOf s n) || (ingestSlu2 s n && ovfNow s (16 + n) (queueOf s (16 + n)))) * 16 + (v.flk.filter (fun e => e.2.locked)).length * 32 + lowBits 32 (satS 32 v.residual) * 2 ^ 32
  else lowBits 32 v.dRate
where
  /-- SLn has a second home core. -/
  ingestSlu2 (s : State) (n : Nat) : Bool := sl s n SLU_PORT.SPLIT_ROW != 0

/-- I3C_IBI (Table 14-10a): at most 12 payload bytes are taken. -/
def i3cIbi (n target : Nat) (data : List Byte) (s : State) : State :=
  let d := data.take 12
  notice NT_SENSOR ST_OK (uSL n) (beBytes 1 n ++ beBytes 1 1 ++ beBytes 1 target ++ beBytes 1 d.length ++ padTo 12 d) s

/-! ### The commands -/

def execPairTimeout (sluice : Nat) (s : State) : Out := .next (pairTimeout sluice s)
def execRateTokenAdd (sluice : Nat) (s : State) : Out := .next (rateTokenAdd sluice s)
def execRateInterval (sluice : Nat) (s : State) : Out := .next (rateInterval sluice s)
def execRefractSweep (sluice cell : Nat) (s : State) : Out := .next (refractSweep sluice cell s)
def execSluLinkUpTimeout (sluice : Nat) (s : State) : Out := .next (linkUpTimeout sluice s)
def execSourceChange (sluice : Nat) (s : State) : Out := .next (packetBoundary sluice s)
def execI3cIbi (sluice target : Nat) (data : List Byte) (s : State) : Out := .next (i3cIbi sluice target data s)

end Sys2Proof.Machine
end

