-- ==== Sys2Proof/Machine/Surface.lean ====
section
/-! DEFINITION. Surface engines (file 04): stamps and ages, de-rotation, twin-ring corner test, plane fit, aperture
merge, packets, sweeper. -/
namespace Sys2Proof.Machine

/-- SRF_CNT (Table 4-9). -/
def srfBump (c w : Nat) (s : State) : State := bump (uC c) 0x030F w s
def srfBumpN (n c w : Nat) (s : State) : State := bumpN n (uC c) 0x030F w s

/-- A surface engine. -/
def srfOf (s : State) (c : Nat) : Srf := tget {} s.srf c

/-- Changing it. -/
def setSrf (s : State) (c : Nat) (v : Srf) : State := { s with srf := tset {} s.srf c v }

/-- A port entry. -/
def spOf (s : State) (c p : Nat) : SrfPort := tget {} (srfOf s c).ports p

/-- Changing it. -/
def setSp (s : State) (c p : Nat) (v : SrfPort) : State :=
  setSrf s c { srfOf s c with ports := tset {} (srfOf s c).ports p v }

/-- A field of SRF_CFG. -/
def sc (s : State) (c : Nat) (f : Fld) : Nat := rd s (uSE c) f

/-- A field of a latched SRF_PORT word. -/
def spF (w : Nat) (f : Fld) : Nat := bits w f.lo f.width

/-- The odd core of a fully redundant pair (R584): it repeats the even core behind it, and only the even core's packets leave. The
state of the pair is that of the even core; what the comparison at its lock finds comes with LOCK_LOOKUP. -/
def shadowCore (s : State) (c : Nat) : Bool := (unitOf s (uC c)).fullRed && c % 2 == 1

/-- The engines of a core take input: the core is ready, assigned to a job that takes input, outside SAFE, and no shadow. -/
def coreTakes (s : State) (c : Nat) : Bool :=
  !shadowCore s c && readyBit s (RB_CORE + c) && s.dev.state != .safe && (unitOf s (uC c)).st == .assigned
    && jobTakes s (unitOf s (uC c)).job && !(unitOf s (uC c)).resetting && islandRuns s (uC c)

/-! ### Geometry (R79, R130, R132, R158) -/

/-- What a core holds of a port: its queue, the delivered geometry, owned rows and held rows. -/
structure Geo where
  q : Nat
  w : Nat
  h : Nat
  o0 : Nat
  o1 : Nat
  h0 : Nat
  h1 : Nat
deriving DecidableEq, Repr

/-- The geometry of a sluice on a core, when the sluice names the core as a home. -/
def geoOf (s : State) (c n : Nat) : Option Geo :=
  let w := delivW s n
  let h := delivH s n
  let sp := sl s n SLU_PORT.SPLIT_ROW
  if homeCore s n = c then
    if sp = 0 then some ⟨n, w, h, 0, h, 0, h⟩ else some ⟨n, w, h, 0, min sp h, 0, min (sp + 4) h⟩
  else if sp ≠ 0 ∧ homeCore s (16 + n) = c then some ⟨16 + n, w, h, min sp h, h, sp - 4, h⟩
  else none

/-- The NEVER word: both stamps 0x80_0000. -/
def neverWord : Nat := 0x800000800000

/-- The place of a held pixel: in the halo store, or in the main store under R130. -/
def pixKey (g : Geo) (base x y : Nat) : Bool × Nat :=
  if y < g.o0 then (true, (y - g.h0) * 4096 + x)
  else if g.o1 ≤ y then (true, (y - g.o1) * 4096 + x)
  else (false, (x % 16 + 16 * (y % 8)) * 8192 + base + (y - g.o0) / 8 * ((g.w + 15) / 16) + x / 16)

/-- The word at a place, and whether it is poisoned. -/
def pixWord (v : Srf) (k : Bool × Nat) : Nat := if k.1 then tget neverWord v.halo k.2 else tget neverWord v.mem k.2
def pixBad (v : Srf) (k : Bool × Nat) : Bool := if k.1 then tget false v.haloBad k.2 else tget false v.bad k.2

/-- Writing a word with its poison. -/
def putPix (v : Srf) (k : Bool × Nat) (w : Nat) (bad : Bool) : Srf :=
  if k.1 then { v with halo := tset neverWord v.halo k.2 w, haloBad := tset false v.haloBad k.2 bad }
  else { v with mem := tset neverWord v.mem k.2 w, bad := tset false v.bad k.2 bad }

/-! ### Stamps and ages (R136, R139, R140) -/

/-- NEVER_AGE. -/
def neverAge : Nat := 2 ^ 23

/-- The stamp stored for a time. -/
def storeStamp (t : Nat) : Nat := if t = 0x800000 then 0x7FFFFF else t

/-- The age of a stamp, and whether the difference was negative. -/
def stampAge (st t : Nat) : Nat × Bool :=
  if st = 0x800000 then (neverAge, false) else
  let d := sx 24 (t + 2 ^ 24 - st)
  if d < 0 then (0, true) else if 2 ^ 22 ≤ d then (neverAge, false) else (d.toNat, false)

/-- The age of a pixel for a polarity, or the newer of both; how many differences were negative; poison. -/
def pixAge (v : Srf) (g : Geo) (base : Nat) (merge pol : Bool) (t : Nat) (x y : Int) : Nat × Nat × Bool :=
  if x < 0 ∨ (g.w : Int) ≤ x ∨ y < g.h0 ∨ (g.h1 : Int) ≤ y then (neverAge, 0, false) else
  let k := pixKey g base x.toNat y.toNat
  let w := pixWord v k
  let (aOn, fOn) := stampAge (bits w 24 24) t
  let (aOff, fOff) := stampAge (bits w 0 24) t
  if merge then (min aOn aOff, b2n fOn + b2n fOff, pixBad v k)
  else if pol then (aOn, b2n fOn, pixBad v k) else (aOff, b2n fOff, pixBad v k)

/-- The 9 × 9 window centred on a pixel, row by row from (−4, −4): ages, negative differences, poison. -/
def window (v : Srf) (g : Geo) (base : Nat) (merge pol : Bool) (t x y : Nat) : List (Nat × Nat × Bool) :=
  (upto 81).map (fun i => pixAge v g base merge pol t ((x : Int) + (i % 9 : Nat) - 4) ((y : Int) + (i / 9 : Nat) - 4))

/-- Position of an offset in the window. -/
def winIx (dx dy : Int) : Nat := ((dy + 4) * 9 + dx + 4).toNat

/-! ### Corner test (R151, R152) -/

/-- Ring 3 (Table 4-3). -/
def ring3 : List (Int × Int) := [(0, -3), (1, -3), (2, -2), (3, -1), (3, 0), (3, 1), (2, 2), (1, 3), (0, 3), (-1, 3),
  (-2, 2), (-3, 1), (-3, 0), (-3, -1), (-2, -2), (-1, -3)]

/-- Ring 4 (Table 4-3). -/
def ring4 : List (Int × Int) := [(0, -4), (1, -4), (2, -3), (3, -2), (4, -1), (4, 0), (4, 1), (3, 2), (2, 3), (1, 4),
  (0, 4), (-1, 4), (-2, 3), (-3, 2), (-4, 1), (-4, 0), (-4, -1), (-3, -2), (-2, -3), (-1, -4)]

/-- The gap of one arc of a ring: oldest of the rest less newest of the arc, 0 when not positive. -/
def arcGap (a : List Nat) (start l : Nat) : Nat :=
  let r := a.drop start ++ a.take start
  (r.drop l).foldl min (2 ^ 24) - (r.take l).foldl max 0

/-- ring_pass: the best gap over every arc, 0 when none passes. -/
def ringBest (a : List Nat) (lmin lmax : Nat) : Nat :=
  (upto a.length).foldl (fun b st =>
    (upto (lmax + 1 - lmin)).foldl (fun b i => max b (arcGap a st (lmin + i))) b) 0

/-- The corner score, when the test passes. -/
def cornerScore (s : State) (c : Nat) (age : Int → Int → Nat) : Option Nat :=
  let g3 := ringBest (ring3.map (fun o => age o.1 o.2)) (sc s c SRF_CFG.ARC3_MIN) (sc s c SRF_CFG.ARC3_MAX)
  let g4 := ringBest (ring4.map (fun o => age o.1 o.2)) (sc s c SRF_CFG.ARC4_MIN) (sc s c SRF_CFG.ARC4_MAX)
  let score := min 255 (min g3 g4 >>> sc s c SRF_CFG.SCORE_SHIFT)
  if 1 ≤ g3 ∧ 1 ≤ g4 ∧ sc s c SRF_CFG.SCORE_MIN ≤ score then some score else none

/-! ### Plane fit (R153) -/

/-- The result of a plane fit. -/
inductive Fit
  | reject
  | sat
  | ok (vx vy : Int) (conf : Nat) (det detA detB : Int)
deriving DecidableEq, Repr

/-- A 3 × 3 determinant by rows. -/
def det3 (a b c d e f g h i : Int) : Int := a * (e * i - f * h) - b * (d * i - f * g) + c * (d * h - e * g)

/-- The plane fit centred on (ox, oy) of a window whose ages `age` gives, with FLOW_TAU_US, FLOW_MIN_N, FLOW_RES_US and
FLOW_CONF_MIN. -/
def planeFitWith (tau minN res confMin : Nat) (age : Int → Int → Nat) (ox oy : Int) : Fit :=
  let offs := (upto 25).map (fun i => (((i % 5 : Nat) : Int) - 2, ((i / 5 : Nat) : Int) - 2))
  let pts := offs.filterMap (fun o =>
    let a := age (ox + o.1) (oy + o.2)
    if a = neverAge ∨ tau < a then none else some (o.1, o.2, (a : Int)))
  let n := pts.length
  if n < minN then .reject else
  let sum (f : Int × Int × Int → Int) : Int := (pts.map f).sum
  let sxx := sum (fun p => p.1 * p.1)
  let syy := sum (fun p => p.2.1 * p.2.1)
  let sxy := sum (fun p => p.1 * p.2.1)
  let sx := sum (·.1)
  let sy := sum (·.2.1)
  let sxt := sum (fun p => p.1 * p.2.2)
  let syt := sum (fun p => p.2.1 * p.2.2)
  let st := sum (·.2.2)
  let det := det3 sxx sxy sx sxy syy sy sx sy n
  let da := det3 sxt sxy sx syt syy sy st sy n
  let db := det3 sxx sxt sx sxy syt sy sx st n
  let dc := det3 sxx sxy sxt sxy syy syt sx sy st
  if det = 0 ∨ (da = 0 ∧ db = 0) then .reject else
  let den := (da * da + db * db).toNat
  let vx := divRne (-256000 * da * det) den
  let vy := divRne (-256000 * db * det) den
  if 32767 < vx.natAbs ∨ 32767 < vy.natAbs then .sat else
  let sse := sum (fun p => let e := p.2.2 * det - da * p.1 - db * p.2.1 - dc; e * e)
  let rms := isqrt (sse.toNat / n) / det.natAbs
  let conf := (127 * n * (res - rms)) / max 1 (25 * res)
  if conf < confMin then .reject else .ok vx vy conf det da db

/-- The plane fit under the words of an SRF_CFG (R153). -/
def planeFit (cfg : List Nat) (age : Int → Int → Nat) (ox oy : Int) : Fit :=
  planeFitWith (fldOf cfg SRF_CFG.FLOW_TAU_US) (fldOf cfg SRF_CFG.FLOW_MIN_N) (fldOf cfg SRF_CFG.FLOW_RES_US)
    (fldOf cfg SRF_CFG.FLOW_CONF_MIN) age ox oy

/-- SRF_CFG of a core. -/
def srfCfg (s : State) (c : Nat) : List Nat := entryWords s (uSE c) 0x0302 0 2

/-! ### Aperture merge (R154) -/

/-- Sums of the merge, FP32. -/
structure Aper where
  sa : Nat := f0
  sb : Nat := f0
  sc : Nat := f0
  sp : Nat := f0
  sq : Nat := f0
  m : Nat := 0

/-- One accepted fit. -/
def aperAdd (a : Aper) (det da db : Int) : Aper :=
  let gx := fdiv (fint (-da)) (fint det)
  let gy := fdiv (fint (-db)) (fint det)
  { sa := fadd a.sa (fmul gx gx), sb := fadd a.sb (fmul gx gy), sc := fadd a.sc (fmul gy gy), sp := fadd a.sp gx,
    sq := fadd a.sq gy, m := a.m + 1 }

/-- The nine fits of the patch in raster order (R154). -/
def patchFits (cfg : List Nat) (age : Int → Int → Nat) : List Fit :=
  (upto 9).map (fun i => planeFit cfg age (((i % 3 : Nat) : Int) - 1) (((i / 3 : Nat) : Int) - 1))

/-- The fits merged: full flow and confidence, or a rejection with the saturation flag. -/
def aperture (cfg : List Nat) (fits : List Fit) : Option (Int × Int × Nat) × Bool :=
  let a := fits.foldl (fun a f =>
    match f with
    | .ok _ _ _ det da db => aperAdd a det da db
    | _ => a) ({} : Aper)
  if a.m < fldOf cfg SRF_CFG.APER_MIN_M then (none, false) else
  let d2 := fsub (fmul a.sa a.sc) (fmul a.sb a.sb)
  let k := fscaled 1 (fldOf cfg SRF_CFG.APER_K)
  if fle d2 f0 ∨ flt (fmul d2 k) (fmul (fadd a.sa a.sc) (fadd a.sa a.sc)) then (none, false) else
  let fx := fmul (fdiv (fsub (fmul a.sc a.sp) (fmul a.sb a.sq)) d2) 0x487A0000
  let fy := fmul (fdiv (fsub (fmul a.sa a.sq) (fmul a.sb a.sp)) d2) 0x487A0000
  match fvRne (f32v fx), fvRne (f32v fy) with
  | some vx, some vy =>
    if 32767 < vx.natAbs ∨ 32767 < vy.natAbs then (none, true) else (some (vx, vy, 127 * a.m / 9), false)
  | _, _ => (none, true)

/-! ### Packets (R155, R156) -/

/-- Emitting one packet of a kind. -/
def srfEmit (c prefix_ cls job kind : Nat) (pol : Bool) (x y pay : Nat) (poison : Bool) (s : State) : State :=
  let key := prefix_ * 2 ^ 26 + kind * 2 ^ 24 + b2n pol * 2 ^ 23 + (y % 2048) * 2 ^ 12 + x % 4096
  let s := if poison then srfBump c 14 s else s
  putCq (pSE c) (mkPkt key pay cls job (uSE c) poison) s

/-- A FLOW_V and FLOW_T pair. -/
def srfFlow (c prefix_ cls job : Nat) (pol : Bool) (x y t : Nat) (vx vy : Int) (full conf : Nat) (poison : Bool)
    (s : State) : State :=
  let s := srfEmit c prefix_ cls job 2 pol x y (lowBits 16 vy * 2 ^ 16 + lowBits 16 vx) poison s
  srfEmit c prefix_ cls job 3 pol x y (full * 2 ^ 31 + conf % 128 * 2 ^ 24 + t) poison s

/-! ### De-rotation (R145 to R149) -/

/-- 1.0e-9 as FP32. -/
def fNano : Nat := 0x3089705F

/-- The gyro history of an axis, newest first. -/
def histOf (v : Srf) (g k : Nat) : List Gyro := tget [] v.hist (g * 4 + k)

/-- th + w × fp32(dt) × 1.0e-9, evaluated left to right. -/
def integrate (e : Gyro) (dt : Int) : Nat := fadd e.th (fmul (fmul e.w (fint dt)) fNano)

/-- theta(g, k, t_ns) (R145). -/
def theta (v : Srf) (g k : Nat) (t : Int) : Nat :=
  let h := histOf v g k
  match h.find? (fun e => decide (e.tov ≤ t)) with
  | some e => integrate e (t - e.tov)
  | none => match h.getLast? with
    | some e => e.th
    | none => f0

/-- The history entry that theta uses is poisoned. -/
def thetaBad (v : Srf) (g k : Nat) (t : Int) : Bool :=
  let h := histOf v g k
  match h.find? (fun e => decide (e.tov ≤ t)) with
  | some e => e.bad
  | none => h.getLast?.any (·.bad)

/-- A gyro record reaches a core (R145); one that fails its parity at the crossing arrives poisoned (R30). -/
def gyroRecord (c ch : Nat) (parBad : Bool) (s : State) : State :=
  let r := (inrOf s ch).latest
  let ax := inF s ch INR_CH.AXIS
  let s := crossParity (uSE c) parBad s
  if ax = 0 ∨ 4 ≤ ax then s
  else if r.poison ∨ parBad then srfBump c 12 s
  else
    let v := srfOf s c
    let g := inF s ch INR_CH.SENSOR
    let h := histOf v g ax
    let kept := h.filter (fun e => decide (e.tov < r.tov))
    let s := if kept.length < h.length ∧ kept = [] then srfBump c 11 s else s
    let w := fmul (fmul (fint r.value) 0x34000000) (inF s ch INR_CH.SCALE)
    let th := match kept with | [] => f0 | e :: _ => integrate e (r.tov - e.tov)
    setSrf s c { v with hist := tset [] v.hist (g * 4 + ax) ((⟨r.tov, w, th, kept.head?.any (·.bad)⟩ :: kept).take 16) }

/-- The first use of an epoch (R146): its reference, subtracted from every angle and every reference of the group. -/
def newEpoch (v : Srf) (g e : Nat) (t : Int) : Srf :=
  let r : Nat → Nat := fun k => theta v g k t
  let hist := (upto 3).foldl (fun h i =>
    tmod [] h (g * 4 + i + 1) (fun l => l.map (fun x => { x with th := fsub x.th (r (i + 1)) }))) v.hist
  let refs := (tget [] v.refs g).map (fun x =>
    { x with x := fsub x.x (r 1), y := fsub x.y (r 2), z := fsub x.z (r 3) })
  let refs := sortBy (fun a b => decide (b.epoch < a.epoch)) (⟨e, f0, f0, f0⟩ :: refs)
  { v with hist := hist, refs := tset [] v.refs g (refs.take 4) }

/-- What de-rotation gives an event: its coordinates, or none for an epoch no longer kept. -/
inductive Derot
  | stale
  | to_ (x y : Option Int)

/-- The projection of R148 with the angles since the reference. -/
def project (s : State) (e x y : Nat) (dx dy dz : Nat) : Derot :=
  let f (i : Nat) : Nat := bits (regWord s uDEV 0x0303 e (i / 2)) (32 * (i % 2)) 32
  let row (i : Nat) : Nat := fadd (fadd (fmul (f (4 + 3 * i)) dx) (fmul (f (5 + 3 * i)) dy)) (fmul (f (6 + 3 * i)) dz)
  let d0 := row 0
  let d1 := row 1
  let d2 := row 2
  let u := fdiv (fsub (fint x) (f 2)) (f 0)
  let v := fdiv (fsub (fint y) (f 3)) (f 1)
  let r0 := fsub (fadd u d1) (fmul d2 v)
  let r1 := fsub (fadd v (fmul d2 u)) d0
  let r2 := fsub (fadd f1 (fmul d0 v)) (fmul d1 u)
  .to_ (fvRne (f32v (fadd (fdiv (fmul (f 0) r0) r2) (f 2)))) (fvRne (f32v (fadd (fdiv (fmul (f 1) r1) r2) (f 3))))

/-- De-rotating an event of time `tFull` µs by the intrinsics entry (R146 to R148). -/
def derotate (c e x y tFull : Nat) (s : State) : Derot × State :=
  let v := srfOf s c
  let g := rd s uDEV SRF_INTR.GROUP e
  let len := sc s c SRF_CFG.DEROT_EPOCH_MS * 1000000
  let t : Int := tFull * 1000
  let ep := tFull * 1000 / max 1 len
  let refs := tget [] v.refs g
  let known := refs.find? (fun r => r.epoch == ep)
  if known.isNone ∧ 4 ≤ refs.length ∧ refs.all (fun r => decide (ep < r.epoch)) then (.stale, srfBump c 10 s) else
  let v := if known.isNone then newEpoch v g ep (ep * len : Nat) else v
  let s := setSrf s c v
  let r := ((tget [] v.refs g).find? (fun r => r.epoch == ep)).getD ⟨ep, f0, f0, f0⟩
  (project s e x y (fsub (theta v g 1 t) r.x) (fsub (theta v g 2 t) r.y) (fsub (theta v g 3 t) r.z), s)

/-! ### One event (R141) -/

/-- An event on its way through the engine; `flaw`: a residue of its de-rotation, corner test or fit mismatches (R579). -/
structure SeEv where
  pol : Bool
  x : Nat
  y : Nat
  tFull : Nat
  poison : Bool
  flaw : Bool := false

/-- Steps 4 to 7 for compensated coordinates inside the held rows and the geometry. -/
def seWindow (c : Nat) (w : Nat) (g : Geo) (ev : SeEv) (x y : Nat) (s : State) : State :=
  let v := srfOf s c
  let t := ev.tFull % 2 ^ 24
  let base := spF w SRF_PORT.BASE
  let merge := spF w SRF_PORT.POL_MERGE = 1
  let win := window v g base merge ev.pol t x y
  let s := srfBumpN ((win.map (·.2.1)).sum) c 13 s
  let k := pixKey g base x y
  let s := setSrf s c (putPix v k (setBits (pixWord v k) (if ev.pol then 24 else 0) 24 (storeStamp t))
    (ev.poison || (ev.flaw && spF w SRF_PORT.DEROT_EN == 1)))
  if y < g.o0 ∨ g.o1 ≤ y then s else
  let age (dx dy : Int) : Nat := if dx = 0 ∧ dy = 0 then 0 else (win.getD (winIx dx dy) (neverAge, 0, false)).1
  let bad (r : Int) (dx dy : Int) : Bool :=
    decide (dx.natAbs ≤ r.natAbs ∧ dy.natAbs ≤ r.natAbs) && (win.getD (winIx dx dy) (neverAge, 0, false)).2.2
  let offs := (upto 81).map (fun i => (((i % 9 : Nat) : Int) - 4, ((i / 9 : Nat) : Int) - 4))
  let hurt : Bool := ev.poison || ev.flaw
  let badIn (r : Int) : Bool := hurt || offs.any (fun o => o != (0, 0) && bad r o.1 o.2)
  let pre := spF w SRF_PORT.KEY_PREFIX
  let cls := spF w SRF_PORT.CLASS
  let job := (unitOf s (uC c)).job
  let inner := 4 ≤ x ∧ x + 4 < g.w ∧ 4 ≤ y ∧ y + 4 < g.h
  let score := if spF w SRF_PORT.CORNER_EN = 1 ∧ inner then cornerScore s c age else none
  let cbad := hurt || (ring3 ++ ring4).any (fun o => bad 4 o.1 o.2)
  let s := match score with
    | some z => srfBump c 2 (srfEmit c pre cls job 1 ev.pol x y (z * 2 ^ 24 + t) cbad s)
    | none => s
  let s := if spF w SRF_PORT.FLOW_EN = 1 then
      match planeFit (srfCfg s c) age 0 0 with
      | .ok vx vy conf _ _ _ => srfBump c 3 (srfFlow c pre cls job ev.pol x y t vx vy 0 conf (badIn 2) s)
      | .sat => srfBump c 6 s
      | .reject => srfBump c 5 s
    else s
  if score.isSome ∧ spF w SRF_PORT.FULL_EN = 1 then
    let v := srfOf s c
    setSrf s c { v with
      corners := v.corners ++ [⟨pre, cls, job, ev.pol, x, y, t, offs.map (fun o => age o.1 o.2), badIn 3, srfCfg s c⟩] }
  else s

/-- An event of a port in force word `w`. -/
def seHandle (c : Nat) (w : Nat) (g : Geo) (ev : SeEv) (s : State) : State :=
  let s := srfBump c 0 s
  let (d, s) : Derot × State :=
    if spF w SRF_PORT.DEROT_EN = 1 then derotate c (spF w SRF_PORT.INTR) ev.x ev.y ev.tFull s
    else (.to_ (some ev.x) (some ev.y), s)
  let s := if spF w SRF_PORT.RAW_EN = 1 ∧ g.o0 ≤ ev.y ∧ ev.y < g.o1 then
      srfBump c 1 (srfEmit c (spF w SRF_PORT.KEY_PREFIX) (spF w SRF_PORT.CLASS) (unitOf s (uC c)).job 0 ev.pol ev.x ev.y
        (ev.tFull % 2 ^ 24) ev.poison s)
    else s
  let (px, py) : Option Int × Option Int := match d with
    | .stale => (some (ev.x : Int), some (ev.y : Int))
    | .to_ x y => (x, y)
  match px, py with
  | some x, some y =>
    if x < 0 ∨ (g.w : Int) ≤ x ∨ y < 0 ∨ (g.h : Int) ≤ y then
      if spF w SRF_PORT.DEROT_EN = 1 then srfBump c 8 s else s
    else if y < g.h0 ∨ (g.h1 : Int) ≤ y then
      if spF w SRF_PORT.DEROT_EN = 1 then srfBump c 9 s else s
    else
      let bad : Bool := spF w SRF_PORT.DEROT_EN = 1 ∧ [1, 2, 3].any (fun k =>
        thetaBad (srfOf s c) (rd s uDEV SRF_INTR.GROUP (spF w SRF_PORT.INTR)) k (ev.tFull * 1000))
      seWindow c w g { ev with poison := ev.poison || bad } x.toNat y.toNat s
  | _, _ => srfBump c 8 s

/-! ### Popping the ingest queues (R143, R144) -/

/-- The word an engine takes next from a queue. -/
def peekQ (s : State) (q : Nat) : Option QWord :=
  let v := queueOf s q
  match v.latched with
  | w :: _ => some w
  | [] => if committedWords v = 0 ∨ v.headN = 0 then none else v.ws.head?

/-- A queue packet of port entry `p` can begin: the port is enabled and cleared and its queue holds a word. -/
def seWaits (s : State) (c p : Nat) : Bool :=
  rd s (uSE c) SRF_PORT.ENABLE p == 1 && !(spOf s c p).clearing
    && (match geoOf s c (rd s (uSE c) SRF_PORT.SLUICE p) with
      | none => false
      | some g => (peekQ s g.q).isSome)

/-- The port whose queue packet begins next: the first that can, in round-robin order from `rr` (R143). -/
def seNext (s : State) (c : Nat) : Option Nat :=
  ((upto 4).map (fun i => ((srfOf s c).rr + i) % 4)).find? (seWaits s c)

/-- Port entry `p` may be served now: its core takes input, and its queue packet is in progress or begins next. -/
def seMay (s : State) (c p : Nat) : Bool :=
  coreTakes s c && decide (p < 4) && !(spOf s c p).clearing
    && (match (srfOf s c).cur with
      | some k => k == p
      | none => seNext s c == some p)

/-- Starting a queue packet latches the port's word (R163). -/
def seStart (c p : Nat) (s : State) : State :=
  if (srfOf s c).cur = some p then s
  else
    let s := setSrf s c { srfOf s c with cur := some p, rr := (p + 1) % 4 }
    setSp s c p { spOf s c p with word := regWord s (uSE c) 0x0301 p 0 }

/-- A word has been taken: the packet ends with its last word; a poisoned word is a consumption of poison. -/
def seTaken (c : Nat) (w : QWord) (s : State) : State :=
  let s := if w.last then setSrf s c { srfOf s c with cur := none } else s
  if w.poison then consumePoison (unitOf s (uC c)).job (uSE c) s else s

/-- The port's SRF_PORT word in force: that of the queue packet in progress, else the one the next packet latches (R163). -/
def spWord (s : State) (c p : Nat) : Nat :=
  if (srfOf s c).cur = some p then (spOf s c p).word else regWord s (uSE c) 0x0301 p 0

/-- The engine is stalled by the lock or by the aperture stage (Table 4-6): one cycle is counted. The packets of one event that
find the output buffer full stay in the engine behind its 32, and it pops no further word until they have left. -/
def seStalled (s : State) (c p : Nat) : Option Nat :=
  if 32 ≤ portLen s (pSE c) then some 15
  else if spF (spWord s c p) SRF_PORT.FULL_EN = 1 ∧ 16 ≤ (srfOf s c).corners.length then some 16
  else none

/-- SE_EVENT (R141): the next word of the port's queue, when it is a CHANGE word; `flaw`: a residue mismatches on the way (R579). -/
def seEvent (c p : Nat) (flaw : Bool) (s : State) : State :=
  if ¬ seMay s c p then s else
  let n := rd s (uSE c) SRF_PORT.SLUICE p
  match geoOf s c n with
  | none => s
  | some g =>
    match peekQ s g.q with
    | none => s
    | some w =>
      if ¬ bit w.w 31 then s else
      match seStalled s c p with
      | some k => srfBump c k s
      | none =>
        let s := seStart c p s
        let (r, s) := takeQ g.q s
        match r with
        | none => s
        | some w =>
          let tFull := ((spOf s c p).epoch.getD 0) * 128 + w.w % 128
          let ev : SeEv := ⟨bit w.w 30, bits w.w 7 12, bits w.w 19 11, tFull, w.poison, flaw⟩
          let s := if flaw then reportResidue (uSE c) (unitOf s (uC c)).job s else s
          seTaken c w (seHandle c (spOf s c p).word g ev s)

/-- The 64-bit extension of EPOCH (R58, R136). -/
def extendEpoch (old : Option Nat) (e : Nat) : Nat :=
  match old with
  | none => e
  | some o =>
    let d := (e + 2 ^ 30 - o % 2 ^ 30) % 2 ^ 30
    if d < 2 ^ 29 then o + d else o + d - 2 ^ 30

/-- SE_SERVICE_WORD (R144): EPOCH words update the time base; SERVICE words go to NOTE_STREAM or are dropped. -/
def seServiceWord (c p : Nat) (s : State) : State :=
  if ¬ seMay s c p then s else
  let n := rd s (uSE c) SRF_PORT.SLUICE p
  match geoOf s c n with
  | none => s
  | some g =>
    match peekQ s g.q with
    | none => s
    | some w =>
      if bit w.w 31 then s else
      match seStalled s c p with
      | some k => srfBump c k s
      | none =>
      let s := seStart c p s
      let (r, s) := takeQ g.q s
      match r with
      | none => s
      | some w =>
        let v := spOf s c p
        let s :=
          if bit w.w 30 then setSp s c p { v with epoch := some (extendEpoch v.epoch (w.w % 2 ^ 30)) }
          else if spF v.word SRF_PORT.NOTE_EN = 1 then
            let t := ((v.epoch.getD 0) * 128 + w.w % 128) * 1000
            offerEntry (spF v.word SRF_PORT.NOTE_STREAM)
              ⟨leBytes 8 t ++ leBytes 4 w.w ++ leBytes 4 n, none, t, w.poison, uSE c, 0, 2⟩ s
          else srfBump c 18 s
        seTaken c w s

/-- APERTURE_MERGE (R154): the oldest waiting corner, under the SRF_CFG of its event (R163); `flaw`: a residue mismatches (R579). -/
def apertureMerge (c : Nat) (flaw : Bool) (s : State) : State :=
  let v := srfOf s c
  match v.corners with
  | [] => s
  | k :: r =>
    if 32 ≤ portLen s (pSE c) then s else
    let s := setSrf s c { v with corners := r }
    let age (dx dy : Int) : Nat := k.ages.getD (winIx dx dy) neverAge
    let fits := patchFits k.cfg age
    let s := srfBumpN (fits.countP (· == .reject)) c 5 (srfBumpN (fits.countP (· == .sat)) c 6 s)
    let s := if flaw then reportResidue (uSE c) k.job s else s
    match aperture k.cfg fits with
    | (some (vx, vy, conf), _) =>
      srfBump c 4 (srfFlow c k.prefix_ k.cls k.job k.pol k.x k.y k.t vx vy 1 conf (k.poison || flaw) s)
    | (none, sat) => srfBump c 7 (if sat then srfBump c 6 s else s)

/-! ### Sweeper and clearing (R134, R137) -/

/-- The number of words in a lap. -/
def lapWords : Nat := 1064960

/-- Sweeping one stored word: stamps aged 2^22 µs or more become NEVER. -/
def sweptWord (t w : Nat) : Nat :=
  let f (st : Nat) : Nat := if (stampAge st t).1 = neverAge then 0x800000 else st
  f (bits w 0 24) + f (bits w 24 24) * 2 ^ 24

/-- SURFACE_SWEEP (R137): the next 16 words in cyclic order; the halo words follow the main words. A word with an uncorrectable
error is swept by the value read (R135) and stays marked (DESIGN CHOICE). -/
def surfaceSweep (c : Nat) (s : State) : State :=
  if ¬ readyBit s (RB_CORE + c) then s else
  let t := nowUs s % 2 ^ 24
  let v := srfOf s c
  let v := (upto 16).foldl (fun v i =>
    let a := v.sweep + i
    if a < 1048576 then { v with mem := tset neverWord v.mem a (sweptWord t (tget neverWord v.mem a)) }
    else
      let h := a - 1048576
      { v with halo := tset neverWord v.halo h (sweptWord t (tget neverWord v.halo h)) }) v
  let s := setSrf s c { v with sweep := (v.sweep + 16) % lapWords }
  if v.sweep + 16 = lapWords then srfBump c 17 s else s

/-- SRF_PORT.ENABLE goes from 0 to 1 (R134): the region is cleared before the first pop. -/
def srfPortEnable (c p : Nat) (s : State) : State := setSp s c p { spOf s c p with clearing := true, epoch := none }

/-- The rule of SRF_INTR (R150): an entry that a de-rotating port uses stays valid. -/
def checkSrfIntr (s : State) (e : Nat) (ws : List Nat) : Nat :=
  firstFail [(fldOf ws SRF_INTR.VALID = 1 ∨ (upto 16).all (fun c => (upto 4).all (fun p =>
    rd s (uSE c) SRF_PORT.DEROT_EN p == 0 || rd s (uSE c) SRF_PORT.INTR p != e)), ST_UNSUPPORTED)]

/-- Addresses of a port's region in a bank. -/
def regionSize (g : Geo) : Nat := ((g.w + 15) / 16) * ((g.o1 - g.o0 + 7) / 8)

/-- SURFACE_CLEAR_DONE (R134). -/
def surfaceClearDone (c p : Nat) (s : State) : State :=
  if ¬ (spOf s c p).clearing then s else
  let v := srfOf s c
  match geoOf s c (rd s (uSE c) SRF_PORT.SLUICE p) with
  | none => setSp s c p { spOf s c p with clearing := false }
  | some g =>
    let b := rd s (uSE c) SRF_PORT.BASE p
    let inR (k : Nat) : Bool := decide (b ≤ k % 8192 ∧ k % 8192 < b + regionSize g)
    let split : Bool := sl s (rd s (uSE c) SRF_PORT.SLUICE p) SLU_PORT.SPLIT_ROW != 0
    let v := { v with
      mem := tclear inR v.mem, bad := tclear inR v.bad,
      halo := if split then [] else v.halo, haloBad := if split then [] else v.haloBad }
    setSp (setSrf s c v) c p { spOf s c p with clearing := false }

/-- The cleared condition after a job restart, a core move or a configuration reset (R134). -/
def clearSurfaces (c : Nat) (s : State) : State :=
  let v := srfOf s c
  setSrf s c { v with
    mem := [], halo := [], bad := [], haloBad := [], corners := [], cur := none,
    ports := v.ports.map (fun e => (e.1, { e.2 with epoch := none, clearing := false })) }

/-- Gyro histories are emptied at a time step (R423). -/
def emptyGyro (s : State) : State :=
  (upto 16).foldl (fun s c => setSrf s c { srfOf s c with hist := [] }) s

/-! ### Configuration (R150, R157, R163, R164) -/

/-- The sluice names the core as a home. -/
def namesHome (s : State) (c n : Nat) : Bool := (geoOf s c n).isSome

/-- The field rules of SRF_PORT. -/
def checkSrfPort (s : State) (c p : Nat) (ws : List Nat) : Nat :=
  let f := fldOf ws
  let same (g : Fld) : Bool := f g == rd s (uSE c) g p
  let en := f SRF_PORT.ENABLE = 1
  firstFail [(1 ≤ f SRF_PORT.CLASS, ST_UNSUPPORTED),
    (f SRF_PORT.SLUICE / 4 = c / 4, ST_UNSUPPORTED),
    (f SRF_PORT.FULL_EN = 0 ∨ f SRF_PORT.CORNER_EN = 1, ST_UNSUPPORTED),
    (f SRF_PORT.DEROT_EN = 0 ∨ rd s uDEV SRF_INTR.VALID (f SRF_PORT.INTR) = 1, ST_UNSUPPORTED),
    (¬ en ∨ namesHome s c (f SRF_PORT.SLUICE), ST_UNSUPPORTED),
    (rd s (uSE c) SRF_PORT.ENABLE p = 0 ∨ (same SRF_PORT.SLUICE ∧ same SRF_PORT.BASE ∧ same SRF_PORT.DEROT_EN),
      ST_WRONG_STATE)]

/-- The ranges of SRF_CFG (Table 4-8). -/
def checkSrfCfg (ws : List Nat) : Nat :=
  let f := fldOf ws
  let r (g : Fld) (lo hi : Nat) : Bool × Nat := (lo ≤ f g ∧ f g ≤ hi, ST_UNSUPPORTED)
  firstFail [r SRF_CFG.ARC3_MIN 1 15, r SRF_CFG.ARC3_MAX (f SRF_CFG.ARC3_MIN) 15, r SRF_CFG.ARC4_MIN 1 19,
    r SRF_CFG.ARC4_MAX (f SRF_CFG.ARC4_MIN) 19, r SRF_CFG.FLOW_TAU_US 1 65535, r SRF_CFG.FLOW_MIN_N 4 25,
    r SRF_CFG.FLOW_RES_US 1 65535, r SRF_CFG.APER_MIN_M 2 9, r SRF_CFG.DEROT_EPOCH_MS 1 255]

/-! ### The commands -/

def execSeEvent (core port : Nat) (residueBad : Bool) (s : State) : Out := .next (seEvent core port residueBad s)
def execApertureMerge (core : Nat) (residueBad : Bool) (s : State) : Out := .next (apertureMerge core residueBad s)
def execSeServiceWord (core port : Nat) (s : State) : Out := .next (seServiceWord core port s)
def execGyroRecord (core channel : Nat) (parBad : Bool) (s : State) : Out := .next (gyroRecord core channel parBad s)
def execSurfaceSweep (core : Nat) (s : State) : Out := .next (surfaceSweep core s)
def execSurfaceClearDone (core entry : Nat) (s : State) : Out := .next (surfaceClearDone core entry s)

end Sys2Proof.Machine
end

