-- ==== Sys2Proof/Machine/Neuron.lean ====
section
/-! DEFINITION. Neuron engines (file 05): intake, batches, the micro-coded update, stepped time, spike counts. -/
namespace Sys2Proof.Machine

/-- NRN_CNT (Table 5-14). -/
def neBump (c w : Nat) (s : State) : State := bump (uC c) 0x040F w s
def neBumpN (n c w : Nat) (s : State) : State := bumpN n (uC c) 0x040F w s

/-- A neuron engine. -/
def neOf (s : State) (c : Nat) : Ne := tget {} s.ne c

/-- Changing it. -/
def setNe (s : State) (c : Nat) (v : Ne) : State := { s with ne := tset {} s.ne c v }

/-- Fields of the descriptors of a core. -/
def ng (s : State) (c g : Nat) (f : Fld) : Nat := rd s (uNE c) f g
def nc (s : State) (c : Nat) (f : Fld) : Nat := rd s (uNE c) f

/-- TIME_MODE is STEPPED. -/
def stepped (s : State) (c : Nat) : Bool := nc s c NRN_CFG.TIME_MODE == 1

/-- The job of a core. -/
def coreJob (s : State) (c : Nat) : Nat := (unitOf s (uC c)).job

/-- The valid group that holds a neuron (R170). -/
def groupOf (s : State) (c n : Nat) : Option Nat :=
  (upto 64).find? (fun g => ng s c g NRN_GRP.VALID == 1 && decide (ng s c g NRN_GRP.FIRST ≤ n)
    && decide (n ≤ ng s c g NRN_GRP.FIRST + ng s c g NRN_GRP.COUNT_M1))

/-- What an unlisted update stamp reads as: never updated. -/
def stampNever : Nat := 0x800000

/-- The device µs nearest to now whose low 24 bits are a stamp. -/
def fullUs (s : State) (t : Nat) : Nat := ((nowUs s : Int) - sx 24 (nowUs s + 2 ^ 24 - t % 2 ^ 24)).toNat

/-- The commit window of a stamp (file 18: a step covers the batches whose stamps lie in the window). -/
def stampWindow (s : State) (c t : Nat) : Nat :=
  if stepped s c then jobWindow s (coreJob s c)
  else fullUs s t / max 1 (rd s uDEV CNL_JOB.WIN_US (coreJob s c))

/-! ### Intake (R176 to R179, R190, R191) -/

/-- The first valid entry of NRN_INMAP that a key matches. -/
def inmapFor (s : State) (c key : Nat) : Option Nat :=
  (upto 64).find? (fun i => rd s (uNE c) NRN_INMAP.VALID i == 1
    && (key &&& rd s (uNE c) NRN_INMAP.MASK i) == (rd s (uNE c) NRN_INMAP.KEY i &&& rd s (uNE c) NRN_INMAP.MASK i))

/-- The row a key selects under an entry. -/
def rowFor (s : State) (c key i : Nat) : Nat :=
  ((key &&& (0xFFFFFFFF - rd s (uNE c) NRN_INMAP.MASK i)) >>> rd s (uNE c) NRN_INMAP.ROW_SHIFT i)
    + rd s (uNE c) NRN_INMAP.ROW_BASE i

/-- A step marker (R196, R199): late when its step is older than the one before the open step. -/
def takeMarker (c k : Nat) (s : State) : State :=
  let v := neOf s c
  if sx 24 (k + 2 ^ 25 - (v.step + 2 ^ 24 - 1) % 2 ^ 24) < 0 then neBump c 14 s
  else setNe s c { v with marks := tmod 0 v.marks (k % 2 ^ 24) (· + 1) }

/-- A stamp is not newer than that of the last batch released (R191). -/
def notNewer (v : Ne) (t : Nat) : Bool := v.last.any (fun l => decide (sx 24 (t % 2 ^ 24 + 2 ^ 24 - l) ≤ 0))

/-- An input that addresses a row joins the reorder buffer; INPUTS counts it, in a closed step too (Table 5-14). -/
def acceptInput (c i row : Nat) (p : Pkt) (s : State) : State :=
  let v := neOf s c
  let e : NeIn := ⟨0, p.key, rd s (uNE c) NRN_INMAP.MATRIX i, row, p.poison, false⟩
  let pay := p.pay % 2 ^ 24
  let s := neBump c 0 s
  let arrival : Bool := rd s (uNE c) NRN_INMAP.STAMP i == 1
  if stepped s c then
    let d := sx 24 (pay + 2 ^ 24 - v.step % 2 ^ 24)
    if ¬ arrival ∧ d < 0 then neBump c 13 s
    else
      setNe s c { v with
        inputs := v.inputs ++ [{ e with stamp := if arrival then v.step % 2 ^ 24 else pay }] }
  else
    let t := nowUs s % 2 ^ 24
    let far : Bool := !arrival && decide (65535 < sx 24 (pay + 2 ^ 24 - t))
    let st := if arrival ∨ far then t else pay
    let late := notNewer v st
    let s := if far then neBump c 3 s else s
    let s := if late then neBump c 4 s else s
    setNe s c { v with inputs := v.inputs ++ [{ e with stamp := st, late := late }] }

/-- An entry and row of an input that its matrix holds (R177). -/
def rowHeld (s : State) (c i row : Nat) : Bool :=
  let m := rd s (uNE c) NRN_INMAP.MATRIX i
  rd s (uNE c) NRN_MAT.VALID m != 0 && decide (row ≤ rd s (uNE c) NRN_MAT.ROWS_M1 m)

/-- A packet is an input: it matches an entry that is no marker and addresses a row that the matrix holds (R177). -/
def isInput (s : State) (c : Nat) (p : Pkt) : Bool :=
  match inmapFor s c p.key with
  | none => false
  | some i => rd s (uNE c) NRN_INMAP.MARKER i != 1 && rowHeld s c i (rowFor s c p.key i)

/-- One packet that the lock has delivered (R177). -/
def takePacket (c : Nat) (p : Pkt) (s : State) : State :=
  match inmapFor s c p.key with
  | none => neBump c 1 s
  | some i =>
    if rd s (uNE c) NRN_INMAP.MARKER i = 1 then takeMarker c (p.pay % 2 ^ 24) s
    else if rowHeld s c i (rowFor s c p.key i) then acceptInput c i (rowFor s c p.key i) p s
    else neBump c 2 s

/-! ### Synapse stage (R172 to R174, R192) -/

/-- The weight of column `j` of the row that starts at byte `a`, with TERN_BAD. -/
def weightAt (syn : Tbl Byte) (fmt a j : Nat) : Int × Bool :=
  match fmt with
  | 0 => (sx 8 (tget 0 syn (a + j)).toNat, false)
  | 1 => (sx 4 (bits (tget 0 syn (a + j / 2)).toNat (4 * (j % 2)) 4), false)
  | _ =>
    match bits (tget 0 syn (a + j / 4)).toNat (2 * (j % 4)) 2 with
    | 0 => (0, false)
    | 1 => (1, false)
    | 3 => (-1, false)
    | _ => (0, true)

/-- The byte that holds column `j`. -/
def weightByte (fmt a j : Nat) : Nat := a + (match fmt with | 0 => j | 1 => j / 2 | _ => j / 4)

/-- Bytes of a matrix row (R173). -/
def rowStride (fmt cols : Nat) : Nat :=
  let b := if fmt = 0 then 8 else if fmt = 1 then 4 else 2
  (cols * b + 511) / 512 * 64

/-- A contribution: a signed 32-bit value (Table 5-5); where the product does not fit, the spec states no result. -/
def contribution (v : Int) : Int :=
  if satS 32 v = v then v else sx 32 (Sys2Proof.Config.wideContribution v).toNat

/-- Adding one contribution to what a batch holds for a neuron. -/
def addContribution (key n : Nat) (w : Int) (poison : Bool) (b : Tbl (Option NeAcc)) : Tbl (Option NeAcc) :=
  tmod none b n (fun o =>
    let a := o.getD {}
    some { sum := a.sum + w, each := a.each ++ [(key, w, poison)], poison := a.poison || poison })

/-- The row of one input added to a batch, with the number of bad ternary weights. -/
def addRow (s : State) (c : Nat) (e : NeIn) (b : Tbl (Option NeAcc) × Nat) : Tbl (Option NeAcc) × Nat :=
  let f (g : Fld) : Nat := rd s (uNE c) g e.mat
  let cols := f NRN_MAT.COLS_M1 + 1
  let fmt := f NRN_MAT.FMT
  let a := f NRN_MAT.BASE * 64 + e.row * rowStride fmt cols
  let mag : Int := if fmt = 2 then f NRN_MAT.T_MAG else 1
  (upto cols).foldl (fun b j =>
    let (w, bad) := weightAt (neOf s c).syn fmt a j
    (addContribution e.key (f NRN_MAT.TARGET + j) (contribution (w * mag * (2 ^ f NRN_MAT.W_SHIFT : Nat)))
        (e.poison || tget false (neOf s c).synBad (weightByte fmt a j / 4)) b.1,
      b.2 + b2n bad)) b

/-- The neurons of a group. -/
def groupNeurons (s : State) (c g : Nat) : List Nat :=
  (upto (ng s c g NRN_GRP.COUNT_M1 + 1)).map (· + ng s c g NRN_GRP.FIRST)

/-- Touching the neurons of a group without input (R194, R196). -/
def touchGroup (s : State) (c g : Nat) (b : Tbl (Option NeAcc)) : Tbl (Option NeAcc) :=
  (groupNeurons s c g).foldl (fun b n => tmod none b n (fun o => some (o.getD {}))) b

/-- A batch of inputs and ticked groups passes the synapse stage. -/
def synapse (c stamp : Nat) (ins : List NeIn) (groups : List Nat) (s : State) : NeBatch × State :=
  let (acc, bad) := ins.foldl (fun b e => addRow s c e b) ([], 0)
  let acc := groups.foldl (fun b g => touchGroup s c g b) acc
  let poi := (ins.filter (·.poison)).length
  (⟨stamp, acc, poi != 0⟩, neBumpN poi c 11 (neBumpN bad c 10 s))

/-- The stamp of the oldest batch that waits: inputs and ticks that are not late. -/
def oldestStamp (s : State) (c : Nat) : Option Nat :=
  let v := neOf s c
  let ts := ((v.inputs.filter (fun e => !e.late)).map (·.stamp)) ++ (v.ticks.filter (fun e => !notNewer v e.1)).map (fun e => e.1 % 2 ^ 24)
  ts.foldl (fun a t => match a with
    | none => some t
    | some b => some (if sx 24 (t + 2 ^ 24 - b) < 0 then t else b)) none

/-- The batch of a stamp is released (R189, R191): late inputs and late ticks join it. -/
def releaseBatch (c t : Nat) (s : State) : State :=
  let v := neOf s c
  let (ins, rest) := v.inputs.partition (fun e => e.late || e.stamp == t)
  let (tk, tkRest) := v.ticks.partition (fun e => notNewer v e.1 || e.1 % 2 ^ 24 == t)
  let (b, s) := synapse c t ins (tk.map (·.2)) s
  setNe s c { neOf s c with inputs := rest, ticks := tkRest, last := some t, batches := v.batches ++ [b] }

/-- BATCH_RELEASE (R189): the oldest batch is REORDER_US old and an accumulator set is free. -/
def batchRelease (c : Nat) (s : State) : State :=
  if ¬ coreTakes s c ∨ stepped s c ∨ 2 ≤ (neOf s c).batches.length then s
  else match oldestStamp s c with
    | none => s
    | some t =>
      if (nc s c NRN_CFG.REORDER_US : Int) ≤ sx 24 (nowUs s % 2 ^ 24 + 2 ^ 24 - t) then releaseBatch c t s else s

/-! ### Undo records and capture (R589, R590) -/

/-- Undo records an undo region holds. -/
def undoCap (s : State) (c : Nat) : Nat := (jobOf s (coreJob s c)).undoBytes / 16

/-- The undo region and the capture queue of a core have room for more. -/
def retainRoom (s : State) (c need : Nat) : Bool :=
  if spEn s (coreJob s c) then
    let q := (jobOf s (coreJob s c)).captureQ.getD c 0xFFFF
    decide ((tget [] s.pass.undo c).length + need ≤ undoCap s c) && (q == 0xFFFF || decide (qOcc s q + 4 ≤ qCap s q))
  else true

/-- While a checkpoint waits for its window, the state at the end of that window is kept of every neuron that a later
window changes (R595). -/
def keepCkpt (c win n : Nat) (s : State) : State :=
  let l := tget [] s.pass.ckptUndo c
  if (jobOf s (coreJob s c)).ckptWin.any (fun w => decide (w < win)) ∧ ¬ l.any (fun u => u.neuron == n) then
    let v := neOf s c
    setPass s { s.pass with
      ckptUndo := tset [] s.pass.ckptUndo c (l ++ [⟨win, n, tget 0 v.words n, tget stampNever v.stamps n⟩]) }
  else s

/-- While a checkpoint waits for its window, the step that is open at the end of that window is kept, when a later window closes
it (R168, R595). -/
def keepStep (c win : Nat) (s : State) : State :=
  if (jobOf s (coreJob s c)).ckptWin.any (fun w => decide (w < win)) ∧ (tget none s.pass.ckptStep c).isNone then
    setPass s { s.pass with ckptStep := tset none s.pass.ckptStep c (some (neOf s c).step) }
  else s

/-- The old value of a neuron at its first write in a window goes to the undo region. -/
def keepUndo (c win n : Nat) (s : State) : State :=
  let s := keepCkpt c win n s
  let j := coreJob s c
  let l := tget [] s.pass.undo c
  if ¬ spEn s j ∨ l.any (fun u => u.win == win && u.neuron == n) then s else
  let v := neOf s c
  let u : Undo := ⟨win, n, tget 0 v.words n, tget stampNever v.stamps n⟩
  let s := setPass s { s.pass with undo := tset [] s.pass.undo c (l ++ [u]) }
  let a := (jobOf s j).undoBase.getD c 0
  if a = 0 ∨ undoCap s c ≤ l.length then s else ramPut s (a + l.length * 16) (leBytes 4 n ++ leBytes 8 u.word ++ leBytes 4 u.stamp)

/-- The inputs that fill the reorder buffer: in stepped time those of the open step are integrated and take no place. -/
def heldInputs (s : State) (c : Nat) : Nat :=
  let v := neOf s c
  if stepped s c then (v.inputs.filter (fun e => e.stamp != v.step % 2 ^ 24)).length else v.inputs.length

/-- The stages can take a batch: in free-flow time one of their two accumulator sets is free (R190). -/
def stagesFree (s : State) (c : Nat) : Bool := stepped s c || decide ((neOf s c).batches.length < 2)

/-- Room for one more input (R190): the oldest batch is released early, and counted, until an input has left or the stages are
full. -/
def makeRoom (c : Nat) : Nat → State → State
  | 0, s => s
  | k + 1, s =>
    if heldInputs s c < 8192 ∨ stepped s c ∨ ¬ stagesFree s c then s
    else makeRoom c k (releaseBatch c ((oldestStamp s c).getD ((neOf s c).last.getD 0)) (neBump c 5 s))

/-- NE_INPUT (R177, R190): the engine takes the next copy its lock has delivered, or holds back-pressure: while a capture queue or
the undo region is full (R590), while the stages cannot take a batch, or while the reorder buffer stays full. -/
def neInput (c : Nat) (s : State) : State :=
  if ¬ coreTakes s c then s else
  match firstCq s (pNeIn c) with
  | none => s
  | some p =>
    if ¬ retainRoom s c 1 ∨ ¬ stagesFree s c then neBump c 16 s
    else if isInput s c p then
      let s := makeRoom c 2 s
      if 8192 ≤ heldInputs s c then neBump c 16 s else takePacket c p (dropCq (pNeIn c) s)
    else takePacket c p (dropCq (pNeIn c) s)

/-! ### The micro-coded model (R180 to R186) -/

/-- The registers of one update (Table 5-8): `flags` is bits [63:56] as stored before the update. -/
structure Mc where
  m : Int
  a : Int
  r : Int
  user : Nat
  flags : Nat
  inp : Int
  dt : Nat
  dtu : Nat
  s0 : Int := 0
  s1 : Int := 0
  p : Bool := false
  fire : Bool := false
  sat : Bool := false

/-- A constant of a model. -/
def kReg (s : State) (c model i : Nat) : Int :=
  sx 24 (bits (regWord s (uNE c) 0x0404 model ((1 + i) / 2)) (32 * ((1 + i) % 2)) 24)

/-- An entry of decay table 0 or 1. -/
def decayEntry (s : State) (c model table k : Nat) : Nat :=
  let w := 8 + 8 * table + k / 2
  bits (regWord s (uNE c) 0x0404 model (w / 2)) (32 * (w % 2) + 16 * (k % 2)) 16

/-- Reading a register. -/
def mcRead (s : State) (c model : Nat) (x : Mc) (i : Nat) : Int :=
  match i with
  | 0 => x.m
  | 1 => x.a
  | 2 => x.r
  | 3 => (x.flags % 8 + x.user * 8 : Nat)
  | 4 => x.inp
  | 5 => x.dt
  | 6 => x.dtu
  | 7 => x.s0
  | 8 => x.s1
  | k => kReg s c model (k - 9)

/-- Writing a register: M and A clamp to 24 bits and set SAT, R to 0 to 255, F takes USER only. -/
def mcWrite (x : Mc) (i : Nat) (v : Int) : Mc :=
  let v := satS 32 v
  match i with
  | 0 => { x with m := satS 24 v, sat := x.sat || satS 24 v != v }
  | 1 => { x with a := satS 24 v, sat := x.sat || satS 24 v != v }
  | 2 => { x with r := max 0 (min 255 v) }
  | 3 => { x with user := bits (lowBits 32 v) 3 4 }
  | 7 => { x with s0 := v }
  | 8 => { x with s1 := v }
  | _ => x

/-- DECAY (R183). -/
def decay (s : State) (c model table dt : Nat) (y : Int) : Int :=
  let u := dt >>> rd s (uNE c) (if table = 0 then NRN_MODEL.DT_SHIFT0 else NRN_MODEL.DT_SHIFT1) model
  if 65535 < u then 0
  else (maskBits 16 u).foldl (fun y k => rshRne (y * decayEntry s c model table k) 16) y

/-- The condition of CMP. -/
def mcCond (k : Nat) (a b : Int) : Bool :=
  match k with
  | 0 => a == b
  | 1 => a != b
  | 2 => decide (a < b)
  | 3 => decide (a ≤ b)
  | 4 => decide (b < a)
  | _ => decide (b ≤ a)

/-- One micro-instruction (Tables 5-7 and 5-9). -/
def mcStep (s : State) (c model : Nat) (x : Mc) (w : Nat) : Mc :=
  let cond := bits w 14 2
  if (cond = 1 ∧ ¬ x.p) ∨ (cond = 2 ∧ x.p) then x else
  let imm := bits w 0 14
  let sa := mcRead s c model x (bits w 20 4)
  let sb := mcRead s c model x (bits w 16 4)
  let dst := bits w 24 4
  match bits w 28 4 with
  | 1 => mcWrite x dst (if bit imm 0 then sa - sb else sa + sb)
  | 2 => mcWrite x dst (if imm % 32 = 0 then sa * sb else rshRne (sa * sb) (imm % 32))
  | 3 => { x with p := mcCond (imm % 8) sa sb }
  | 4 => mcWrite x dst (if x.p then sa else sb)
  | 5 => mcWrite x dst (decay s c model (imm % 2) x.dt sa)
  | 6 => { x with fire := true }
  | 7 => mcWrite (mcWrite x 0 (if bit imm 0 then x.m - sb else sb)) 2 sa
  | 8 => mcWrite x dst (if bit imm 0 then min sa sb else max sa sb)
  | _ => x

/-- The program of a model. -/
def modelWords (s : State) (c model : Nat) : List Nat :=
  (upto (rd s (uNE c) NRN_MODEL.LENGTH model)).map
    (fun i => regWord s (uNE c) 0x0406 (rd s (uNE c) NRN_MODEL.START model + i) 0)

/-- DT and DTU (R184, R196): `stepUs` is the model step in stepped time. -/
def elapsed (s : State) (c model last t : Nat) : Nat × Nat :=
  let rs := rd s (uNE c) NRN_MODEL.REFR_SHIFT model
  if last = stampNever then (if stepped s c then nc s c NRN_CFG.STEP_US else 4194303, 65535)
  else
    let dt := min (stampAge last t).1 4194303
    (if stepped s c then nc s c NRN_CFG.STEP_US else dt, min ((dt + last % 2 ^ rs) >>> rs) 65535)

/-! ### Update and emission (R192 to R194, R200) -/

/-- The stamp and the spike payload of an update: `t` is the batch stamp, or the model time of the step. -/
structure UpdAt where
  t : Nat
  win : Nat
  full : Nat

/-- The end of the open count window of a group in model µs (R201). -/
def windowEnd (s : State) (c g : Nat) : Nat :=
  let w := max 1 (ng s c g NRN_GRP.CNT_WINDOW_US)
  (tget 0 (neOf s c).winStart g / w + 1) * w

/-- The place of a spike of neuron `n` fired at model time `t` among the counts of its group: those of the open window come first,
those of the window `i` later at 65,536 × `i` (R201). -/
def countPlace (s : State) (c g n t : Nat) : Nat :=
  let w := max 1 (ng s c g NRN_GRP.CNT_WINDOW_US)
  (t / w - tget 0 (neOf s c).winStart g / w) * 65536 + n

/-- One spike: a packet and a count. The packets of one batch or step that the queue to the lock cannot hold yet wait behind it in
the emit stage, in order; the update stage takes no further batch until they have left (R221). -/
def emitSpike (c g n : Nat) (u : UpdAt) (poison : Bool) (s : State) : State :=
  let s := neBump c 7 s
  let j := coreJob s c
  let s :=
    if ng s c g NRN_GRP.EMIT_EN = 1 then
      let key := ng s c g NRN_GRP.OUT_KEY ||| (n - ng s c g NRN_GRP.FIRST)
      let d := ng s c g NRN_GRP.AXON_DELAY
      let pay := ((if stepped s c then (neOf s c).step else u.t) + d) % 2 ^ 24
      putCq (pNE c) { mkPkt key pay (ng s c g NRN_GRP.CLASS) j (uNE c) poison with step := some u.win }
        (signStep j u.win (uNE c) (leBytes 4 key ++ leBytes 4 pay) s)
    else s
  if ng s c g NRN_GRP.CNT_EN = 1 then
    let v := neOf s c
    let k := countPlace s c g n u.full
    setNe s c { v with
      counts := tmod 0 v.counts k (fun x => satU 16 (x + 1)),
      cntBad := if poison then tset false v.cntBad k true else v.cntBad }
  else s

/-- One update of a neuron of a group with a summed input. -/
def updateNeuron (c g n : Nat) (u : UpdAt) (first : Bool) (inp : Int) (poison : Bool) (s : State) : State :=
  let s := keepUndo c u.win n s
  let v := neOf s c
  let w := tget 0 v.words n
  let model := ng s c g NRN_GRP.MODEL
  let (dt, dtu) := if first then elapsed s c model (tget stampNever v.stamps n) u.t else (0, 0)
  let x : Mc := {
    m := sx 24 (bits w 0 24), a := sx 24 (bits w 24 24), r := (bits w 48 8 : Nat), user := bits w 59 4,
    flags := bits w 56 8, inp := inp, dt := dt, dtu := dtu }
  let x := (modelWords s c model).foldl (mcStep s c model) x
  let poi := bit w 57 || poison
  let w' := lowBits 24 x.m + lowBits 24 x.a * 2 ^ 24 + x.r.toNat * 2 ^ 48 + b2n x.fire * 2 ^ 56 + b2n poi * 2 ^ 57
    + b2n x.sat * 2 ^ 58 + x.user * 2 ^ 59
  let s := setNe s c { v with
    words := tset 0 v.words n w', stamps := tset stampNever v.stamps n (storeStamp (u.t % 2 ^ 24)) }
  let s := neBump c 6 (if x.sat then neBump c 8 s else s)
  if x.fire then emitSpike c g n u poi s else s

/-- The updates of one neuron in a batch: one with the sum, or one for each input of an ORDERED model in ascending
order of key (R193). -/
def updateTouched (c : Nat) (u : UpdAt) (n : Nat) (a : NeAcc) (s : State) : State :=
  match groupOf s c n with
  | none => s
  | some g =>
    let model := ng s c g NRN_GRP.MODEL
    if rd s (uNE c) NRN_MODEL.VALID model = 0 then s
    else if rd s (uNE c) NRN_MODEL.ORDERED model = 1 ∧ a.each ≠ [] then
      ((sortBy (fun x y => decide (x.1 < y.1)) a.each).foldl (fun (r : Bool × State) e =>
        (false, updateNeuron c g n u r.1 e.2.1 e.2.2 r.2)) (true, s)).2
    else
      let s := if satS 32 a.sum = a.sum then s else neBump c 9 s
      updateNeuron c g n u true (satS 32 a.sum) a.poison s

/-- Every neuron of a batch, in ascending order. -/
def updateAll (c : Nat) (u : UpdAt) (b : NeBatch) (s : State) : State :=
  b.acc.foldl (fun s e => match e.2 with | some a => updateTouched c u e.1 a s | none => s) s

/-- BATCH_UPDATE (R192): the oldest batch in the stages, once the emit stage and the undo region have room. -/
def batchUpdate (c : Nat) (s : State) : State :=
  let v := neOf s c
  match v.batches with
  | [] => s
  | b :: r =>
    if ¬ coreTakes s c ∨ cqCap (pNE c) 1 ≤ portLen s (pNE c) ∨ ¬ retainRoom s c b.acc.length then s else
    let s := setNe s c { v with batches := r }
    let s := updateAll c ⟨b.stamp, stampWindow s c b.stamp, fullUs s b.stamp⟩ b s
    if b.poison then consumePoison (coreJob s c) (uNE c) s else s

/-- TICK_BATCH (R194): a batch for every multiple of TICK_US that device time has reached and that has none yet. -/
def tickBatch (c g : Nat) (s : State) : State :=
  let p := ng s c g NRN_GRP.TICK_US
  if ¬ coreTakes s c ∨ stepped s c ∨ p = 0 ∨ ng s c g NRN_GRP.VALID = 0 ∨ 64 ≤ g then s else
  let v := neOf s c
  let k := tget 0 v.tickLast g / p
  let n := nowUs s / p - k
  setNe s c { v with
    ticks := v.ticks ++ (upto n).map (fun i => ((k + 1 + i) * p, g)), tickLast := tset 0 v.tickLast g (max (tget 0 v.tickLast g) ((k + n) * p)) }

/-- STAMP_SWEEP (R185). -/
def stampSweep (c n : Nat) (s : State) : State :=
  let v := neOf s c
  let t := if stepped s c then v.step * nc s c NRN_CFG.STEP_US % 2 ^ 24 else nowUs s % 2 ^ 24
  if n < 65536 ∧ 2 ^ 22 ≤ (stampAge (tget stampNever v.stamps n) t).1 then
    setNe s c { v with stamps := tset stampNever v.stamps n stampNever }
  else s

/-! ### Stepped time (R195 to R199) -/

/-- due(k) (R198). -/
def stepDue (s : State) (c : Nat) : Nat :=
  (neOf s c).closeAt + (if nc s c NRN_CFG.PACE = 1 then nc s c NRN_CFG.STEP_WALL_US * 1000 else 0)

/-- Markers of the step before the open one in hand. -/
def marksIn (s : State) (c : Nat) : Nat := tget 0 (neOf s c).marks (((neOf s c).step + 2 ^ 24 - 1) % 2 ^ 24)

/-- The class of a stepped engine: that of its groups (R197). -/
def stepClass (s : State) (c : Nat) : Nat :=
  match (upto 64).find? (fun g => ng s c g NRN_GRP.VALID == 1) with
  | some g => ng s c g NRN_GRP.CLASS
  | none => 2

/-- The open step closes (R196): its inputs are integrated, every neuron of every valid group is updated, the marker
follows the spikes, the next step opens. -/
def closeStep (c : Nat) (s : State) : State :=
  let v := neOf s c
  let k := v.step
  let (ins, rest) := v.inputs.partition (fun e => e.stamp == k % 2 ^ 24)
  let s := setNe s c { v with inputs := rest, marks := tset 0 v.marks ((k + 2 ^ 24 - 1) % 2 ^ 24) 0 }
  let groups := (upto 64).filter (fun g => ng s c g NRN_GRP.VALID == 1)
  let (b, s) := synapse c 0 ins groups s
  let us := k * nc s c NRN_CFG.STEP_US
  let j := coreJob s c
  let w := jobWindow s j
  let s := updateAll c ⟨us % 2 ^ 24, w, us⟩ b (keepStep c w s)
  let key := nc s c NRN_CFG.MARK_KEY
  let s := putCq (pNE c) (mkPkt key (k % 2 ^ 24) (stepClass s c) j (uNE c) false)
    (signStep j w (uNE c) (leBytes 4 key ++ leBytes 4 (k % 2 ^ 24)) s)
  let s := setNe s c { neOf s c with step := k + 1, closeAt := now s }
  if b.poison then consumePoison j (uNE c) s else s

/-- STEP_CLOSE (R198). -/
def stepClose (c : Nat) (s : State) : State :=
  if coreTakes s c ∧ stepped s c ∧ nc s c NRN_CFG.STEP_SOURCES ≤ marksIn s c ∧ stepDue s c ≤ now s then
    closeStep c s
  else s

/-- STEP_OVERRUN (R199). -/
def stepOverrun (c : Nat) (s : State) : State :=
  if coreTakes s c ∧ stepped s c ∧ stepDue s c + nc s c NRN_CFG.STRETCH_LIMIT_US * 1000 ≤ now s then
    let miss := nc s c NRN_CFG.STEP_SOURCES - marksIn s c
    let s := notice NT_STEP ST_OK (uNE c) (beBytes 1 c ++ beBytes 1 miss ++ beBytes 2 0
      ++ beBytes 4 ((neOf s c).step % 2 ^ 32)) (neBump c 12 s)
    closeStep c s
  else s

/-! ### Spike counts (R201, R202) -/

/-- The model time the engine has passed: device time less REORDER_US, or the step that closed last. -/
def modelPassed (s : State) (c : Nat) : Nat :=
  if stepped s c then ((neOf s c).step - 1) * nc s c NRN_CFG.STEP_US else nowUs s - nc s c NRN_CFG.REORDER_US

/-- The commit windows of the steps whose spikes a count window may hold: of model time in free flow, else of the device time since the
group's window before it closed. -/
def countWins (s : State) (c g start stop : Nat) : List Nat :=
  let w := max 1 (rd s uDEV CNL_JOB.WIN_US (coreJob s c))
  let (a, b) : Nat × Nat :=
    if stepped s c then (tget 0 (neOf s c).cntSince g / (w * 1000), (neOf s c).closeAt / (w * 1000))
    else (start / w, (stop - 1) / w)
  (upto (b + 1 - a)).map (a + ·)

/-- The window of a group closes together with the `more` windows after it: their counts go to the copy, and those of later
windows become active in their turn. -/
def swapCounts (c g more : Nat) (deferred : Bool) (s : State) : State :=
  let v := neOf s c
  let w := max 1 (ng s c g NRN_GRP.CNT_WINDOW_US)
  let stop := windowEnd s c g + more * w
  let f := ng s c g NRN_GRP.FIRST
  let l := f + ng s c g NRN_GRP.COUNT_M1
  let mine (k : Nat) : Bool := decide (f ≤ k % 65536 ∧ k % 65536 ≤ l)
  let closed (k : Nat) : Bool := mine k && decide (k / 65536 ≤ more)
  let later (k : Nat) : Bool := mine k && decide (more < k / 65536)
  let get (n : Nat) : Nat := ((upto (more + 1)).map (fun i => tget 0 v.counts (i * 65536 + n))).sum
  let tov := if stepped s c then v.closeAt else stop * 1000
  let back (k : Nat) : Nat := k - (more + 1) * 65536
  setNe s c { v with
    counts := (v.counts.filter (fun e => later e.1)).foldl (fun t e => tset 0 t (back e.1) e.2) (tclear mine v.counts),
    cntBad := (v.cntBad.filter (fun e => later e.1)).foldl (fun t e => tset false t (back e.1) e.2) (tclear mine v.cntBad),
    winStart := tset 0 v.winStart g stop,
    deferred := tset false v.deferred g false,
    copies := v.copies ++ [⟨g, tget 0 v.winStart g, stop, tov, deferred, (groupNeurons s c g).map (fun n => satU 16 (get n)),
      v.cntBad.any (fun e => closed e.1 && e.2), countWins s c g (tget 0 v.winStart g) stop⟩],
    cntSince := tset 0 v.cntSince g v.closeAt }

/-- A batch stamped before model time `t` still waits or is in the stages, so that spikes before `t` may yet be fired. -/
def firesBefore (s : State) (c t : Nat) : Bool :=
  !stepped s c && (((oldestStamp s c).toList ++ (neOf s c).batches.map (·.stamp)).any (fun x => decide (fullUs s x < t)))

/-- COUNT_WINDOW_CLOSE (R201, R202). DEDUCED: the window stays open while a batch stamped before its end has not been updated, since
every spike is counted in the window of its firing time. -/
def countClose (c g : Nat) (s : State) : State :=
  let v := neOf s c
  if ¬ coreTakes s c ∨ 64 ≤ g ∨ ng s c g NRN_GRP.VALID = 0 ∨ ng s c g NRN_GRP.CNT_EN = 0 then s
  else if modelPassed s c < windowEnd s c g ∨ firesBefore s c (windowEnd s c g) then s
  else if v.copies.any (fun e => e.group == g) then
    if tget false v.deferred g then s else neBump c 15 (setNe s c { v with deferred := tset false v.deferred g true })
  else swapCounts c g 0 false s

/-- The whole windows after the open one that model time has passed when a deferred close proceeds: the record's window takes them in
(R202). -/
def windowsPassed (s : State) (c g : Nat) : Nat :=
  let w := max 1 (ng s c g NRN_GRP.CNT_WINDOW_US)
  let past := ((oldestStamp s c).toList ++ (neOf s c).batches.map (·.stamp)).foldl (fun a x => min a (fullUs s x))
    (modelPassed s c)
  (if stepped s c then modelPassed s c - windowEnd s c g else past - windowEnd s c g) / w

/-- The body of a SPIKE_COUNTS record (Table 10-5). -/
def countBody (s : State) (c : Nat) (e : CntCopy) : List Byte :=
  let data := e.counts.flatMap (leBytes 2)
  leBytes 8 e.start ++ leBytes 8 e.stop ++ leBytes 2 (ng s c e.group NRN_GRP.FIRST)
    ++ leBytes 2 (ng s c e.group NRN_GRP.COUNT_M1) ++ leBytes 1 e.group
    ++ leBytes 1 (c + b2n (stepped s c) * 16 + b2n e.deferred * 32) ++ leBytes 10 0
    ++ padTo ((data.length + 7) / 8 * 8) data

/-- COUNT_COPY_DONE (R202): the oldest copy becomes a record; a deferred close of its group proceeds. -/
def countCopyDone (c : Nat) (s : State) : State :=
  let v := neOf s c
  match v.copies with
  | [] => s
  | e :: r =>
    let s := setNe s c { v with copies := r }
    let s := putRecord (ng s c e.group NRN_GRP.CNT_STREAM) 3 e.tov (countBody s c e) e.poison (e.wins.map (fun w => (uNE c, w))) s
    if tget false (neOf s c).deferred e.group then
      swapCounts c e.group (windowsPassed s c e.group) true s
    else s

/-! ### Start of a job, restore, configuration (R168, R171, R182, R186, R187, R206) -/

/-- The engine at a job start or restart: buffers empty, counting in a new window; `step` is the step to open. -/
def neStart (c step : Nat) (s : State) : State :=
  let v := neOf s c
  let at_ := if stepped s c then step * nc s c NRN_CFG.STEP_US else nowUs s
  setNe s c { v with
    inputs := [], ticks := [], last := none, batches := [], step := step, closeAt := now s, marks := [],
    counts := [], cntBad := [], deferred := [], copies := [],
    tickLast := if stepped s c then [] else (upto 64).foldl (fun t g => tset 0 t g (nowUs s)) [],
    cntSince := (upto 64).foldl (fun t g => tset 0 t g (now s)) [],
    winStart := (upto 64).foldl (fun t g => tset 0 t g (at_ / max 1 (ng s c g NRN_GRP.CNT_WINDOW_US) * max 1 (ng s c g NRN_GRP.CNT_WINDOW_US))) [] }

/-- A micro-instruction that the store may hold (R182). -/
def ucodeOk (w : Nat) : Bool :=
  let op := bits w 28 4
  let dst := bits w 24 4
  let ro : Bool := 4 ≤ dst && dst ≤ 6 || 9 ≤ dst
  decide (op ≤ 8) && bits w 14 2 != 3 && !(op == 3 && decide (6 ≤ bits w 0 3))
    && (if op = 3 ∨ op = 6 ∨ op = 7 then dst == 0 else if op = 0 then true else !ro)

/-- The field rules of NRN_GRP (R170, R171, Table 5-3). -/
def checkNrnGrp (ws : List Nat) : Nat :=
  let f := fldOf ws
  let low := (upto 16).filter (fun b => 2 ^ b ≤ f NRN_GRP.COUNT_M1)
  firstFail [(1 ≤ f NRN_GRP.CLASS, ST_UNSUPPORTED), (1 ≤ f NRN_GRP.AXON_DELAY, ST_UNSUPPORTED),
    (1 ≤ f NRN_GRP.CNT_WINDOW_US ∧ f NRN_GRP.CNT_WINDOW_US ≤ 1000000, ST_UNSUPPORTED),
    (f NRN_GRP.OUT_KEY % 2 ^ low.length = 0, ST_SHAPE)]

/-- The field rules of NRN_MODEL (R186). -/
def checkNrnModel (ws : List Nat) : Nat :=
  let f := fldOf ws
  firstFail [(f NRN_MODEL.LENGTH ≤ 16, ST_UNSUPPORTED),
    (f NRN_MODEL.VALID = 0 ∨ (1 ≤ f NRN_MODEL.LENGTH ∧ f NRN_MODEL.START + f NRN_MODEL.LENGTH ≤ 256), ST_UNSUPPORTED)]

/-- The field rules of NRN_MAT (Table 5-4). -/
def checkNrnMat (ws : List Nat) : Nat :=
  let f := fldOf ws
  firstFail [(f NRN_MAT.FMT ≤ 2, ST_UNSUPPORTED), (f NRN_MAT.W_SHIFT ≤ 23, ST_UNSUPPORTED)]

/-- The field rules of NRN_CFG (R206). -/
def checkNrnCfg (ws : List Nat) : Nat :=
  let f := fldOf ws
  firstFail [(1 ≤ f NRN_CFG.STEP_US, ST_UNSUPPORTED), (1 ≤ f NRN_CFG.STEP_WALL_US, ST_UNSUPPORTED),
    (f NRN_CFG.STRETCH_LIMIT_US ≤ 1000000, ST_UNSUPPORTED)]

/-- The bytes of a matrix in the synapse store: first, and one past the last. -/
def matRange (ws : List Nat) : Nat × Nat :=
  let b := fldOf ws NRN_MAT.BASE * 64
  (b, b + (fldOf ws NRN_MAT.ROWS_M1 + 1) * rowStride (fldOf ws NRN_MAT.FMT) (fldOf ws NRN_MAT.COLS_M1 + 1))

def execNeInput (core : Nat) (s : State) : Out := .next (neInput core s)
def execBatchRelease (core : Nat) (s : State) : Out := .next (batchRelease core s)
def execBatchUpdate (core : Nat) (s : State) : Out := .next (batchUpdate core s)
def execTickBatch (core group : Nat) (s : State) : Out := .next (tickBatch core group s)
def execStampSweep (core neuron : Nat) (s : State) : Out := .next (stampSweep core neuron s)
def execStepClose (core : Nat) (s : State) : Out := .next (stepClose core s)
def execStepOverrun (core : Nat) (s : State) : Out := .next (stepOverrun core s)
def execCountWindowClose (core group : Nat) (s : State) : Out := .next (countClose core group s)
def execCountCopyDone (core : Nat) (s : State) : Out := .next (countCopyDone core s)

end Sys2Proof.Machine
end

