-- ==== Sys2Proof/Machine/Canal.lean ====
section
/-! DEFINITION. Locks and link receivers (file 06): table lookup, destination sets, and the movement of copies to the
class queues of their destination ports. -/
namespace Sys2Proof.Machine

/-- The unit a lookup node counts for. -/
def nodeUnit : LockNode → Nat
  | .lock c => uLOCK c
  | .link k => uCK k

/-- CNL_CNT (Table 6-12). -/
def cnlBump (u w : Nat) (s : State) : State := bump u 0x050F w s
def cnlBumpN (n u w : Nat) (s : State) : State := bumpN n u 0x050F w s

/-- The two transfer words of a CNL_ENT entry. -/
def entWord (s : State) (u i w : Nat) : Nat := regWord s u 0x0507 i w

/-- A field of a CNL_ENT entry. -/
def entF (s : State) (u i : Nat) (f : Fld) : Nat := rd s u f i

/-- The entries of a node that can be valid, in ascending order: those whose second word is not its reset value. -/
def entryList (s : State) (u : Nat) : List Nat :=
  s.regs.filterMap (fun e =>
    if e.1 / (32 * 65536 * 65536) = u ∧ (e.1 / (32 * 65536)) % 65536 = 0x0507 ∧ e.1 % 32 = 1 then
      some ((e.1 / 32) % 65536) else none)

/-- An entry matches a key that arrived from a kind of port (R213): SRC_SEL is ignored in a link table. -/
def entMatches (s : State) (u key src : Nat) (link : Bool) (i : Nat) : Bool :=
  entF s u i CNL_ENT.VALID == 1 && (key &&& entF s u i CNL_ENT.MASK) == (entF s u i CNL_ENT.KEY &&& entF s u i CNL_ENT.MASK)
    && (link || bit (entF s u i CNL_ENT.SRC_SEL) src)

/-- The destination set of a packet at a node, none when no entry matches (R213). -/
def destSet (s : State) (node : LockNode) (key src : Nat) : Option Dst :=
  let u := nodeUnit node
  let link : Bool := match node with | .link _ => true | .lock _ => false
  let es := (entryList s u).filter (entMatches s u key src link)
  let orF (f : Fld) : Nat := es.foldl (fun a i => a ||| entF s u i f) 0
  if es = [] then none else some {
    ne := !link && orF CNL_ENT.NE == 1, locks := orF CNL_ENT.LOCKS, ten := orF CNL_ENT.TEN,
    links := orF CNL_ENT.LINKS, fusion := orF CNL_ENT.FUSION == 1,
    stream := (es.find? (fun i => entF s u i CNL_ENT.STREAM_EN == 1)).map (fun i => entF s u i CNL_ENT.STREAM),
    queue := (es.find? (fun i => entF s u i CNL_ENT.QUEUE_EN == 1)).map (fun i => entF s u i CNL_ENT.QUEUE) }

/-- A destination set names something on this device. -/
def Dst.isLocal (d : Dst) : Bool :=
  d.ne || d.locks != 0 || d.ten != 0 || d.fusion || d.stream.isSome || d.queue.isSome

/-- CNL_DEV.ASSIGNED. -/
def devAssigned (s : State) : Bool := s.canal.assigned

/-- A link that carries packets: up, both ends assigned, and no duplicate DEV_ID (R236). -/
def linkUsable (s : State) (k : Nat) : Bool :=
  (linkOf s k).up && devAssigned s && (linkOf s k).peerAsg && (linkOf s k).peerDev != devId s

/-- Where a copy routed to a link goes (R239): that link, its ALT_LINK while it is down and so on, or a link that discards it.
A ring of failover links that are all down discards it at the fourth (DESIGN CHOICE). -/
def linkEnd (s : State) : Nat → Nat → Nat × Bool
  | 0, k => (k, false)
  | n + 1, k =>
    if linkUsable s k then (k, true)
    else if rdB s (uCK k) CNL_LINK.ALT_EN then linkEnd s n (rd s (uCK k) CNL_LINK.ALT_LINK)
    else (k, false)

/-- The link a copy routed to link `k` leaves on, none where it is discarded. -/
def linkFor (s : State) (k : Nat) : Option Nat := if (linkEnd s 4 k).2 then some (linkEnd s 4 k).1 else none

/-- Input ports of a node: the core's engines and its hub, or the link receiver. -/
def nodePorts : LockNode → List Nat
  | .lock c => [pSE c, pNE c, pHub c]
  | .link k => [pRx k]

/-- The node of an input port. -/
def portNode (p : Nat) : LockNode :=
  if p < 16 then .lock p else if p < 32 then .lock (p - 16) else if p < 48 then .lock (p - 32) else .link (p - 48)

/-- The node works: its core is ready, or its link is up. -/
def nodeReady (s : State) : LockNode → Bool
  | .lock c => readyBit s (RB_CORE + c) && !(unitOf s (uC c)).resetting
  | .link k => (linkOf s k).up

/-- The head of a class queue has not been looked up yet. -/
def headUnseen (s : State) (p cls : Nat) : Bool := (cq s p cls).head?.any (·.dst.isNone)

/-- The head of a class queue replaced. -/
def setHead (s : State) (p cls : Nat) (x : Pkt) : State := setCq s p cls (x :: (cq s p cls).drop 1)

/-- The core that carries out a core's work: itself, or the spare its work moved to (R43). -/
def placeOf (s : State) (n : Nat) : Nat :=
  let m := (unitOf s (uC n)).movedTo
  if utype m = 0x02 then uindex m else n

/-- The jobs whose units of this device a packet reaches from a node, along the locks that forward it (R214). -/
def reach (s : State) (key : Nat) : Nat → LockNode → Nat → List Nat
  | 0, _, _ => []
  | n + 1, node, src =>
    match destSet s node key src with
    | none => []
    | some d =>
      let ne := match node with | .lock c => if d.ne then [coreJob s c] else [] | .link _ => []
      let inLock : Bool := match node with | .lock _ => true | .link _ => false
      ne ++ (maskBits 4 d.ten).map (fun t => (unitOf s (uTEN t)).job)
        ++ (if d.fusion then [rd s uFUS FUS_GRID.JOB] else []) ++ d.stream.toList.map (fun k => resF s k RES_STREAM.JOB)
        ++ d.queue.toList.map (qJob s)
        ++ (maskBits 16 d.locks).flatMap (fun c => reach s key n (.lock (placeOf s c)) (if inLock then 1 else 2))

/-- The jobs among them, one bit each. -/
def jobMask (l : List Nat) : Nat := l.foldl (fun m j => if j < 8 then m ||| 2 ^ j else m) 0

/-- Bytes held in a link's shadow store, 16 for each packet (R244). -/
def shadowBytes (l : CkLink) : Nat := ((l.shadow.map (fun e => e.pkts.length)).sum) * 16

/-- Returning a credit of a class to the peer; those of classes 1 to 3 are withheld while the shadow store is at its
limit (R218, R247). -/
def returnCredit (k cls : Nat) (s : State) : State :=
  let l := linkOf s k
  if cls ≠ 0 ∧ rd s (uCK k) CNL_LINK.SHADOW_LIMIT_MIB * 1048576 ≤ shadowBytes l then
    setLink s k { l with withheld := tmod 0 l.withheld cls (· + 1) }
  else setLink s k { l with ctl := l.ctl ++ [.credit cls 1] }

/-- A packet has left a link receiver, which returns its credit; one folded in has given its credit back before. -/
def leaveReceiver (port : Nat) (p : Pkt) (s : State) : State :=
  if 48 ≤ port ∧ port < 52 ∧ p.credit then returnCredit (port - 48) p.cls s else s

/-- Looking the head of a class queue up: parity check, then the destination set, or the packet is discarded. -/
def lookupHead (node : LockNode) (p cls : Nat) (s : State) : State :=
  match (cq s p cls).head? with
  | none => s
  | some x =>
    let (x, s) := checkParity (nodeUnit node) x s
    match destSet s node x.key x.from_ with
    | none => leaveReceiver p x (cnlBump (nodeUnit node) 1 (setCq s p cls ((cq s p cls).drop 1)))
    | some d =>
      let js := reach s x.key 17 node x.from_
      setHead s p cls { x with dst := some d, jobs := x.jobs ||| jobMask js, loc := x.loc || js != [] }

/-- The port a node serves next in a class: round robin over its inputs (R219). -/
def nextPort (s : State) (node : LockNode) (cls : Nat) : Option Nat :=
  let ps := nodePorts node
  let r := tget 0 s.canal.rr (nodeUnit node * 4 + cls)
  (ps.drop (r % ps.length) ++ ps.take (r % ps.length)).find? (fun p => headUnseen s p cls)

/-- The class a node serves next. -/
def nextClass (s : State) (node : LockNode) : Option Nat :=
  (upto 4).find? (fun c => (nodePorts node).any (fun p => headUnseen s p c))

/-- LOCK_LOOKUP (R213, R219): one lookup at a node. -/
def lookupNode (node : LockNode) (s : State) : State :=
  if ¬ nodeReady s node ∨ ¬ islandRuns s (nodeUnit node) then s else
  match nextClass s node with
  | none => s
  | some c =>
    match nextPort s node c with
    | none => s
    | some p =>
      let ix := ((nodePorts node).findIdx (· == p)) + 1
      lookupHead node p c { s with canal := { s.canal with rr := tset 0 s.canal.rr (nodeUnit node * 4 + c) ix } }

/-! ### Copies -/

/-- A copy with its destination port; `none` for one that cannot be forwarded or has no link. -/
inductive CopyTo
  | to (port : Nat) (p : Pkt)
  | hopDrop
  | linkDrop (k : Nat)
deriving DecidableEq, Repr

/-- A forwarding step (R211). -/
def hop (p : Pkt) (f : Pkt → CopyTo) : CopyTo := if p.hops = 0 then .hopDrop else f { p with hops := p.hops - 1 }

/-- A copy for a Canal link (R239). -/
def toLink (s : State) (k : Nat) (p : Pkt) : CopyTo :=
  let e := linkEnd s 4 k
  if e.2 then .to (pTx e.1) p else .linkDrop e.1

/-- One destination of a packet. -/
inductive Leg
  | ne
  | lock (n : Nat)
  | ten (t : Nat)
  | link (k : Nat)
  | fusion
  | stream
  | queue
deriving DecidableEq, Repr

/-- The destinations of a set. -/
def legsOf (d : Dst) : List Leg :=
  (if d.ne then [.ne] else []) ++ (maskBits 16 d.locks).map .lock ++ (maskBits 4 d.ten).map .ten ++ (maskBits 4 d.links).map .link
    ++ (if d.fusion then [.fusion] else []) ++ d.stream.toList.map (fun _ => .stream) ++ d.queue.toList.map (fun _ => .queue)

/-- A destination set without one of its destinations. -/
def Dst.without (d : Dst) : Leg → Dst
  | .ne => { d with ne := false }
  | .lock n => { d with locks := setBits d.locks n 1 0 }
  | .ten t => { d with ten := setBits d.ten t 1 0 }
  | .link k => { d with links := setBits d.links k 1 0 }
  | .fusion => { d with fusion := false }
  | .stream => { d with stream := none }
  | .queue => { d with queue := none }

/-- The copy of a packet for one destination (R213, R214), with the port it is bound for. -/
def legCopy (s : State) (node : LockNode) (p : Pkt) (d : Dst) (l : Leg) : CopyTo :=
  let x : Pkt := { p with dst := none, credit := true }
  let inLock : Bool := match node with | .lock _ => true | .link _ => false
  match l with
  | .ne => .to (match node with | .lock c => pNeIn c | .link k => pNeIn k) x
  | .lock n => if inLock then hop x (fun y => .to (pHub (placeOf s n)) { y with from_ := 1 }) else .to (pHub (placeOf s n)) { x with from_ := 2 }
  | .ten t => .to (pTen t) x
  | .link k => if inLock then toLink s k x else hop x (toLink s k)
  | .fusion => .to pFus x
  | .stream => .to (pStream (d.stream.getD 0)) x
  | .queue => .to (pQueue (d.queue.getD 0)) x

/-- The capture queue of a core whose job keeps its inputs (R589). -/
def captureOf (s : State) (c : Nat) : Option Nat :=
  let j := coreJob s c
  if j < 8 ∧ spEn s j then
    let q := (jobOf s j).captureQ.getD c 0xFFFF
    if q < 512 then some q else none
  else none

/-- A copy of a class finds space at a port (R218, R590). -/
def stopRoom (s : State) (o cls : Nat) : Bool :=
  cqRoom s o cls && (if 52 ≤ o ∧ o < 68 then
    (match captureOf s (o - 52) with | some q => decide (qOcc s q + 4 ≤ qCap s q) | none => true) else true)

/-- The hub's copy of a packet delivered to a neuron engine (R589): four words, retained until the window commits. -/
def capture (c : Nat) (p : Pkt) (s : State) : State :=
  match captureOf s c with
  | none => s
  | some q =>
    let v := queueOf s q
    let w (x : Nat) : QWord := { w := x % 2 ^ 32, poison := p.poison }
    setQueue s q { v with
      retained := v.retained ++ [⟨jobWindow s (coreJob s c),
        [w p.key, w p.pay, w (nowUs s), { w (p.cls + b2n p.poison * 4) with last := true }]⟩] }

/-- A copy bound for port `f` joins the queue of port `o` on its way. -/
def joinStop (o f : Nat) (p : Pkt) (s : State) : State :=
  let s := putCq o { p with to_ := if o = f then none else some f } s
  if 52 ≤ o ∧ o < 68 then capture (o - 52) p s else s

/-- The port a copy enters first: the neuron engine's, or the lock's output to the hub; from a link receiver the hub's. -/
def firstStop (node : LockNode) (f : Nat) : Nat :=
  match node with
  | .lock c => if f = pNeIn c then f else pOut c
  | .link k => fromHub k f

/-- The hub that takes copies from a port on their way. -/
def takingHub (port : Nat) : Nat :=
  if port < 784 then (port - 768) / 4 else if port < 800 then (port - 784) % 4 else port - 800

/-- The next copy at a port on its way: bound anew where its link went down meanwhile (R239). -/
def transitCopy (s : State) (p : Pkt) : CopyTo :=
  let f := p.to_.getD 0
  if 72 ≤ f ∧ f < 76 then toLink s (f - 72) p else .to f p

/-- The port it goes on to. -/
def nextStop (port f : Nat) : Nat := if port < 800 then fromHub (takingHub port) f else f

/-- The unit that takes words from a port has its clock, and a hub is not being reset (R32). -/
def portGives (s : State) (port : Nat) : Bool :=
  if port < 48 then islandRuns s (nodeUnit (portNode port))
  else
    let h := if port < 52 then port - 48 else takingHub port
    islandRuns s (uHUB h) && !(unitOf s (uHUB h)).resetting

/-- The ports that the head copies of a class at a port wait for. -/
def waitsFor (s : State) (port cls : Nat) : List Nat :=
  match (cq s port cls).head? with
  | none => []
  | some p =>
    if ¬ portGives s port then []
    else if 52 ≤ port then (match transitCopy s p with | .to f _ => [nextStop port f] | _ => [])
    else match p.dst with
      | none => []
      | some d => (legsOf d).filterMap (fun l => match legCopy s (portNode port) p d l with
        | .to f _ => some (firstStop (portNode port) f)
        | _ => none)

/-- The place of an output port and class in the round robin. -/
def rrKey (o cls : Nat) : Nat := (65536 + o) * 4 + cls

/-- An input port is served next at an output port in a class (R219): no lower class can pass there, and within the class
round robin over the inputs. -/
def isServed (s : State) (port cls o : Nat) : Bool :=
  let ps := feeders o
  let r := tget 0 s.canal.rr (rrKey o cls)
  (upto cls).all (fun c => !stopRoom s o c || ps.all (fun q => !(waitsFor s q c).contains o))
    && (ps.drop (r % ps.length) ++ ps.take (r % ps.length)).find? (fun q => (waitsFor s q cls).contains o) == some port

/-- The round robin goes on after an input port. -/
def servedPort (port cls o : Nat) (s : State) : State :=
  { s with canal := { s.canal with rr := tset 0 s.canal.rr (rrKey o cls) ((feeders o).findIdx (· == port) + 1) } }

/-- A destination of the head of a class queue can have its copy now; one that cannot be forwarded needs no space. -/
def legGoes (s : State) (port cls : Nat) (p : Pkt) (d : Dst) (l : Leg) : Bool :=
  match legCopy s (portNode port) p d l with
  | .to f _ => stopRoom s (firstStop (portNode port) f) cls && isServed s port cls (firstStop (portNode port) f)
  | _ => true

/-- A class-3 copy waits for a port where a destination's copy of a lower class passes (STARVE_CYCLES, R219). -/
def legStarves (s : State) (port cls : Nat) (p : Pkt) (d : Dst) (l : Leg) : Bool :=
  match legCopy s (portNode port) p d l with
  | .to f _ =>
    let o := firstStop (portNode port) f
    decide (cls < 3) && legGoes s port cls p d l && (feeders o).any (fun q => (waitsFor s q 3).contains o)
  | _ => false

/-- One copy is issued if it finds space; the destination then waits no more (R221). -/
def issueLeg (port cls : Nat) (s : State) (l : Leg) : State :=
  match (cq s port cls).head? with
  | none => s
  | some p =>
    match p.dst with
    | none => s
    | some d =>
      if ¬ legGoes s port cls p d l then s else
      let node := portNode port
      let u := nodeUnit node
      let s' := setHead s port cls { p with dst := some (d.without l) }
      match legCopy s node p d l with
      | .to f x =>
        let o := firstStop node f
        let y := match node with | .lock _ => (x, s') | .link k => crossCheck (uHUB k) x s'
        joinStop o f y.1 (servedPort port cls o (cnlBump u 0 y.2))
      | .hopDrop => cnlBump u 2 s'
      | .linkDrop k => cnlBump (uCK k) 8 s'

/-- A packet whose copies have all found space leaves its input queue (R221). -/
def leaveIfDone (port cls : Nat) (s : State) : State :=
  match (cq s port cls).head? with
  | none => s
  | some p => if p.dst.any (fun d => legsOf d == []) then leaveReceiver port p (setCq s port cls ((cq s port cls).drop 1)) else s

/-- A class's head packet has a destination whose copy can go. -/
def classGoes (s : State) (port cls : Nat) : Bool :=
  match (cq s port cls).head? with
  | none => false
  | some p => p.dst.any (fun d => (legsOf d).any (legGoes s port cls p d))

/-- The copies of a class's head packet that find space leave a lock or a link receiver. -/
def issueHead (port cls : Nat) (s : State) : State :=
  match (cq s port cls).head?.bind (·.dst) with
  | none => s
  | some d =>
    let starved : Bool := (cq s port cls).head?.any (fun p => (legsOf d).any (legStarves s port cls p d))
    let s := if starved then cnlBump (nodeUnit (portNode port)) 4 s else s
    leaveIfDone port cls ((legsOf d).foldl (issueLeg port cls) s)

/-- A copy on its way can go on. -/
def transitGoes (s : State) (port cls : Nat) : Bool :=
  match (cq s port cls).head? with
  | none => false
  | some p => match transitCopy s p with
    | .to f _ => portGives s port && stopRoom s (nextStop port f) cls && isServed s port cls (nextStop port f)
    | _ => portGives s port

/-- A hub takes the head copy of a class from a port, checks it (R210) and passes it on to its output port. -/
def passHub (port cls : Nat) (s : State) : State :=
  match cq s port cls with
  | [] => s
  | p :: r =>
    let starved : Bool := decide (port < 784 ∧ cls < 3) && cq s port 3 != []
    let s := if starved then cnlBump (uLOCK (port - 768)) 4 s else s
    let y := if port < 800 then crossCheck (uHUB (takingHub port)) p (setCq s port cls r) else (p, setCq s port cls r)
    match transitCopy s y.1 with
    | .to f x => joinStop (nextStop port f) f x (servedPort port cls (nextStop port f) y.2)
    | .hopDrop => y.2
    | .linkDrop k => cnlBump (uCK k) 8 y.2

/-- PACKET_DISPATCH (R219, R221): one cycle of an input port. The lowest class whose head packet has a copy that can go issues
its copies; packets of other classes at the port pass one that waits. A packet leaves when its last copy has found space. -/
def packetDispatch (port : Nat) (s : State) : State :=
  if port < 52 then
    match (upto 4).find? (classGoes s port) with
    | none => s
    | some c => issueHead port c s
  else if 768 ≤ port ∧ port < 804 then
    match (upto 4).find? (transitGoes s port) with
    | none => s
    | some c => passHub port c s
  else s

/-! ### Configuration (R224, R236, R240, R241) -/

/-- CNL_DEV as read (Table 6-8). -/
def cnlDevWord (s : State) : Nat := devId s + b2n (isHead s) * 64 + b2n (devAssigned s) * 128

/-- CNL_LSTAT as read (Table 6-8). -/
def lstatWord (s : State) (k : Nat) : Nat :=
  let l := linkOf s k
  b2n l.up + l.lanes * 2 + l.peerDev * 8 + b2n l.peerAsg * 512

/-- The field rules of CNL_LINK (R240). -/
def checkCnlLink (s : State) (k : Nat) (ws : List Nat) : Nat :=
  let f := fldOf ws
  let on := rdB s (uCK k) CNL_LINK.ENABLE
  let same (g : Fld) : Bool := f g == rd s (uCK k) g
  let lim := f CNL_LINK.SHADOW_LIMIT_MIB
  firstFail [(f CNL_LINK.LANE_MODE ≤ 2, ST_UNSUPPORTED), (f CNL_LINK.ALT_LINK ≠ k, ST_UNSUPPORTED),
    (1 ≤ f CNL_LINK.REPLAY_MAX, ST_UNSUPPORTED),
    (1 ≤ lim ∧ lim ≤ (if f CNL_LINK.SHADOW_TGT = 0 then 8 else 512), ST_UNSUPPORTED),
    (¬ on ∨ (same CNL_LINK.LANE_MODE ∧ same CNL_LINK.SHADOW_TGT ∧ same CNL_LINK.SHADOW_LIMIT_MIB), ST_WRONG_STATE)]

/-- The field rules of CNL_JOB (R241). -/
def checkCnlJob (ws : List Nat) : Nat :=
  let w := fldOf ws CNL_JOB.WIN_US
  firstFail [(100 ≤ w ∧ w ≤ 5000, ST_UNSUPPORTED)]

/-- The field rules of CNL_UPQ (R224). -/
def checkUpq (ws : List Nat) : Nat :=
  let r := fldOf ws CNL_UPQ.CL0_RATE
  let b := fldOf ws CNL_UPQ.CL0_BURST
  firstFail [(1 ≤ r ∧ r ≤ 40, ST_UNSUPPORTED), (1 ≤ b ∧ b ≤ 8, ST_UNSUPPORTED)]

/-- The rules of a route entry (Table 6-2): a lock's own bit and NE in a link table must be 0. -/
def checkEnt (u w0 w1 : Nat) : Nat :=
  let f := fldOf [w0, w1]
  if utype u = 0x05 then firstFail [(¬ bit (f CNL_ENT.LOCKS) (uindex u), ST_UNSUPPORTED)]
  else firstFail [(f CNL_ENT.NE = 0, ST_UNSUPPORTED)]

def execPacketDispatch (port : Nat) (s : State) : Out := .next (packetDispatch port s)

end Sys2Proof.Machine
end

