-- ==== Sys2Proof/Machine/Conv.lean ====
section
/-! DEFINITION. Number formats of the feature arrays (Table 7-2) and the geometry of layers (file 08): samples, padding,
folding, grouping, ZRC blocks, weights. -/
namespace Sys2Proof.Machine

/-! ### Number formats (R255 to R257) -/

/-- Element width in bits of a format code. -/
def fmtBits (f : Nat) : Nat :=
  match f with
  | 0 | 7 => 4
  | 1 | 2 | 5 | 6 | 8 => 8
  | 3 | 9 | 10 => 16
  | 12 => 2
  | 13 => 1
  | _ => 32

/-- An integer as a value. -/
def fvInt (v : Int) : FV := .num (decide (v < 0)) v.natAbs 0

/-- The integer value of an exact integer operand. -/
def fvToInt : FV → Int
  | .num neg m e => if 0 ≤ e then signedM neg m * 2 ^ e.toNat else signedM neg m / (2 ^ (-e).toNat : Nat)
  | _ => 0

/-- The magnitudes of E2M1 elements in halves. -/
def e2m1 (m : Nat) : Nat := [0, 1, 2, 3, 4, 6, 8, 12].getD m 0

/-- The value of an encoding, block scales apart (Table 7-2). -/
def elemValue (f w : Nat) : FV :=
  match f with
  | 0 => fvInt (sx 4 w)
  | 1 => fvInt (sx 8 w)
  | 2 => fvInt (w % 256 : Nat)
  | 3 => fvInt (sx 16 w)
  | 4 => fvInt (sx 32 w)
  | 5 => fpDecode fmtE4m3 w
  | 6 => fpDecode fmtE5m2 w
  | 7 => .num (bit w 3) (e2m1 (w % 8)) (-1)
  | 8 => .num (decide (sx 8 w < 0)) (sx 8 w).natAbs (-6)
  | 9 => fpDecode fmt16 w
  | 10 => fpDecode fmtBf16 w
  | 11 => fpDecode fmt32 w
  | 12 => fvInt (if w % 4 = 2 then 0 else sx 2 w)
  | 13 => fvInt (w % 2 : Nat)
  | 14 => .num (decide (sx 24 w < 0)) (sx 24 w).natAbs (-23)
  | _ => fvInt 0

/-- A format with block scales. -/
def isMx (f : Nat) : Bool := f == 7 || f == 8

/-- An integer activation or weight format. -/
def isIntFmt (f : Nat) : Bool := f ≤ 4 || f == 12 || f == 13

/-- A value times the E8M0 scale of its block; 0xFF marks the block NaN (R256). -/
def mxScale (x : Nat) (v : FV) : FV := if x = 255 then .nan else fvMul v (.num false 1 ((x : Int) - 127))

/-- The logical grid of an operand pair, input channels then output channels (Table 7-1). -/
def pairGrid (wf : Nat) : Nat × Nat :=
  match wf with
  | 0 | 12 | 7 => (512, 256)
  | 9 | 10 => (128, 128)
  | 11 => (64, 64)
  | _ => (256, 256)

/-- The pair accumulates in FP32 (Table 7-1). -/
def pairFloat (wf : Nat) (mxw : Bool) : Bool := mxw || wf == 5 || wf == 6 || wf == 7 || wf == 8 || wf == 9 || wf == 10
  || wf == 11

/-- Table 7-1 lists the pair (R253). -/
def pairOk (wf af : Nat) (mxw : Bool) : Bool :=
  if mxw then wf == 0 && (af == 1 || af == 2)
  else match wf with
  | 0 | 12 => af == 0 || af == 1 || af == 2 || af == 13
  | 1 => af == 1 || af == 2 || af == 3 || af == 13
  | 5 | 6 => af == 5 || af == 6
  | 7 => af == 7
  | 8 => af == 8
  | 9 => af == 9
  | 10 => af == 10
  | 11 => af == 11
  | _ => false

/-! ### Descriptors and layers -/

/-- A field of an array's ARR_LAYER entry. -/
def lay (s : State) (n l : Nat) (f : Fld) : Nat := rd s (uFA n) f l

/-- What the engines read of a layer with the weight format and block scales of its passes. -/
structure Lay where
  inC : Nat
  outC : Nat
  inW : Nat
  inH : Nat
  kw : Nat
  kh : Nat
  sx : Nat
  sy : Nat
  dx : Nat
  dy : Nat
  trans : Bool
  fmt : Nat
  layout : Nat
  groups : Nat
  padL : Nat
  padR : Nat
  padT : Nat
  padB : Nat
  modeL : Nat
  modeR : Nat
  modeT : Nat
  modeB : Nat
  padC : Nat
  rowP : Nat
  planeP : Nat
  outRowP : Nat
  outPlaneP : Nat
  outW : Nat
  outH : Nat
  valid : Bool
deriving DecidableEq, Repr

/-- A layer from its eight transfer words (Table 8-2). -/
def layOf (ws : List Nat) : Lay :=
  let f := fldOf ws
  { inC := f ARR_LAYER.IN_C_M1 + 1, outC := f ARR_LAYER.OUT_C_M1 + 1, inW := f ARR_LAYER.IN_W_M1 + 1,
    inH := f ARR_LAYER.IN_H_M1 + 1, kw := f ARR_LAYER.KW_M1 + 1, kh := f ARR_LAYER.KH_M1 + 1,
    sx := f ARR_LAYER.STRIDE_X_M1 + 1, sy := f ARR_LAYER.STRIDE_Y_M1 + 1, dx := f ARR_LAYER.DIL_X_M1 + 1,
    dy := f ARR_LAYER.DIL_Y_M1 + 1, trans := f ARR_LAYER.TRANSPOSED == 1, fmt := f ARR_LAYER.IN_FMT,
    layout := f ARR_LAYER.IN_LAYOUT, groups := f ARR_LAYER.GROUPS_M1 + 1, padL := f ARR_LAYER.PAD_L,
    padR := f ARR_LAYER.PAD_R, padT := f ARR_LAYER.PAD_T, padB := f ARR_LAYER.PAD_B, modeL := f ARR_LAYER.MODE_L,
    modeR := f ARR_LAYER.MODE_R, modeT := f ARR_LAYER.MODE_T, modeB := f ARR_LAYER.MODE_B,
    padC := f ARR_LAYER.PAD_CONST, rowP := f ARR_LAYER.IN_ROW_PITCH, planeP := f ARR_LAYER.IN_PLANE_PITCH,
    outRowP := f ARR_LAYER.OUT_ROW_PITCH, outPlaneP := f ARR_LAYER.OUT_PLANE_PITCH, outW := f ARR_LAYER.OUT_W_M1 + 1,
    outH := f ARR_LAYER.OUT_H_M1 + 1, valid := f ARR_LAYER.VALID == 1 }

/-- Layer `l` of array `n`. -/
def layer (s : State) (n l : Nat) : Lay := layOf (entryWords s (uFA n) 0x0602 l 8)

/-- The size of U on an axis, and the stride of the convolution over it (R289, R293). -/
def nU (trans : Bool) (n st : Nat) : Nat := if trans then (n - 1) * st + 1 else n
def sC (trans : Bool) (st : Nat) : Nat := if trans then 1 else st

/-- The output size of an axis (R289): none where GRAPH_LOAD rejects the layer. -/
def outSize (trans : Bool) (n st k d lo hi : Nat) : Option Nat :=
  let num : Int := (nU trans n st : Int) + lo + hi - d * (k - 1 : Nat) - 1
  if num < 0 then none else
  let out := num.toNat / sC trans st + 1
  if 4096 < out then none else some out

/-- Output width and height of a layer. -/
def outSizes (l : Lay) : Option (Nat × Nat) :=
  match outSize l.trans l.inW l.sx l.kw l.dx l.padL l.padR, outSize l.trans l.inH l.sy l.kh l.dy l.padT l.padB with
  | some w, some h => some (w, h)
  | _, _ => none

/-! ### Channel blocks (R292) -/

def Lay.ig (l : Lay) : Nat := l.inC / l.groups
def Lay.og (l : Lay) : Nat := l.outC / l.groups

/-- Groups are packed into one weight set. -/
def Lay.packed (l : Lay) (p q : Nat) : Bool := l.ig ≤ p && l.og ≤ q

/-- Groups of a pack. -/
def Lay.gp (l : Lay) (p q : Nat) : Nat := max 1 (min (min (p / max 1 l.ig) (q / max 1 l.og)) l.groups)

/-- Blocks of an axis of `n` channels of a group, `p` of them in a block. -/
def blocksOf (n p : Nat) : Nat := (n + p - 1) / max 1 p

/-- How many input blocks and output blocks a layer has. -/
def Lay.inBlocks (l : Lay) (p q : Nat) : Nat :=
  if l.packed p q then blocksOf l.groups (l.gp p q) else l.groups * blocksOf l.ig p
def Lay.outBlocks (l : Lay) (p q : Nat) : Nat :=
  if l.packed p q then blocksOf l.groups (l.gp p q) else l.groups * blocksOf l.og q

/-- A pass may join CB and OB. -/
def Lay.sameGroup (l : Lay) (p q cb ob : Nat) : Bool :=
  if l.packed p q then cb == ob else cb / max 1 (blocksOf l.ig p) == ob / max 1 (blocksOf l.og q)

/-- The channels `[a, b)` of a block of `size` channels per group: input blocks with (I_g, P), output blocks with (O_g, Q). -/
def blockRange (l : Lay) (p q per lim blk : Nat) : Nat × Nat :=
  if l.packed p q then
    let g := l.gp p q
    (min (blk * g) l.groups * per, min ((blk + 1) * g) l.groups * per)
  else
    let nb := max 1 (blocksOf per lim)
    let g := blk / nb
    let i := blk % nb
    (g * per + i * lim, g * per + min per ((i + 1) * lim))

def inRange (l : Lay) (p q cb : Nat) : Nat × Nat := blockRange l p q l.ig p cb
def outRange (l : Lay) (p q ob : Nat) : Nat × Nat := blockRange l p q l.og q ob

/-! ### ZRC blocks (R300 to R305) -/

/-- Element size in bytes, and slot size (Table 8-6); 0 for a format that ZRC does not hold. -/
def zrcElem (f : Nat) : Nat :=
  match f with | 1 | 2 | 5 | 6 => 1 | 3 | 9 | 10 => 2 | 4 | 11 => 4 | _ => 0
def zrcSlot (f : Nat) : Nat := match zrcElem f with | 1 => 320 | 2 => 576 | 4 => 1088 | _ => 0

/-- Where a block starts. -/
def zrcAddr (f base w h c ty tx : Nat) : Nat := base + ((c * ((h + 15) / 16) + ty) * ((w + 15) / 16) + tx) * zrcSlot f

/-- The fill encoding of a block's header in a format (R302): INT32 sign-extends the field. -/
def zrcFill (f fill : Nat) : Nat := if f = 4 then lowBits 32 (sx 16 fill) else fill % 2 ^ (8 * zrcElem f)

/-- One group from an address: its elements with poison, whether its mask is wrong, and its length. -/
def zrcGroup (s : State) (f fill cols a : Nat) : List (Nat × Bool) × Bool × Nat :=
  let e := zrcElem f
  let mask := ramNat s a 2
  let n := popCount 16 mask
  let len := 2 + (n * e + 1) / 2 * 2
  let bad := ramBad s a len
  let elems := (upto 16).map (fun i =>
    if bit mask i then (ramNat s (a + 2 + popCount i mask * e) e, bad) else (fill, bad))
  (elems, decide (2 ^ cols ≤ mask), len)

/-- The groups of a block from an address. -/
def zrcGroups (s : State) (f fill cols : Nat) : Nat → Nat → List (List (Nat × Bool)) × Bool × Nat
  | 0, _ => ([], false, 0)
  | r + 1, a =>
    let (g, bad, len) := zrcGroup s f fill cols a
    let (gs, bad', len') := zrcGroups s f fill cols r (a + len)
    (g :: gs, bad || bad', len + len')

/-- A block expanded (R305): rows of encodings with poison, and whether it counts as ZRC_BAD. -/
def zrcBlock (s : State) (f base w h c ty tx : Nat) : List (List (Nat × Bool)) × Bool :=
  let a := zrcAddr f base w h c ty tx
  let head := ramNat s a 4
  let r := min 16 (h - 16 * ty)
  let cols := min 16 (w - 16 * tx)
  let (gs, maskBad, len) := zrcGroups s f (zrcFill f (bits head 10 16)) cols r (a + 4)
  let wrong : Bool := maskBad || len != 2 * bits head 0 10
  let all : Bool := wrong || ramBad s a 4
  (gs.map (fun g => g.map (fun e => (e.1, e.2 || all))), wrong)

/-! ### Samples and padding (R290 to R296) -/

/-- What a coordinate folds to on an axis. -/
inductive Fold
  | sample (i : Nat)
  | inserted
  | zero
  | const
deriving DecidableEq, Repr

/-- A coordinate of U as a sample of the input. -/
def uSample (trans : Bool) (st i : Nat) : Fold :=
  if trans then (if i % st = 0 then .sample (i / st) else .inserted) else .sample i

/-- fold of R295 on an axis of `n` samples of U. -/
def foldAxis (trans : Bool) (st n : Nat) (lo hi : Nat) (i : Int) : Fold :=
  if 0 ≤ i ∧ i < n then uSample trans st i.toNat
  else
    match (if i < 0 then lo else hi) with
    | 0 => .zero
    | 1 => .const
    | 2 =>
      if n = 1 then uSample trans st 0
      else
        let p : Nat := 2 * (n - 1)
        let m := (i % (p : Int)).toNat
        uSample trans st (if m < n then m else p - m)
    | _ => uSample trans st (if i < 0 then 0 else n - 1)

/-- An element of a packed or whole-byte row: encoding, address of its first byte, bytes it lies in. -/
def rowElem (s : State) (f row i : Nat) : Nat × Bool :=
  let b := fmtBits f
  if 8 ≤ b then (ramNat s (row + i * (b / 8)) (b / 8), ramBad s (row + i * (b / 8)) (b / 8))
  else
    let k := 8 / b
    (bits (ramNat s (row + i / k) 1) (b * (i % k)) b, ramBad s (row + i / k) 1)

/-- The encoding of input sample (c, y, x) with its poison, by layout (Table 8-1). -/
def rawSample (s : State) (l : Lay) (base c y x : Nat) : Nat × Bool :=
  match l.layout with
  | 0 => rowElem s l.fmt (base + c * l.planeP + y * l.rowP) x
  | 1 => rowElem s l.fmt (base + y * l.rowP) (x * l.inC + c)
  | _ =>
    let (rows, _) := zrcBlock s l.fmt base l.inW l.inH c (y / 16) (x / 16)
    (rows.getD (y % 16) []).getD (x % 16) (0, false)

/-- A sample as an operand: the value with the scale of its block (R256). -/
def inputVal (s : State) (l : Lay) (base sbase c y x : Nat) : Val :=
  let (w, bad) := rawSample s l base c y x
  if isMx l.fmt then
    let a := sbase + ((c / 32) * l.inH + y) * l.inW + x
    ⟨mxScale (ramNat s a 1) (elemValue l.fmt w), bad || ramBad s a 1⟩
  else ⟨elemValue l.fmt w, bad⟩

/-- PAD_CONST (Table 8-4). -/
def padVal (l : Lay) : Val :=
  if isMx l.fmt then ⟨mxScale (bits l.padC 8 8) (elemValue l.fmt (l.padC % 256)), false⟩
  else ⟨elemValue l.fmt l.padC, false⟩

/-- The folds of a tap of an output position (R290). -/
def tapFolds (l : Lay) (ky kx oy ox : Nat) : Fold × Fold :=
  let iy : Int := (oy * sC l.trans l.sy : Nat) - (l.padT : Int) + (ky * l.dy : Nat)
  let ix : Int := (ox * sC l.trans l.sx : Nat) - (l.padL : Int) + (kx * l.dx : Nat)
  (foldAxis l.trans l.sy (nU l.trans l.inH l.sy) l.modeT l.modeB iy,
    foldAxis l.trans l.sx (nU l.trans l.inW l.sx) l.modeL l.modeR ix)

/-- The value of a tap for a channel from its two folds (R296). -/
def foldVal (s : State) (l : Lay) (base sbase c : Nat) : Fold × Fold → Val
  | (.sample y, .sample x) => inputVal s l base sbase c y x
  | (.zero, .const) => padVal l
  | (.const, .zero) => padVal l
  | (.const, _) => padVal l
  | (_, .const) => padVal l
  | _ => {}

/-- The input vector of an output position: 0 at and beyond the output's edge, without a read (R291). -/
def inputVec (s : State) (l : Lay) (base sbase ca cb ky kx oy ox : Nat) : List Val :=
  if l.outH ≤ oy ∨ l.outW ≤ ox then List.replicate (cb - ca) {}
  else
    let f := tapFolds l ky kx oy ox
    (upto (cb - ca)).map (fun i => foldVal s l base sbase (ca + i) f)

/-- The 256 input vectors of a tile, row by row (R252). -/
def gatherVecs (s : State) (l : Lay) (base sbase ca cb ky kx ty tx : Nat) : List (List Val) :=
  (upto 256).map (fun i => inputVec s l base sbase ca cb ky kx (16 * ty + i / 16) (16 * tx + i % 16))

/-- The ZRC blocks a tile reads, and how many of them are inconsistent (R305). -/
def zrcBadBlocks (s : State) (l : Lay) (base ca cb ky kx ty tx : Nat) : Nat :=
  if l.layout ≠ 2 then 0 else
  let blocks := ((upto 256).filterMap (fun i =>
    let oy := 16 * ty + i / 16
    let ox := 16 * tx + i % 16
    if l.outH ≤ oy ∨ l.outW ≤ ox then none else
    match tapFolds l ky kx oy ox with
    | (.sample y, .sample x) => some (y / 16, x / 16)
    | _ => none)).eraseDups
  ((upto (cb - ca)).flatMap (fun i => blocks.filter (fun b => (zrcBlock s l.fmt base l.inW l.inH (ca + i) b.1 b.2).2))).length

/-! ### Weights (R285, R286, R292) -/

/-- Bytes of one run of I_g weights: every run starts on a byte boundary. -/
def runBytes (wf ig : Nat) : Nat := (ig * fmtBits wf + 7) / 8

/-- The weight of output channel `o` for input channel `i` of its group, with the scale of its block. -/
def weightVal (s : State) (l : Lay) (wf : Nat) (scaled : Bool) (base sbase ky kx o i : Nat) : Val :=
  let row := base + ((ky * l.kw + kx) * l.outC + o) * runBytes wf l.ig
  let (w, bad) := rowElem s wf row i
  if scaled then
    let a := sbase + ((o * ((l.ig + 31) / 32) + i / 32) * l.kh + ky) * l.kw + kx
    ⟨mxScale (ramNat s a 1) (elemValue wf w), bad || ramBad s a 1⟩
  else ⟨elemValue wf w, bad⟩

/-- A weight set: weights of output channels `[oa, ob)` for input channels `[ca, cb)`, 0 across groups. -/
def gatherWeights (s : State) (l : Lay) (wf : Nat) (scaled : Bool) (base sbase ky kx ca cb oa ob : Nat) : List (List Val) :=
  (upto (ob - oa)).map (fun j =>
    let o := oa + j
    (upto (cb - ca)).map (fun i =>
      let c := ca + i
      if c / max 1 l.ig = o / max 1 l.og then weightVal s l wf scaled base sbase ky kx o (c % max 1 l.ig) else {}))

/-- TERN2 codes 0b10 of a weight set (R254). -/
def ternBad (s : State) (l : Lay) (wf base ky kx ca cb oa ob : Nat) : Nat :=
  if wf ≠ 12 then 0 else
  (((upto (ob - oa)).flatMap (fun j =>
    let o := oa + j
    (upto (cb - ca)).filter (fun i =>
      decide ((ca + i) / max 1 l.ig = o / max 1 l.og)
        && (rowElem s wf (base + ((ky * l.kw + kx) * l.outC + o) * runBytes wf l.ig) ((ca + i) % max 1 l.ig)).1 == 2)))).length

end Sys2Proof.Machine
end

