-- ==== Sys2Proof/Machine/Arrays.lean ====
section
/-! DEFINITION. Feature arrays (file 07): triggers and instances, the load, compute and store engines, requantisation,
approximation modes, poison. -/
namespace Sys2Proof.Machine

/-- ARR_CNT (Table 7-12). -/
def faBump (n w : Nat) (s : State) : State := bump (uFA n) 0x060F w s
def faBumpN (k n w : Nat) (s : State) : State := bumpN k (uFA n) 0x060F w s

/-- An array. -/
def faOf (s : State) (n : Nat) : Fa := tget {} s.fa n

/-- Changing it. -/
def setFa (s : State) (n : Nat) (v : Fa) : State := { s with fa := tset {} s.fa n v }

/-- The job of an array. -/
def faJob (s : State) (n : Nat) : Nat := (unitOf s (uFA n)).job

/-- The array takes triggers: ready, assigned to a job that takes input, outside SAFE. One that reaches a stopped island waits
there until the island restarts (R32, R624). -/
def faHears (s : State) (n : Nat) : Bool :=
  readyBit s (RB_FA + n) && s.dev.state != .safe && (unitOf s (uFA n)).st == .assigned && jobTakes s (faJob s n)
    && !(unitOf s (uFA n)).resetting

/-- The array works: it takes triggers and its island has its clock. -/
def faTakes (s : State) (n : Nat) : Bool := faHears s n && islandRuns s (uFA n)

/-- A field of an ARR_PROG entry. -/
def prF (s : State) (n p : Nat) (f : Fld) : Nat := rd s (uFA n) f p

/-! ### Buffers and triggers (R269, R270, R277) -/

/-- A tensor builder entry. -/
def tenOf (s : State) (k e : Nat) : TenEnt := tget {} s.ten (k * 8 + e)

/-- Changing it. -/
def setTen (s : State) (k e : Nat) (v : TenEnt) : State := { s with ten := tset {} s.ten (k * 8 + e) v }

/-- A buffer handed to an instance of array `n` is returned: a voxel buffer is cleared next, a frame or grid buffer has one
user less. -/
def freeBuf (n : Nat) (b : ArrBuf) (s : State) : State :=
  match b with
  | .none => s
  | .ten e i => setTen s n e { tenOf s n e with bufs := tset 0 (tenOf s n e).bufs i 3 }
  | .frame k i =>
    let v := sluOf s k
    setSlu s k { v with bufs := tmod {} v.bufs i (fun x => { x with holds := x.holds - 1 }) }
  | .grid i => { s with fus := { s.fus with bufHold := tmod 0 s.fus.bufHold i (· - 1) } }

/-- A buffer gains a user. -/
def holdBuf (n : Nat) (b : ArrBuf) (s : State) : State :=
  match b with
  | .none => s
  | .ten e i => setTen s n e { tenOf s n e with bufs := tset 0 (tenOf s n e).bufs i 2 }
  | .frame k i =>
    let v := sluOf s k
    setSlu s k { v with bufs := tmod {} v.bufs i (fun x => { x with holds := x.holds + 1, taken := true }) }
  | .grid i => { s with fus := { s.fus with bufHold := tmod 0 s.fus.bufHold i (· + 1) } }

/-- An instance of a programme is pending. -/
def arrPending (s : State) (n p : Nat) : Bool := (faOf s n).queue.any (fun x => x.prog == p)

/-- An instance of a programme is running or pending. -/
def arrBusy (s : State) (n p : Nat) : Bool := arrPending s n p || (faOf s n).run.any (fun x => x.prog == p)

/-- A trigger of array `n` (R270): an instance joins the queue with its buffer, or the trigger is dropped and counted and
the buffer is returned. The buffer counts as held from the trigger on. -/
def arrTrigger (n : Nat) (x : ArrPend) (s : State) : State :=
  let v := faOf s n
  if arrPending s n x.prog then
    faBump n 8 (setFa s n { v with dropped := tmod 0 v.dropped x.prog (fun d => satU 16 (d + 1)) })
  else holdBuf n x.buf (setFa s n { v with queue := v.queue ++ [x] })

/-- ARR_RUN_WRITE (R373): the doorbell of the application complex. -/
def arrRunWrite (n p job : Nat) (s : State) : State :=
  if prF s n p ARR_PROG.VALID = 1 ∧ prF s n p ARR_PROG.TRIGGER = 0 ∧ faJob s n = job ∧ p < 16 then
    arrTrigger n { prog := p, buf := .none, base := 0, tov := 0, from_ := now s } s
  else bump uDEV 0x0C0F 3 s

/-- The array waits for a snapshot copy of the programme's map (R312). -/
def copyHeld (s : State) (n p : Nat) : Bool :=
  (upto 32).any (fun k => rd s uFUS FUS_SRC.VALID k == 1 && rd s uFUS FUS_SRC.KIND k == 0
    && rd s uFUS FUS_SRC.CLUSTER k == n && rd s uFUS FUS_SRC.PROG k == p && (tget {} s.fus.srcs k).fill.isSome)

/-- COPY_HOLD counts the held instance once, under every source it waits for. -/
def countHold (n p : Nat) (s : State) : State :=
  (upto 32).foldl (fun s k =>
    if rd s uFUS FUS_SRC.VALID k = 1 ∧ rd s uFUS FUS_SRC.KIND k = 0 ∧ rd s uFUS FUS_SRC.CLUSTER k = n
        ∧ rd s uFUS FUS_SRC.PROG k = p ∧ (tget {} s.fus.srcs k).fill.isSome then bump uFUS 0x070F 15 s k else s) s

/-- INSTANCE_START (R270): the next queued instance; its semaphores are zero (R268). -/
def instanceStart (n : Nat) (s : State) : State :=
  let v := faOf s n
  match v.run, v.queue with
  | none, x :: rest =>
    if ¬ faTakes s n then s
    else if copyHeld s n x.prog then
      if x.counted then s else countHold n x.prog (setFa s n { v with queue := { x with counted := true } :: rest })
    else
      let k := (tget 0 v.started x.prog + 1) % 2 ^ 32
      setFa s n { v with
        queue := rest, started := tset 0 v.started x.prog k, sems := [], tiles := [], wsets := [], ready := [],
        run := some { prog := x.prog, num := k, start := now s, pend := x, words := entryWords s (uFA n) 0x0601 x.prog 4 } }
  | _, _ => s

/-! ### Descriptors and semaphores (R264 to R268) -/

/-- A field of the running instance's ARR_PROG. -/
def runF (r : ArrInst) (f : Fld) : Nat := fldOf r.words f

/-- Descriptor `i` of a list. -/
def descAt (s : State) (list i : Nat) : List Nat := ramWords s (list + 32 * i) 4

/-- An address, with the base of the handed-over buffer when REL is set (Table 7-5). -/
def relAddr (r : ArrInst) (addr rel : Nat) : Nat := if rel = 1 then r.pend.base + addr else addr

/-- A wait that a descriptor names is not satisfied (R268). -/
def semBlocked (v : Fa) (en sem : Nat) : Bool := en == 1 && tget 0 v.sems sem == 0

/-- Starting a descriptor decrements its semaphore. -/
def semTake (v : Fa) (en sem : Nat) : Fa := if en = 1 then { v with sems := tmod 0 v.sems sem (· - 1) } else v

/-- Completing a descriptor signals its semaphore; 255 stays and counts SEM_OVF. -/
def semSignal (n en sem : Nat) (s : State) : State :=
  let v := faOf s n
  if en ≠ 1 then s
  else if 255 ≤ tget 0 v.sems sem then faBump n 9 s
  else setFa s n { v with sems := tmod 0 v.sems sem (· + 1) }

/-- A compute descriptor of the running instance. -/
def cmpAt (s : State) (r : ArrInst) (i : Nat) : List Nat := descAt s (runF r ARR_PROG.CMP_LIST) i

/-- The first compute descriptor that names a layer. -/
def firstPass (s : State) (r : ArrInst) (l : Nat) : Option Nat :=
  (upto (runF r ARR_PROG.CMP_COUNT)).find? (fun i => fldOf (cmpAt s r i) ARR_CMP.LAYER == l)

/-- W_FMT and MXW of the passes of a layer: those of the first ARR_CMP that names it (R260, R272: one layer, one pair). -/
def layerPair (s : State) (r : ArrInst) (l : Nat) : Nat × Bool :=
  ((firstPass s r l).map (fun i => (fldOf (cmpAt s r i) ARR_CMP.W_FMT, fldOf (cmpAt s r i) ARR_CMP.MXW == 1))).getD (1, false)

/-- The running instance changed. -/
def setRun (n : Nat) (f : ArrInst → ArrInst) (s : State) : State :=
  let v := faOf s n
  setFa s n { v with run := v.run.map f }

/-! ### Load engine (R254, R265, R284 to R299) -/

/-- The load descriptor in hand completes. -/
def loadDone (n : Nat) (d : List Nat) (s : State) : State :=
  semSignal n (fldOf d ARR_LD.SIGNAL_EN) (fldOf d ARR_LD.SIGNAL_SEM)
    (setRun n (fun r => { r with ld := r.ld + 1, ldTile := 0, ldOn := false }) s)

/-- One tile of an INPUT descriptor, when a tile slot is free (Table 7-4). -/
def loadTile (n : Nat) (r : ArrInst) (d : List Nat) (s : State) : State :=
  let v := faOf s n
  if 9 ≤ v.tiles.length then s else
  let f := fldOf d
  let lx := f ARR_LD.LAYER
  let l := layer s n lx
  let g := pairGrid (layerPair s r lx).1
  let tw := f ARR_LD.TILES_X_M1 + 1
  let ty := f ARR_LD.TILE_Y0 + r.ldTile / tw
  let tx := f ARR_LD.TILE_X0 + r.ldTile % tw
  let c := inRange l g.1 g.2 (f ARR_LD.CB)
  let base := relAddr r (f ARR_LD.ADDR) (f ARR_LD.REL)
  let sbase := relAddr r (f ARR_LD.SCALE_ADDR) (f ARR_LD.SCALE_REL)
  let ky := bits (f ARR_LD.TAP) 4 4
  let kx := bits (f ARR_LD.TAP) 0 4
  let t : Tile := ⟨lx, ty, tx, gatherVecs s l base sbase c.1 c.2 ky kx ty tx⟩
  let s := faBumpN (zrcBadBlocks s l base c.1 c.2 ky kx ty tx) n 15 s
  let s := setFa s n { faOf s n with tiles := v.tiles ++ [t] }
  if r.ldTile + 1 = tw * (f ARR_LD.TILES_Y_M1 + 1) then loadDone n d s
  else setRun n (fun r => { r with ldTile := r.ldTile + 1 }) s

/-- A WEIGHTS descriptor, when the shadow set is free. -/
def loadWeights (n : Nat) (r : ArrInst) (d : List Nat) (s : State) : State :=
  let v := faOf s n
  if 2 ≤ v.wsets.length then s else
  let f := fldOf d
  let lx := f ARR_LD.LAYER
  let l := layer s n lx
  let w := layerPair s r lx
  let g := pairGrid w.1
  let c := inRange l g.1 g.2 (f ARR_LD.CB)
  let o := outRange l g.1 g.2 (f ARR_LD.OB)
  let base := relAddr r (f ARR_LD.ADDR) (f ARR_LD.REL)
  let sbase := relAddr r (f ARR_LD.SCALE_ADDR) (f ARR_LD.SCALE_REL)
  let ky := bits (f ARR_LD.TAP) 4 4
  let kx := bits (f ARR_LD.TAP) 0 4
  let set : WSet := ⟨gatherWeights s l w.1 (w.2 || isMx w.1) base sbase ky kx c.1 c.2 o.1 o.2⟩
  let s := faBumpN (ternBad s l w.1 base ky kx c.1 c.2 o.1 o.2) n 10 s
  loadDone n d (setFa s n { faOf s n with wsets := v.wsets ++ [set] })

/-- A REQUANT descriptor: the ARR_RQ entries of the output channels of block OB. -/
def loadRequant (n : Nat) (r : ArrInst) (d : List Nat) (s : State) : State :=
  let f := fldOf d
  let lx := f ARR_LD.LAYER
  let l := layer s n lx
  let g := pairGrid (layerPair s r lx).1
  let o := outRange l g.1 g.2 (f ARR_LD.OB)
  let base := relAddr r (f ARR_LD.ADDR) (f ARR_LD.REL)
  let rq := (upto (o.2 - o.1)).map (fun i =>
    (⟨ramWords s (base + 32 * (o.1 + i)) 3, ramBad s (base + 32 * (o.1 + i)) 20⟩ : RqEnt))
  loadDone n d (setFa s n { faOf s n with rq := rq })

/-- LOAD_DESCRIPTOR (R264, R265, R268): the load engine advances by one tile, weight set or table, or waits. -/
def loadDescriptor (n : Nat) (s : State) : State :=
  if ¬ faTakes s n then s else
  match (faOf s n).run with
  | none => s
  | some r =>
    if runF r ARR_PROG.LD_COUNT ≤ r.ld then s else
    let d := descAt s (runF r ARR_PROG.LD_LIST) r.ld
    let f := fldOf d
    if ¬ r.ldOn ∧ semBlocked (faOf s n) (f ARR_LD.WAIT_EN) (f ARR_LD.WAIT_SEM) then s else
    let s := if r.ldOn then s else
      setRun n (fun r => { r with ldOn := true })
        (setFa s n (semTake (faOf s n) (f ARR_LD.WAIT_EN) (f ARR_LD.WAIT_SEM)))
    match f ARR_LD.KIND with
    | 0 => loadTile n r d s
    | 1 => loadWeights n r d s
    | 2 => loadRequant n r d s
    | _ => loadDone n d s

/-! ### Compute engine (R252, R258, R259, R266, R271 to R273) -/

/-- A finite value's magnitude is zero; a NaN or an infinity. -/
def fvZero : FV → Bool | .num _ m _ => m == 0 | _ => false
def fvFinite : FV → Bool | .num _ _ _ => true | _ => false

/-- Magnitude. -/
def fvAbs : FV → FV | .num _ m e => .num false m e | .inf _ => .inf false | .nan => .nan

/-- What APPROX does with a tile in a pass. -/
inductive Skip
  | no | zero | small
deriving DecidableEq, Repr

/-- The skip test (R272, R273): `thr` is the threshold as a value. -/
def tileSkip (approx : Nat) (thr : FV) (t : Tile) (w : WSet) : Skip :=
  let vs := t.vecs.flatten
  if approx ≠ 1 ∧ approx ≠ 2 then .no
  else if vs.any (fun x => x.bad || !fvFinite x.v) ∨ w.rows.any (fun r => r.any (fun x => !fvFinite x.v)) then .no
  else if approx = 1 then (if vs.all (fun x => fvZero x.v) then .zero else .no)
  else if vs.all (fun x => fvLt (fvAbs x.v) thr) then (if vs.all (fun x => fvZero x.v) then .zero else .small)
  else .no

/-- SKIP_THRESH as a value (R273). -/
def skipThresh (af th : Nat) : FV := if isIntFmt af then fvInt (th : Nat) else fpDecode fmt32 th

/-- The exact sum of the products of a column (R252): FP32 operands have each product rounded first (R259). -/
def dotFloat (f32ops : Bool) (ws vs : List Val) : FV :=
  (ws.zip vs).foldl (fun a e =>
    let p := fvMul e.1.v e.2.v
    fvAdd a (if f32ops then f32v (f32 p) else p)) (.num false 0 0)

/-- The exact integer sum. -/
def dotInt (ws vs : List Val) : Int := (ws.zip vs).foldl (fun a e => a + fvToInt e.1.v * fvToInt e.2.v) 0

/-- One column's accumulator after an input vector (R258, R259, R274). -/
def accStep (fp f32ops : Bool) (o : Acc) (ws vs : List Val) : Acc :=
  ⟨if fp then (fadd o.v.toNat (f32 (dotFloat f32ops ws vs)) : Nat) else o.v + dotInt ws vs,
    o.bad || ws.any (·.bad) || vs.any (·.bad)⟩

/-- A tile streamed through the cells. -/
def accTile (fp f32ops : Bool) (w : WSet) (t : Tile) (a : AccTile) : AccTile :=
  { a with acc := (t.vecs.zipIdx).map (fun e =>
      (w.rows.zipIdx).map (fun r => accStep fp f32ops ((a.acc.getD e.2 []).getD r.2 {}) r.1 e.1)) }

/-- The accumulators of a tile at the start of a pass: zero with FIRST, else as the half holds them. -/
def accBefore (first fp : Bool) (half : List AccTile) (i : Nat) (t : Tile) : AccTile :=
  match half[i]? with
  | some a => if first then ⟨t.ty, t.tx, fp, []⟩ else a
  | none => ⟨t.ty, t.tx, fp, []⟩

/-- A half after a pass over some tiles with their skip decisions. -/
def passHalf (first fp f32ops : Bool) (w : WSet) (half : List AccTile) (ts : List (Tile × Skip)) : List AccTile :=
  (ts.zipIdx).map (fun e =>
    let a := accBefore first fp half e.2 e.1.1
    if e.1.2 = .no then accTile fp f32ops w e.1.1 a else a) ++ (if first then [] else half.drop ts.length)

/-- An accumulator half. -/
def halfOf (v : Fa) (i : Nat) : List AccTile := if i = 0 then v.half0 else v.half1
def setHalf (v : Fa) (i : Nat) (h : List AccTile) : Fa := if i = 0 then { v with half0 := h } else { v with half1 := h }

/-- COMPUTE_PASS (R266, R271): one pass, or a stall that is counted under its cause, one for each refused attempt. -/
def computePass (n : Nat) (s : State) : State :=
  if ¬ faTakes s n then s else
  let v := faOf s n
  match v.run with
  | none => s
  | some r =>
    if runF r ARR_PROG.CMP_COUNT ≤ r.cp then s else
    let d := descAt s (runF r ARR_PROG.CMP_LIST) r.cp
    let f := fldOf d
    let k := f ARR_CMP.TILES_M1 + 1
    if semBlocked v (f ARR_CMP.WAIT_EN) (f ARR_CMP.WAIT_SEM) then faBump n 14 s else
    match v.wsets with
    | [] => faBump n 12 s
    | w :: ws =>
      if v.tiles.length < k then faBump n 11 s
      else if v.ready.contains v.cur then faBump n 13 s
      else
        let wf := f ARR_CMP.W_FMT
        let fp := pairFloat wf (f ARR_CMP.MXW == 1)
        let thr := skipThresh (f ARR_CMP.A_FMT) (f ARR_CMP.SKIP_THRESH)
        let ts := (v.tiles.take k).map (fun t => (t, tileSkip (f ARR_CMP.APPROX) thr t w))
        let h := passHalf (f ARR_CMP.FIRST == 1) fp (wf == 11) w (halfOf v v.cur) ts
        let last := f ARR_CMP.LAST == 1
        let v := semTake v (f ARR_CMP.WAIT_EN) (f ARR_CMP.WAIT_SEM)
        let v := setHalf { v with wsets := ws, tiles := v.tiles.drop k } v.cur h
        let v := if last then { v with ready := v.ready ++ [v.cur], cur := 1 - v.cur } else v
        let cnt (x : Skip) : Nat := (ts.filter (fun e => e.2 == x)).length
        let s := setRun n (fun r => { r with cp := r.cp + 1 }) (setFa s n v)
        let s := faBumpN (cnt .small) n 3 (faBumpN (cnt .zero) n 2 (faBumpN (cnt .no) n 1 (faBump n 0 s)))
        semSignal n (f ARR_CMP.SIGNAL_EN) (f ARR_CMP.SIGNAL_SEM) s

/-! ### Requantisation (R257, R261, R262) -/

/-- An output element: encoding, poison, what was clipped, NaN. -/
structure OutEl where
  w : Nat
  bad : Bool := false
  accSat : Bool := false
  outSat : Bool := false
  isNan : Bool := false
deriving DecidableEq, Repr

/-- The range of an integer output format; Q24 is taken as its 24-bit integer. -/
def intRange (f : Nat) : Int × Int :=
  match f with
  | 0 => (-8, 7)
  | 1 => (-128, 127)
  | 2 => (0, 255)
  | 3 => (-32768, 32767)
  | 12 => (-1, 1)
  | 13 => (0, 1)
  | 14 => (-8388608, 8388607)
  | _ => (-2147483648, 2147483647)

/-- sat_out (R262). -/
def satOut (f : Nat) (r : Int) : Int × Bool :=
  let (lo, hi) := intRange f
  if r < lo then (lo, true) else if hi < r then (hi, true) else (r, false)

/-- The integer path applies (R261). -/
def intPath (fp : Bool) (f : Nat) : Bool := !fp && f ≤ 4

/-- Fields of an ARR_RQ entry. -/
def rqF (e : RqEnt) (f : Fld) : Nat := fldOf e.words f

/-- RELU and CLAMP on integers. -/
def intAct (act : Nat) (zp lo hi r : Int) : Int :=
  if act = 1 then max r zp else if act = 2 then min (max r lo) hi else r

/-- The integer path. -/
def rqInt (e : RqEnt) (act f : Nat) (a : Acc) : OutEl :=
  let x := a.v + sx 32 (rqF e ARR_RQ.BIAS)
  let v := satS 32 x
  let r := rshRne (v * sx 32 (rqF e ARR_RQ.SCALE)) (rqF e ARR_RQ.SHIFT)
  let zp := sx 16 (rqF e ARR_RQ.ZERO_POINT)
  let r := intAct act zp (sx 32 (rqF e ARR_RQ.CLAMP_LO)) (sx 32 (rqF e ARR_RQ.CLAMP_HI)) (r + zp)
  let (o, sat) := satOut f r
  { w := lowBits (fmtBits f) o, bad := a.bad || e.bad, accSat := v != x, outSat := sat }

/-- RELU and CLAMP on FP32: a NaN stays. -/
def fltAct (act lo hi x : Nat) : Nat :=
  if act = 1 then (if flt x f0 ∨ f32v x = .num true 0 (-149) then f0 else x)
  else if act = 2 then
    let y := if flt x lo then lo else x
    if flt hi y then hi else y
  else x

/-- An FP32 value as the nearest integer, ties to even: a NaN as 0, an infinity beyond every output range. -/
def fltInt (v : FV) : Int :=
  match v with
  | .nan => 0
  | .inf neg => if neg then -(2 ^ 40) else 2 ^ 40
  | .num _ _ _ => (fvRne v).getD 0

/-- RELU and CLAMP on the integer outputs of the float path, as on the integer path (R262): after the zero point; the FP32 bounds
of CLAMP are rounded where they apply. -/
def fltIntAct (act : Nat) (zp : Int) (lo hi : Nat) (r : Int) : Int :=
  if act = 1 then max r zp
  else if act = 2 then
    let r := if fvLt (fvInt r) (f32v lo) then fltInt (f32v lo) else r
    if fvLt (f32v hi) (fvInt r) then fltInt (f32v hi) else r
  else r

/-- The FP32 value of the float path before RELU and CLAMP, and whether the accumulator was clipped. BIAS is an integer where the
accumulator is (Table 7-3). -/
def rqScaled (e : RqEnt) (fp : Bool) (a : Acc) : Nat × Bool :=
  let (x, sat) : Nat × Bool := if fp then (a.v.toNat, false) else (fint (satS 32 a.v), satS 32 a.v != a.v)
  let bias := if fp then rqF e ARR_RQ.BIAS else fint (sx 32 (rqF e ARR_RQ.BIAS))
  (fmul (fadd x bias) (rqF e ARR_RQ.SCALE), sat)

/-- The FP32 value of a float output before conversion. -/
def rqValue (e : RqEnt) (act : Nat) (fp : Bool) (a : Acc) : Nat × Bool :=
  let (y, sat) := rqScaled e fp a
  (fltAct act (rqF e ARR_RQ.CLAMP_LO) (rqF e ARR_RQ.CLAMP_HI) y, sat)

/-- The layout of a stored float format other than MX. -/
def outFloat (f : Nat) : Option FpFmt :=
  match f with
  | 5 => some fmtE4m3 | 6 => some fmtE5m2 | 9 => some fmt16 | 10 => some fmtBf16 | 11 => some fmt32 | _ => none

/-- One stored element of the float path (R257, R262), MX formats apart; Q24 is taken as its 24-bit integer. -/
def rqFloat (e : RqEnt) (act f : Nat) (fp : Bool) (a : Acc) : OutEl :=
  match outFloat f with
  | some m =>
    let (x, accSat) := rqValue e act fp a
    let v := f32v x
    let (w, sat) := fpEncode m true v
    { w := w, bad := a.bad || e.bad, accSat := accSat, outSat := sat,
      isNan := v == .nan || (f == 5 && (match v with | .inf _ => true | _ => false)) }
  | none =>
    let (x, accSat) := rqScaled e fp a
    let v := f32v x
    let zp := sx 16 (rqF e ARR_RQ.ZERO_POINT)
    let r := fltInt (if f = 14 then fvMul v (.num false 1 23) else v)
    let (o, sat) := satOut f (fltIntAct act zp (rqF e ARR_RQ.CLAMP_LO) (rqF e ARR_RQ.CLAMP_HI) (r + zp))
    { w := lowBits (fmtBits f) o, bad := a.bad || e.bad, accSat := accSat, outSat := sat, isNan := v == .nan }

/-- One stored element (R262), MX formats apart. -/
def rqElem (e : RqEnt) (act f : Nat) (fp : Bool) (a : Acc) : OutEl :=
  if intPath fp f then rqInt e act f a else rqFloat e act f fp a

/-! ### MX outputs (Table 7-7: OCP MX v1.0) -/

/-- The greatest exponent of an MX element format. -/
def mxEmax (f : Nat) : Int := if f = 7 then 2 else 0

/-- The block scale of FP32 values: floor(log2 max) less the element's greatest exponent; 0xFF for a block with a NaN or an
infinity. -/
def mxBlockScale (f : Nat) (xs : List Nat) : Nat :=
  let vs := xs.map f32v
  if vs.any (fun v => !fvFinite v) then 255
  else if vs.all fvZero then (Sys2Proof.Config.mxZeroScale).toNat
  else
    let e := vs.foldl (fun (b : Int) v => match v with
      | .num _ m e => if m = 0 then b else max b ((Nat.log2 m : Int) + e)
      | _ => b) (-1000)
    (min 254 (max 0 (e - mxEmax f + 127))).toNat

/-- A magnitude in halves rounded to an E2M1 code, ties to even; the flag says that it was beyond 6. -/
def e2m1Round (v : FV) : Nat × Bool :=
  match v with
  | .num _ m e =>
    let best := (upto 8).foldl (fun (b : Nat) (c : Nat) =>
      let dist (k : Nat) : FV := fvAbs (fvAdd (.num false m e) (fvNeg (.num false (e2m1 k) (-1))))
      if fvLt (dist c) (dist b) ∨ (¬ fvLt (dist b) (dist c) ∧ c % 2 = 0) then c else b) 0
    (best, fvLt (.num false 7 0) (.num false m e) || (best == 7 && fvLt (.num false 6 0) (.num false m e)))
  | _ => (0, false)

/-- An element under a block scale: 0xFF marks every element of the block NaN (R256). -/
def mxElem (f scale x : Nat) : OutEl :=
  let v := f32v x
  if scale = 255 then { w := 0, isNan := true } else
  let u := fvMul v (.num false 1 (127 - (scale : Int)))
  if f = 7 then
    let (c, sat) := e2m1Round u
    let neg : Bool := match u with | .num n _ _ => n | _ => false
    { w := b2n neg * 8 + c, outSat := sat }
  else
    let y := fvMul u (.num false 1 6)
    { w := lowBits 8 (satOut 1 (fltInt y)).1, outSat := fvLt y (fvInt (-128)) || fvLt (fvInt 127) y }

/-! ### Store engine (R267, R274, R300 to R304) -/

/-- What a store descriptor has in hand. -/
structure StCtx where
  l : Lay
  fmt : Nat
  act : Nat
  zrc : Bool
  dst : Nat
  sdst : Nat
  oa : Nat
  ob : Nat
  rq : List RqEnt

/-- The entry of an output channel of the block. -/
def StCtx.ent (x : StCtx) (j : Nat) : RqEnt := x.rq.getD j ⟨[], false⟩

/-- The accumulator of a position and output channel. -/
def AccTile.at_ (a : AccTile) (i j : Nat) : Acc := (a.acc.getD i []).getD j {}

/-- The channels of the MX block that holds channel `oa + j`. -/
def mxBlock (x : StCtx) (j : Nat) : List Nat := (upto (x.ob - x.oa)).filter (fun k => (x.oa + k) / 32 == (x.oa + j) / 32)

/-- Their FP32 values. -/
def mxPeers (x : StCtx) (a : AccTile) (i j : Nat) : List Nat :=
  (mxBlock x j).map (fun k => (rqValue (x.ent k) x.act a.fp (a.at_ i k)).1)

/-- One of them used a poisoned word: so did the scale, and every element under it (R274). -/
def mxBad (x : StCtx) (a : AccTile) (i j : Nat) : Bool := (mxBlock x j).any (fun k => (a.at_ i k).bad || (x.ent k).bad)

/-- The element stored for position `i` of a tile and channel `oa + j`. -/
def storeElem (x : StCtx) (a : AccTile) (i j : Nat) : OutEl :=
  if isMx x.fmt then
    let (v, sat) := rqValue (x.ent j) x.act a.fp (a.at_ i j)
    { mxElem x.fmt (mxBlockScale x.fmt (mxPeers x a i j)) v with bad := mxBad x a i j, accSat := sat }
  else rqElem (x.ent j) x.act x.fmt a.fp (a.at_ i j)

/-- Elements packed into bytes (R255). -/
def packElems (f : Nat) (l : List Nat) : List Byte :=
  let b := fmtBits f
  if 8 ≤ b then l.flatMap (leBytes (b / 8))
  else
    let k := 8 / b
    leBytes ((l.length + k - 1) / k) ((l.zipIdx).foldl (fun a e => a + e.1 % 2 ^ b * 2 ^ (b * e.2)) 0)

/-- Where element `i` of a row lies, and how many bytes it touches. -/
def elemAddr (f row i : Nat) : Nat × Nat :=
  let b := fmtBits f
  if 8 ≤ b then (row + i * (b / 8), b / 8) else (row + i * b / 8, 1)

/-- A run of elements of a row, with their poison. -/
def putRow (f row x0 : Nat) (es : List OutEl) (s : State) : State :=
  let s := ramPut s (elemAddr f row x0).1 (packElems f (es.map (·.w)))
  (es.zipIdx).foldl (fun s e =>
    if e.1.bad then setRamBad s (elemAddr f row (x0 + e.2)).1 (elemAddr f row (x0 + e.2)).2 true else s) s

/-- The MX scale of a position, once for each block. -/
def putScales (x : StCtx) (a : AccTile) (i y xx j : Nat) (s : State) : State :=
  if isMx x.fmt ∧ ((x.oa + j) % 32 = 0 ∨ j = 0) then
    let at_ := x.sdst + (((x.oa + j) / 32) * x.l.outH + y) * x.l.outW + xx
    let s := ramPut s at_ [BitVec.ofNat 8 (mxBlockScale x.fmt (mxPeers x a i j))]
    if mxBad x a i j then setRamBad s at_ 1 true else s
  else s

/-- The elements of row `y` of a tile for channel `oa + j`. -/
def rowElems (x : StCtx) (a : AccTile) (y j : Nat) : List OutEl :=
  (upto (min 16 (x.l.outW - 16 * a.tx))).map (fun c => storeElem x a ((y % 16) * 16 + c) j)

/-- One channel of a tile in CHW. -/
def storeChw (x : StCtx) (a : AccTile) (j : Nat) (s : State) : State :=
  (upto (min 16 (x.l.outH - 16 * a.ty))).foldl (fun s r =>
    let y := 16 * a.ty + r
    let es := rowElems x a y j
    let s := (upto es.length).foldl (fun s c => putScales x a (r * 16 + c) y (16 * a.tx + c) j s) s
    putRow x.fmt (x.dst + (x.oa + j) * x.l.outPlaneP + y * x.l.outRowP) (16 * a.tx) es s) s

/-- The fill encoding of a channel (R302). -/
def fillOf (f : Nat) (e : RqEnt) : Nat :=
  if isIntFmt f then lowBits (fmtBits f) (sx 16 (rqF e ARR_RQ.ZERO_POINT)) else 0

/-- A ZRC group: its bytes and whether it is poisoned. -/
def zrcOut (f fill : Nat) (es : List OutEl) : List Byte × Bool :=
  let mask := (es.zipIdx).foldl (fun a e => if e.1.w = fill then a else a + 2 ^ e.2) 0
  let vals := (es.filter (fun e => e.w != fill)).flatMap (fun e => leBytes (zrcElem f) e.w)
  (leBytes 2 mask ++ vals ++ (if vals.length % 2 = 1 then [0] else []), es.any (·.bad))

/-- One channel of a tile as a ZRC block (R300 to R304): whole 64-byte lines. -/
def storeZrc (x : StCtx) (a : AccTile) (j : Nat) (s : State) : State :=
  let fill := fillOf x.fmt (x.ent j)
  let gs := (upto (min 16 (x.l.outH - 16 * a.ty))).map (fun r => zrcOut x.fmt fill (rowElems x a (16 * a.ty + r) j))
  let body := gs.flatMap (·.1)
  let head := leBytes 4 (body.length / 2 + rqF (x.ent j) ARR_RQ.ZERO_POINT * b2n (isIntFmt x.fmt) % 2 ^ (8 * zrcElem x.fmt) * 2 ^ 10)
  let n := (4 + body.length + 63) / 64 * 64
  let at_ := zrcAddr x.fmt x.dst x.l.outW x.l.outH (x.oa + j) a.ty a.tx
  let s := ramPut s at_ (padTo n (head ++ body))
  (gs.foldl (fun (e : State × Nat) g =>
    (if g.2 then setRamBad e.1 e.2 g.1.length true else e.1, e.2 + g.1.length)) (s, at_ + 4)).1

/-- Every element a descriptor stores of a tile. -/
def tileElems (x : StCtx) (a : AccTile) : List OutEl :=
  (upto (x.ob - x.oa)).flatMap (fun j =>
    (upto (min 16 (x.l.outH - 16 * a.ty))).flatMap (fun r => rowElems x a (16 * a.ty + r) j))

/-- One tile stored. -/
def storeTile (x : StCtx) (a : AccTile) (s : State) : State :=
  (upto (x.ob - x.oa)).foldl (fun s j => if x.zrc then storeZrc x a j s else storeChw x a j s) s

/-- The commit window of a device time (R241). -/
def winOfTime (s : State) (j t : Nat) : Nat := t / (max 1 (rd s uDEV CNL_JOB.WIN_US j) * 1000)

/-- The window an instance belongs to: that of its BUF_TOV, of START for a DOORBELL instance (file 18). -/
def instWindow (s : State) (n : Nat) (r : ArrInst) : Nat :=
  winOfTime s (faJob s n) (if runF r ARR_PROG.TRIGGER = 0 then r.start else r.pend.tov)

/-- A snapshot slot to fill (R313): none of the latest contribution, the one in use, and the one before where possible. -/
def freeSlot (v : FusSrc) : Nat :=
  let uses (c : Option Contrib) (i : Nat) : Bool := c.any (fun c => c.slot == i)
  match (upto 3).find? (fun i => !uses v.latest i && !uses v.inUse i && !uses v.before i) with
  | some i => i
  | none => ((upto 3).find? (fun i => !uses v.latest i && !uses v.inUse i)).getD 0

/-- A source begins to fill a slot: a contribution kept there is given up. `from_`: when its window or frame began (R312). -/
def beginFill (v : FusSrc) (tov from_ : Nat) (sus : Bool) : FusSrc :=
  let i := freeSlot v
  { v with fill := some { slot := i, tov := tov, from_ := from_, sus := sus }, before := v.before.filter (fun c => c.slot != i) }

/-- The FEATURE sources of a completed instance begin to copy its map (R311, R312). -/
def featureDone (n : Nat) (r : ArrInst) (s : State) : State :=
  (upto 32).foldl (fun s k =>
    let v : FusSrc := tget {} s.fus.srcs k
    if rd s uFUS FUS_SRC.VALID k = 1 ∧ rd s uFUS FUS_SRC.KIND k = 0 ∧ rd s uFUS FUS_SRC.CLUSTER k = n
        ∧ rd s uFUS FUS_SRC.PROG k = r.prog ∧ v.fill.isNone ∧ readyBit s RB_FUS then
      { s with fus := { s.fus with srcs := tset {} s.fus.srcs k (beginFill v r.pend.tov r.pend.from_ false) } }
    else s) s

/-- The ARRAY_DONE body (Table 10-6). -/
def doneBody (n : Nat) (v : Fa) (r : ArrInst) (time : Nat) : List Byte :=
  leBytes 4 r.num ++ leBytes 1 (r.prog + n * 16) ++ leBytes 1 (runF r ARR_PROG.TRIGGER + b2n r.poison * 8)
    ++ leBytes 2 (tget 0 v.dropped r.prog) ++ leBytes 8 r.start ++ leBytes 8 time ++ leBytes 8 r.pend.tov ++ leBytes 8 0

/-- Programme `p` of array `n` is the head programme of a cycle, by the registers of its tick (R332, R337). -/
def headOf (s : State) (c : FusCycle) (n p : Nat) : Bool :=
  let s := { s with regs := c.cfg }
  rd s uFUS FUS_OBJ.HEAD_EN == 1 && rd s uFUS FUS_OBJ.CLUSTER == n && rd s uFUS FUS_OBJ.PROG == p

/-- The last store descriptor has completed (R269, R270, R589): the buffer is freed, or held until its window commits; the
completion record, the guest's interrupt, what waits for the instance. -/
def instanceDone (n : Nat) (r : ArrInst) (s : State) : State :=
  let v := faOf s n
  let j := faJob s n
  let w := instWindow s n r
  let body := doneBody n v r (now s)
  let door : Bool := runF r ARR_PROG.TRIGGER == 0
  let keep : Bool := j < 8 && spEn s j && r.pend.buf != .none && nextWin s j ≤ w
  let s := setFa s n { v with
    run := none, dropped := tset 0 v.dropped r.prog 0,
    held := if keep then v.held ++ [(w, r.pend.buf)] else v.held }
  let s := if keep then s else freeBuf n r.pend.buf s
  let s := if runF r ARR_PROG.DONE_EN = 1 then
      putRecord (runF r ARR_PROG.DONE_STREAM) 7 (if door then r.start else r.pend.tov) body r.poison [(uFA n, w)] s
    else s
  let s := if door ∧ bit (tget {} s.apx.jobctl j).arrayEn n then
      raiseMsi j (bits (jobOf s j).arrayHart (8 * n) 8) (640 + n) s else s
  let s := featureDone n r s
  if runF r ARR_PROG.TRIGGER = 3 then
    { s with fus := { s.fus with
        obj := s.fus.obj.map (fun c => if c.tick = r.pend.from_ ∧ headOf s c n r.prog then { c with head := true } else c) } }
  else s

/-- The context of a store descriptor. -/
def stCtx (s : State) (n : Nat) (r : ArrInst) (d : List Nat) : StCtx :=
  let f := fldOf d
  let l := layer s n (f ARR_ST.LAYER)
  let g := pairGrid (layerPair s r (f ARR_ST.LAYER)).1
  let o := outRange l g.1 g.2 (f ARR_ST.OB)
  { l := l, fmt := f ARR_ST.OUT_FMT, act := f ARR_ST.ACT, zrc := f ARR_ST.ZRC == 1,
    dst := relAddr r (f ARR_ST.DST_ADDR) (f ARR_ST.REL), sdst := f ARR_ST.SCALE_ADDR, oa := o.1, ob := o.2,
    rq := (faOf s n).rq }

/-- STORE_DESCRIPTOR (R262, R267, R274): one accumulator half is requantised and written; the last one completes the
instance. -/
def storeDescriptor (n : Nat) (s : State) : State :=
  if ¬ faTakes s n then s else
  let v := faOf s n
  match v.run, v.ready with
  | some r, h :: hs =>
    let d := descAt s (runF r ARR_PROG.ST_LIST) r.st
    let f := fldOf d
    if runF r ARR_PROG.ST_COUNT ≤ r.st ∨ semBlocked v (f ARR_ST.WAIT_EN) (f ARR_ST.WAIT_SEM) then s else
    let x := stCtx s n r d
    let half := halfOf v h
    let es := half.flatMap (tileElems x)
    let bad := es.any (·.bad)
    let cnt (p : OutEl → Bool) : Nat := (es.filter p).length
    let s := setFa s n { semTake v (f ARR_ST.WAIT_EN) (f ARR_ST.WAIT_SEM) with ready := hs }
    let s := half.foldl (fun s a => storeTile x a s) s
    let s := faBumpN (cnt (·.bad)) n 7 (faBumpN (cnt (·.isNan)) n 6 (faBumpN (cnt (·.outSat)) n 5
      (faBumpN (cnt (·.accSat)) n 4 s)))
    let j := faJob s n
    let s := signStep j (instWindow s n r) (uFA n) (packElems x.fmt (es.map (·.w))) s
    let s := setRun n (fun r => { r with st := r.st + 1, poison := r.poison || bad }) s
    let s := semSignal n (f ARR_ST.SIGNAL_EN) (f ARR_ST.SIGNAL_SEM) s
    let s := if r.st + 1 = runF r ARR_PROG.ST_COUNT then
        instanceDone n { r with st := r.st + 1, poison := r.poison || bad } s else s
    if bad then consumePoison j (uFA n) s else s
  | _, _ => s

/-! ### Field rules (R253, R281, R288) -/

/-- The field rules of an ARR_PROG entry (Table 7-8). -/
def checkArrProg (ws : List Nat) : Nat :=
  let f := fldOf ws
  firstFail [(f ARR_PROG.TRIGGER ≤ 3, ST_UNSUPPORTED),
    (f ARR_PROG.VALID = 0 ∨ (1 ≤ f ARR_PROG.LD_COUNT ∧ 1 ≤ f ARR_PROG.CMP_COUNT ∧ 1 ≤ f ARR_PROG.ST_COUNT), ST_UNSUPPORTED)]

/-- The rules of an ARR_LAYER entry in itself (Table 8-3a, R285, R303). -/
def checkLayer (ws : List Nat) : Nat :=
  let l := layOf ws
  let e := fmtBits l.fmt
  let rowBytes := (l.inW * e + 7) / 8
  if ¬ l.valid then ST_OK
  else
    firstFail [(l.kw ≤ 15 ∧ l.kh ≤ 15, ST_UNSUPPORTED),
      (l.fmt ≠ 15 ∧ l.fmt ≠ 4 ∧ l.fmt ≠ 12, ST_UNSUPPORTED),
      (l.layout ≠ 3 ∧ (l.layout ≠ 1 ∨ ¬ (isMx l.fmt ∨ l.fmt = 12 ∨ l.fmt = 13)) ∧ (l.layout ≠ 2 ∨ zrcElem l.fmt ≠ 0),
        ST_UNSUPPORTED),
      (l.inC % l.groups = 0 ∧ l.outC % l.groups = 0, ST_SHAPE), ((outSizes l).isSome, ST_SHAPE),
      (l.layout ≠ 0 ∨ (rowBytes ≤ l.rowP ∧ l.rowP * l.inH ≤ l.planeP), ST_SHAPE),
      (l.layout ≠ 1 ∨ ((l.inW * l.inC * e + 7) / 8 ≤ l.rowP ∧ l.planeP = 0), ST_SHAPE)]

/-! ### The commands -/

def execArrRunWrite (array prog job : Nat) (s : State) : Out := .next (arrRunWrite array prog job s)
def execInstanceStart (array : Nat) (s : State) : Out := .next (instanceStart array s)
def execLoadDescriptor (array : Nat) (s : State) : Out := .next (loadDescriptor array s)
def execComputePass (array : Nat) (s : State) : Out := .next (computePass array s)
def execStoreDescriptor (array : Nat) (s : State) : Out := .next (storeDescriptor array s)

end Sys2Proof.Machine
end

