-- ==== Sys2Proof/Machine/Frames.lean ====
section
/-! DEFINITION. Frame input of a sluice (R67 to R70), the acceptance of CSI-2 packets (R46 to R49) and the end of a
port's clearing (R668). -/
namespace Sys2Proof.Machine

/-- The size of a frame buffer with its header (R70). -/
def frameSize (s : State) (n : Nat) : Nat := (64 + 2 * sluWidth s n * sluHeight s n + 63) / 64 * 64

/-- The first byte of frame buffer `i`. -/
def frameAddr (s : State) (n i : Nat) : Nat := sl s n SLU_FRM.BASE + i * frameSize s n

/-- The buffers of the ring. -/
def frameBufs (s : State) (n : Nat) : Nat := sl s n SLU_FRM.BUFS_M1 + 1

/-- The buffer that holds the oldest frame not held. -/
def oldestFree (v : Sluice) (l : List Nat) : Option Nat :=
  l.foldl (fun o i =>
    if (tget {} v.bufs i).holds ≠ 0 then o
    else match o with
      | none => some i
      | some k => if (tget {} v.bufs i).order < (tget {} v.bufs k).order then some i else some k) none

/-- The buffer of a new frame (R69): one that holds no frame, else that of the oldest frame not held. DESIGN CHOICE: of
several that hold no frame, the one of lowest index. -/
def pickFrameBuf (s : State) (n : Nat) : Option Nat :=
  let l := upto (frameBufs s n)
  match l.find? (fun i => (tget {} (sluOf s n).bufs i).order == 0 && (tget {} (sluOf s n).bufs i).holds == 0) with
  | some i => some i
  | none => oldestFree (sluOf s n) l

/-- The 64-byte header of a frame buffer (Table 2-13). -/
def frameHeader (s : State) (n : Nat) (r : FrameRun) (num : Nat) (complete : Bool) : List Byte :=
  padTo 64 (leBytes 8 r.stamp ++ leBytes 4 num ++ leBytes 2 (sluWidth s n) ++ leBytes 2 (sluHeight s n)
    ++ leBytes 1 (sl s n SLU_PORT.FRAME_FMT)
    ++ leBytes 1 (b2n complete + b2n r.poison * 2 + b2n r.suspect * 4))

/-- The stamp of a Frame Start that arrived at `at_`: the device time of its arrival (R68, R87), 0 where ARR_LAT_NS exceeds it. -/
def frameStamp (s : State) (n at_ : Nat) : Nat := at_ - sl s n SLU_TAL.ARR_LAT_NS

/-- A Frame Start that arrived at `at_` opens a frame (R68, R69): COMPLETE is cleared in the chosen buffer. -/
def frameStart (n at_ : Nat) (s : State) : State :=
  let s := dropFrame n s
  match pickFrameBuf s n with
  | none => sluBump n 23 s
  | some i =>
    let v := sluOf s n
    let b := tget {} v.bufs i
    let s := if b.complete ∧ ¬ b.taken then sluBump n 23 s else s
    let a := frameAddr s n i + 17
    let flags := ramNat s a 1
    let s := ramPutNat s a 1 (flags - flags % 2)
    setSlu s n { v with
      bufs := tset {} v.bufs i {},
      frame := some { buf := i, lines := 0, bad := false, stamp := frameStamp s n at_, poison := false,
                      suspect := v.align != .aligned } }

/-! ### Pixels -/

/-- Pixels of a RAW10 line: four in five bytes, the low bits in the fifth. -/
def raw10 : Nat → List Byte → List Nat
  | 0, _ => []
  | k + 1, l => match l with
    | a :: b :: c :: d :: e :: r =>
      (a.toNat * 4 + bits e.toNat 0 2) :: (b.toNat * 4 + bits e.toNat 2 2) :: (c.toNat * 4 + bits e.toNat 4 2)
        :: (d.toNat * 4 + bits e.toNat 6 2) :: raw10 k r
    | _ => []

/-- Pixels of a RAW12 line: two in three bytes, the low bits in the third. -/
def raw12 : Nat → List Byte → List Nat
  | 0, _ => []
  | k + 1, l => match l with
    | a :: b :: c :: r => (a.toNat * 16 + bits c.toNat 0 4) :: (b.toNat * 16 + bits c.toNat 4 4) :: raw12 k r
    | _ => []

/-- Every `k`-th byte from offset `o`. -/
def strided (k o : Nat) (l : List Byte) : List Byte :=
  (l.zipIdx).filterMap (fun e => if e.2 % k = o then some e.1 else none)

/-- The pixels of line `y` written to the buffer at `a` (R70): INT16 rows, or the planes Y, U and V. DESIGN CHOICE: pixels
beyond WIDTH are dropped and the line counts; a shorter line leaves the rest of its row as it stands. -/
def putLine (s : State) (n a y : Nat) (data : List Byte) : State :=
  let w := sluWidth s n
  let h := sluHeight s n
  if sl s n SLU_PORT.FRAME_FMT = 2 then
    let s := ramPut s (a + 64 + y * w) ((strided 2 1 data).take w)
    let s := ramPut s (a + 64 + w * h + y * (w / 2)) ((strided 4 0 data).take (w / 2))
    ramPut s (a + 64 + w * h + (w / 2) * h + y * (w / 2)) ((strided 4 2 data).take (w / 2))
  else
    let px := if sl s n SLU_PORT.FRAME_FMT = 0 then raw10 data.length data else raw12 data.length data
    ramPut s (a + 64 + 2 * y * w) ((px.take w).flatMap (leBytes 2))

/-- The bytes of a frame that line `y` takes, as address and length (R70). -/
def lineSpans (s : State) (n a y : Nat) : List (Nat × Nat) :=
  let w := sluWidth s n
  let h := sluHeight s n
  if sl s n SLU_PORT.FRAME_FMT = 2 then
    [(a + 64 + y * w, w), (a + 64 + w * h + y * (w / 2), w / 2), (a + 64 + w * h + (w / 2) * h + y * (w / 2), w / 2)]
  else [(a + 64 + 2 * y * w, 2 * w)]

/-- A line of the open frame is lost: the frame is not complete (R68). -/
def lineLost (n : Nat) (s : State) : State :=
  setSlu s n { sluOf s n with frame := (sluOf s n).frame.map (fun r => { r with bad := true }) }

/-- A line whose CRC passed goes into the open frame (R68, R70); `bad`: a word of it in the packet buffer had an uncorrectable
error, so its pixels and the frame are poisoned (Table 17-4). -/
def frameLine (n : Nat) (data : List Byte) (bad : Bool) (s : State) : State :=
  match (sluOf s n).frame with
  | none => s
  | some r =>
    let s := setSlu s n { sluOf s n with frame := some { r with lines := r.lines + 1, poison := r.poison || bad } }
    if sluHeight s n ≤ r.lines then s else
    let s := putLine s n (frameAddr s n r.buf) r.lines data
    if bad then (lineSpans s n (frameAddr s n r.buf) r.lines).foldl (fun s e => setRamBad s e.1 e.2 true) s else s

/-- A line packet of a FRAME port (R48, R49, R67, R68); while the port is being cleared it waits (R668). -/
def linePacket (n : Nat) (crcOk : Bool) (data : List Byte) (s : State) : State :=
  let v := sluOf s n
  let lost (s : State) : State := if v.clearing then waitPacket n .lostLine s else lineLost n s
  if packetOver v data then sluBump n 4 (lost s)
  else if ¬ crcOk then sluBump n 3 (lost s)
  else
    let s := sluBump n 0 s
    if v.clearing then waitPacket n (.line data) s else frameLine n data false s

/-- A complete frame triggers every programme of its cluster's array that names the sluice (R269). -/
def frameTrigger (n i stamp : Nat) (s : State) : State :=
  let k := n / 4
  (upto 16).foldl (fun s p =>
    if prF s k p ARR_PROG.VALID = 1 ∧ prF s k p ARR_PROG.TRIGGER = 2 ∧ prF s k p ARR_PROG.SRC = n ∧ faHears s k then
      arrTrigger k {
        prog := p, buf := .frame n i, base := frameAddr s n i, tov := stamp, from_ := stamp } s
    else s) s

/-- A Frame End (R68): the header goes in last, or the frame is discarded. -/
def frameEnd (n : Nat) (s : State) : State :=
  match (sluOf s n).frame with
  | none => s
  | some r =>
    if r.bad ∨ r.lines ≠ sluHeight s n then dropFrame n s
    else
      let v := sluOf s n
      let num := (v.frameNo + 1) % 2 ^ 32
      let s := ramPut s (frameAddr s n r.buf) (frameHeader s n r num true)
      let s := setSlu s n { v with
        frame := none, frameNo := v.frameNo + 1, bufs := tset {} v.bufs r.buf ⟨v.frameNo + 1, true, 0, false⟩ }
      frameTrigger n r.buf r.stamp s

/-- The port takes packets of this virtual channel: enabled, with a PHY. -/
def portTakes (s : State) (n vc : Nat) : Bool := sluTakes s n && sl s n SLU_PORT.PHY != 0 && sl s n SLU_PORT.VC == vc

/-- What a packet that arrives at a sluice does before its content counts (R46, R47, R91): its island restarts for it, the
packet boundary passes, and the header's ECC decides; none where the packet goes no further. -/
def packetHeader (n vc : Nat) (ecc : EccResult) (s : State) : Bool × State :=
  let s := wakeIsland (uSL n) s
  if ¬ sluTakes s n ∨ sl s n SLU_PORT.PHY = 0 then (false, s)
  else
    let s := packetBoundary n s
    if ecc = .fail then (false, sluBump n 2 s)
    else
      let s := goodHeader n ecc s
      (portTakes s n vc, s)

/-- A packet that arrives while its sluice is being reset is lost and counts PKT_OVF (Table 17-4). -/
def sluResetting (s : State) (n : Nat) : Bool :=
  (unitOf s (uSL n)).resetting && rdB s (uSL n) SLU_PORT.ENABLE && s.dev.state != .safe

/-- A CSI-2 long packet (R46 to R49): the header, the channel and data type, then the mode of the port. -/
def csi2Packet (n vc dt : Nat) (ecc : EccResult) (crcOk : Bool) (sot : Nat) (data : List Byte)
    (flawed : List Nat) (s : State) : State :=
  if sluResetting s n then
    (if sl s n SLU_PORT.PHY ≠ 0 ∧ sl s n SLU_PORT.VC = vc ∧ dt = portDt s n then sluBump n 4 s else s)
  else
    let (ok, s) := packetHeader n vc ecc s
    if ¬ ok ∨ dt ≠ portDt s n then s
    else if sl s n SLU_PORT.MODE = 2 then linePacket n crcOk data s
    else eventPacket n sot crcOk data flawed s

/-- A Frame Start or Frame End packet (R47, R68, R668): on a FRAME port it acts, or waits while the port is being cleared. -/
def framePacket (n vc : Nat) (ecc : EccResult) (w : Waiting) (act : State → State) (s : State) : State :=
  let (ok, s) := packetHeader n vc ecc s
  if ¬ ok ∨ sl s n SLU_PORT.MODE ≠ 2 then s
  else if (sluOf s n).clearing then waitPacket n w s else act s

/-- One entry of the packet buffer after the clearing; `bad` are its byte places with an uncorrectable error (R668, Table 17-4). -/
def waitedPacket (n : Nat) (bad : List Nat) (w : Waiting) (s : State) : State :=
  let s := packetBoundary n s
  match w with
  | .events data sot => decodePacket n sot data s bad
  | .line data => frameLine n data (bad.any (· < data.length)) s
  | .lostLine => lineLost n s
  | .frameStart t => frameStart n t s
  | .frameEnd => frameEnd n s

/-- PORT_CLEAR_DONE (R668): the packets that waited are decoded in order. -/
def portClearDone (n : Nat) (s : State) : State :=
  let v := sluOf s n
  if ¬ v.clearing then s else
  let s := setSlu s n { v with clearing := false, buffered := [], bufBad := [] }
  if ¬ sluTakes s n then s
  else (v.buffered.foldl (fun (x : State × Nat) w =>
    (waitedPacket n ((v.bufBad.filter (x.2 ≤ ·)).map (· - x.2)) w x.1, x.2 + w.bytes)) (s, 0)).1

def execCsi2LongPacket (sluice vc dt : Nat) (ecc : EccResult) (crcOk : Bool) (sot : Nat) (data : List Byte)
    (residueBad : List Nat) (s : State) : Out := .next (csi2Packet sluice vc dt ecc crcOk sot data residueBad s)
def execFrameStart (sluice vc num : Nat) (ecc : EccResult) (s : State) : Out :=
  .next (if num < 65536 then framePacket sluice vc ecc (.frameStart (now s)) (frameStart sluice (now s)) s else s)
def execFrameEnd (sluice vc : Nat) (ecc : EccResult) (s : State) : Out :=
  .next (framePacket sluice vc ecc .frameEnd (frameEnd sluice) s)
def execPortClearDone (sluice : Nat) (s : State) : Out := .next (portClearDone sluice s)

end Sys2Proof.Machine
end

