-- ==== Sys2Proof/Machine/Tensor.lean ====
section
/-! DEFINITION. Tensor builders (R275 to R278, R281): voxel windows, buffers and the accumulation of packets. -/
namespace Sys2Proof.Machine

/-- TEN_CNT (Table 7-12). -/
def tenBump (k w : Nat) (s : State) : State := bump (uTEN k) 0x060E w s

/-- A field of a TEN_VOX entry. -/
def tvF (s : State) (k e : Nat) (f : Fld) : Nat := rd s (uTEN k) f e

/-- The builder works: its hub is ready and its job takes input, outside SAFE. -/
def tenTakes (s : State) (k : Nat) : Bool :=
  readyBit s (RB_HUB + k) && s.dev.state != .safe && (unitOf s (uTEN k)).st == .assigned
    && jobTakes s (unitOf s (uTEN k)).job && islandRuns s (uTEN k)

/-- Grid columns, rows and channels of an entry. -/
def tvW (s : State) (k e : Nat) : Nat := (tvF s k e TEN_VOX.WIDTH_M1 + 2 ^ tvF s k e TEN_VOX.DS) / 2 ^ tvF s k e TEN_VOX.DS
def tvH (s : State) (k e : Nat) : Nat := (tvF s k e TEN_VOX.HEIGHT_M1 + 2 ^ tvF s k e TEN_VOX.DS) / 2 ^ tvF s k e TEN_VOX.DS
def tvB (s : State) (k e : Nat) : Nat := tvF s k e TEN_VOX.BINS_M1 + 1
def tvC (s : State) (k e : Nat) : Nat := if tvF s k e TEN_VOX.POL_MODE = 0 then tvB s k e else 2 * tvB s k e

/-- Bytes of an element and of a buffer. -/
def tvE (s : State) (k e : Nat) : Nat := if tvF s k e TEN_VOX.OUT_FMT = 0 then 1 else 2
def tvSize (s : State) (k e : Nat) : Nat := tvC s k e * tvH s k e * tvW s k e * tvE s k e

/-- The address of buffer `b`. -/
def tvBase (s : State) (k e b : Nat) : Nat := tvF s k e TEN_VOX.BUF_BASE + b * tvSize s k e

/-- The end of window `w` in device µs. -/
def tvEnd (s : State) (k e w : Nat) : Nat := tvF s k e TEN_VOX.PHASE_US + (w + 1) * tvF s k e TEN_VOX.WINDOW_US

/-- A buffer cleared to zero. -/
def clearBuf (k e b : Nat) (s : State) : State :=
  ramClear s (tvBase s k e b) (tvSize s k e)

/-- The entry begins with its job (R283): its buffers are cleared, and the window of the present time opens. -/
def tenBegin (k e : Nat) (s : State) : State :=
  if tvF s k e TEN_VOX.VALID = 0 then s else
  let s := clearBuf k e 2 (clearBuf k e 1 (clearBuf k e 0 s))
  let w := (nowUs s - tvF s k e TEN_VOX.PHASE_US) / max 1 (tvF s k e TEN_VOX.WINDOW_US)
  setTen s k e { open_ := some (w, 0), bufs := tset 0 [] 0 1 }

/-- Every entry of a builder begins. -/
def tenStart (k : Nat) (s : State) : State := (upto 8).foldl (fun s e => tenBegin k e s) s

/-- Every entry of a builder ends. -/
def tenStop (k : Nat) (s : State) : State := { s with ten := tclear (fun x => x / 8 == k) s.ten }

/-! ### Accumulation (R276) -/

/-- decay of R183 with a table of sixteen factors, over a time in its units. -/
def decayWith (tab : Nat → Nat) (u : Nat) (y : Int) : Int :=
  if 65535 < u then 0
  else (maskBits 16 u).foldl (fun y b => rshRne (y * tab b) 16) y

/-- A factor of the DECAY table. -/
def tvDecay (s : State) (k e i : Nat) : Nat := bits (regWord s (uTEN k) 0x0603 e (3 + i / 4)) (16 * (i % 4)) 16

/-- The new encoding of an element after a packet of sign `sg`, and whether it saturated. -/
def tvAdd (s : State) (k e old : Nat) (sg : Int) (age : Nat) : Nat × Bool :=
  let fmt := tvF s k e TEN_VOX.OUT_FMT
  let w := if fmt = 0 then 8 else 16
  let d := if tvF s k e TEN_VOX.ACC = 0 then 1 else
    decayWith (tvDecay s k e) (age >>> tvF s k e TEN_VOX.DT_SHIFT) 32768
  if fmt = 2 then
    fpEncode fmt16 true (fvAdd (fpDecode fmt16 old) (.num (decide (sg * d < 0)) (sg * d).natAbs (-15)))
  else
    let inc := if tvF s k e TEN_VOX.ACC = 0 then sg else if fmt = 0 then sg * rshRne d 9 else sg * d
    let x := sx w old + inc
    (lowBits w (satS w x), satS w x != x)

/-- The buffer of a window that still takes packets: the open one, or the one in grace; or why not (2 late, 3 early). -/
def tvBuffer (s : State) (v : TenEnt) (k e w : Nat) : Nat ⊕ Nat :=
  match v.open_, v.grace with
  | some (o, b), g =>
    if w = o then .inl b
    else if o < w then .inr 3
    else match g with
      | some (gw, gb) =>
        if w = gw ∧ nowUs s < tvEnd s k e gw + tvF s k e TEN_VOX.LATE_US then .inl gb else .inr 2
      | none => .inr 2
  | none, some (gw, gb) =>
    if w = gw ∧ nowUs s < tvEnd s k e gw + tvF s k e TEN_VOX.LATE_US then .inl gb
    else if w ≤ gw then .inr 2 else .inr 3
  | none, none => .inr 3

/-- One entry accumulates a packet; a residue mismatch poisons the element it forms (R579). -/
def tvPacket (k e : Nat) (p : Pkt) (residueBad : Bool) (s : State) : State :=
  let win := max 1 (tvF s k e TEN_VOX.WINDOW_US)
  let t := fullUs s (p.pay % 2 ^ 24)
  let ph := tvF s k e TEN_VOX.PHASE_US
  if t < ph then tenBump k 2 s else
  let rel := t - ph
  let w := rel / win
  match tvBuffer s (tenOf s k e) k e w with
  | .inr c => tenBump k c s
  | .inl b =>
    let bw := max 1 (win / tvB s k e)
    let bin := rel % win / bw
    let gx := bits p.key 0 12 / 2 ^ tvF s k e TEN_VOX.DS
    let gy := bits p.key 12 11 / 2 ^ tvF s k e TEN_VOX.DS
    let pol := bit p.key 23
    if tvW s k e ≤ gx ∨ tvH s k e ≤ gy then tenBump k 4 s else
    let signed := tvF s k e TEN_VOX.POL_MODE = 0
    let c := if signed then bin else 2 * bin + b2n pol
    let sg : Int := if signed then (if pol then 1 else -1) else 1
    let n := tvE s k e
    let a := tvBase s k e b + ((c * tvH s k e + gy) * tvW s k e + gx) * n
    let (x, sat) := tvAdd s k e (ramNat s a n) sg (w * win + (bin + 1) * bw - rel)
    let bad := p.poison || residueBad || ramBad s a n
    let s := ramPutNat s a n x
    let j := (unitOf s (uTEN k)).job
    let s := if residueBad then reportResidue (uTEN k) j s else s
    let s := if bad then consumePoison j (uTEN k) (tenBump k 7 (setRamBad s a n true)) else s
    tenBump k 0 (if sat then tenBump k 6 s else s)

/-- Entries a packet contributes to (R275). -/
def tvMatches (s : State) (k : Nat) (p : Pkt) : List Nat :=
  (upto 8).filter (fun e => tvF s k e TEN_VOX.VALID == 1 && tvF s k e TEN_VOX.KEY_PREFIX == bits p.key 26 6
    && tvF s k e TEN_VOX.KIND == bits p.key 24 2)

/-- TEN_PACKET (R276, R278): the next packet routed to the builder; `residueBad` is the verdict of its residue check (R577). -/
def tenPacket (k : Nat) (residueBad : Bool) (s : State) : State :=
  if ¬ tenTakes s k ∨ (upto 8).any (fun e => (tenOf s k e).wait.isSome) then s else
  match firstCq s (pTen k) with
  | none => s
  | some p =>
    let (p, s) := crossCheck (uTEN k) p (dropCq (pTen k) s)
    match tvMatches s k p with
    | [] => tenBump k 1 s
    | es => es.foldl (fun s e => tvPacket k e p residueBad s) s

/-! ### Windows (R277) -/

/-- A buffer is freed: its clear begins. -/
def tvFree (k e b : Nat) (s : State) : State :=
  setTen s k e { tenOf s k e with bufs := tset 0 (tenOf s k e).bufs b 3 }

/-- With this buffer handed over, another one is free or being cleared for the next window: the third is not one that second
passage keeps (R589, R590). -/
def tvSpare (v : TenEnt) (b : Nat) : Bool :=
  (upto 3).any (fun i => i != b && (tget 0 v.bufs i != 2) && (v.open_.all (fun o => o.2 != i)))

/-- TEN_WINDOW_CLOSE (R277, R590): the window in grace closes at end(w) + LATE_US. -/
def tenClose (k e : Nat) (s : State) : State :=
  let v := tenOf s k e
  match v.grace with
  | none => s
  | some (w, b) =>
    if ¬ tenTakes s k ∨ nowUs s < tvEnd s k e w + tvF s k e TEN_VOX.LATE_US then s else
    let s := setTen s k e { v with grace := none }
    let p := tvF s k e TEN_VOX.PROG
    let right : Bool := tvF s k e TEN_VOX.TRIG_EN == 1 && prF s k p ARR_PROG.VALID == 1 && prF s k p ARR_PROG.TRIGGER == 1
      && prF s k p ARR_PROG.SRC == e
    if ¬ right then tvFree k e b s
    else if arrBusy s k p ∨ ¬ tvSpare v b then tenBump k 5 (tvFree k e b s)
    else
      arrTrigger k {
        prog := p, buf := .ten e b, base := tvBase s k e b, tov := tvEnd s k e w * 1000,
        from_ := (tvEnd s k e w - tvF s k e TEN_VOX.WINDOW_US) * 1000 } s

/-- The next window opens in a free buffer, or waits for one that is being cleared. -/
def tvOpen (k e w : Nat) (s : State) : State :=
  let v := tenOf s k e
  match (upto 3).find? (fun i => tget 0 v.bufs i == 0) with
  | some i => setTen s k e { v with open_ := some (w, i), wait := none, bufs := tset 0 v.bufs i 1 }
  | none => setTen s k e { v with open_ := none, wait := some w }

/-- TEN_WINDOW_END (R277): the next window opens and the ended one enters grace. -/
def tenWindowEnd (k e : Nat) (s : State) : State :=
  match (tenOf s k e).open_ with
  | none => s
  | some (w, b) =>
    if ¬ tenTakes s k ∨ nowUs s < tvEnd s k e w then s else
    let s := tenClose k e s
    let v := tenOf s k e
    tvOpen k e (w + 1) (setTen s k e { v with grace := some (w, b) })

/-- TEN_BUFFER_CLEARED (R277): a freed buffer reads zero, and a window that waits opens in it. -/
def tenCleared (k e b : Nat) (s : State) : State :=
  let v := tenOf s k e
  if tget 0 v.bufs b ≠ 3 ∨ 3 ≤ b then s else
  let s := clearBuf k e b s
  let s := setTen s k e { v with bufs := tset 0 v.bufs b 0 }
  match v.wait with
  | some w => tvOpen k e w s
  | none => s

/-- The field rules of TEN_VOX (R275, Table 7-9). -/
def checkTenVox (ws : List Nat) : Nat :=
  let f := fldOf ws
  firstFail [(f TEN_VOX.KIND ≤ 1 ∧ 1 ≤ f TEN_VOX.BINS_M1 ∧ f TEN_VOX.OUT_FMT ≤ 2 ∧ 2 ≤ f TEN_VOX.WINDOW_US ∧ f TEN_VOX.WINDOW_US ≤ 1000000
      ∧ f TEN_VOX.PHASE_US < f TEN_VOX.WINDOW_US, ST_UNSUPPORTED),
    (¬ (f TEN_VOX.ACC = 0 ∧ f TEN_VOX.OUT_FMT = 2), ST_UNSUPPORTED),
    (f TEN_VOX.WINDOW_US % (f TEN_VOX.BINS_M1 + 1) = 0, ST_SHAPE), (f TEN_VOX.LATE_US < f TEN_VOX.WINDOW_US, ST_SHAPE)]

/-- A write that keeps every field but TRIG_EN and PROG (R281). -/
def tenVoxKeeps (s : State) (k e word v : Nat) : Bool :=
  let m := setBits (setBits v TEN_VOX.TRIG_EN.lo 1 0) TEN_VOX.PROG.lo 4 0
  let o := regWord s (uTEN k) 0x0603 e word
  if word = 0 then m == setBits (setBits o TEN_VOX.TRIG_EN.lo 1 0) TEN_VOX.PROG.lo 4 0 else v == o

def execTenPacket (cluster : Nat) (residueBad : Bool) (s : State) : Out := .next (tenPacket cluster residueBad s)
def execTenWindowEnd (cluster entry : Nat) (s : State) : Out := .next (tenWindowEnd cluster entry s)
def execTenWindowClose (cluster entry : Nat) (s : State) : Out := .next (tenClose cluster entry s)
def execTenBufferCleared (cluster entry buf : Nat) (s : State) : Out := .next (tenCleared cluster entry buf s)

end Sys2Proof.Machine
end

