-- ==== Sys2Proof/Machine/Writers.lean ====
section
/-! DEFINITION. The writers of the barge manager: stream entries (R349, Table 10-4), Canal copies into queues (R396, R397),
and what pops words for engines and locks (R398 to R400). -/
namespace Sys2Proof.Machine

/-- The PACKETS entry of a copy (Table 10-4), output of the step that emitted it. -/
def packetEntry (s : State) (p : Pkt) : Entry :=
  let a := now s
  ⟨leBytes 4 p.pay ++ leBytes 4 p.key ++ leBytes 8 (a % 2 ^ 56 + b2n p.poison * 2 ^ 56 + p.cls * 2 ^ 57), some p.key, a,
    p.poison, p.unit, p.step.getD (jobWindow s p.job), 0⟩

/-- STREAM_ENTRY (R349, R670): the next copy bound for the stream, or else the next entry another producer offers. -/
def streamEntry (k : Nat) (s : State) : State :=
  if s.dev.state = .safe ∨ ¬ islandRuns s (uSTREAM k) then s else
  match firstCq s (pStream k) with
  | some p =>
    let (p, s) := crossCheck (uSTREAM k) p (dropCq (pStream k) s)
    takeEntry k 0 (packetEntry s p) s
  | none =>
    match tget [] s.res.offered k with
    | [] => s
    | e :: r => takeEntry k e.kind e { s with res := { s.res with offered := tset [] s.res.offered k r } }

/-- QUEUE_COPY_WRITE (R396, R397): the next copy bound for a queue, its parity checked at the crossing (R30); a full queue or a
stopped island holds it back (R32). -/
def queueCopyWrite (q : Nat) (s : State) : State :=
  if ¬ islandRuns s (uQUEUE q) then s else
  match firstCq s (pQueue q) with
  | none => s
  | some p =>
    if qProd s q ≠ 1 then dropCq (pQueue q) s
    else
      let (p, s₁) := crossCheck (uQUEUE q) p s
      let (ok, s') := canalToQueue q p.key p.pay p.poison s₁
      if ok then dropCq (pQueue q) s' else s

/-- A LOCK consumer (Table 12-3): word pairs become packets at the hub input of the lock; an odd last word is dropped. -/
def lockPop (q : Nat) (parBad : Bool) (s : State) : State :=
  let c := qConsUnit s q
  let v := queueOf s q
  if v.latched.any (fun k => !cqRoom s (pHub c) k.inj) then s else
  let (r, s) := popQ q parBad s
  match r with
  | none => s
  | some (w, _) =>
    let s := if w.poison then consumePoison (qJob s q) (uQUEUE q) s else s
    match v.latched with
    | [] =>
      if w.last then brgBump q 12 s else setQueue s q { queueOf s q with latched := [w] }
    | key :: _ =>
      putCq (pHub c) { mkPkt key.w w.w key.inj (qJob s q) 0 (key.poison || w.poison) with from_ := 1 }
        (setQueue s q { queueOf s q with latched := [] })

/-- An engine consumer takes the next word for itself (Table 12-3). -/
def enginePop (q : Nat) (parBad : Bool) (s : State) : State :=
  if 16 ≤ (queueOf s q).latched.length then s else
  let (r, s) := popQ q parBad s
  match r with
  | none => s
  | some (w, f) => setQueue s q { queueOf s q with latched := (queueOf s q).latched ++ [{ w with first := f }] }

/-- QUEUE_POP (R398, R400). -/
def queuePop (q : Nat) (parBad : Bool) (s : State) : State :=
  if ¬ islandRuns s (uQUEUE q) then s else
  match qCons s q with
  | 0 => if coreTakes s (qConsUnit s q) then enginePop q parBad s else s
  | 1 => if jobTakes s (qJob s q) ∧ s.dev.state ≠ .safe then enginePop q parBad s else s
  | 3 => if jobTakes s (qJob s q) ∧ s.dev.state ≠ .safe then lockPop q parBad s else s
  | _ => s

/-- PORTAL_POP (R407, R594): a poisoned word that reaches the guest is a consumption of poison by its job. -/
def portalPopTaken (q job : Nat) (parBad : Bool) (s : State) : State :=
  let s' := portalPop q job parBad (wakeIsland (uQUEUE q) s)
  let fresh : Bool := ownsQueue s job q && qCons s q == 2
  if fresh ∧ (queueOf s' q).latched.any (·.poison) then consumePoison job (uQUEUE q) s' else s'

def execStreamEntry (stream : Nat) (s : State) : Out := .next (streamEntry stream s)
def execQueueCopyWrite (queue : Nat) (s : State) : Out := .next (queueCopyWrite queue s)
def execQueuePop (queue : Nat) (parBad : Bool) (s : State) : Out := .next (queuePop queue parBad s)
def execPortalPop (queue job : Nat) (parBad : Bool) (s : State) : Out := .next (portalPopTaken queue job parBad s)

end Sys2Proof.Machine
end

