-- ==== Sys2Proof/Machine/Urgent.lean ====
section
/-! DEFINITION. The urgent path: zone tests of a pair (R492), the class-0 policer (R225), alarm framers and probes (R348,
R448, R610); the reaction to a dangerous failure (R612 to R615). -/
namespace Sys2Proof.Machine

/-- An urgent pair. -/
def upOf (s : State) (n : Nat) : Up := tget {} s.urg.pairs n

/-- Changing it. -/
def setUp (s : State) (n : Nat) (v : Up) : State := { s with urg := { s.urg with pairs := tset {} s.urg.pairs n v } }

/-- The pair works: it is used, its job takes input, it is not being reset, the device is not in SAFE. -/
def upRuns (s : State) (n : Nat) : Bool :=
  (upOf s n).used && jobTakes s (upOf s n).job && !(upOf s n).resetting && s.dev.state != .safe

/-! ### Entry to SAFE (R612, Table 19-3) -/

/-- The detail of the STATE notices of SAFE (R614). -/
def safeDetail (s : State) : List Byte :=
  beBytes 8 s.safe.time ++ beBytes 2 s.safe.reason ++ beBytes 2 s.safe.unit ++ beBytes 4 s.safe.active
    ++ beBytes 4 s.safe.entries

/-- The STATE notice of SAFE. -/
def safeNotice (s : State) : State := notice NT_STATE ST_OK uDEV (safeDetail s) s

/-- A running job ends where it stands: harts halted, no open or held record, no window, replay or restart in progress;
what it retained is freed. -/
def endJob (j : Nat) (s : State) : State :=
  let s := haltHarts j (freeJobRetained j s)
  let s := dropCkpt j s
  let s := setJob s j { jobOf s j with run := false, restarting := false, stopping := none, stopBerth := none }
  setPass s { s.pass with
    steps := s.pass.steps.filter (fun r => r.job != j),
    ranges := s.pass.ranges.filter (fun r => r.job != j),
    replay := tset none s.pass.replay j none, restart := tset none s.pass.restart j none,
    next := tset 0 s.pass.next j (jobWindow s j + 1) }

/-- Open and held records are discarded without a SEQ. -/
def dropRecords (s : State) : State :=
  { s with res := { s.res with
      streams := s.res.streams.map (fun e => (e.1, { e.2 with cur := none, waiting := [] })), offered := [] } }

/-- Alarm frames queued but not started, held and queued class-0 packets are discarded. -/
def dropClass0 (s : State) : State :=
  let s := (upto 2).foldl (fun s p => setEth s p { ethOf s p with q0 := [] }) s
  { s with
    canal := { s.canal with
      pol := (upto 4).foldl (fun t h => tmod {} t h (fun v => { v with hold := [] })) s.canal.pol,
      q := tclear (fun k => k % 4 == 0) s.canal.q },
    urg := { s.urg with
      framers := [], pairs := (upto 4).foldl (fun t n => tmod {} t n (fun v => { v with offered := [] })) s.urg.pairs } }

/-- The device enters SAFE for cause `c` reported by a unit. -/
def enterSafe (c unit : Nat) (s : State) : State :=
  let s := { s with
    dev := { s.dev with state := .safe },
    safe := { s.safe with
      reason := c, unit := unit, time := now s, entries := s.safe.entries + 1, stopSeq := [], stopAt := [] } }
  let s := dropClass0 (dropRecords s)
  let s := (upto 8).foldl (fun s j => if jobRuns s j then endJob j s else s) s
  safeNotice (abortLong s)

/-- A cause of the same moment as the entry, before any SAFE_STOP: the lower code is the REASON (Table 19-5). -/
def sameCycle (c unit : Nat) (s : State) : State :=
  if s.safe.time = now s ∧ s.safe.stopSeq = [] ∧ c < s.safe.reason then { s with safe := { s.safe with reason := c, unit := unit } }
  else s

/-- A dangerous failure is detected (R612, R621): an entry to SAFE, one more active cause there, or in BOOT an entry when
BRINGUP begins. In PL2 to PL4 it is a wake source (R631). -/
def raiseCause (c unit : Nat) (s : State) : State :=
  let had := bit s.safe.active (c - 1)
  let s := if had then s else powerWake 5 none s
  let s := { s with safe := { s.safe with active := setBits s.safe.active (c - 1) 1 1 } }
  match s.dev.state with
  | .safe => if had then s else safeNotice (sameCycle c unit s)
  | .boot => s
  | _ => enterSafe c unit s

/-- A cause has cleared; in SAFE a STATE notice tells (R614). -/
def clearCause (c : Nat) (s : State) : State :=
  if bit s.safe.active (c - 1) then
    let s := { s with safe := { s.safe with active := setBits s.safe.active (c - 1) 1 0 } }
    if s.dev.state = .safe then safeNotice s else s
  else s

/-! ### Zone tests (R492) -/

/-- The place of a bin. -/
def binKey (sl y x : Nat) : Nat := (sl * 4096 + y) * 4096 + x

/-- The age of a bin. -/
def binAge (v : Up) (t sl : Nat) (x y : Int) : Nat :=
  if x < 0 ∨ y < 0 then neverAge else (stampAge (tget stampNever v.stamps (binKey sl y.toNat x.toNat)) t).1

/-- Bins of a zone newer than its window. -/
def zoneCount (v : Up) (z : UpZone) (t : Nat) : Nat :=
  (v.stamps.filter (fun e =>
    let x := e.1 % 4096
    let y := (e.1 / 4096) % 4096
    bit z.mask (e.1 / (4096 * 4096)) && decide (z.x0 ≤ x ∧ x ≤ z.x1 ∧ z.y0 ≤ y ∧ y ≤ z.y1)
      && decide ((stampAge e.2 t).1 < z.windowUs))).length

/-- The normal flow at a bin is slower than a limit in Q8.8 bins per ms; a rejected fit has speed 0. -/
def slower (v : Up) (z : UpZone) (t sl x y : Nat) : Bool :=
  match planeFitWith z.windowUs 6 1 0 (fun dx dy => binAge v t sl ((x : Int) + dx) ((y : Int) + dy)) 0 0 with
  | .ok vx vy _ _ _ _ => decide (vx * vx + vy * vy < (z.minSpeed : Int) * z.minSpeed)
  | _ => true

/-- One zone tested for one binned copy. -/
def testZone (n : Nat) (b : Bin) (poison : Bool) (v : Up) (i : Nat) (z : UpZone) : Up :=
  let t := b.t / 1000 % 2 ^ 24
  if ¬ bit z.mask b.sl ∨ ¬ (z.x0 ≤ b.bx ∧ b.bx ≤ z.x1 ∧ z.y0 ≤ b.hy ∧ b.hy ≤ z.y1) then v
  else if zoneCount v z t < z.minBins then v
  else if 0 < z.minSpeed ∧ slower v z t b.sl b.bx b.hy then v
  else if (tget none v.last i).any (fun l => decide ((stampAge l t).1 < z.rearmUs)) then v
  else
    let a : Alarm := ⟨n, i, b.sl, b.bx, b.hy, b.t, v.job, poison, (v.seq + 1) % 2 ^ 32⟩
    { v with last := tset none v.last i (some t), seq := (v.seq + 1) % 2 ^ 32, offered := v.offered ++ [a] }

/-- The pair is reset: its surface is cleared, nothing it holds leaves (R581), and its readiness bit is clear (R521). -/
def resetPair (n : Nat) (s : State) : State :=
  setReady (RB_UP + n) false (setUp s n { upOf s n with stamps := [], last := [], offered := [], resetting := true })

/-- UP_BINNED_COPY (R492, R581): the next binned copy of a pair; `mismatch` is the comparator's verdict, `parBad` that of the parity
check at its crossing (R30). -/
def upBinnedCopy (n : Nat) (mismatch parBad : Bool) (s : State) : State :=
  match tget [] s.upIn n with
  | [] => s
  | b :: r =>
    let b := { b with poison := b.poison || parBad }
    let s := crossParity (uUP n) parBad { s with upIn := tset [] s.upIn n r }
    if ¬ upRuns s n then s
    else if mismatch then raiseCause 1 (uUP n) (resetPair n s)
    else
      let v := upOf s n
      let v := { v with stamps := tset stampNever v.stamps (binKey b.sl b.hy b.bx) (storeStamp (b.t / 1000 % 2 ^ 24)) }
      setUp s n ((v.zones.zipIdx).foldl (fun v e => testZone n b b.poison v e.2 e.1) v)

/-! ### The policer (R224, R225) -/

/-- A policer. -/
def polOf (s : State) (h : Nat) : Policer := tget {} s.canal.pol h

/-- Changing it. -/
def setPol (s : State) (h : Nat) (v : Policer) : State :=
  { s with canal := { s.canal with pol := tset {} s.canal.pol h v } }

def polRate (s : State) (h : Nat) : Nat := rd s (uHUB h) CNL_UPQ.CL0_RATE
def polBurst (s : State) (h : Nat) : Nat := rd s (uHUB h) CNL_UPQ.CL0_BURST

/-- The ALARM body (Table 10-7); `big` gives the byte order of the alarm message. -/
def alarmBody (a : Alarm) (big : Bool) : List Byte :=
  let f (n v : Nat) : List Byte := if big then beBytes n v else leBytes n v
  f 8 a.t ++ f 4 a.seq ++ f 2 a.bx ++ f 2 a.hy ++ f 1 a.zone ++ f 1 (a.pair + (a.pair * 4 + a.sl) * 4) ++ f 2 (b2n a.poison)

/-- Something in class 0 reaches the framer of T1A or T1B. -/
def toFramer (p : Nat) (x : Cl0) (s : State) : State :=
  { s with urg := { s.urg with framers := tmod [] s.urg.framers p (· ++ [x]) } }

/-- An alarm that has passed the policer: to the framers its record names, and to its stream (R348). -/
def passAlarm (a : Alarm) (s : State) : State :=
  let v := upOf s a.pair
  let s := if bit v.ports 0 then toFramer 0 (.alarm a) s else s
  let s := if bit v.ports 1 then toFramer 1 (.alarm a) s else s
  if v.stream < 64 then putRecord v.stream 8 a.t (padTo 24 (alarmBody a false)) a.poison [] s else s

/-- Held alarms leave while there are tokens. -/
def drainHold (h : Nat) : Nat → State → State
  | 0, s => s
  | k + 1, s =>
    let v := polOf s h
    match v.hold with
    | [] => s
    | a :: r => if v.tokens = 0 then s else
        drainHold h k (passAlarm a (setPol s h { v with hold := r, tokens := v.tokens - 1 }))

/-- CL0_POLICE (R225): the pair's next alarm passes with a token, waits in the hold buffer, or stays with the pair. -/
def cl0Police (h : Nat) (s : State) : State :=
  let u := upOf s h
  match u.offered with
  | [] => s
  | a :: r =>
    if s.dev.state = .safe ∨ ¬ readyBit s (RB_HUB + h) then s else
    let v := polOf s h
    let s' := setUp s h { u with offered := r }
    if v.hold = [] ∧ 0 < v.tokens then passAlarm a (setPol s' h { v with tokens := v.tokens - 1 })
    else if v.hold.length < 64 then cnlBump (uHUB h) 5 (setPol s' h { v with hold := v.hold ++ [a] })
    else s

/-- CL0_TOKEN_ADD (R225): at each multiple of 10 µs. -/
def cl0TokenAdd (h : Nat) (s : State) : State :=
  let m := now s / 10000
  let v := polOf s h
  if m ≤ v.slot then s
  else drainHold h 64 (setPol s h { v with
    tokens := min (polBurst s h) (v.tokens + (m - v.slot) * polRate s h), slot := m })

/-- The bucket is full when the hub reports ready, CNL_UPQ is written, and the device leaves SAFE; what waits takes its tokens. -/
def fillPolicer (h : Nat) (s : State) : State :=
  drainHold h 64 (setPol s h { polOf s h with tokens := polBurst s h, slot := now s / 10000 })

/-- A step of device time that passes multiples of 10 µs adds CL0_RATE tokens once. -/
def policersAfterStep (s : State) : State :=
  (upto 4).foldl (fun s h =>
    if (polOf s h).slot = now s / 10000 then s else setPol s h { polOf s h with slot := now s / 10000 - 1 }) s

/-! ### Framers and probes (R348, R448, R610) -/

/-- A checker. -/
def chkOf (s : State) (p n : Nat) : Chk := tget {} s.urg.chk (p * 4 + n)

/-- Changing it. -/
def setChk (s : State) (p n : Nat) (v : Chk) : State := { s with urg := { s.urg with chk := tset {} s.urg.chk (p * 4 + n) v } }

/-- The checkers of a job's pairs are armed with a fresh limit. -/
def armProbes (j : Nat) (s : State) : State :=
  (upto 8).foldl (fun s i =>
    if (upOf s (i % 4)).used ∧ (upOf s (i % 4)).job = j then setChk s (i / 4) (i % 4) { since := now s } else s) s

/-- The checker of a port for a pair is armed (R610). -/
def chkArmed (s : State) (p n : Nat) : Bool :=
  upRuns s n && bit (upOf s n).ports p && decide (s.dev.level ≤ 1)
    && (s.dev.state == .running || s.dev.state == .degraded)

/-- The key of the probes of a pair (R610). -/
def probeKey (s : State) (n : Nat) : Nat := 0xFFFFFF00 + 4 * devId s + n

/-- PROBE_EMIT (R610): one probe every 1 ms, only where no alarm waits. -/
def probeEmit (n : Nat) (s : State) : State :=
  let v := upOf s n
  if ¬ upRuns s n ∨ now s < v.probeAt + 1000000 ∨ v.offered ≠ [] then s else
  let s := setUp s n { v with probeAt := now s }
  let s := if bit v.ports 0 then toFramer 0 (.probe (probeKey s n)) s else s
  if bit v.ports 1 then toFramer 1 (.probe (probeKey s n)) s else s

/-- PATH_PROBE (R610): no probe for 3.5 ms at an armed checker. -/
def pathProbe (p n : Nat) (s : State) : State :=
  if chkArmed s p n ∧ (chkOf s p n).since + 3500000 ≤ now s then
    raiseCause 4 (uETH p) (setChk s p n { chkOf s p n with good := 0 })
  else s

/-- An alarm message in class 0 from a framer (R448, R450): strict precedence 0 of the port. -/
def alarmFrame (p code : Nat) (body : List Byte) (s : State) : State :=
  let b := towBytes s { kind := 4, cls := 0, code := code, helm := s.tow.holder == p } body
  enqueue p 0 ⟨.alarm, rd s (uETH p) TOW_PORT.NOTIFY_IP4, rd s (uETH p) TOW_PORT.NOTIFY_PORT, b⟩ s

/-- ALARM_FRAMER_RX (R348, R610): a framer takes the next alarm or probe; `parBad` is the verdict of the parity check at its crossing
(R30, R578). -/
def alarmFramerRx (p : Nat) (parBad : Bool) (s : State) : State :=
  match tget [] s.urg.framers p with
  | [] => s
  | x :: r =>
    let s := crossParity (uETH p) parBad { s with urg := { s.urg with framers := tset [] s.urg.framers p r } }
    match x with
    | .probe k => match (upto 4).find? (fun n => k == probeKey s n) with
      | some n => setChk s p n ⟨now s, min 3 ((chkOf s p n).good + 1)⟩
      | none => s
    | .alarm a => if s.dev.state = .safe then s else alarmFrame p 1 (alarmBody { a with poison := a.poison || parBad } true) s

/-- SAFE_STOP_FRAME (R613): every 10 ms on T1A and T1B while their PHY is awake. -/
def safeStopFrame (p : Nat) (s : State) : State :=
  let q := tget 0 s.safe.stopSeq p
  if s.dev.state ≠ .safe ∨ 2 ≤ p ∨ ¬ (ethOf s p).phyUp ∨ (q ≠ 0 ∧ now s < tget 0 s.safe.stopAt p + 10000000) then s else
  let s := { s with safe := { s.safe with
    stopSeq := tset 0 s.safe.stopSeq p (q + 1), stopAt := tset 0 s.safe.stopAt p (now s) } }
  alarmFrame p 2 (beBytes 8 s.safe.time ++ beBytes 4 (q + 1) ++ beBytes 2 s.safe.reason ++ beBytes 6 0) s

def execUpBinnedCopy (pair : Nat) (mismatch parBad : Bool) (s : State) : Out := .next (upBinnedCopy pair mismatch parBad s)
def execCl0Police (hub : Nat) (s : State) : Out := .next (cl0Police hub s)
def execCl0TokenAdd (hub : Nat) (s : State) : Out := .next (cl0TokenAdd hub s)
def execProbeEmit (pair : Nat) (s : State) : Out := .next (probeEmit pair s)
def execPathProbe (port pair : Nat) (s : State) : Out := .next (pathProbe port pair s)
def execAlarmFramerRx (port : Nat) (parBad : Bool) (s : State) : Out := .next (alarmFramerRx port parBad s)
def execSafeStopFrame (port : Nat) (s : State) : Out := .next (safeStopFrame port s)

end Sys2Proof.Machine
end

