-- ==== Sys2Proof/Machine/Guest.lean ====
section
/-! DEFINITION. Guests and job checkpoints (R378 to R382, R595): entry of harts, the checkpoint hook, generations. -/
namespace Sys2Proof.Machine

/-- LKP_APXCNT (Table 11-8). -/
def apxBump (w : Nat) (s : State) : State := bump uDEV 0x0C0F w s

/-- The control page of a job. -/
def jobctlOf (s : State) (j : Nat) : JobCtl := tget {} s.apx.jobctl j

/-- Changing it. -/
def setJobctl (s : State) (j : Nat) (v : JobCtl) : State :=
  { s with apx := { s.apx with jobctl := tset {} s.apx.jobctl j v } }

/-- The time CSR of every hart (R365). -/
def timeCsr (s : State) : Nat := now s

/-- The timer interrupts of a hart are pending from the first tick at which time is at least the compare value (R365). -/
def timerPending (s : State) (h : Nat) : Bool := decide ((tget {} s.apx.harts h : Hart).stimecmp ≤ timeCsr s)
def guestTimerPending (s : State) (h : Nat) : Bool := decide ((tget {} s.apx.harts h : Hart).vstimecmp ≤ timeCsr s)

/-- Every hart of a job enters its guest in VS-mode with satp = 0 and the arguments of R378. -/
def enterHarts (j a1 a2 a3 : Nat) (s : State) : State :=
  let v := jobOf s j
  ((maskBits 8 v.harts).zipIdx).foldl (fun s e =>
    { s with apx := { s.apx with harts := tmod {} s.apx.harts e.1 (fun h => { h with
        mode := .vs, satp := 0, inGuest := true, job := j, pc := v.entry, a0 := j, a1 := a1, a2 := a2, a3 := a3, a4 := e.2 }) } }) s

/-- The job that owns the fusion outputs. -/
def fusJob (s : State) : Nat := rd s uFUS FUS_GRID.JOB

/-- Fusion state as a checkpoint holds it (R338). -/
def fusCkpt (s : State) : FusCkpt :=
  { lastTick := s.fus.lastTick, nextId := s.fus.nextId, prev := s.fus.prev, sweeps := s.fus.sweeps.map (fun e => (e.1, e.2.take 1)),
    prevT1 := s.fus.prevT1, lies := s.fus.srcs.map (fun e => (e.1, e.2.lie, e.2.bad, e.2.good)) }

/-- The generation a checkpoint of a job would take (R379): the one after the last committed. -/
def nextGen (s : State) (j : Nat) : Nat := (match (jobOf s j).committed with | some c => c.gen | none => 0) + 1

/-- A generation begins (R379, R595): the CHECKPOINT interrupt, generation and half in LKP_JOBCTL. A job without a guest has
nothing to acknowledge. A second one does not begin while one is in progress. -/
def ckptBegin (j win : Nat) (berths : List Nat) (s : State) : State :=
  let v := jobOf s j
  match v.ckptRun with
  | some r => setJob s j { v with ckptRun := some { r with berths := r.berths ++ berths } }
  | none =>
    if ¬ jobTakes s j ∨ v.stopping.isSome then s else
    let k := nextGen s j
    let half := v.ckptBase + k % 2 * v.ckptHalf
    let r : CkptRun := {
      gen := k, half := half, win := win, due := now s + v.ckptGrace * 1000, acked := v.harts == 0, berths := berths,
      asked := berths != [], oldWin := v.ckptWin, oldGen := v.gen, oldLast := v.lastCkpt,
      oldCtl := ((jobctlOf s j).ckptGen, (jobctlOf s j).ckptHalf) }
    let s := setJob s j { v with ckptRun := some r, ckptWin := some (v.ckptWin.getD win), gen := k, lastCkpt := now s }
    let s := if fusJob s = j then { s with fus := { s.fus with ckptNew := fusCkpt s } } else s
    if v.harts = 0 then s
    else raiseMsi j 0 1 (setJobctl s j { jobctlOf s j with ckptGen := k, ckptHalf := half })

/-- The neurons of a core as they stood at the end of a checkpoint's window. -/
def ckptNeurons (s : State) (c : Nat) : Tbl Nat × Tbl Nat :=
  let v := neOf s c
  (tget [] s.pass.ckptUndo c).foldl (fun a u => (tset 0 a.1 u.neuron u.word, tset stampNever a.2 u.neuron u.stamp))
    (v.words, v.stamps)

/-- The engine state of a generation (R168, R595), under the cores that the image names. -/
def ckptSnap (s : State) (j : Nat) (r : CkptRun) : CkptGen :=
  let cs := jobCores s j
  let from_ (c : Nat) : Nat := uindex (originOf s (uC c))
  { gen := r.gen, half := r.half,
    words := cs.flatMap (fun c => (ckptNeurons s c).1.map (fun e => (from_ c * 65536 + e.1, e.2))),
    stamps := cs.flatMap (fun c => (ckptNeurons s c).2.map (fun e => (from_ c * 65536 + e.1, e.2))),
    steps := (cs.filter (fun c => stepped s c)).map (fun c => (from_ c, (tget none s.pass.ckptStep c).getD (neOf s c).step)) }

/-- The generation commits once its window has committed and the guest has acknowledged it. -/
def ckptTry (j : Nat) (s : State) : State :=
  let v := jobOf s j
  match v.ckptRun with
  | some r =>
    match r.snap with
    | some g =>
      if r.acked then
        let s := setJob s j { v with ckptRun := none, committed := some g }
        let s := if fusJob s = j then { s with fus := { s.fus with ckptOld := s.fus.ckptNew } } else s
        r.berths.foldl (fun s b => finishBerth b ST_OK (beBytes 4 r.gen) s) s
      else s
    | none => s
  | none => s

/-- A window of a job has committed: the state of a checkpoint that waits for it is kept. -/
def ckptWindow (j w : Nat) (s : State) : State :=
  let v := jobOf s j
  match v.ckptRun with
  | some r =>
    if r.win ≤ w ∧ r.snap.isNone then
      let s' := setJob s j { v with ckptRun := some { r with snap := some (ckptSnap s j r) }, ckptWin := none }
      ckptTry j (setPass s' { s'.pass with
        ckptUndo := (jobCores s' j).foldl (fun t c => tset [] t c []) s'.pass.ckptUndo,
        ckptStep := (jobCores s' j).foldl (fun t c => tset none t c none) s'.pass.ckptStep })
    else s
  | none => s

/-- CKPT_ACK (R379): the guest acknowledges a generation within its grace. -/
def ckptAck (j gen : Nat) (s : State) : State :=
  let s := setJobctl s j { jobctlOf s j with ckptAck := gen % 2 ^ 32 }
  let v := jobOf s j
  match v.ckptRun with
  | some r =>
    if r.gen = gen ∧ now s ≤ r.due then ckptTry j (setJob s j { v with ckptRun := some { r with acked := true } }) else s
  | none => s

/-- CKPT_GRACE_EXPIRY (R379): the whole generation is discarded. -/
def ckptExpiry (j : Nat) (s : State) : State :=
  match (jobOf s j).ckptRun with
  | some r => if ¬ r.acked ∧ r.due ≤ now s then apxBump 5 (dropCkpt j s) else s
  | none => s

/-- CHECKPOINT_PERIOD (R595): with CKPT_CYCLES 0, a generation every CKPT_MS. -/
def ckptPeriod (j : Nat) (s : State) : State :=
  let v := jobOf s j
  if j < 8 ∧ bits v.spjob0 48 8 = 0 ∧ v.lastCkpt + bits v.spjob1 0 16 * 1000000 ≤ now s then
    ckptBegin j (jobWindow s j) [] s
  else s

/-- A fusion cycle of the owning job ends: every CKPT_CYCLES-th takes a generation (R595). -/
def cycleEnds (tick : Nat) (s : State) : State :=
  let j := fusJob s
  let v := jobOf s j
  let n := bits v.spjob0 48 8
  if n = 0 then s
  else if n ≤ v.cyclesSince + 1 then
    ckptBegin j (winOfTime s j tick) [] (setJob s j { v with cyclesSince := 0 })
  else setJob s j { v with cyclesSince := v.cyclesSince + 1 }

/-- The tick of the cycle that will take a generation: the state of its window is kept from here on (R595). -/
def cycleTick (tick : Nat) (s : State) : State :=
  let j := fusJob s
  let v := jobOf s j
  let n := bits v.spjob0 48 8
  if n ≠ 0 ∧ n ≤ v.cyclesSince + 1 ∧ v.ckptRun.isNone ∧ v.ckptWin.isNone then
    setJob s j { v with ckptWin := some (winOfTime s j tick) }
  else s

def execCkptAck (job gen : Nat) (s : State) : Out := .next (ckptAck job gen s)
def execCkptGraceExpiry (job : Nat) (s : State) : Out := .next (ckptExpiry job s)
def execCheckpointPeriod (job : Nat) (s : State) : Out := .next (ckptPeriod job s)

end Sys2Proof.Machine
end

