-- ==== Sys2Proof/Machine/Fusion.lean ====
section
/-! DEFINITION. The fusion engine (R308 to R324, R335, R336): contributions, the fusion tick, projection, consistency,
confidence, the grid stage. -/
namespace Sys2Proof.Machine

/-- FUS_CNT (Table 9-9): words 0 to 8 of the engine, 9 to 16 of a source. -/
def fusBump (w : Nat) (s : State) : State := bump uFUS 0x070F w s
def fusBumpN (n w : Nat) (s : State) : State := bumpN n uFUS 0x070F w s
def srcBump (k w : Nat) (s : State) : State := bump uFUS 0x070F w s k

/-- A field of FUS_GRID and its neighbours, and of a source. -/
def fg (s : State) (f : Fld) : Nat := rd s uFUS f
def fsF (s : State) (k : Nat) (f : Fld) : Nat := rd s uFUS f k

/-- A source. -/
def srcOf (s : State) (k : Nat) : FusSrc := tget {} s.fus.srcs k

/-- Changing it. -/
def setSrc (s : State) (k : Nat) (v : FusSrc) : State :=
  { s with fus := { s.fus with srcs := tset {} s.fus.srcs k v } }

/-- The engine works: ready and clocked, its job takes input, outside SAFE. -/
def fusTakes (s : State) : Bool :=
  readyBit s RB_FUS && s.dev.state != .safe && jobTakes s (fusJob s) && islandRuns s uFUS

/-! ### The registers of a tick (R337) -/

/-- A key of the fusion engine's registers. -/
def isFusKey (k : Nat) : Bool := k / (32 * 65536 * 65536) == uFUS

/-- The fusion engine's registers. -/
def fusRegs (s : State) : Tbl W64 := s.regs.filter (fun e => isFusKey e.1)

/-- The registers with the fusion engine's replaced. -/
def withFusRegs (cfg : Tbl W64) (s : State) : State :=
  { s with regs := cfg.foldl (fun t e => fset regDefault t e.1 e.2) (tclear isFusKey s.regs) }

/-- An operation of the engine under the registers that a tick found: what is written since acts from the next tick on. -/
def heldAt (cfg : Tbl W64) (f : State → State) (s : State) : State := withFusRegs (fusRegs s) (f (withFusRegs cfg s))

/-- An operation between ticks: under the registers of the latest tick, if there was one. -/
def heldAtTick (f : State → State) (s : State) : State :=
  match s.fus.cfg with
  | some c => heldAt c f s
  | none => f s

/-! ### The grid (R308, R309) -/

def tilesX (s : State) : Nat := fg s FUS_GRID.TILES_X_M1 + 1
def tilesY (s : State) : Nat := fg s FUS_GRID.TILES_Y_M1 + 1
def gridW (s : State) : Nat := 32 * tilesX s
def gridH (s : State) : Nat := 32 * tilesY s

/-- Format code of Table 7-2, and bytes of an element. -/
def gridFmt (s : State) : Nat := match fg s FUS_GRID.GRID_FMT with | 0 => 1 | 1 => 9 | _ => 10
def gridE (s : State) : Nat := if fg s FUS_GRID.GRID_FMT = 0 then 1 else 2

/-- Bytes of a plane and of a buffer. -/
def gridPlane (s : State) : Nat := gridW s * gridH s * gridE s
def gridSize (s : State) : Nat := (64 * gridPlane s + gridW s * gridH s + 63) / 64 * 64
def gridAddr (s : State) (b : Nat) : Nat := fg s FUS_GRID.GRID_BASE + b * gridSize s

/-- The cell pitch in metres, FP32. -/
def pitchM (s : State) : Nat := fdiv (fint (fg s FUS_GRID.PITCH_MM)) (fint 1000)

/-- The cell of a vehicle coordinate on an axis. -/
def cellOf (s : State) (v origin : Nat) : Option Int := fvFloor (f32v (fdiv (fsub v origin) (pitchM s)))

/-- Tick k, and the latest tick that device time has reached. -/
def tickTime (s : State) (k : Nat) : Nat := fg s FUS_GRID.PHASE_US * 1000 + k * (fg s FUS_GRID.CYCLE_US * 1000)
def tickNow (s : State) : Option Nat :=
  if now s < fg s FUS_GRID.PHASE_US * 1000 then none
  else some ((now s - fg s FUS_GRID.PHASE_US * 1000) / max 1 (fg s FUS_GRID.CYCLE_US * 1000))

/-- The first tick at or after a time. -/
def tickAfter (s : State) (t : Nat) : Nat :=
  let c := max 1 (fg s FUS_GRID.CYCLE_US * 1000)
  let p := fg s FUS_GRID.PHASE_US * 1000
  if t ≤ p then p else p + (t - p + c - 1) / c * c

/-! ### Contributions (R311 to R313, R316, R320) -/

/-- Bytes of an element of a FEATURE map, of a snapshot, and the address of a slot. -/
def srcE (s : State) (k : Nat) : Nat := fmtBits (fsF s k FUS_SRC.IN_FMT) / 8
def srcW (s : State) (k : Nat) : Nat := fsF s k FUS_SRC.SRC_W_M1 + 1
def srcH (s : State) (k : Nat) : Nat := fsF s k FUS_SRC.SRC_H_M1 + 1
def snapSize (s : State) (k : Nat) : Nat :=
  if fsF s k FUS_SRC.KIND = 1 then fsF s k FUS_SRC.CH_COUNT * gridH s * gridW s
  else fsF s k FUS_SRC.CH_COUNT * srcH s k * srcW s k * srcE s k
def slotOf (s : State) (k i : Nat) : Nat := fsF s k FUS_SRC.SNAP_BASE + i * ((snapSize s k + 63) / 64 * 64)

/-- Copying memory with its poison. -/
def copyRam (src dst n : Nat) (s : State) : State :=
  let bad := (upto n).filter (fun i => ramBad s (src + i) 1)
  bad.foldl (fun s i => setRamBad s (dst + i) 1 true) (ramPut s dst (ramBytes s src n))

/-- A contribution completes (R313, R320). -/
def contribDone (k : Nat) (c : Contrib) (s : State) : State :=
  let v := srcOf s k
  if v.latest.any (fun l => decide (c.tov ≤ l.tov)) then srcBump k 10 (setSrc s k { v with fill := none })
  else
    let late : Bool := tickAfter s c.tov ≤ now s
    let s := setSrc s k { v with
      fill := none, before := v.latest, latest := some { c with done_ := now s, late := late } }
    if late then srcBump k 9 s else s

/-- A contribution that completes: TIME_SUSPECT when its source's port was at any moment since its window, frame or sweep began
(R312). -/
def suspectSince (s : State) (k : Nat) (c : Contrib) : Contrib :=
  { c with sus := c.sus || (fsF s k FUS_SRC.SLUICE_EN == 1 && badSince s (fsF s k FUS_SRC.SLUICE) c.from_) }

/-- SNAPSHOT_COPY_DONE (R311, R312). -/
def snapshotDone (k : Nat) (s : State) : State :=
  let v := srcOf s k
  match v.fill with
  | none => s
  | some c =>
    if fsF s k FUS_SRC.KIND ≠ 0 ∨ 32 ≤ k then s else
    let s := copyRam (fsF s k FUS_SRC.SRC_ADDR) (slotOf s k c.slot) (snapSize s k) s
    contribDone k (suspectSince s k c) s

/-- Element i of the extrinsic of a source. -/
def extF (s : State) (k i : Nat) : Nat := bits (regWord s uFUS 0x0702 k (10 + i / 2)) (32 * (i % 2)) 32

/-- A sensor point in the vehicle frame, one coordinate (R316). -/
def extRow (s : State) (k r x y z : Nat) : Nat :=
  fadd (fadd (fadd (fmul (extF s k (4 * r)) x) (fmul (extF s k (4 * r + 1)) y)) (fmul (extF s k (4 * r + 2)) z))
    (extF s k (4 * r + 3))

/-- The count a point falls into: plane, row and column. -/
def pointCell (s : State) (k x y z : Nat) : Option (Nat × Nat × Nat) :=
  let px := extRow s k 0 x y z
  let py := extRow s k 1 x y z
  let pz := extRow s k 2 x y z
  match cellOf s px (fg s FUS_GRID.ORIGIN_X), cellOf s py (fg s FUS_GRID.ORIGIN_Y),
      fvFloor (f32v (fdiv (fsub pz (fsF s k FUS_SRC.Z_MIN)) (fsF s k FUS_SRC.Z_STEP))) with
  | some gx, some gy, some h =>
    if 0 ≤ gx ∧ gx < gridW s ∧ 0 ≤ gy ∧ gy < gridH s ∧ 0 ≤ h ∧ h < fsF s k FUS_SRC.CH_COUNT then
      some (h.toNat, gy.toNat, gx.toNat) else none
  | _, _, _ => none

/-- The address of a count. -/
def countAddr (s : State) (k slot h gy gx : Nat) : Nat := slotOf s k slot + (h * gridH s + gy) * gridW s + gx

/-- Counting one point (R316, R317): a count that poison has reached stays poisoned. -/
def countPoint (k slot x y z : Nat) (bad : Bool) (s : State) : State :=
  match pointCell s k x y z with
  | none => srcBump k 16 s
  | some (h, gy, gx) =>
    let a := countAddr s k slot h gy gx
    let bad := bad || ramBad s a 1
    let s := ramPut s a [BitVec.ofNat 8 (min 255 (ramNat s a 1 + 1))]
    if bad then setRamBad s a 1 true else s

/-- A LIDAR source votes in a cell (file 09): its count in OCC_CH is at least OCC_THR. -/
def lidarVote (s : State) (k slot gy gx : Nat) : Bool :=
  fle (fsF s k FUS_SRC.OCC_THR) (fint (ramNat s (countAddr s k slot (fsF s k FUS_SRC.OCC_CH) gy gx) 1))

/-- The vote window of a sweep (R327): 128 × 128 cells centred on the cell of the vehicle origin. -/
def sweepCells (s : State) (k slot : Nat) : List (Nat × Nat) :=
  match cellOf s f0 (fg s FUS_GRID.ORIGIN_X), cellOf s f0 (fg s FUS_GRID.ORIGIN_Y) with
  | some ox, some oy =>
    (upto 16384).filterMap (fun i =>
      let gx := ox - 64 + (i % 128 : Nat)
      let gy := oy - 64 + (i / 128 : Nat)
      if 0 ≤ gx ∧ gx < gridW s ∧ 0 ≤ gy ∧ gy < gridH s ∧ lidarVote s k slot gy.toNat gx.toNat then
        some (i % 128, i / 128) else none)
  | _, _ => []

/-- The end of a sweep. -/
def sweepEnd (k : Nat) (c : Contrib) (s : State) : State :=
  let fresh : Bool := (srcOf s k).latest.all (fun l => decide (l.tov < c.tov))
  let s := if fresh then
      { s with fus := { s.fus with
          sweeps := tmod [] s.fus.sweeps k (fun l => (⟨c.tov, sweepCells s k c.slot⟩ :: l).take 2)
          newSweep := k :: s.fus.newSweep.filter (· != k) } }
    else s
  contribDone k (suspectSince s k c) s

/-- The next FUS_PT record of a source's queue, under the registers of the latest tick; a residue mismatch poisons the count that it
forms (R579). -/
def takeRecord (k : Nat) (residueBad : Bool) (s : State) : State :=
  let q := fsF s k FUS_SRC.QUEUE
  if ¬ fusTakes s ∨ 32 ≤ k ∨ fsF s k FUS_SRC.VALID = 0 ∨ fsF s k FUS_SRC.KIND ≠ 1 then s else
  match (queueOf s q).latched with
  | a :: b :: c :: d :: rest =>
    let s := setQueue s q { queueOf s q with latched := rest }
    let flags := bits d.w 16 16
    let bad := a.poison || b.poison || c.poison || d.poison
    let s := if residueBad then reportResidue uFUS (fusJob s) s else s
    let bad := bad || residueBad
    let s := if bad then consumePoison (fusJob s) uFUS s else s
    let v := srcOf s k
    if bit flags 1 then
      let v := { v with fill := none }
      let tov := a.w % 2 ^ 32 + b.w % 2 ^ 32 * 2 ^ 32
      let v := beginFill v tov tov (bit flags 2)
      let s := setSrc s k v
      let at_ := slotOf s k ((v.fill.map (·.slot)).getD 0)
      let n := snapSize s k
      let s := ramClear s at_ n
      match v.fill with
      | some f => if bit flags 0 then sweepEnd k f s else s
      | none => s
    else
      match v.fill with
      | none => srcBump k 16 s
      | some f =>
        let f := { f with sus := f.sus || bit flags 2 }
        let s := setSrc s k { v with fill := some f }
        let s := countPoint k f.slot (a.w % 2 ^ 32) (b.w % 2 ^ 32) (c.w % 2 ^ 32) bad s
        if bit flags 0 then sweepEnd k f s else s
  | _ => s

/-- LIDAR_RECORD (R316). -/
def lidarRecord (k : Nat) (residueBad : Bool) (s : State) : State := heldAtTick (takeRecord k residueBad) s

/-! ### The fusion tick (R319, R321) -/

/-- The contribution eligible at a tick: completed before it. -/
def eligible (v : FusSrc) (t : Nat) : Option Contrib :=
  match v.latest with
  | some c => if c.done_ < t then some c else v.before.filter (fun c => decide (c.done_ < t))
  | none => none

/-- Reasons of R336: 1 DROPOUT, 2 STALE, 4 TIME, 8 LIE, 16 FORCED. -/
def maskReason (s : State) (k t : Nat) (v : FusSrc) (c : Contrib) : Nat :=
  b2n (fsF s k FUS_SRC.FORCE_MASK = 1) * 16 + b2n (fsF s k FUS_SRC.TIMEOUT_MS * 1000000 < t - c.done_)
    + b2n ((fsF s k FUS_SRC.MAX_AGE_MS * 1000000 : Int) < (t : Int) - c.tov) * 2 + b2n c.sus * 4 + b2n v.lie * 8

/-- The state of one source at a tick. -/
def tickSource (t k : Nat) (s : State) : State :=
  if fsF s k FUS_SRC.VALID = 0 ∨ fsF s k FUS_SRC.KIND = 2 then s else
  let v := srcOf s k
  match eligible v t with
  | none => setSrc s k { v with state := 0, reason := 0, ageUs := 0, inUse := none }
  | some c =>
    let r := maskReason s k t v c
    let s := if bit r 0 then srcBump k 11 s else s
    let s := if bit r 1 then srcBump k 12 s else s
    let s := if bit r 2 then srcBump k 13 s else s
    let s := if bit r 3 then srcBump k 14 s else s
    setSrc s k { v with
      state := if r = 0 then 1 else 2, reason := r, ageUs := min (2 ^ 32 - 1) ((t - c.tov) / 1000),
      inUse := if r = 0 ∨ r = 8 then some c else none }

/-- Sources of a kind of state at the latest tick. -/
def srcList (s : State) (p : FusSrc → Bool) : List Nat :=
  (upto 32).filter (fun k => fsF s k FUS_SRC.VALID == 1 && fsF s k FUS_SRC.KIND != 2 && p (srcOf s k))
def maskOf (l : List Nat) : Nat := (l.map (2 ^ ·)).sum

/-- A grid buffer that nobody holds. -/
def freeGrid (s : State) : Option Nat := (upto 3).find? (fun i => tget 0 s.fus.bufHold i == 0)

/-- The cycle of tick k from the sources' states. -/
def newCycle (s : State) (k t buf : Nat) : FusCycle :=
  let used := srcList s (fun v => v.state == 1)
  let tovs := used.filterMap (fun i => (srcOf s i).inUse.map (·.tov))
  let t1 : Int := (t : Int) - fg s FUS_GRID.EGO_DELAY_US * 1000
  { tick := t, cycle := k % 2 ^ 32, tov := if used = [] then t else tovs.foldl max 0,
    oldest := if used = [] then 0 else t - tovs.foldl min t, used := maskOf used,
    masked := maskOf (srcList s (fun v => v.state == 2)),
    late := maskOf (used.filter (fun i => (srcOf s i).inUse.any (·.late))), empty := used == [], buf := buf,
    t0 := s.fus.prevT1.getD (t1 - fg s FUS_GRID.CYCLE_US * 1000), t1 := t1,
    swept := s.fus.newSweep.contains (fg s FUS_EGO.LIDAR_SRC), cfg := fusRegs s }

/-- A cycle begins on a free grid buffer (R319, R321). -/
def startCycle (t k b : Nat) (s : State) : State :=
  let s := (upto 32).foldl (fun s i => tickSource t i s) s
  let c := newCycle s k t b
  cycleTick t { s with fus := { s.fus with
    grid := some c, ego := s.fus.ego ++ [c], prevT1 := some c.t1, newSweep := [],
    bufHold := tmod 0 s.fus.bufHold b (· + 1) } }

/-- A tick begins a cycle, or is counted when no buffer or no grid stage is free for it. -/
def tickCycle (k : Nat) (s : State) : State :=
  match freeGrid s with
  | some b => if s.fus.grid.isSome then fusBump 1 s else startCycle (tickTime s k) k b s
  | none => fusBump 1 s

/-- The guest's tick notice (Table 11-6). -/
def tickMsi (s : State) : State :=
  let j := fusJob s
  if (jobctlOf s j).tickEn then raiseMsi j (jobOf s j).tickHart 3 s else s

/-- Tick k, once: the registers as it finds them act until the next one (R337). -/
def tickAt (k : Nat) (s : State) : State :=
  if ¬ fusTakes s ∨ fg s FUS_GRID.ENABLE = 0 ∨ s.fus.lastTick.any (fun l => decide (k ≤ l)) then s
  else tickCycle k (tickMsi { s with fus := { s.fus with lastTick := some k, cfg := some (fusRegs s) } })

/-- FUSION_TICK (R319, R321): the latest tick reached, once. -/
def fusionTick (s : State) : State := (tickNow s).elim s (fun k => tickAt k s)

/-! ### Projection (R314, R315) -/

/-- An accumulator of a channel and cell. -/
structure CellAcc where
  acc : Nat := f0
  wsum : Nat := 0
  direct : Bool := false
  bad : Bool := false
deriving DecidableEq, Repr

/-- The key of a channel or source and a cell. -/
def cellKey (c y x : Nat) : Nat := (c * 1024 + y) * 1024 + x

/-- The entries of a source listed for tile g. -/
def lutEntries (s : State) (k g : Nat) : List Nat :=
  let w := ramNat s (fsF s k FUS_SRC.TILE_INDEX + 8 * g) 8
  (upto (bits w 32 32)).map (fun i => ramNat s (fsF s k FUS_SRC.LUT_BASE + 8 * (bits w 0 32 + i)) 8)

/-- The four cells of an entry with their weights. -/
def entryCells (w : Nat) : List (Nat × Nat × Nat) :=
  let f := fldOf [w]
  (upto 4).map (fun k =>
    let wx := if k % 2 = 1 then f FUS_LUT.FX else 256 - f FUS_LUT.FX
    let wy := if k / 2 = 1 then f FUS_LUT.FY else 256 - f FUS_LUT.FY
    (f FUS_LUT.GX + k % 2, f FUS_LUT.GY + k / 2, wx * wy))

/-- A cell lies in tile g. -/
def inTile (s : State) (g x y : Nat) : Bool := x / 32 == g % tilesX s && y / 32 == g / tilesX s

/-- A value of a snapshot times IN_SCALE, with its poison. -/
def snapVal (s : State) (k slot j y x : Nat) : Nat × Bool :=
  let e := srcE s k
  let a := slotOf s k slot + ((j * srcH s k + y) * srcW s k + x) * e
  (fmul (f32 (elemValue (fsF s k FUS_SRC.IN_FMT) (ramNat s a e))) (fsF s k FUS_SRC.IN_SCALE), ramBad s a e)

/-- One entry of a FEATURE source added to the cells of tile g. -/
def addEntryCells (s : State) (k slot g w : Nat) (m : Tbl CellAcc) : Tbl CellAcc :=
  let f := fldOf [w]
  if f FUS_LUT.VALID = 0 then m else
  let b := fsF s k FUS_SRC.CH_BASE
  (entryCells w).foldl (fun m c =>
    if c.2.2 = 0 ∨ ¬ inTile s g c.1 c.2.1 then m else
    (upto (fsF s k FUS_SRC.CH_COUNT)).foldl (fun m j =>
      let (v, bad) := snapVal s k slot j (f FUS_LUT.BIN_Y) (f FUS_LUT.BIN_X)
      tmod {} m (cellKey (b + j) c.2.1 c.1) (fun a => { a with
        acc := fadd a.acc (fmul (fint c.2.2) v), wsum := (a.wsum + c.2.2) % 2 ^ 32, bad := a.bad || bad })) m) m

/-- The counts of a LIDAR source in tile g. -/
def addCounts (s : State) (k slot g : Nat) (m : Tbl CellAcc) : Tbl CellAcc :=
  (upto (fsF s k FUS_SRC.CH_COUNT)).foldl (fun m j =>
    (upto 1024).foldl (fun m i =>
      let x := g % tilesX s * 32 + i % 32
      let y := g / tilesX s * 32 + i / 32
      let a := countAddr s k slot j y x
      tmod {} m (cellKey (fsF s k FUS_SRC.CH_BASE + j) y x) (fun c => { c with
        acc := fmul (fint (ramNat s a 1)) (fsF s k FUS_SRC.IN_SCALE), direct := true, bad := c.bad || ramBad s a 1 })) m) m

/-- The votes of a source in tile g (file 09, "Masking and confidence"). -/
def addVotes (s : State) (k slot g : Nat) (m : Tbl Bool) : Tbl Bool :=
  if fsF s k FUS_SRC.KIND = 1 then
    (upto 1024).foldl (fun m i =>
      let x := g % tilesX s * 32 + i % 32
      let y := g / tilesX s * 32 + i / 32
      if lidarVote s k slot y x then tset false m (cellKey k y x) true else m) m
  else
    (lutEntries s k g).foldl (fun m w =>
      let f := fldOf [w]
      let v := snapVal s k slot (fsF s k FUS_SRC.OCC_CH) (f FUS_LUT.BIN_Y) (f FUS_LUT.BIN_X)
      if f FUS_LUT.VALID = 0 ∨ ¬ fle (fsF s k FUS_SRC.OCC_THR) v.1 then m else
      match (entryCells w).foldl (fun (b : Option (Nat × Nat × Nat)) c =>
          match b with
          | none => some c
          | some o => if o.2.2 < c.2.2 then some c else some o) none with
      | some c => if inTile s g c.1 c.2.1 then tset false m (cellKey k c.2.1 c.1) true else m
      | none => m) m

/-- Everything the sources add to tile g. -/
def buildTile (s : State) (g : Nat) : Tbl CellAcc :=
  (srcList s (fun v => v.state == 1)).foldl (fun m k =>
    match (srcOf s k).inUse with
    | none => m
    | some c =>
      if fsF s k FUS_SRC.KIND = 1 then addCounts s k c.slot g m
      else (lutEntries s k g).foldl (fun m w => addEntryCells s k c.slot g w m) m) []

/-- The parameters of the float path for a grid element: no bias, GRID_SCALE, no zero point. -/
def gridRq (s : State) : RqEnt := ⟨[fg s FUS_GRID.GRID_SCALE * 2 ^ 32], false⟩

/-- The stored element of an accumulator: the float path of R262 without activation. -/
def gridElem (s : State) (a : CellAcc) : OutEl :=
  let f : Nat := if a.direct then a.acc else if 0 < a.wsum then fdiv a.acc (fint a.wsum) else f0
  rqFloat (gridRq s) 0 (gridFmt s) true ⟨f, a.bad⟩

/-! ### Coverage, confidence, consistency (R323, R324) -/

/-- The coverage value of a source at a cell. -/
def coverage (s : State) (k y x : Nat) : Nat :=
  let d := 2 ^ fsF s k FUS_SRC.COV_DS
  ramNat s (fsF s k FUS_SRC.COV_BASE + y / d * ((gridW s + d - 1) / d) + x / d) 1

/-- fresh_s of R324, in unsigned 32-bit integers. -/
def freshOf (s : State) (k t : Nat) (c : Contrib) : Nat :=
  let q : Nat := (t - c.tov) / 1000 * 256 % 2 ^ 32 / max 1 (fsF s k FUS_SRC.MAX_AGE_MS * 1000)
  lowBits 32 (256 - (q : Int))

/-- The confidence of a cell, in unsigned 32-bit integers. -/
def confidence (s : State) (used : List Nat) (t y x : Nat) : Nat :=
  min 255 ((used.map (fun k =>
    match (srcOf s k).inUse with
    | some c => coverage s k y x * freshOf s k t c
    | none => 0)).sum % 2 ^ 32 / 256)

/-- Cells that a scored source compares and agrees on. -/
def scoreCells (s : State) (votes : Tbl Bool) (used : List Nat) (k : Nat) : Nat × Nat :=
  (upto (gridW s * gridH s)).foldl (fun (r : Nat × Nat) i =>
    let x := i % gridW s
    let y := i / gridW s
    let others := used.filter (fun o => o != k && coverage s o y x != 0)
    if coverage s k y x = 0 ∨ others = [] then r else
    let mine := tget false votes (cellKey k y x)
    let yes := (others.filter (fun o => tget false votes (cellKey o y x))).length
    let no := others.length - yes
    let cons := if no < yes then true else if yes < no then false else mine
    (r.1 + 1, r.2 + b2n (mine == cons))) (0, 0)

/-- The lie state of a source after a cycle with score `sc` (R323). -/
def updateLie (s : State) (k sc : Nat) (v : FusSrc) : FusSrc :=
  let low : Bool := sc < fsF s k FUS_SRC.SCORE_MIN
  let bad := if low then min (v.bad + 1) 15 else 0
  let good := if low then 0 else min (v.good + 1) 15
  let lie := v.lie || decide (fsF s k FUS_SRC.LIE_CYCLES ≤ bad)
  { v with score := sc, bad := bad, good := good, lie := lie && !decide (fsF s k FUS_SRC.CLEAR_CYCLES ≤ good) }

/-- The score of one source from the cells it compares and agrees on; the quotient of no cells is a free value. -/
def scoreSource (k compared agree : Nat) (s : State) : State :=
  if compared < fsF s k FUS_SRC.MIN_OVERLAP then s
  else
    let (sc, s) : Nat × State := if compared = 0 then drawFree 8 s else (255 * agree / compared, s)
    setSrc s k (updateLie s k sc (srcOf s k))

/-! ### Records (R330, R335) -/

/-- FUS_META (Table 9-8). -/
def fusMeta (c : FusCycle) (count : Nat) (missed poison : Bool) : List Byte :=
  leBytes 8 c.tick ++ leBytes 8 c.tov ++ leBytes 8 c.oldest ++ leBytes 4 c.cycle ++ leBytes 4 c.used ++ leBytes 4 c.masked
    ++ leBytes 4 c.late ++ leBytes 8 (count + b2n c.empty * 2 ^ 16 + b2n missed * 2 ^ 17 + b2n poison * 2 ^ 18)

/-- Bytes of a rectangle of a plane. -/
def planeTile (s : State) (base e g : Nat) : List Byte :=
  (upto 32).flatMap (fun y =>
    ramBytes s (base + ((g / tilesX s * 32 + y) * gridW s + g % tilesX s * 32) * e) (32 * e))

/-- The GRID_TILE record of tile g (R347). -/
def gridRecord (c : FusCycle) (g : Nat) (bad : Bool) (s : State) : State :=
  let b := gridAddr s c.buf
  let body := fusMeta c 0 false c.poison ++ leBytes 16 (g % tilesX s + g / tilesX s * 32 + fg s FUS_GRID.GRID_FMT * 1024)
    ++ (upto 64).flatMap (fun ch => planeTile s (b + ch * gridPlane s) (gridE s) g)
    ++ planeTile s (b + 64 * gridPlane s) 1 g
  putRecord (fg s FUS_GRID.GRID_STREAM) 4 c.tov body bad [] s

/-- An OBJECTS record. -/
def objectsRecord (c : FusCycle) (missed : Bool) (bodies : List (List Byte)) (bad : Bool) (s : State) : State :=
  putRecord (fg s FUS_GRID.OBJ_STREAM) 5 c.tov (fusMeta c bodies.length missed (c.poison || bad) ++ bodies.flatten)
    (c.poison || bad) [] s

/-! ### The grid stage ends (R322, R332) -/

/-- The elements of a row of a channel in tile g; those of `hit` are poisoned. -/
def gridRow (s : State) (hit : List Nat) (m : Tbl CellAcc) (ch y x0 : Nat) : List OutEl :=
  (upto 32).map (fun i =>
    let k := cellKey ch y (x0 + i)
    let e := gridElem s (tget {} m k)
    { e with bad := e.bad || hit.contains k })

/-- Writing a tile to the buffer: elements and confidence; how many elements are poisoned and NaN. Errors in the tile buffers and
residue mismatches poison the elements of `hit` (R339, R579). -/
def writeTile (c : FusCycle) (hit : List Nat) (used : List Nat) (g : Nat) (s : State) : State × Nat × Nat :=
  let m := buildTile s g
  let x0 := g % tilesX s * 32
  let y0 := g / tilesX s * 32
  let rows := (upto 64).flatMap (fun ch => (upto 32).map (fun y => (ch, y0 + y, gridRow s hit m ch (y0 + y) x0)))
  let b := gridAddr s c.buf
  let conf := (upto 32).map (fun y => (y0 + y, (upto 32).map (fun x => BitVec.ofNat 8 (confidence s used c.tick (y0 + y) (x0 + x)))))
  let s := rows.foldl (fun s r => putRow (gridFmt s) (b + r.1 * gridPlane s + r.2.1 * gridW s * gridE s) x0 r.2.2 s) s
  let s := conf.foldl (fun s r => ramPut s (b + 64 * gridPlane s + r.1 * gridW s + x0) r.2) s
  let es := rows.flatMap (fun r => r.2.2)
  (s, (es.filter (·.bad)).length, (es.filter (·.isNan)).length)

/-- Every tile in raster order: per tile whether it holds poison. -/
def writeTiles (c : FusCycle) (hit : List Nat) (used : List Nat) (s : State) : State × List Bool :=
  (upto (tilesX s * tilesY s)).foldl (fun (r : State × List Bool) g =>
    let (s, bad, nan) := writeTile c hit used g r.1
    (fusBumpN nan 8 (fusBumpN bad 7 s), r.2 ++ [bad != 0])) (s, [])

/-- Scores of a cycle, and the lie states from them. -/
def scoreSources (s : State) : State :=
  let used := srcList s (fun v => v.state == 1)
  let scored := srcList s (fun v => v.inUse.isSome)
  let votes := scored.foldl (fun m k =>
    match (srcOf s k).inUse with
    | some c => (upto (tilesX s * tilesY s)).foldl (fun m g => addVotes s k c.slot g m) m
    | none => m) []
  let rs := scored.map (fun k => (k, scoreCells s votes used k))
  rs.foldl (fun s e => scoreSource e.1 e.2.1 e.2.2 s) s

/-- The FUSION triggers of a cycle (R269, R322). -/
def fusionTriggers (c : FusCycle) (s : State) : State :=
  (upto 64).foldl (fun s i =>
    if prF s (i / 16) (i % 16) ARR_PROG.VALID = 1 ∧ prF s (i / 16) (i % 16) ARR_PROG.TRIGGER = 3 ∧ faHears s (i / 16) then
      arrTrigger (i / 16) ⟨i % 16, .grid c.buf, gridAddr s c.buf, c.tov, c.tick, false, false⟩ s
    else s) s

/-- Giving up a cycle's hold on its buffer. -/
def dropGrid (b : Nat) (s : State) : State :=
  { s with fus := { s.fus with bufHold := tmod 0 s.fus.bufHold b (· - 1) } }

/-- The object list of a cycle whose head instance was dropped or is late (R332). -/
def headMissed (c : FusCycle) (s : State) : State :=
  heldAt c.cfg (fun s => cycleEnds c.tick (dropGrid c.buf (fusBump 3 (objectsRecord c true [] false s)))) s

/-- Cycles whose head instance has not completed are given up. -/
def missHeads (s : State) : State :=
  let gone := s.fus.obj.filter (fun c => !c.head)
  gone.foldl (fun s c => headMissed c s) { s with fus := { s.fus with obj := s.fus.obj.filter (·.head) } }

/-- The head programme's trigger would be dropped (R270). -/
def headDropped (s : State) : Bool :=
  let n := fg s FUS_OBJ.CLUSTER
  let p := fg s FUS_OBJ.PROG
  arrPending s n p || !(faHears s n && prF s n p ARR_PROG.VALID == 1 && prF s n p ARR_PROG.TRIGGER == 3)

/-- The end of the grid stage of a cycle, under the registers of its tick (R315 to R317, R322 to R324, R332); `residueBad` names the
elements whose residue mismatches. -/
def gridStage (c : FusCycle) (residueBad : List Nat) (s : State) : State :=
  let used := srcList s (fun v => v.state == 1)
  let (s, bads) := writeTiles c (c.tileBad ++ residueBad) used s
  let c := { c with poison := c.poison || bads.any (fun b => b) }
  let s := scoreSources s
  let s := if fg s FUS_GRID.GRID_STREAM_EN = 1 then
      (bads.zipIdx).foldl (fun s e => gridRecord c e.2 e.1 s) s else s
  let s := (upto 32).foldl (fun s k => setSrc s k { srcOf s k with inUse := none }) s
  let s := fusBump 0 { s with fus := { s.fus with grid := none } }
  let s := if residueBad ≠ [] then reportResidue uFUS (fusJob s) s else s
  let s := if c.poison then consumePoison (fusJob s) uFUS s else s
  let head : Bool := fg s FUS_OBJ.HEAD_EN == 1
  let s := if head then missHeads s else s
  let drop : Bool := head && headDropped s
  let s := fusionTriggers c s
  if drop then headMissed c s
  else { s with fus := { s.fus with obj := s.fus.obj ++ [{ c with head := !head }] } }

/-- GRID_STAGE_END (R322). -/
def gridStageEnd (residueBad : List Nat) (s : State) : State :=
  match s.fus.grid with
  | none => s
  | some c => if ¬ fusTakes s then s else heldAt c.cfg (gridStage c residueBad) s

/-! ### Flow vectors and gyro records on their way to ego-motion (R326, R328) -/

/-- The FLOW source of a key prefix. -/
def flowSource (s : State) (pre : Nat) : Option Nat :=
  (upto 32).find? (fun k => fsF s k FUS_SRC.VALID == 1 && fsF s k FUS_SRC.KIND == 2 && fsF s k FUS_SRC.EGO_USE == 1
    && fsF s k FUS_SRC.KEY_PREFIX == pre)

/-- The cycle in whose ego-motion interval a time in µs falls. -/
def egoCycle (s : State) (us : Nat) : Int :=
  (((us + fg s FUS_GRID.EGO_DELAY_US : Nat) : Int) - fg s FUS_GRID.PHASE_US) / (max 1 (fg s FUS_GRID.CYCLE_US) : Nat)

/-- A FLOW_T completes the pair of its key; 16,384 vectors of a cycle are held. -/
def flowPair (k : Nat) (p : Pkt) (s : State) : State :=
  let at_ := k * 2 ^ 24 + p.key % 2 ^ 24
  match tget none s.fus.flowV at_ with
  | none => s
  | some (vp, vbad) =>
    let s := { s with fus := { s.fus with flowV := tset none s.fus.flowV at_ none } }
    let t := fullUs s (p.pay % 2 ^ 24)
    if ¬ bit p.pay 31 then s
    else if 16384 ≤ (s.fus.flows.filter (fun v => egoCycle s v.t == egoCycle s t)).length then fusBump 6 s
    else { s with fus := { s.fus with
      flows := s.fus.flows ++ [⟨k, bits p.key 0 12, bits p.key 12 11, sx 16 vp, sx 16 (vp / 65536), t, vbad || p.poison⟩] } }

/-- The next packet routed to the engine, under the registers of the latest tick. -/
def takeFlow (s : State) : State :=
  if ¬ fusTakes s then s else
  match firstCq s pFus with
  | none => s
  | some p =>
    let (p, s) := crossCheck uFUS p (dropCq pFus s)
    let s := if p.poison then consumePoison (fusJob s) uFUS s else s
    match flowSource s (bits p.key 26 6) with
    | none => s
    | some k =>
      match bits p.key 24 2 with
      | 2 => { s with fus := { s.fus with
          flowV := tset none s.fus.flowV (k * 2 ^ 24 + p.key % 2 ^ 24) (some (p.pay, p.poison)) } }
      | 3 => flowPair k p s
      | _ => s

/-- FLOW_PACKET (R328). -/
def flowPacket (s : State) : State := heldAtTick takeFlow s

/-- The gyro history of the fusion engine takes a record (R145, R326). -/
def fusGyro (ch : Nat) (s : State) : State :=
  let r := (inrOf s ch).latest
  let ax := inF s ch INR_CH.AXIS
  if ax = 0 ∨ 4 ≤ ax ∨ r.poison ∨ ¬ readyBit s RB_FUS then s
  else
    let key := inF s ch INR_CH.SENSOR * 4 + ax
    let kept := (tget [] s.fus.hist key).filter (fun e => decide (e.tov < r.tov))
    let w := fmul (fmul (fint r.value) 0x34000000) (inF s ch INR_CH.SCALE)
    let th := match kept with | [] => f0 | e :: _ => integrate e (r.tov - e.tov)
    { s with fus := { s.fus with hist := tset [] s.fus.hist key ((⟨r.tov, w, th, false⟩ :: kept).take 16) } }

/-- INR_OUTPUT (R108), and the record on its way to fusion. -/
def inrToFusion (ch : Nat) (s : State) : State :=
  if inrOn s ch ∧ outputDue s ch then fusGyro ch (inrOutput ch s) else inrOutput ch s

/-! ### Registers (R308, R310, R325, R331, R336, R337) -/

/-- FUS_SSTAT. -/
def fusSstat (s : State) (k : Nat) : Nat :=
  let v := srcOf s k
  v.state + v.reason * 4 + v.score * 2 ^ 7 + v.ageUs * 2 ^ 16

/-- The field rules of FUS_GRID. -/
def checkFusGrid (ws : List Nat) : Nat :=
  let f := fldOf ws
  firstFail [(1 ≤ f FUS_GRID.TILES_X_M1 ∧ 1 ≤ f FUS_GRID.TILES_Y_M1 ∧ f FUS_GRID.GRID_FMT ≤ 2
      ∧ 50 ≤ f FUS_GRID.PITCH_MM ∧ f FUS_GRID.PITCH_MM ≤ 400 ∧ 2000 ≤ f FUS_GRID.CYCLE_US ∧ f FUS_GRID.CYCLE_US ≤ 50000
      ∧ f FUS_GRID.PHASE_US < f FUS_GRID.CYCLE_US ∧ f FUS_GRID.EGO_DELAY_US ≤ 20000
      ∧ f FUS_GRID.GRID_BASE % 64 = 0, ST_UNSUPPORTED)]

/-- The field rules of FUS_SRC. -/
def checkFusSrc (ws : List Nat) : Nat :=
  let f := fldOf ws
  let fmt := f FUS_SRC.IN_FMT
  firstFail [(f FUS_SRC.KIND ≤ 2 ∧ (f FUS_SRC.KIND ≠ 0 ∨ fmt = 1 ∨ fmt = 9 ∨ fmt = 10 ∨ fmt = 11)
      ∧ 1 ≤ f FUS_SRC.CH_COUNT ∧ f FUS_SRC.CH_COUNT ≤ 64 ∧ f FUS_SRC.COV_DS ≤ 5 ∧ 1 ≤ f FUS_SRC.MAX_AGE_MS
      ∧ 1 ≤ f FUS_SRC.TIMEOUT_MS ∧ 1 ≤ f FUS_SRC.LIE_CYCLES ∧ 1 ≤ f FUS_SRC.CLEAR_CYCLES, ST_UNSUPPORTED)]

/-- The field rules of FUS_EGO. -/
def checkFusEgo (ws : List Nat) : Nat :=
  let f := fldOf ws
  firstFail [(8 ≤ f FUS_EGO.FLOW_MIN ∧ f FUS_EGO.FLOW_MIN ≤ 16384, ST_UNSUPPORTED)]

/-- The field rules of FUS_OBJ. -/
def checkFusObj (ws : List Nat) : Nat :=
  let f := fldOf ws
  let fmt := f FUS_OBJ.HEAD_FMT
  firstFail [((fmt = 1 ∨ fmt = 9 ∨ fmt = 10) ∧ 1 ≤ f FUS_OBJ.OBJ_MAX ∧ f FUS_OBJ.OBJ_MAX ≤ 1024, ST_UNSUPPORTED)]

/-- Fields that may change while the owning job runs (R337), as a mask of a transfer word. -/
def fusLiveMask (reg word : Nat) : Nat :=
  let m (f : Fld) : Nat := if f.word = word then (2 ^ f.width - 1) * 2 ^ f.lo else 0
  match reg with
  | 0x0701 => m FUS_GRID.GRID_SCALE + m FUS_GRID.GRID_STREAM_EN + m FUS_GRID.GRID_STREAM + m FUS_GRID.OBJ_STREAM
    + m FUS_GRID.EGO_STREAM
  | 0x0702 => m FUS_SRC.MAX_AGE_MS + m FUS_SRC.TIMEOUT_MS + m FUS_SRC.SCORE_MIN + m FUS_SRC.LIE_CYCLES
    + m FUS_SRC.CLEAR_CYCLES + m FUS_SRC.MIN_OVERLAP + m FUS_SRC.FORCE_MASK + m FUS_SRC.IN_SCALE + m FUS_SRC.OCC_THR
    + m FUS_SRC.EGO_USE + m FUS_SRC.LUT_BASE + m FUS_SRC.TILE_INDEX + m FUS_SRC.COV_BASE
  | 0x0703 => 2 ^ 64 - 1
  | 0x0704 => 2 ^ 64 - 1 - m FUS_OBJ.HEAD_EN
  | _ => 0

/-- The fusion job starts or restarts: every source is ABSENT until its next contribution, no stage runs. -/
def fusStart (s : State) : State :=
  { s with fus := {
      hist := s.fus.hist, ckptNew := s.fus.ckptNew, ckptOld := s.fus.ckptOld } }

/-- The fusion state of the committed generation comes back (R338, R380). -/
def fusRestore (s : State) : State :=
  let c := s.fus.ckptOld
  let s := fusStart s
  let s := { s with fus := { s.fus with
    lastTick := c.lastTick, nextId := c.nextId, prev := c.prev, sweeps := c.sweeps, prevT1 := c.prevT1 } }
  c.lies.foldl (fun s e => setSrc s e.1 { srcOf s e.1 with lie := e.2.1, bad := e.2.2.1, good := e.2.2.2 }) s

def execInrOutput (channel : Nat) (s : State) : Out := .next (inrToFusion channel s)
def execFusionTick (s : State) : Out := .next (fusionTick s)
def execSnapshotCopyDone (source : Nat) (s : State) : Out := .next (snapshotDone source s)
def execLidarRecord (source : Nat) (residueBad : Bool) (s : State) : Out := .next (lidarRecord source residueBad s)
def execFlowPacket (s : State) : Out := .next (flowPacket s)
def execGridStageEnd (residueBad : List Nat) (s : State) : Out := .next (gridStageEnd residueBad s)

end Sys2Proof.Machine
end

