-- ==== Sys2Proof/Machine/Motion.lean ====
section
/-! DEFINITION. Ego-motion and objects of the fusion engine (R325 to R334), in FP32. -/
namespace Sys2Proof.Machine

/-! ### Small matrices in FP32 -/

/-- Sine, cosine and arc tangent as the engine computes them (Config). -/
def fsinN (a : Nat) : Nat := (Sys2Proof.Config.fsin (BitVec.ofNat 32 a)).toNat
def fcosN (a : Nat) : Nat := (Sys2Proof.Config.fcos (BitVec.ofNat 32 a)).toNat
def fatan2N (y x : Nat) : Nat := (Sys2Proof.Config.fatan2 (BitVec.ofNat 32 y) (BitVec.ofNat 32 x)).toNat

/-- Half. -/
def fHalf : Nat := 0x3F000000

/-- A sum from the left. -/
def fsum (l : List Nat) : Nat := l.foldl fadd f0

/-- A product of two vectors, summed from the left. -/
def fdot (a b : List Nat) : Nat := fsum (List.zipWith fmul a b)

/-- Row `i` of the Cholesky factor from the rows before it. -/
def cholRow (m : List Nat) (rows : List (List Nat)) (i : Nat) : List Nat :=
  let r := (upto i).foldl (fun r j =>
    let l := rows.getD j []
    r ++ [fdiv (fsub (m.getD j f0) (fdot r (l.take j))) (l.getD j f1)]) []
  r ++ [fsqrt (fsub (m.getD i f0) (fdot r r))]

/-- Cholesky decomposition in ascending order (R329). -/
def cholesky (m : List (List Nat)) : List (List Nat) :=
  (m.zipIdx).foldl (fun rows e => rows ++ [cholRow e.1 rows e.2]) []

/-- Solving L Lᵀ x = b. -/
def cholSolve (l : List (List Nat)) (b : List Nat) : List Nat :=
  let n := l.length
  let y := (upto n).foldl (fun y i =>
    let r := l.getD i []
    y ++ [fdiv (fsub (b.getD i f0) (fdot y (r.take i))) (r.getD i f1)]) []
  (upto n).foldl (fun x k =>
    let i := n - 1 - k
    let col := (upto k).map (fun q => (l.getD (i + 1 + q) []).getD i f0)
    fdiv (fsub (y.getD i f0) (fdot col x)) ((l.getD i []).getD i f1) :: x) []

/-- The inverse of a matrix from its factor, by columns (it is symmetric). -/
def cholInverse (l : List (List Nat)) : List (List Nat) :=
  (upto l.length).map (fun i => cholSolve l ((upto l.length).map (fun j => if i = j then f1 else f0)))

/-! ### Measurements -/

/-- A measurement (R329): the axes it measures, the inverse of its covariance, its values. -/
structure Meas where
  axes : List Nat
  info : List (List Nat)
  z : List Nat

/-- A diagonal measurement. -/
def diagMeas (axes vars z : List Nat) : Meas :=
  ⟨axes, (upto axes.length).map (fun i => (upto axes.length).map (fun j =>
    if i = j then fdiv f1 (vars.getD i f0) else f0)), z⟩

/-- A time difference in seconds, FP32. -/
def secondsOf (d : Int) : Nat := fdiv (fint d) (fint 1000000000)

/-- theta of R145 over a history. -/
def headingOf (h : List Gyro) (t : Int) : Nat :=
  match h.find? (fun e => decide (e.tov ≤ t)) with
  | some e => integrate e (t - e.tov)
  | none => match h.getLast? with | some e => e.th | none => f0

/-- The gyro measurement (R326). -/
def gyroMeas (s : State) (c : FusCycle) : Option Meas :=
  let g := fg s FUS_EGO.GYRO_GROUP
  let h (k : Nat) : List Gyro := tget [] s.fus.hist (g * 4 + k)
  if ¬ ([1, 2, 3].any (fun k => (h k).any (fun e => decide (c.t1 ≤ e.tov)))) then none else
  let d := [1, 2, 3].map (fun k => fsub (headingOf (h k) c.t1) (headingOf (h k) c.t0))
  let rv (i : Nat) : Nat := bits (regWord s uFUS 0x0703 0 (6 + i / 2)) (32 * (i % 2)) 32
  let z := (upto 3).map (fun r => fdot [rv (3 * r), rv (3 * r + 1), rv (3 * r + 2)] d)
  let v := fmul (fg s FUS_EGO.GYRO_VAR) (secondsOf (c.t1 - c.t0))
  some (diagMeas [3, 4, 5] [v, v, v] z)

/-! ### Registration (R327) -/

/-- The cells of a sweep turned by j yaw steps, relative to the origin cell. -/
def turned (s : State) (w : Sweep) (j : Int) : List (Int × Int) :=
  let a := fmul (fint j) (fg s FUS_EGO.REG_YAW_STEP)
  let co := fcosN a
  let si := fsinN a
  w.cells.filterMap (fun p =>
    let x := fint ((p.1 : Int) - 64)
    let y := fint ((p.2 : Int) - 64)
    match fvRne (f32v (fsub (fmul x co) (fmul y si))), fvRne (f32v (fadd (fmul x si) (fmul y co))) with
    | some u, some v => some (u, v)
    | _, _ => none)

/-- The score of a shift: turned cells that land on cells of the later sweep. -/
def regScore (later : List (Int × Int)) (t : List (Int × Int)) (a b : Int) : Nat :=
  (t.filter (fun p => later.contains (p.1 + a, p.2 + b))).length

/-- The order of R327: higher score, then the smallest |j|, |a|, |b|, then the lowest value. -/
def regBetter (x y : Nat × Int × Int × Int) : Bool :=
  let k (e : Nat × Int × Int × Int) : List Int :=
    [-(e.1 : Int), e.2.1.natAbs, e.2.2.1.natAbs, e.2.2.2.natAbs, e.2.1, e.2.2.1, e.2.2.2]
  decide (k x < k y)

/-- The refinement of an axis (R327): offset and denominator of the variance. -/
def refine (sm s0 sp : Nat) : Nat × Int :=
  let den : Int := (sm : Int) - 2 * s0 + sp
  let off := if den < 0 then fdiv (fint ((sm : Int) - sp)) (fint (2 * den)) else f0
  (fmax (fmin off fHalf) (fneg fHalf), max 1 (-den))

/-- The registration measurement: from the two latest sweeps of LIDAR_SRC, when one of them is new. -/
def regMeas (s : State) (c : FusCycle) : Option Meas :=
  match tget [] s.fus.sweeps (fg s FUS_EGO.LIDAR_SRC) with
  | later :: earlier :: _ =>
    if ¬ c.swept ∨ fsF s (fg s FUS_EGO.LIDAR_SRC) FUS_SRC.EGO_USE = 0 then none else
    let n := fg s FUS_EGO.REG_SHIFT
    let m := fg s FUS_EGO.REG_YAW_STEPS
    let l := later.cells.map (fun p => ((p.1 : Int) - 64, (p.2 : Int) - 64))
    let rng (k : Nat) : List Int := (upto (2 * k + 1)).map (fun (i : Nat) => (i : Int) - k)
    let all := (rng m).flatMap (fun j =>
      let t := turned s earlier j
      (rng n).flatMap (fun a => (rng n).map (fun b => (regScore l t a b, j, a, b))))
    match all with
    | [] => none
    | e :: r =>
      let best := r.foldl (fun x y => if regBetter y x then y else x) e
      let sc (j a b : Int) : Nat := regScore l (turned s earlier j) a b
      let (_, j, a, b) := best
      let s0 := best.1
      let (oa, da) := refine (sc j (a - 1) b) s0 (sc j (a + 1) b)
      let (ob, db) := refine (sc j a (b - 1)) s0 (sc j a (b + 1))
      let (oj, dj) := refine (sc (j - 1) a b) s0 (sc (j + 1) a b)
      let p := pitchM s
      let y := fg s FUS_EGO.REG_YAW_STEP
      let k := fg s FUS_EGO.REG_VAR_K
      let rr := fdiv (fint (c.t1 - c.t0)) (fint ((later.tov : Int) - earlier.tov))
      let val (v : Int) (o q : Nat) : Nat := fmul (fmul (fneg (fadd (fint v) o)) q) rr
      let vr (q : Nat) (d : Int) : Nat := fmul (fdiv (fmul k (fmul q q)) (fint d)) (fmul rr rr)
      some (diagMeas [0, 1, 5] [vr p da, vr p db, vr y dj] [val a oa p, val b ob p, val j oj y])
  | _ => none

/-! ### Flow (R328) -/

/-- A vector with its ground point and ground velocity. -/
structure Ground where
  x : Nat
  y : Nat
  ux : Nat
  uy : Nat

/-- The ground vector of a flow vector. -/
def groundOf (s : State) (v : FlowVec) : Option Ground :=
  let a := fsF s v.src FUS_SRC.LUT_BASE + 32 * (v.y / 8 * ((srcW s v.src + 7) / 8) + v.x / 8)
  let w (i : Nat) : Nat := ramNat s (a + 4 * i) 4
  if ¬ bit (ramNat s (a + 24) 1) 0 then none else
  let sc (n : Nat) : Nat := fdiv (fmul n (fint 1000)) (fint 256)
  let u (i : Nat) : Nat := sc (fadd (fmul (w i) (fint v.vx)) (fmul (w (i + 1)) (fint v.vy)))
  some ⟨w 0, w 1, u 2, u 4⟩

/-- The rows of A and u of a vector: unknowns (Vx, Vy) and, when `rot`, Ω. -/
def flowRows (rot : Bool) (g : Ground) : List (List Nat × Nat) :=
  let m1 := fneg f1
  if rot then [([m1, f0, g.y], g.ux), ([f0, m1, fneg g.x], g.uy)] else [([m1, f0], g.ux), ([f0, m1], g.uy)]

/-- AᵀA and Aᵀu. -/
def normalEq (n : Nat) (rows : List (List Nat × Nat)) : List (List Nat) × List Nat :=
  ((upto n).map (fun i => (upto n).map (fun j => fsum (rows.map (fun r => fmul (r.1.getD i f0) (r.1.getD j f0))))),
    (upto n).map (fun i => fsum (rows.map (fun r => fmul (r.1.getD i f0) r.2))))

/-- The squared residual of a vector under a solution. -/
def residual2 (rot : Bool) (x : List Nat) (g : Ground) : Nat :=
  fsum ((flowRows rot g).map (fun r => let e := fsub (fdot r.1 x) r.2; fmul e e))

/-- The least-squares solution over vectors. -/
def flowSolve (rot : Bool) (gs : List Ground) : List (List Nat) × List Nat :=
  let (m, b) := normalEq (if rot then 3 else 2) (gs.flatMap (flowRows rot))
  let l := cholesky m
  (l, cholSolve l b)

/-- The source's port delivers de-rotated flow. -/
def derotOn (s : State) (k : Nat) : Bool :=
  fsF s k FUS_SRC.SLUICE_EN == 1 && (upto 16).any (fun c => (upto 4).any (fun p => rd s (uSE c) SRF_PORT.ENABLE p == 1 && rd s (uSE c) SRF_PORT.DEROT_EN p == 1
    && rd s (uSE c) SRF_PORT.SLUICE p == fsF s k FUS_SRC.SLUICE))

/-- The vectors of a FLOW source in a cycle's interval. -/
def flowsOf (s : State) (c : FusCycle) (k : Nat) : List FlowVec :=
  s.fus.flows.filter (fun v => v.src == k && decide (c.t0 ≤ (v.t : Int) * 1000 ∧ (v.t : Int) * 1000 < c.t1))

/-- The measurement of a FLOW source and how many vectors it keeps. -/
def flowMeas (s : State) (c : FusCycle) (k : Nat) : Option (Meas × Nat) :=
  let rot := !derotOn s k
  let n := if rot then 3 else 2
  let gs := (flowsOf s c k).filterMap (groundOf s)
  let (_, x) := flowSolve rot gs
  let kept := gs.filter (fun g => fle (fsqrt (residual2 rot x g)) (fg s FUS_EGO.FLOW_RES_MPS))
  if kept.length < max n (fg s FUS_EGO.FLOW_MIN) then none else
  let (l, x) := flowSolve rot kept
  let s2 := fdiv (fsum (kept.map (residual2 rot x))) (fint ((kept.length : Int) - n))
  let dt := secondsOf (c.t1 - c.t0)
  let cov := (cholInverse l).map (fun r => r.map (fun e => fmul (fmul s2 e) (fmul dt dt)))
  let info := cholInverse (cholesky cov)
  some (⟨if rot then [0, 1, 5] else [0, 1], info, x.map (fun e => fmul e dt)⟩, kept.length)

/-! ### Combination (R329) -/

/-- Adding to one element of a matrix. -/
def addAt (m : List (List Nat)) (i j v : Nat) : List (List Nat) :=
  m.modify i (fun r => r.modify j (fun x => fadd x v))

/-- A measurement added to the information matrix and vector. -/
def addMeas (a : List (List Nat) × List Nat) (m : Meas) : List (List Nat) × List Nat :=
  (m.axes.zipIdx).foldl (fun a e =>
    let row := m.info.getD e.2 []
    let lam := (m.axes.zipIdx).foldl (fun l g => addAt l e.1 g.1 (row.getD g.2 f0)) a.1
    (lam, a.2.modify e.1 (fun x => fadd x (fdot row m.z)))) a

/-- The prior variance of an axis. -/
def priorVar (s : State) (i : Nat) : Nat := bits (regWord s uFUS 0x0703 0 (3 + i / 2)) (32 * (i % 2)) 32

/-- δ and its covariance from the measurements: an axis that none touches reports 0 and its prior variance. -/
def combine (s : State) (ms : List Meas) : List Nat × List (List Nat) :=
  let p := (upto 6).map (fun i => (upto 6).map (fun j => if i = j then fdiv f1 (priorVar s i) else f0))
  let (lam, eta) := ms.foldl addMeas (p, List.replicate 6 f0)
  let l := cholesky lam
  let d := cholSolve l eta
  let inv := cholInverse l
  let touched (i : Nat) : Bool := ms.any (fun m => m.axes.contains i)
  ((upto 6).map (fun i => if touched i then d.getD i f0 else f0),
    (upto 6).map (fun i => (upto 6).map (fun j =>
      if touched i && touched j then (inv.getD i []).getD j f0 else if i = j then priorVar s i else f0)))

/-- The EGO record (Table 9-5). -/
def egoBody (c : FusCycle) (d : List Nat) (cov : List (List Nat)) (gyro lidar flow : Bool) (n : Nat) : List Byte :=
  let tri := (upto 6).flatMap (fun i => (upto (6 - i)).map (fun j => (cov.getD i []).getD (i + j) f0))
  leBytes 8 (lowBits 64 c.t0) ++ leBytes 8 (lowBits 64 c.t1) ++ d.flatMap (leBytes 4) ++ tri.flatMap (leBytes 4)
    ++ leBytes 4 0 ++ leBytes 8 (b2n gyro + b2n lidar * 2 + b2n flow * 4 + satU 16 n * 2 ^ 16 + c.cycle * 2 ^ 32)

/-- The sources of flow for ego-motion. -/
def egoFlows (s : State) : List Nat :=
  if fg s FUS_EGO.FLOW_EN = 1 then
    (upto 32).filter (fun k => fsF s k FUS_SRC.VALID == 1 && fsF s k FUS_SRC.KIND == 2 && fsF s k FUS_SRC.EGO_USE == 1)
  else []

/-- The ego-motion of a cycle under the registers of its tick (R325 to R330). A poisoned vector or a residue mismatch poisons the
record (R339, R579). -/
def egoStage (c : FusCycle) (residueBad : Bool) (s : State) : State :=
  let gy := if fg s FUS_EGO.GYRO_EN = 1 then gyroMeas s c else none
  let rg := if fg s FUS_EGO.LIDAR_EN = 1 then regMeas s c else none
  let fl := (egoFlows s).map (fun k => flowMeas s c k)
  let got := fl.filterMap id
  let (d, cov) := combine s (gy.toList ++ rg.toList ++ got.map (·.1))
  let body := egoBody c d cov gy.isSome rg.isSome (!got.isEmpty) ((got.map (·.2)).sum)
  let bad := residueBad || (egoFlows s).any (fun k => (flowsOf s c k).any (·.bad))
  let s := if fg s FUS_EGO.GYRO_EN = 1 ∧ gy.isNone then fusBump 4 s else s
  let s := fusBumpN (fl.length - got.length) 5 s
  let s := putRecord (fg s FUS_GRID.EGO_STREAM) 6 (lowBits 64 c.t1) body bad [] s
  let s := { s with fus := { s.fus with
    incs := (s.fus.incs ++ [(c.cycle, d, bad)]).drop ((s.fus.incs.length + 1) - 8),
    flows := s.fus.flows.filter (fun v => decide (c.t1 ≤ (v.t : Int) * 1000)) } }
  let s := if residueBad then reportResidue uFUS (fusJob s) s else s
  if bad then consumePoison (fusJob s) uFUS s else s

/-- EGO_MOTION_DONE: the oldest cycle whose ego-motion is due. -/
def egoDone (residueBad : Bool) (s : State) : State :=
  match s.fus.ego with
  | [] => s
  | c :: rest =>
    if ¬ fusTakes s then s
    else heldAt c.cfg (egoStage c residueBad) { s with fus := { s.fus with ego := rest } }

/-! ### Objects (R331 to R334) -/

/-- What the object stage reads of a cell: channel values and poison. -/
def headVal (s : State) (c : FusCycle) (ch y x : Nat) : Nat × Bool :=
  let head : Bool := fg s FUS_OBJ.HEAD_EN == 1
  let fmt := if head then fg s FUS_OBJ.HEAD_FMT else gridFmt s
  let e := fmtBits fmt / 8
  let a := if head then fg s FUS_OBJ.HEAD_ADDR + ((ch * gridH s + y) * gridW s + x) * e
    else gridAddr s c.buf + (fg s FUS_OBJ.BASE_CH + ch) * gridPlane s + (y * gridW s + x) * e
  (fmul (f32 (elemValue fmt (ramNat s a e))) (fg s FUS_OBJ.HEAD_SCALE), ramBad s a e)

/-- The confidence plane of a cycle's buffer. -/
def confAt (s : State) (c : FusCycle) (y x : Nat) : Nat :=
  ramNat s (gridAddr s c.buf + 64 * gridPlane s + y * gridW s + x) 1

/-- Occupied cells in raster order. -/
def occupied (s : State) (c : FusCycle) : List (Nat × Nat) :=
  (upto (gridW s * gridH s)).filterMap (fun i =>
    let x := i % gridW s
    let y := i / gridW s
    if fle (fg s FUS_OBJ.OCC_MIN) (headVal s c 0 y x).1 ∧ fg s FUS_OBJ.CONF_MIN ≤ confAt s c y x then some (x, y) else none)

/-- Two cells touch (8-connectivity). -/
def touches (a b : Nat × Nat) : Bool :=
  decide (a.1 ≤ b.1 + 1 ∧ b.1 ≤ a.1 + 1 ∧ a.2 ≤ b.2 + 1 ∧ b.2 ≤ a.2 + 1)

/-- A component grown from a frontier; `n` bounds its growth by the number of cells left. -/
def growComp : Nat → List (Nat × Nat) → List (Nat × Nat) → List (Nat × Nat) → List (Nat × Nat) × List (Nat × Nat)
  | 0, comp, front, rest => (comp ++ front, rest)
  | n + 1, comp, front, rest =>
    if front = [] then (comp, rest) else
    let (hit, left) := rest.partition (fun c => front.any (touches c))
    growComp n (comp ++ front) hit left

/-- The components, numbered by their first cell in raster order; their cells in raster order. -/
def components : Nat → List (Nat × Nat) → List (List (Nat × Nat))
  | 0, _ => []
  | _, [] => []
  | n + 1, c :: r =>
    let (comp, rest) := growComp (r.length + 1) [] [c] r
    sortBy (fun a b => decide (a.2 < b.2 ∨ (a.2 = b.2 ∧ a.1 < b.1))) comp :: components n rest

/-- An extracted object. -/
structure Obj where
  cls : Nat
  conf : Nat
  edge : Bool
  bad : Bool
  cx : Nat
  cy : Nat
  len : Nat
  wid : Nat
  yaw : Nat
  vx : Nat
  vy : Nat
  cells : Nat
deriving DecidableEq, Repr

/-- The centre of a cell on an axis. -/
def cellCentre (s : State) (origin i : Nat) : Nat := fadd origin (fmul (fadd (fint i) fHalf) (pitchM s))

/-- The mean of a list of FP32 values. -/
def fmean (l : List Nat) : Nat := fdiv (fsum l) (fint l.length)

/-- The extent of values, plus the pitch. -/
def extent (s : State) (l : List Nat) : Nat :=
  match l with
  | [] => pitchM s
  | a :: r => fadd (fsub (r.foldl fmax a) (r.foldl fmin a)) (pitchM s)

/-- One component measured (R333). -/
def measure (s : State) (c : FusCycle) (cells : List (Nat × Nat)) : Obj :=
  let n := fg s FUS_OBJ.CLASSES_M1 + 1
  let xs := cells.map (fun p => cellCentre s (fg s FUS_GRID.ORIGIN_X) p.1)
  let ys := cells.map (fun p => cellCentre s (fg s FUS_GRID.ORIGIN_Y) p.2)
  let cx := fmean xs
  let cy := fmean ys
  let dx := xs.map (fun x => fsub x cx)
  let dy := ys.map (fun y => fsub y cy)
  let yaw := fmul fHalf (fatan2N (fmul (fint 2) (fdot dx dy)) (fsub (fdot dx dx) (fdot dy dy)))
  let co := fcosN yaw
  let si := fsinN yaw
  let along := List.zipWith (fun a b => fadd (fmul a co) (fmul b si)) dx dy
  let across := List.zipWith (fun a b => fsub (fmul b co) (fmul a si)) dx dy
  let chan (k : Nat) : List Nat := cells.map (fun p => (headVal s c k p.2 p.1).1)
  let sums := (upto n).map (fun k => fsum (chan (1 + k)))
  let cls := (upto n).foldl (fun b k => if flt (sums.getD b f0) (sums.getD k f0) then k else b) 0
  let conf := fdiv (fmul (fmul (fint 255) (fmin f1 (fmean (chan 0)))) (fmean (cells.map (fun p => fint (confAt s c p.2 p.1)))))
    (fint 255)
  let vel : Bool := fg s FUS_OBJ.VEL_EN == 1
  let chans := 1 + n + (if vel then 2 else 0)
  { cls := cls, conf := min 255 ((fvRne (f32v conf)).getD 0).toNat,
    edge := cells.any (fun p => p.1 == 0 || p.2 == 0 || p.1 + 1 == gridW s || p.2 + 1 == gridH s),
    bad := cells.any (fun p => (upto chans).any (fun k => (headVal s c k p.2 p.1).2)),
    cx := cx, cy := cy, len := extent s along, wid := extent s across, yaw := yaw,
    vx := if vel then fmean (chan (1 + n)) else f0, vy := if vel then fmean (chan (2 + n)) else f0, cells := cells.length }

/-- rot(−yaw) of a vector. -/
def rotMinus (yaw x y : Nat) : Nat × Nat :=
  let co := fcosN yaw
  let si := fsinN yaw
  (fadd (fmul x co) (fmul y si), fsub (fmul y co) (fmul x si))

/-- Δ in seconds. -/
def cycleSec (s : State) : Nat := fdiv (fint (fg s FUS_GRID.CYCLE_US)) (fint 1000000)

/-- Where a previous object is expected. -/
def predict (s : State) (inc : List Nat) (q : FusObj) : Nat × Nat :=
  let d := cycleSec s
  rotMinus (inc.getD 5 f0) (fsub (fadd q.cx (fmul q.vx d)) (inc.getD 0 f0)) (fsub (fadd q.cy (fmul q.vy d)) (inc.getD 1 f0))

/-- The nearest prediction within the gate. -/
def nearest (s : State) (o : Obj) (ps : List (FusObj × Nat × Nat)) : Option FusObj :=
  (ps.foldl (fun (b : Option (FusObj × Nat)) e =>
    let dx := fsub o.cx e.2.1
    let dy := fsub o.cy e.2.2
    let d := fsqrt (fadd (fmul dx dx) (fmul dy dy))
    if ¬ fle d (fg s FUS_OBJ.ASSOC_M) then b
    else match b with
      | none => some (e.1, d)
      | some x => if flt d x.2 then some (e.1, d) else b) none).map (·.1)

/-- The record of an object (Table 9-7). -/
def objRec (s : State) (o : Obj) (id age vx vy : Nat) (new : Bool) : List Byte :=
  leBytes 8 (id + o.cls * 2 ^ 32 + o.conf * 2 ^ 40 + b2n new * 2 ^ 48 + b2n o.edge * 2 ^ 49 + b2n o.bad * 2 ^ 50
      + fg s FUS_OBJ.VEL_EN * 2 ^ 51)
    ++ leBytes 4 o.cx ++ leBytes 4 o.cy ++ leBytes 4 o.len ++ leBytes 4 o.wid ++ leBytes 4 o.yaw ++ leBytes 4 vx
    ++ leBytes 4 vy ++ leBytes 4 o.cells ++ leBytes 8 age

/-- Association state while objects are matched in descending confidence. -/
structure Assoc where
  preds : List (FusObj × Nat × Nat)
  nextId : Nat
  out : List FusObj
  recs : List (List Byte)

/-- One object matched or given a new identity. -/
def matchObj (s : State) (inc : List Nat) (a : Assoc) (o : Obj) : Assoc :=
  let vel : Bool := fg s FUS_OBJ.VEL_EN == 1
  match nearest s o a.preds with
  | some q =>
    let age := min (q.age + 1) 65535
    let b := rotMinus (inc.getD 5 f0) (fsub q.cx (inc.getD 0 f0)) (fsub q.cy (inc.getD 1 f0))
    let vx := if vel then o.vx else fdiv (fsub o.cx b.1) (cycleSec s)
    let vy := if vel then o.vy else fdiv (fsub o.cy b.2) (cycleSec s)
    { preds := a.preds.filter (fun e => e.1.id != q.id), nextId := a.nextId,
      out := a.out ++ [⟨q.id, o.cx, o.cy, vx, vy, age⟩], recs := a.recs ++ [objRec s o q.id age vx vy false] }
  | none =>
    let vx := if vel then o.vx else f0
    let vy := if vel then o.vy else f0
    { preds := a.preds, nextId := if (a.nextId + 1) % 2 ^ 32 = 0 then 1 else (a.nextId + 1) % 2 ^ 32,
      out := a.out ++ [⟨a.nextId, o.cx, o.cy, vx, vy, 0⟩], recs := a.recs ++ [objRec s o a.nextId 0 vx vy true] }

/-- The object stage of a cycle under the registers of its tick (R333), given its increment; `hit` names the components that a
residue mismatch poisons (R579). -/
def objects (c : FusCycle) (inc : List Nat) (incBad : Bool) (hit : List Nat) (s : State) : State :=
  let cells := occupied s c
  let comps := (components (cells.length + 1) cells).filter (fun l => decide (fg s FUS_OBJ.MIN_CELLS ≤ l.length))
  let objs := (comps.zipIdx).map (fun e =>
    let o := measure s c e.1
    { o with bad := o.bad || incBad || hit.contains e.2 })
  let ordered := sortBy (fun a b => decide (b.conf < a.conf)) objs
  let keep := ordered.take (fg s FUS_OBJ.OBJ_MAX)
  let a := keep.foldl (matchObj s inc) ⟨s.fus.prev.map (fun q => (q, predict s inc q)), s.fus.nextId, [], []⟩
  let bad := keep.any (·.bad)
  let s := fusBumpN (ordered.length - keep.length) 2 s
  let s := objectsRecord c false a.recs bad s
  let s := { s with fus := { s.fus with nextId := a.nextId, prev := a.out } }
  let s := if hit ≠ [] then reportResidue uFUS (fusJob s) s else s
  let s := if bad then consumePoison (fusJob s) uFUS s else s
  cycleEnds c.tick (dropGrid c.buf s)

/-- OBJECT_STAGE (R332, R333): the oldest cycle whose head map is ready and whose increment is known. -/
def objectStage (residueBad : List Nat) (s : State) : State :=
  match s.fus.obj with
  | [] => s
  | c :: rest =>
    match s.fus.incs.find? (fun e => e.1 == c.cycle) with
    | none => s
    | some (_, inc, incBad) =>
      if ¬ fusTakes s ∨ ¬ c.head then s
      else heldAt c.cfg (objects c inc incBad residueBad) { s with fus := { s.fus with obj := rest } }

def execEgoMotionDone (residueBad : Bool) (s : State) : Out := .next (egoDone residueBad s)
def execObjectStage (residueBad : List Nat) (s : State) : Out := .next (objectStage residueBad s)

end Sys2Proof.Machine
end

