-- ==== Sys2Proof/Machine/Peers.lean ====
section
/-! DEFINITION. What happens to packets and windows at a Canal link that is lost or may carry none, and the device's identity
(R236, R239, R245, R248): events of the link itself and writes of its registers share it. -/
namespace Sys2Proof.Machine

/-! ### Windows that fail at their source (R245, R248) -/

/-- A packet queued once more at a link, or where that link's copies go, or discarded (R239). -/
def queueOn (k : Nat) (p : Pkt) (s : State) : State :=
  match toLink s k p with
  | .to f x => putCq f { x with to_ := none } s
  | .linkDrop k' => cnlBump (uCK k') 8 s
  | .hopDrop => s

/-- The source sends a window's packets again with a new attempt: what link `k` still holds of the old one is queued once
more on the link itself or its alternate, or discarded (R239). -/
def resendOn (k j w a a' : Nat) (s : State) : State :=
  let l := linkOf s k
  let mine (e : WinSent) : Bool := e.src == devId s && e.job == j && e.win == w && e.att == a
  let ps := (l.sent.filter mine).flatMap (·.pkts)
  let s := setLink s k { l with sent := l.sent.filter (fun e => !mine e) }
  ps.foldl (fun s p => queueOn k { p with att := a' % 4 } s) s

/-- A failed check of a window (R245, R248): its suspect steps run again where second passage keeps their inputs, and its log
entry says that it was replayed. -/
def failWindow (j w : Nat) (s : State) : State :=
  setPass s { s.pass with
    steps := s.pass.steps.map (fun r => if r.job = j ∧ r.win = w then { r with sus := true, ok := false, replayed := true } else r),
    log := s.pass.log.map (fun e => if e.job = j ∧ e.win = w then { e with flags := e.flags ||| 4 } else e) }

/-- An uncommitted window sent on a lost link `k` (R248), or one that a replay has settled (R592, `k` beyond the links): retracted
everywhere and sent again with a new attempt. -/
def windowLost (k j w : Nat) (s : State) : State :=
  let a := attemptOf s j w
  if 3 ≤ a then beginRestart j 3 (if k < 4 then uCK k else uJOB j) 0 none s
  else
    let s := setAttempt j w (a + 1) s
    (upto 4).foldl (fun s m =>
      let l := linkOf s m
      match l.sent.find? (fun e => e.src == devId s && e.job == j && e.win == w && e.att == a && !e.ended) with
      | none => s
      | some e =>
        let s := if m = k then s else setLink s m { l with notes := l.notes ++ [⟨1, j, w, a, e.src, e.count⟩] }
        resendOn m j w a (a + 1) s) s

/-! ### Identity and loss (R236, R239, R248) -/

/-- The detail flags of a Canal LINK notice (Table 14-10a). -/
def ckFlags (s : State) (k : Nat) (alt route : Bool) : Nat := b2n (linkOf s k).peerAsg + b2n alt * 2 + b2n route * 4

/-- What waits at a link that carries no packets goes where its copies go now (R236, R239). -/
def rerouteTx (k : Nat) (s : State) : State :=
  if linkUsable s k then s else
  (upto 4).foldl (fun s c => (cq s (pTx k) c).foldl (fun s p => queueOn k p s) (setCq s (pTx k) c [])) s

/-- A link that is up whose assigned peer has this device's DEV_ID is reported (R236). -/
def duplicateNotice (k : Nat) (s : State) : State :=
  let l := linkOf s k
  if l.up ∧ devAssigned s ∧ l.peerAsg ∧ l.peerDev = devId s then
    linkNotice 1 k 2 l.lanes l.peerDev (ckFlags s k false false) ST_CONFLICT s
  else s

/-- CNL_DEV.DEV_ID written (R236, R470): the identity is assigned, and every link that is up sends a new HELLO. -/
def devIdWritten (s : State) : State :=
  let s := { s with canal := { s.canal with assigned := true } }
  (upto 4).foldl (fun s k =>
    let l := linkOf s k
    if l.up then
      rerouteTx k (duplicateNotice k (setLink s k { l with
        ctl := l.ctl ++ [.hello (devId s) true l.lanes Config.linkCaps.toNat] }))
    else s) s

/-- The link lies on an admitted class-0 route: an entry of a lock or link table for probes names it (R610). -/
def linkClass0 (s : State) (k : Nat) : Bool :=
  let has (u : Nat) : Bool := (entryList s u).any (fun i => entF s u i CNL_ENT.VALID == 1
    && entF s u i CNL_ENT.KEY / 256 == 0xFFFFFF && bit (entF s u i CNL_ENT.LINKS) k)
  (upto 16).any (fun n => has (uLOCK n)) || (upto 4).any (fun i => has (uCK i))

/-- A link is down (R239, R248): windows held without a notice are discarded, queued copies move to ALT_LINK, own uncommitted
windows are sent again; the host is told; a lost class-0 route is a dangerous failure. -/
def linkLost (k : Nat) (s : State) : State :=
  let l := linkOf s k
  let alone : Bool := linkClass0 s k
  let lost := (l.shadow.map (fun e => e.pkts.length)).sum
  let s := cnlBumpN lost (uCK k) 11 (setReady (RB_CK + k) false s)
  let s := setLink s k { sent := l.sent, lanes := 0, lastUse := l.lastUse }
  let own := (l.sent.filter (fun e => e.src == devId s && !e.ended)).map (fun e => (e.job, e.win))
  let s := own.eraseDups.foldl (fun s e => windowLost k e.1 e.2 (failWindow e.1 e.2 s)) s
  let s := rerouteTx k s
  let s := bumpN (tget [] s.tow.mgmtTx k).length uDEV 0x0B0F 11 s
  let s := { s with tow := { s.tow with mgmtTx := tset [] s.tow.mgmtTx k [] } }
  let alt := linkFor s k
  let s := linkNotice 1 k 0 0 l.peerDev (b2n l.peerAsg + b2n alt.isSome * 2 + b2n alone * 4) ST_OK s
  if alone ∧ alt.isNone then raiseCause 5 (uCK k) s else s

/-- CNL_LINK.ENABLE becomes 1: training begins (R237); it becomes 0: the link is down. -/
def linkEnabled (k : Nat) (on : Bool) (s : State) : State :=
  if on then setLink s k { sent := (linkOf s k).sent, lastUse := (linkOf s k).lastUse }
  else if (linkOf s k).up then linkLost k s
  else setReady (RB_CK + k) false s

end Sys2Proof.Machine
end

