-- ==== Sys2Proof/Machine/Servo.lean ====
section
/-! DEFINITION. The servo of the time unit (R416 to R423), sync states (Table 13-4), samples of the port engines (R427,
R428) and what the Lockkeeper does with PTP frames (R414, R417). -/
namespace Sys2Proof.Machine

/-- SRC_PORT, the INDEX of the notices of the servo. -/
def srcPort (s : State) : Nat := rd s uTMU TMU_SERVO.SRC_PORT

/-- A change of SYNC_STATE (R420, R421): HOLDOVER keeps the rate of INTEG and records its start, FREE_RUN has no
correction, HOLD_LONG clears when HOLDOVER is left; a time notice reports the change. -/
def syncTo (d : SyncState) (s : State) : State :=
  if s.time.sync = d then s else
  let t := { s.time with sync := d, inRun := 0, outRun := 0, holdLong := false }
  match d with
  | .holdover =>
    let s := bump uTMU 0x0A0F 3 (setTime s { t with adj := t.integ, holdStart := now s, newMaster := false })
    timeNotice 0 (srcPort s) 0 s.time.holdStart s
  | .freeRun => timeNotice 0 (srcPort s) 0 0 (setTime s { t with adj := 0 })
  | _ => timeNotice 0 (srcPort s) 0 0 (setTime s t)

/-- The gap rule of Table 13-4. -/
def gapRule (s : State) : State :=
  match s.time.sync with
  | .acquiring => syncTo (if s.time.everLocked then .holdover else .freeRun) s
  | .locked => syncTo .holdover s
  | _ => s

/-- Clamping into −l to l. -/
def clampS (l v : Int) : Int := if l < v then l else if v < -l then -l else v

/-- LIM of R418. -/
def servoLim (s : State) : Int :=
  ((rd s uTMU TMU_SERVO.ADJ_MAX_PPB * rd s uTMU TMU_INCR.INCR_NOM / 1000000000 : Nat) : Int)

/-- The servo's arithmetic on an accepted sample in 2^-16 ns (R418). -/
def servoUpdate (theta : Int) (s : State) : State :=
  let e := theta * 65536
  let i := clampS (servoLim s) (s.time.integ + asr e (rd s uTMU TMU_SERVO.KI_SHIFT))
  setTime s { s.time with
    integ := i, adj := clampS (servoLim s) (i + asr e (rd s uTMU TMU_SERVO.KP_SHIFT)),
    integLocked := s.time.integLocked || s.time.sync == .locked }

/-- What takes effect in the step tick (R423, R431): sluices lose their alignment, gyro histories are emptied, every
armed target that has been passed fires once, late. -/
def afterStep (s : State) : State :=
  let s := (upto 16).foldl (fun s n =>
    let v := sluOf s n
    if sl s n SLU_PORT.ENABLE = 1 ∧ v.source ≠ 0 then setSlu s n { v with align := .unaligned, npairs := 0 } else s) s
  let s := ppsRestart (policersAfterStep (emptyGyro s))
  let s := (upto 8).foldl (fun s i =>
    if rdB s uTMU TMU_CMP.ARM i ∧ rd s uTMU TMU_CMP.TARGET i ≤ now s then
      fireCmp i (setTime s { s.time with cmpLate := setBits s.time.cmpLate i 1 1 })
    else s) s
  (upto 16).foldl (fun s n =>
    if rdB s (uSL n) TMU_SYNCOUT.ENABLE ∧ (syncOutOf s n).target ≤ now s then
      syncOutFire n (setSyncOut s n { syncOutOf s n with late := true })
    else s) s

/-- A step forward by whole ns, FRAC kept (R422). The sample that made it counts from the new time, and no run of samples
within LOCK_NS survives it. -/
def stepTime (d : Nat) (s : State) : State :=
  let t := now s + d
  let s := setTime s { s.time with
    sec := (t / 1000000000) % 2 ^ 48, ns := t % 1000000000, stepPending := false, slewing := false, lastSample := t,
    inRun := 0 }
  afterStep (syncTo .acquiring (bump uTMU 0x0A0F 2 s))

/-- Setting STEP_PENDING reports it (R421). -/
def pendStep (s : State) : State :=
  if s.time.stepPending then s
  else timeNotice 2 (srcPort s) 0 0 (setTime s { s.time with stepPending := true })

/-- The lock count of Table 13-4. -/
def countLock (mag : Int) (s : State) : State :=
  if s.time.sync ≠ .acquiring then s
  else
    let n := if mag ≤ (rd s uTMU TMU_SERVO.LOCK_NS : Int) * 65536 then s.time.inRun + 1 else 0
    let s := setTime s { s.time with inRun := n }
    if rd s uTMU TMU_SERVO.LOCK_COUNT ≤ n then syncTo .locked (setTime s { s.time with everLocked := true }) else s

/-- An accepted sample (R418, R420, R422). -/
def acceptSample (theta : Int) (s : State) : State :=
  let mag : Int := theta.natAbs
  let s := bump uTMU 0x0A0F 0 (setTime s { s.time with
    lastOff := satS 32 (asr theta 16), lastSample := now s, outRun := 0 })
  let s := if s.time.sync = .freeRun ∨ s.time.sync = .holdover then syncTo .acquiring s else s
  let big : Bool := (rd s uTMU TMU_SERVO.STEP_NS : Int) * 65536 < mag
  if big ∧ theta < 0 ∧ ¬ anyJob s then stepTime (mag / 65536).toNat s
  else
    let s := servoUpdate theta s
    let s :=
      if big then (if theta < 0 then pendStep s else setTime s { s.time with slewing := true })
      else setTime s { s.time with stepPending := false, slewing := false }
    countLock mag s

/-- A sample offered to the servo (R417 to R422). -/
def offerSample (theta : Int) (s : State) : State :=
  let t := s.time
  let mag : Int := theta.natAbs
  if ¬ rdB s uTMU TMU_SERVO.ENABLE ∨ t.masterRej ∨ (t.sync = .holdover ∧ ¬ t.newMaster) then s
  else if t.sync = .locked ∧ (rd s uTMU TMU_SERVO.OUTLIER_NS : Int) * 65536 < mag
      ∧ t.outRun < rd s uTMU TMU_SERVO.OUTLIER_MAX then
    bump uTMU 0x0A0F 1 (setTime s { t with outRun := t.outRun + 1 })
  else if (rd s uTMU TMU_SERVO.BACK_MAX_MS : Int) * 1000000 * 65536 < theta then
    let s := bump uTMU 0x0A0F 4 (setTime s { t with masterRej := true })
    gapRule (timeNotice 3 (srcPort s) 0 0 s)
  else acceptSample theta s

/-- SYNC_TIMEOUT (R420): no sample has been accepted for SYNC_TIMEOUT_MS. -/
def syncTimeout (s : State) : State :=
  if s.time.lastSample + rd s uTMU TMU_SERVO.SYNC_TIMEOUT_MS * 1000000 ≤ now s then gapRule s else s

/-- HOLD_LIMIT (R421). -/
def holdLimit (s : State) : State :=
  if s.time.sync = .holdover ∧ ¬ s.time.holdLong
      ∧ s.time.holdStart + rd s uTMU TMU_SERVO.HOLD_LIMIT_S * 1000000000 ≤ now s then
    timeNotice 1 (srcPort s) 0 s.time.holdStart (setTime s { s.time with holdLong := true })
  else s

/-- Another master has been selected: MASTER_REJECTED clears, and HOLDOVER may end (R420, R422). -/
def newMaster (s : State) : State := setTime s { s.time with masterRej := false, newMaster := true }

/-- GM_CHANGE (R417, Table 13-4): the gap rule, then samples of the new master. -/
def gmChange (s : State) : State := newMaster (gapRule s)

/-- A write of TMU_SERVO word 0 with its old word: SRC_PORT names another master, a cleared ENABLE ends the lock. -/
def servoWritten (old : Nat) (s : State) : State :=
  let s := if bits old 0 3 ≠ srcPort s then newMaster s else s
  if bit old 3 ∧ ¬ rdB s uTMU TMU_SERVO.ENABLE then
    syncTo (if s.time.integLocked then .holdover else .freeRun) s
  else s

/-! ### Port engines (R427, R428) -/

/-- θ of a Sync in 2^-16 ns (R427). -/
def thetaOf (s : State) (p : Nat) (t2 : Int) (pot : Nat) (corr : Int) : Int :=
  t2 - ((pot : Int) * 65536 + corr + (rd s (uETH p) TMU_PORT.LINK_DELAY : Int)
    + psTo16 (sx 32 (rd s (uETH p) TMU_PORT.ASYM_PS)))

/-- A sample of the engine of port `p` reaches the servo when SRC_PORT names the port. -/
def portSample (p : Nat) (theta : Int) (s : State) : State := if srcPort s = p then offerSample theta s else s

/-- An enabled port with PTP_EN takes PTP frames (R442). -/
def ptpHears (s : State) (p : Nat) : Bool :=
  rdB s (uETH p) TMU_PORT.PTP_EN && rd s (uETH p) TOW_PORT.ROLE != 0 && (ethOf s p).phyUp

/-- A PTP frame as MACSEC_EN and PTP_BYPASS let it in (R444, R446). -/
def ptpPasses (s : State) (p : Nat) (secured : Bool) : Bool :=
  if rdB s (uETH p) TOW_PORT.MACSEC_EN then secured || rdB s (uETH p) TOW_PORT.PTP_BYPASS else !secured

/-- A PTP frame that the port takes is handled; one that it discards is counted in RX_OTHER (R446, Table 14-12). -/
def ptpFrame (p : Nat) (secured : Bool) (eff : State → State) (s : State) : State :=
  if ¬ ptpHears s p then s
  else if ¬ ptpPasses s p secured then bump (uETH p) 0x0B0F 2 s
  else eff s

/-- A received Sync (R427, R428). -/
def ptpSyncRx (p : Nat) (m : PtpSync) (s : State) : State :=
  let q := ptpOf s p
  let t2 := ingress16 s p
  let s := if q.pend.isSome then bump uTMU 0x0A0F 10 s p else s
  if m.twoStep then setPtp s p { q with pend := some ⟨m.seq, t2, m.corr⟩ }
  else portSample p (thetaOf s p t2 m.origin m.corr) (setPtp s p { q with pend := none })

/-- A received Follow_Up (R428). -/
def ptpFollowUpRx (p seq pot : Nat) (corr : Int) (s : State) : State :=
  let q := ptpOf s p
  match q.pend with
  | none => s
  | some w =>
    if w.seq = seq then
      portSample p (thetaOf s p w.t2 pot (w.corr + corr)) (setPtp s p { q with pend := none })
    else s

/-- Writing SRC_PORT as best-master selection decides (R417). -/
def selectSource (p : Nat) (s : State) : State :=
  let old := regWord s uTMU TMU_SERVO.SRC_PORT.reg 0 0
  servoWritten old (wr s uTMU TMU_SERVO.SRC_PORT p)

/-- The master heard on a port is the selected one: SRC_PORT names the port, or leaves the samples to the Lockkeeper. -/
def selected (s : State) (p : Nat) : Bool := srcPort s == p || srcPort s == 5

/-- A PTP frame handed to the Lockkeeper with its receive stamp (R414, R417, R426, R428). -/
def ptpLkpMessage (p : Nat) (m : PtpMsg) (s : State) : State :=
  let q := ptpOf s p
  let s := setPtp s p { q with rxStamps := ((((asr (ingress16 s p) 16).toNat, 0)) :: q.rxStamps).take 8 }
  match m with
  | .announce gm utc sel =>
    let s := setTime s { s.time with utcOff := satS 16 utc }
    let s := match sel with | some k => if k ≤ 5 then selectSource k s else s | none => s
    if selected s p ∧ gm ≠ s.time.gmId then gmChange (setTime s { s.time with gmId := gm }) else s
  | .linkDelay v => wr s (uETH p) TMU_PORT.LINK_DELAY v
  | .offset theta => if srcPort s = 5 then offerSample theta s else s
  | .other _ => s

/-! ### Read-only words (R415, R416, R426, R434, R439) -/

/-- TMU_STAT (R439). -/
def tmuStat (s : State) (w : Nat) : Nat :=
  let t := s.time
  match w with
  | 0 =>
    (match t.sync with | .freeRun => 0 | .acquiring => 1 | .locked => 2 | .holdover => 3)
      + b2n t.slewing * 4 + b2n t.stepPending * 8 + b2n t.holdLong * 16 + b2n t.masterRej * 32
      + lowBits 16 t.utcOff * 2 ^ 16 + lowBits 32 t.lastOff * 2 ^ 32
  | 1 => t.holdStart
  | 2 => t.lastSample
  | _ => lowBits 64 t.integ

/-- TMU_TIME (R415): word 1 is the value latched by the last read of word 0. -/
def tmuTime (s : State) (w : Nat) : Nat :=
  match w with
  | 0 => s.time.frac + s.time.ns * 2 ^ 32
  | 1 => s.time.latch1
  | _ => now s % 2 ^ 64

/-- TMU_TXQ (Table 13-7): the entry of the last lookup. -/
def tmuTxq (s : State) (p w : Nat) : Nat :=
  match (ptpOf s p).found with
  | none => 0
  | some e => if w = 0 then e.key + e.sec * 2 ^ 16 else e.ns + 2 ^ 32

def execPtpSyncRx (port : Nat) (secured : Bool) (msg : PtpSync) (s : State) : Out :=
  .next (ptpFrame port secured (ptpSyncRx port msg) s)
def execPtpFollowUpRx (port : Nat) (secured : Bool) (seq pot : Nat) (corr : Int) (s : State) : Out :=
  .next (ptpFrame port secured (ptpFollowUpRx port seq pot corr) s)
def execPtpLkpMessage (port : Nat) (secured : Bool) (msg : PtpMsg) (s : State) : Out :=
  .next (ptpFrame port secured (ptpLkpMessage port msg) s)
def execSyncTimeout (s : State) : Out := .next (syncTimeout s)
def execHoldLimit (s : State) : Out := .next (holdLimit s)

end Sys2Proof.Machine
end

