-- ==== Sys2Proof/Machine/Registers.lean ====
section
/-! DEFINITION. Configuration registers as a whole (R10, R11, R493, R494, R667): which structure belongs to which unit, the
field rules of every structure, one write with everything it sets off, and reads with the words that follow the state. -/
namespace Sys2Proof.Machine

/-- The readiness bit of a unit (Table 16-3). A Canal link reports ready only after its CNL_LINK has been written
(R237), so its configuration does not wait for the bit. -/
def unitBit (u : Nat) : Option Nat :=
  let i := uindex u
  match utype u with
  | 0x01 => some (RB_SL + i)
  | 0x02 | 0x03 | 0x04 | 0x05 | 0x06 => some (RB_CORE + i)
  | 0x07 | 0x09 => some (RB_HUB + i)
  | 0x08 => some (RB_FA + i)
  | 0x0A => some (RB_UP + i)
  | 0x0B => some (RB_DDR + i)
  | 0x0C => some (RB_ETH + i)
  | 0x0D => some (RB_CK + i)
  | 0x0E | 0x0F | 0x11 => some RB_INR
  | 0x10 => some RB_FUS
  | 0x12 | 0x13 => some RB_APX
  | 0x14 | 0x18 | 0x19 => some RB_BRG
  | 0x15 => some RB_TMU
  | 0x16 => some RB_SEC
  | 0x17 => some RB_LKP
  | _ => none

/-- The unit has reported ready (Table 15-13). -/
def unitReady (s : State) (u : Nat) : Bool :=
  match unitBit u with
  | none => true
  | some b => readyBit s b

/-- Ready for configuration. -/
def cfgReady (s : State) (u : Nat) : Bool := utype u == 0x0D || unitReady s u

/-- The descriptor of a structure of a unit (R494). -/
def regDescOf (u reg : Nat) : Option RegDesc := regDescs.find? (fun d => d.code == reg && d.utypes.contains (utype u))

/-- Entries of a structure in a unit: CNL_ENT has 1,024 in a link receiver. -/
def regEntries (d : RegDesc) (u : Nat) : Nat := if d.code = 0x0507 ∧ utype u = 0x0D then 1024 else d.entries

/-- The status of an address range of a structure, ST_OK when it exists. -/
def regRange (u reg entry word count : Nat) : Nat :=
  match regDescOf u reg with
  | none => ST_UNSUPPORTED
  | some d =>
    firstFail [(entry < regEntries d u ∧ word < d.words, ST_UNSUPPORTED),
      (entry * d.words + word + count ≤ regEntries d u * d.words, ST_UNSUPPORTED)]

/-- A transfer word after a write (R10, R11): RW bits take the written value, written ones clear W1C bits, other bits
stay. -/
def mergeWord (reg word old v : Nat) : Nat :=
  let rw := rwMask reg word
  let wc := w1cMask reg word
  (old &&& (2 ^ 64 - 1 - rw - wc)) ||| (v &&& rw) ||| (old &&& wc &&& (2 ^ 64 - 1 - (v &&& wc)))

/-- The words of entry `e` after a write of `vals` from linear word `p0`. -/
def newEntry (s : State) (u reg words e p0 : Nat) (vals : List Nat) : List Nat :=
  (upto words).map (fun i =>
    let p := e * words + i
    let old := regWord s u reg e i
    if p0 ≤ p ∧ p < p0 + vals.length then mergeWord reg i old (vals.getD (p - p0) 0) else old)

/-! ### Field rules (R91, R126, R163, R164, R187, R281, R337, R343, R443, R460) -/

/-- The Towline port fields that a command in progress protects (R443): ROLE, IPV6, UDP_PORT, MTU, MACsec, addresses. -/
def towProtected (s : State) (p : Nat) (ws : List Nat) : Bool :=
  let same (f : Fld) : Bool := fldOf ws f == rd s (uETH p) f
  same TOW_PORT.ROLE && same TOW_PORT.IPV6 && same TOW_PORT.MACSEC_EN && same TOW_PORT.MACSEC_XPN && same TOW_PORT.PTP_BYPASS
    && same TOW_PORT.MTU && same TOW_PORT.UDP_PORT
    && (upto 6).all (fun i => i == 0 || ws.getD i 0 == regWord s (uETH p) 0x0B01 0 i)
    && bits (ws.getD 6 0) 0 48 == bits (regWord s (uETH p) 0x0B01 0 6) 0 48

/-- A berth holds a command of this port, other than the CONFIG_WRITE or GRAPH_LOAD that makes the write. -/
def portCarries (s : State) (p : Nat) : Bool :=
  (upto 16).any (fun b =>
    let v := berthOf s b
    v.cmd.isSome && v.req.any (fun q => q.link == .port p) && v.code != 0x0201 && v.code != 0x0101)

/-- The field rules of TOW_PORT (Tables 14-1 and 14-2). -/
def checkTowPort (s : State) (p : Nat) (ws : List Nat) : Nat :=
  let f := fldOf ws
  firstFail [(f TOW_PORT.ROLE ≤ (if p < 2 then 1 else 2), ST_UNSUPPORTED), (f TOW_PORT.VID ≤ 4094, ST_UNSUPPORTED),
    (1280 ≤ f TOW_PORT.MTU ∧ f TOW_PORT.MTU ≤ 1500, ST_UNSUPPORTED), (1 ≤ f TOW_PORT.UDP_PORT, ST_UNSUPPORTED),
    (towProtected s p ws ∨ ¬ portCarries s p, ST_BUSY)]

/-- The ranges of TOW_HELM (Table 14-7). -/
def checkTowHelm (ws : List Nat) : Nat :=
  let t := fldOf ws TOW_HELM.HELM_TIMEOUT_MS
  firstFail [(20 ≤ t ∧ t ≤ 10000, ST_UNSUPPORTED), (1 ≤ fldOf ws TOW_HELM.HELM_OBJECT_MS, ST_UNSUPPORTED)]

/-- The range of SLOTS_M1 (R471). -/
def checkTowRxf (ws : List Nat) : Nat :=
  firstFail [(fldOf ws TOW_RXF.VALID = 0 ∨ 1 ≤ fldOf ws TOW_RXF.SLOTS_M1, ST_UNSUPPORTED)]

/-- The job of a unit runs. -/
def ownerRuns (s : State) (u : Nat) : Bool := unitJob s u < 8 && jobRuns s (unitJob s u)

/-- The words of an entry as they stand. -/
def heldWords (s : State) (u reg e : Nat) (ws : List Nat) : List Nat := entryWords s u reg e ws.length

/-- Nothing changes, or the owning job does not run (R187, R281). -/
def idleOrSame (s : State) (u reg e : Nat) (ws : List Nat) : Bool := heldWords s u reg e ws == ws || !ownerRuns s u

/-- Of NRN_MODEL only the K constants and decay tables change while the job runs (R187). -/
def modelKeeps (s : State) (u e : Nat) (ws : List Nat) : Bool :=
  ws.getD 0 0 % 2 ^ 32 == regWord s u 0x0404 e 0 % 2 ^ 32 || !ownerRuns s u

/-- Of TEN_VOX only TRIG_EN and PROG change while the job runs (R281). -/
def tenKeeps (s : State) (u e : Nat) (ws : List Nat) : Bool :=
  !ownerRuns s u || (upto ws.length).all (fun i => tenVoxKeeps s (uindex u) e i (ws.getD i 0))

/-- The fusion fields that may change while the owning job runs (R337). -/
def fusKeeps (s : State) (reg e : Nat) (ws : List Nat) : Bool :=
  !jobRuns s (fusJob s) || (upto ws.length).all (fun i =>
    let m := 2 ^ 64 - 1 - fusLiveMask reg i
    (ws.getD i 0) &&& m == (regWord s uFUS reg e i) &&& m)

/-- A sluice keeps naming the cores whose enabled ports name it (R164). -/
def keepsHomes (s : State) (n : Nat) (ws : List Nat) : Bool :=
  let h0 := fldOf ws SLU_PORT.HOME0
  let h1 := fldOf ws SLU_PORT.HOME1
  let split := fldOf ws SLU_PORT.SPLIT_ROW
  (upto 4).all (fun i => (upto 4).all (fun p =>
    let c := n / 4 * 4 + i
    rd s (uSE c) SRF_PORT.ENABLE p == 0 || rd s (uSE c) SRF_PORT.SLUICE p != n || h0 == i || (h1 == i && split != 0)))

/-- Bytes of the largest body that the producers of a stream can write (R343); 0 where it is not checked. -/
def largestBody (s : State) (k : Nat) : Nat :=
  match resF s k RES_STREAM.KIND with
  | 0 | 1 | 2 => 16
  | 3 =>
    let n := (upto 16).foldl (fun a c => (upto 64).foldl (fun a g =>
      if ng s c g NRN_GRP.VALID = 1 ∧ ng s c g NRN_GRP.CNT_EN = 1 ∧ ng s c g NRN_GRP.CNT_STREAM = k then
        max a (ng s c g NRN_GRP.COUNT_M1 + 1) else a) a) 0
    if n = 0 then 0 else (32 + 2 * n + 7) / 8 * 8
  | 4 =>
    if fg s FUS_GRID.GRID_STREAM_EN = 1 ∧ fg s FUS_GRID.GRID_STREAM = k then
      48 + 16 + 65536 * (if fg s FUS_GRID.GRID_FMT = 0 then 1 else 2) + 1024 else 0
  | 5 => if fg s FUS_GRID.OBJ_STREAM = k then 48 + 48 * rd s uFUS FUS_OBJ.OBJ_MAX else 0
  | 6 => if fg s FUS_GRID.EGO_STREAM = k then 136 else 0
  | 7 =>
    if (upto 4).any (fun n => (upto 16).any (fun p => prF s n p ARR_PROG.VALID == 1 && prF s n p ARR_PROG.DONE_EN == 1
        && prF s n p ARR_PROG.DONE_STREAM == k)) then 40 else 0
  | 8 => if (upto 4).any (fun n => (upOf s n).used && (upOf s n).stream == k) then 24 else 0
  | _ => 0

/-- A stream's slot holds the largest body. -/
def slotFits (s : State) (k : Nat) : Bool := largestBody s k == 0 || decide (32 + largestBody s k ≤ strSlotBytes s k)

/-- Every enabled stream's slot holds the largest body of its producers. -/
def slotsFit (s : State) : Bool := (upto 64).all (fun k => !strOn s k || slotFits s k)

/-- The rules of one entry as it would stand after the write, judged against the state before it (R667). -/
def checkEntry (s : State) (u reg e : Nat) (ws : List Nat) : Nat :=
  let i := uindex u
  let both (a b : Nat) : Nat := if a = ST_OK then b else a
  let idle : Nat := firstFail [(idleOrSame s u reg e ws, ST_WRONG_STATE)]
  match reg with
  | 0x0101 => both (checkSluPort s i ws) (firstFail [(keepsHomes s i ws, ST_WRONG_STATE)])
  | 0x0102 => checkSluWin s i ws
  | 0x0103 => checkSluFlt ws
  | 0x0104 => checkSluTal ws
  | 0x0105 => checkSluQue ws
  | 0x0107 => checkSluFmt s i ws
  | 0x0109 => checkSluFrm s i ws
  | 0x0201 => checkInrEng s i ws
  | 0x0202 => checkInrCh ws
  | 0x0301 => checkSrfPort s i e ws
  | 0x0302 => checkSrfCfg ws
  | 0x0303 => checkSrfIntr s e ws
  | 0x0401 => both (checkNrnGrp ws) idle
  | 0x0402 => both (checkNrnMat ws) idle
  | 0x0403 => idle
  | 0x0404 => both (checkNrnModel ws) (firstFail [(modelKeeps s u e ws, ST_WRONG_STATE)])
  | 0x0405 => both (checkNrnCfg ws) idle
  | 0x0406 => both (firstFail [(ucodeOk (ws.getD 0 0), ST_UNSUPPORTED)]) idle
  | 0x0501 => checkUpq ws
  | 0x0503 => checkCnlLink s i ws
  | 0x0505 => checkCnlJob ws
  | 0x0601 => checkArrProg ws
  | 0x0602 => both (checkLayer ws) (firstFail [(!ownerRuns s u, ST_WRONG_STATE)])
  | 0x0603 => both (checkTenVox ws) (firstFail [(tenKeeps s u e ws, ST_WRONG_STATE)])
  | 0x0701 => both (checkFusGrid ws) (firstFail [(fusKeeps s reg e ws, ST_WRONG_STATE)])
  | 0x0702 => both (checkFusSrc ws) (firstFail [(fusKeeps s reg e ws, ST_WRONG_STATE)])
  | 0x0703 => both (checkFusEgo ws) (firstFail [(fusKeeps s reg e ws, ST_WRONG_STATE)])
  | 0x0704 => both (checkFusObj ws) (firstFail [(fusKeeps s reg e ws, ST_WRONG_STATE)])
  | 0x0801 => checkResStream s i ws
  | 0x0901 => checkBrgQ s i ws
  | 0x0A02 => checkIncr ws
  | 0x0A03 => checkServo ws
  | 0x0A04 => checkTmuPort ws
  | 0x0A05 => checkCmp s ws
  | 0x0A06 => checkSyncOut s i ws
  | 0x0A07 => checkPps ws
  | 0x0B01 => checkTowPort s i ws
  | 0x0B02 => checkTowHelm ws
  | 0x0B04 => checkTowRxf ws
  | _ => ST_OK

/-- The first entry that breaks a rule decides the status. -/
def checkEntries (s : State) (u reg words p0 : Nat) (vals : List Nat) : List Nat → Nat
  | [] => ST_OK
  | e :: r =>
    let st := checkEntry s u reg e (newEntry s u reg words e p0 vals)
    if st = ST_OK then checkEntries s u reg words p0 vals r else st

/-! ### What a write sets off -/

/-- A one-bit field of held words. -/
def was (ws : List Nat) (f : Fld) : Bool := fldOf ws f == 1

/-- A written SLU_PORT: a new geometry resets the delivery window (Table 2-7); ENABLE starts or stops the port. -/
def sluPortWritten (n : Nat) (old : List Nat) (s : State) : State :=
  let geo := fldOf old SLU_PORT.WIDTH_M1 = sl s n SLU_PORT.WIDTH_M1 ∧ fldOf old SLU_PORT.HEIGHT_M1 = sl s n SLU_PORT.HEIGHT_M1
  let s := if geo then s
    else setRegWord s (uSL n) 0x0102 0 0 (fullWin (sl s n SLU_PORT.WIDTH_M1) (sl s n SLU_PORT.HEIGHT_M1))
  let on := rdB s (uSL n) SLU_PORT.ENABLE
  if on ∧ ¬ was old SLU_PORT.ENABLE then portEnable n s
  else if ¬ on ∧ was old SLU_PORT.ENABLE then portDisable n s else s

/-- Everything a write of an entry sets off, with the words held before. -/
def entryWritten (u reg e : Nat) (old : List Nat) (s : State) : State :=
  let i := uindex u
  match reg with
  | 0x0101 => sluPortWritten i old s
  | 0x0202 => inrChWritten i (old.getD 0 0) s
  | 0x0301 => if rd s u SRF_PORT.ENABLE e = 1 ∧ ¬ was old SRF_PORT.ENABLE then srfPortEnable i e s else s
  | 0x0501 => fillPolicer i s
  | 0x0502 => devIdWritten s
  | 0x0503 => if rdB s u CNL_LINK.ENABLE = was old CNL_LINK.ENABLE then s else linkEnabled i (rdB s u CNL_LINK.ENABLE) s
  | 0x0801 =>
    if strOn s i ∧ ¬ was old RES_STREAM.ENABLE then streamEnable i s
    else if ¬ strOn s i ∧ was old RES_STREAM.ENABLE then streamDisable i s else s
  | 0x0901 => if was old BRG_Q.ENABLE ∧ ¬ rdB s u BRG_Q.ENABLE then queueDisable i s else s
  | 0x0A03 => servoWritten (old.getD 0 0) s
  | 0x0A05 => armCmp e s
  | 0x0A07 => ppsRestart s
  | 0x0A06 => if rdB s u TMU_SYNCOUT.ENABLE ∧ ¬ was old TMU_SYNCOUT.ENABLE then syncOutEnable i s else s
  | _ => s

/-- One entry written atomically. -/
def writeEntryWords (u reg e : Nat) (ws : List Nat) (s : State) : State :=
  let old := entryWords s u reg e ws.length
  entryWritten u reg e old ((ws.zipIdx).foldl (fun s x => setRegWord s u reg e x.2 x.1) s)

/-- Fields of an ingest queue's BRG_Q ignore writes (R404): only SPILL_BASE, NOTE_HART, INJ_CLASS and the Canal close fields are kept. -/
def keptOfIngest (s : State) (q : Nat) (ws : List Nat) : List Nat :=
  if (ingestSluice s q).isNone then ws else
  let keep (w v : Nat) : Nat :=
    let m (f : Fld) : Nat := if f.word = w then (2 ^ f.width - 1) * 2 ^ f.lo else 0
    let k := m BRG_Q.SPILL_BASE + m BRG_Q.NOTE_HART + m BRG_Q.INJ_CLASS + m BRG_Q.CLOSE_WORDS + m BRG_Q.CLOSE_US
    (v &&& k) ||| (regWord s (uQUEUE q) 0x0901 0 w &&& (2 ^ 64 - 1 - k))
  (ws.zipIdx).map (fun x => keep x.2 x.1)

/-- Entries that a run of words touches. -/
def touched (words p0 n : Nat) : List Nat := (upto ((p0 + n - 1) / words + 1 - p0 / words)).map (· + p0 / words)

/-- A written run of words sets TMU_SERVO.GM_CHANGE, which holds nothing and acts when it is written as 1 (R10, R417). -/
def gmWritten (p0 : Nat) (vals : List Nat) : Bool := decide (p0 ≤ 3) && bit (vals.getD (3 - p0) 0) 48

/-- CONFIG_WRITE (R493): the range, the field rules of every entry, then the entries in ascending order. -/
def cfgWrite (u reg entry word : Nat) (vals : List Nat) (s : State) : Nat × State :=
  match regDescOf u reg with
  | none => (ST_UNSUPPORTED, s)
  | some d =>
    let st := regRange u reg entry word vals.length
    if st ≠ ST_OK then (st, s)
    else if ¬ d.rw then (ST_UNSUPPORTED, s)
    else if ¬ cfgReady s u then (ST_WRONG_STATE, s)
    else
      let p0 := entry * d.words + word
      let es := touched d.words p0 vals.length
      let st := checkEntries s u reg d.words p0 vals es
      if st ≠ ST_OK then (st, s)
      else
        let s₁ := es.foldl (fun s' e =>
          let ws := newEntry s u reg d.words e p0 vals
          writeEntryWords u reg e (if reg = 0x0901 then keptOfIngest s (uindex u) ws else ws) s') s
        let s' := if reg = 0x0A03 ∧ gmWritten p0 vals then gmChange s₁ else s₁
        if (reg = 0x0801 ∨ reg = 0x0401 ∨ reg = 0x0701 ∨ reg = 0x0704) ∧ ¬ slotsFit s' then (ST_SHAPE, s)
        else (ST_OK, s')

/-! ### Reads -/

/-- CNL_RLOG entry (Table 6-11). -/
def rlogWord (s : State) (i : Nat) : Nat :=
  match s.canal.rlog[i]? with
  | none => 0
  | some e => e.win % 2 ^ 32 + e.job * 2 ^ 32 + e.src * 2 ^ 35 + b2n e.loc * 2 ^ 41 + e.links * 2 ^ 42 + b2n e.guarded * 2 ^ 46

/-- BRG_Q of an ingest queue as read (R404). -/
def brgQRead (s : State) (q w : Nat) : Nat :=
  let v := regWord s (uQUEUE q) 0x0901 0 w
  if (ingestSluice s q).isNone then v else
  let put (v : Nat) (f : Fld) (x : Nat) : Nat := if f.word = w then setBits v f.lo f.width x else v
  put (put (put (put (put (put (put (put (put v BRG_Q.ENABLE (b2n (qEnable s q))) BRG_Q.PROD 0) BRG_Q.CONS 0)
    BRG_Q.CONS_UNIT (qConsUnit s q)) BRG_Q.JOB (qJob s q)) BRG_Q.SPILL_TGT (qSpillTgt s q))
    BRG_Q.SPILL_LIMIT_MIB (qSpillMib s q)) BRG_Q.RETAIN (b2n (qRetain s q))) BRG_Q.MAX_PKT_M1 255

/-- A transfer word as read: stored, or formed from the state where the field map says so. -/
def readWord (s : State) (u reg e w : Nat) : Nat :=
  let i := uindex u
  match reg with
  | 0x0108 => sluStat s i w
  | 0x0502 => cnlDevWord s
  | 0x0504 => lstatWord s i
  | 0x0506 => rlogWord s e
  | 0x0705 => fusSstat s e
  | 0x0802 => sstatWord s i w
  | 0x0901 => brgQRead s i w
  | 0x0902 => qstatWord s i w
  | 0x0A01 => tmuTime s w
  | 0x0A02 => if w = 1 then s.time.incrNow else regWord s u reg e w
  | 0x0A04 =>
    if w = 2 then setBits (regWord s u reg e w) 2 4 (ptpOf s i).txq.length else regWord s u reg e w
  | 0x0A06 =>
    if w = 2 then (syncOutOf s i).count else if w = 3 then (syncOutOf s i).lastEdge else regWord s u reg e w
  | 0x0A08 => tmuStat s w
  | 0x0B02 => regWord s u reg e w % 2 ^ 28 / 16 * 16 + s.tow.holder + s.tow.epoch * 2 ^ 32
  | 0x0C01 => lkpState s
  | _ => regWord s u reg e w

/-- The address of the k-th word of a run. -/
def wordAt (words p0 k : Nat) : Nat × Nat := ((p0 + k) / words, (p0 + k) % words)

/-- A read of TMU_TIME word 0 latches word 1 (R415). -/
def latchTime (p0 n : Nat) (s : State) : State :=
  if p0 = 0 ∧ 0 < n then setTime s { s.time with latch1 := s.time.sec } else s

/-- CONFIG_READ (R493). -/
def cfgRead (u reg entry word count : Nat) (s : State) : Nat × List Nat × State :=
  match regDescOf u reg with
  | none => (ST_UNSUPPORTED, [], s)
  | some d =>
    let st := regRange u reg entry word count
    if st ≠ ST_OK then (st, [], s)
    else if ¬ cfgReady s u then (ST_WRONG_STATE, [], s)
    else
      let p0 := entry * d.words + word
      let s := if reg = 0x0A01 then latchTime p0 count s else s
      (ST_OK, (upto count).map (fun k => readWord s u reg (wordAt d.words p0 k).1 (wordAt d.words p0 k).2), s)

/-! ### Commands that are one write of one structure -/

/-- The effect of a write of a structure's first words in entry `e`, as CONFIG_WRITE makes it; a write that breaks a rule
changes nothing (R17). -/
def regCommand (u reg e : Nat) (vals : List W64) (s : State) : Out :=
  .next (cfgWrite u reg e 0 (vals.map (·.toNat)) s).2

def execPortEnable (sluice : Nat) (w0 w1 : W64) (s : State) : Out := regCommand (uSL sluice) 0x0101 0 [w0, w1 ||| 1] s
def execPortDisable (sluice : Nat) (w0 : W64) (s : State) : Out := regCommand (uSL sluice) 0x0101 0 [w0, 0] s
def execLinkEnable (link : Nat) (word : W64) (s : State) : Out := regCommand (uCK link) 0x0503 0 [word ||| 1] s
def execDevIdWrite (dev : Nat) (s : State) : Out := regCommand uDEV 0x0502 0 [BitVec.ofNat 64 dev] s
def execCnlUpqWrite (hub : Nat) (word : W64) (s : State) : Out := regCommand (uHUB hub) 0x0501 0 [word] s
def execChannelResetWrite (channel : Nat) (w0 w1 : W64) (s : State) : Out := regCommand (uIN channel) 0x0202 0 [w0, w1] s
def execSrfPortEnable (core entry : Nat) (word : W64) (s : State) : Out :=
  regCommand (uSE core) 0x0301 entry [word ||| 1] s
def execStreamEnable (stream : Nat) (w0 w1 : W64) (s : State) : Out :=
  regCommand (uSTREAM stream) 0x0801 0 [w0 ||| (1 <<< 40), w1] s
def execStreamDisable (stream : Nat) (w0 : W64) (s : State) : Out :=
  regCommand (uSTREAM stream) 0x0801 0 [w0 &&& ~~~((1 : W64) <<< 40)] s
def execQueueDisable (queue : Nat) (w0 : W64) (s : State) : Out :=
  regCommand (uQUEUE queue) 0x0901 0 [w0 &&& ~~~(1 : W64)] s
def execGmChange (s : State) : Out := .next (gmChange s)
def execServoDisable (w0 : W64) (s : State) : Out := regCommand uTMU 0x0A03 0 [w0 &&& ~~~((1 : W64) <<< 3)] s
def execCmpArm (index : Nat) (w0 w1 : W64) (s : State) : Out := regCommand uTMU 0x0A05 index [w0, w1 ||| (1 <<< 31)] s
def execSyncoutEnable (sluice : Nat) (w0 w1 : W64) (s : State) : Out :=
  regCommand (uSL sluice) 0x0A06 0 [w0, w1 ||| (1 <<< 31)] s

end Sys2Proof.Machine
end

