-- ==== Sys2Proof/Machine/Commands.lean ====
section
/-! DEFINITION. Commands of chapter 15 that act at once: configuration, routes, weights, sensors, time, results, diagnostics
(Tables 15-5, 15-7, 15-8, 15-10, 15-11, 15-13). -/
namespace Sys2Proof.Machine

/-! ### Rights of a berth portal (R375, R479) -/

/-- The object belongs to the portal's job. -/
def jobOwns (s : State) (j u : Nat) : Bool :=
  match utype u with
  | 0x18 => bit (jobOf s j).streams (uindex u)
  | 0x19 => ownsQueue s j (uindex u)
  | 0x1A => uindex u == j
  | 0x13 => bit (jobOf s j).harts (uindex u)
  | _ => u != uDEV && unitJob s u == j

/-- A request from a portal names only objects of its job. -/
def portalMay (s : State) (q : Req) (us : List Nat) : Bool :=
  match q.link with
  | .portal j => us.all (jobOwns s j)
  | _ => true

/-- A command whose objects a portal must own: ST_AUTH for any other. -/
def guarded_ (q : Req) (us : List Nat) (eff : State → CmdRes) (s : State) : CmdRes :=
  if portalMay s q us then eff s else ans ST_AUTH [] s

/-- The link of a request holds the helm. -/
def holdsHelm (s : State) (q : Req) : Bool :=
  match q.link with
  | .portal _ => false
  | l => linkCode l == s.tow.holder

/-! ### Configuration (R493 to R495) -/

/-- The effect of CONFIG_WRITE. -/
def configWrite (u reg entry word : Nat) (data : List W64) (s : State) : CmdRes :=
  let (st, s) := cfgWrite u reg entry word (data.map (·.toNat)) s
  ans st [] s

/-- The effect of CONFIG_READ: words most significant byte first (R477). -/
def configRead (u reg entry word count : Nat) (s : State) : CmdRes :=
  let (st, ws, s) := cfgRead u reg entry word count s
  ans st (ws.flatMap (beBytes 8)) s

/-- Entries of a table as pairs of transfer words. -/
def pairsOf : List W64 → List (Nat × Nat)
  | a :: b :: r => (a.toNat, b.toNat) :: pairsOf r
  | _ => []

/-- One CNL_ENT entry written (R216). -/
def writeEnt (u i : Nat) (e : Nat × Nat) (s : State) : State :=
  let put (w v : Nat) (s : State) : State := setRegWord s u 0x0507 i w (mergeWord 0x0507 w (regWord s u 0x0507 i w) v)
  put 1 e.2 (put 0 e.1 s)

/-- The effect of ROUTE_WRITE (R495). -/
def routeWrite (u first : Nat) (data : List W64) (s : State) : CmdRes :=
  let es := pairsOf data
  let n := if utype u = 0x05 then 4096 else 1024
  if (utype u ≠ 0x05 ∧ utype u ≠ 0x0D) ∨ n < first + es.length ∨ es.any (fun e => checkEnt u e.1 e.2 != ST_OK) then
    ans ST_UNSUPPORTED [] s
  else if ¬ cfgReady s u then ans ST_WRONG_STATE [] s
  else ans ST_OK [] ((es.zipIdx).foldl (fun s e => writeEnt u (first + e.2) e.1 s) s)

/-! ### Weights (R175, R496) -/

/-- The stride of a matrix's rows. -/
def strideOf (s : State) (c m : Nat) : Nat :=
  rowStride (rd s (uNE c) NRN_MAT.FMT m) (rd s (uNE c) NRN_MAT.COLS_M1 m + 1)

/-- A whole row written into the synapse store. -/
def putRowBytes (c m row : Nat) (l : List Byte) (s : State) : State :=
  let a := rd s (uNE c) NRN_MAT.BASE m * 64 + row * strideOf s c m
  let v := neOf s c
  setNe s c { v with
    syn := tput 0 v.syn a l, synBad := tclear (fun w => decide (a ≤ 4 * w ∧ 4 * w + 4 ≤ a + l.length)) v.synBad }

/-- Setting the row buffer of a core. -/
def setRowAsm (c : Nat) (r : Option RowAsm) (s : State) : State :=
  { s with tow := { s.tow with rows := tset none s.tow.rows c r } }

/-- The effect of WEIGHTS_WRITE. -/
def weightsWrite (c m row off : Nat) (last : Bool) (data : List Byte) (s : State) : CmdRes :=
  let held := tget none s.tow.rows c
  let got := match held with | some r => r.data.length | none => 0
  let same : Bool := held.any (fun r => r.matrix == m && r.row == row)
  let stop (st : Nat) : CmdRes := ans st (beBytes 2 got) s
  if ¬ unitReady s (uNE c) then stop ST_WRONG_STATE
  else if rd s (uNE c) NRN_MAT.VALID m = 0 ∨ rd s (uNE c) NRN_MAT.ROWS_M1 m < row ∨ strideOf s c m < off + data.length then
    stop ST_UNSUPPORTED
  else if off ≠ 0 ∧ (¬ same ∨ got < off) then stop ST_SHAPE
  else if off ≠ 0 ∧ off < got then ans ST_OK (beBytes 2 got) s
  else
    let d := if off = 0 then data else (match held with | some r => r.data | none => []) ++ data
    if last ∧ d.length ≠ strideOf s c m then stop ST_SHAPE
    else
      let s := setRowAsm c (some ⟨m, row, d⟩) s
      ans ST_OK (beBytes 2 d.length) (if last then putRowBytes c m row d s else s)

/-! ### Sensor control (R497, R498) -/

/-- Setting the transaction in progress on a sluice's bus. -/
def setI3c (n : Nat) (r : Option I3cRun) (s : State) : State := { s with tow := { s.tow with i3c := tset none s.tow.i3c n r } }

/-- The effect of SENSOR_I3C: what the target answered, or a wait. -/
def sensorI3c (q : Req) (n : Nat) (resp : I3cResp) (s : State) : CmdRes :=
  if ¬ unitReady s (uSL n) then ans ST_WRONG_STATE [] s
  else if (tget none s.tow.i3c n).isSome then waits (setBerth s q.berth { berthOf s q.berth with started := none })
  else match resp with
    | .silent => waits (setI3c n (some ⟨q.berth, now s⟩) s)
    | .ended nack w r => ans (if nack then ST_ABORTED else ST_OK) (beBytes 1 w ++ beBytes 1 r.length ++ r) s

/-- I3C_TIMEOUT (R497): a transaction that has not ended within 1 ms is stopped. -/
def i3cTimeout (n : Nat) (s : State) : State :=
  match tget none s.tow.i3c n with
  | none => s
  | some r =>
    if r.started + 1000000 ≤ now s then
      let s := setI3c n none s
      if (berthOf s r.berth).code = 0x0205 then finishBerth r.berth ST_ABORTED (beBytes 2 0) s else s
    else s

/-- The effect of FILTER_SYNC (R115, R498): the reset instant is the first sample-clock edge at least 80 ns after the write;
where it falls within the 40.7 ns period is open. -/
def filterSync (engines : Nat) (s : State) : CmdRes :=
  if ¬ readyBit s RB_INR then ans ST_WRONG_STATE [] s
  else
    let (v, s) := drawFree 6 s
    ans ST_OK (beBytes 8 (now s + 80 + v % 41)) ((maskBits 3 engines).foldl (fun s e => scheduleReset e s) s)

/-! ### Time (R499) -/

/-- The effect of TIME_GET. -/
def timeGet (s : State) : CmdRes :=
  ans ST_OK (beBytes 8 (now s) ++ ((upto 4).map (tmuStat s)).flatMap (beBytes 8)) s

/-- The effect of PTP_CONFIG. -/
def ptpConfig (port profile role : Nat) (ls lp la : Int) (p1 p2 : Nat) (s : State) : CmdRes :=
  if profile = 2 ∧ role = 2 then ans ST_UNSUPPORTED [] s
  else if profile = 2 ∧ (upto 5).any (fun p => p != port && (ptpOf s p).profile == 2) then ans ST_NO_RESOURCE [] s
  else
    ans ST_OK [] (setPtp s port { ptpOf s port with
      profile := profile, role := if profile = 2 then 1 else role, logSync := ls, logPdelay := lp, logAnnounce := la,
      prio1 := p1, prio2 := p2 })

/-! ### Results (R354 to R359, R506, R507) -/

/-- The committed record in a slot as it lies in memory; REPEAT of the header as given. -/
def recordBytes (s : State) (k i n : Nat) (rep : Bool) : List Byte :=
  let l := ramBytes s (slotAddr s k i) n
  if rep then l.take 5 ++ beBytes 1 (setBits (leAt l 5 1) 0 1 1) ++ l.drop 6 else l

/-- The effect of RESULT_READ. -/
def resultRead (q : Req) (k sel seq off len : Nat) (s : State) : CmdRes :=
  let tail := beBytes 4 (oldestSeq s k) ++ beBytes 4 (strOf s k).lastSeq
  match resolveRead s k sel seq with
  | .fail st =>
    let s := if st = ST_NOT_READY then resBump k 2 s else if st = ST_OVERRUN then resBump k 3 s else s
    ans st (beBytes 32 0 ++ tail) s
  | .record i v =>
    let b := readerBit q.link
    let marked := bit v.marks b
    if v.bytes ≤ off then ans ST_SHAPE ((recordBytes s k i 32 false) ++ tail) s
    else
      let n := min len (v.bytes - off)
      let bad := ramBad s (slotAddr s k i) 32 || ramBad s (slotAddr s k i + off) n
      let rep : Bool := !bad && marked
      let l := recordBytes s k i v.bytes rep
      let out := l.take 32 ++ tail ++ (l.drop off).take n
      if bad then ans ST_POISONED out s
      else
        let s := if rep then resBump k 4 s else s
        ans ST_OK out (if off + n = v.bytes then markRead k i b s else s)

/-- The requester that RELEASER names (R358, R375): the helm holder, or a portal of the stream's job. -/
def mayRelease (s : State) (q : Req) (k : Nat) : Bool :=
  match q.link with
  | .portal _ => resF s k RES_STREAM.RELEASER == 1
  | _ => resF s k RES_STREAM.RELEASER == 0 && holdsHelm s q

/-- The effect of RESULT_RELEASE. -/
def resultReleaseCmd (q : Req) (k seq : Nat) (s : State) : CmdRes :=
  if ¬ mayRelease s q k then ans ST_AUTH [] s
  else
    let (st, s) := resultRelease k seq s
    ans st (if st = ST_OK then beBytes 4 (strOf s k).relSeq else []) s

/-- The effect of SUBSCRIBE. -/
def subscribe (q : Req) (k port cls every : Nat) (s : State) : CmdRes :=
  if port < 5 ∧ ¬ isHost s port then ans ST_WRONG_STATE [] s
  else match (upto 32).find? (fun i => subF s i RES_SUB.VALID == 0) with
    | none => ans ST_NO_RESOURCE [] s
    | some i =>
      let s := setRegWord s uDEV 0x0803 i 0 (k + port * 2 ^ 6 + cls * 2 ^ 9 + every * 2 ^ 11 + 2 ^ 19)
      ans ST_OK (beBytes 1 i) { s with res := { s.res with subs := tset {} s.res.subs i { creator := some q.link } } }

/-- A subscription removed with the records that wait for it. -/
def dropSub (i : Nat) (s : State) : State :=
  let s := setRegWord s uDEV 0x0803 i 0 (resetWord 0x0803 0)
  { s with res := { s.res with
      subs := tset {} s.res.subs i {},
      push := s.res.push.map (fun e => (e.1, { e.2 with waiting := e.2.waiting.filter (fun j => j.sub != i) })) } }

/-- The effect of UNSUBSCRIBE. -/
def unsubscribe (q : Req) (i : Nat) (s : State) : CmdRes :=
  if subF s i RES_SUB.VALID = 0 then ans ST_WRONG_STATE [] s
  else if (tget {} s.res.subs i).creator ≠ some q.link ∧ ¬ holdsHelm s q then ans ST_AUTH [] s
  else ans ST_OK [] (dropSub i s)

/-! ### Diagnostics (R508, R509) -/

/-- The units a counter block belongs to; two blocks keep some words elsewhere. -/
def cntUnits (d : CntDesc) : List Nat :=
  if d.code = 0x0B0F then [12, 63] else if d.code = 0x0A0F then [21, 12] else d.utypes

/-- Entries of a counter block. -/
def cntEntries (b : Nat) : Nat := if b = 0x070F ∨ b = 0x080F then 32 else if b = 0x060E then 8 else 1

/-- A counter block of a unit. -/
def cntDescOf (u b : Nat) : Option CntDesc := cntDescs.find? (fun d => d.code == b && (cntUnits d).contains (utype u))

/-- Where a word of a block is kept: only the per-source, per-entry and per-subscription words have an entry; TMU_CNT words 8
to 10 are kept per port, TOW_CNT words 10 and 11 for the device. None: the unit does not keep the word, which reads 0. -/
def cntPlace (u b w e : Nat) : Option Nat :=
  let i := if b = 0x060E ∨ (b = 0x070F ∧ 9 ≤ w) ∨ (b = 0x080F ∧ (w = 7 ∨ w = 8)) then e else 0
  if b = 0x0A0F then
    if utype u = 0x0C then (if 8 ≤ w then some (cntKey uTMU b (uindex u) w) else none)
    else if 8 ≤ w then none else some (cntKey u b 0 w)
  else if b = 0x0B0F ∧ ((u = uDEV) ≠ (w = 10 ∨ w = 11)) then none
  else some (cntKey u b i w)

/-- Reading a counter: the hardware count is added to the shadow and restarts from 0; CLEAR empties the shadow. -/
def readCounter (u b e w : Nat) (clear : Bool) (s : State) : Nat × State :=
  match cntPlace u b w e with
  | none => (0, s)
  | some k =>
    let v := satU 32 (tget 0 s.tow.shadow k + tget 0 s.cnt k)
    (v, { s with cnt := tset 0 s.cnt k 0, tow := { s.tow with shadow := tset 0 s.tow.shadow k (if clear then 0 else v) } })

/-- A run of counters. -/
def readCounters (u b e : Nat) (clear : Bool) : List Nat → List Byte × State → List Byte × State
  | [], x => x
  | w :: r, (l, s) =>
    let (v, s) := readCounter u b e w clear s
    readCounters u b e clear r (l ++ beBytes 4 v, s)

/-- The effect of COUNTERS_READ. -/
def countersRead (q : Req) (u b e first count : Nat) (clear : Bool) (s : State) : CmdRes :=
  match cntDescOf u b with
  | none => ans ST_UNSUPPORTED [] s
  | some d =>
    if d.count < first + count ∨ cntEntries b ≤ e then ans ST_UNSUPPORTED [] s
    else if ¬ unitReady s u then ans ST_WRONG_STATE [] s
    else if clear ∧ ¬ holdsHelm s q then ans ST_AUTH [] s
    else
      let (l, s) := readCounters u b e clear ((upto count).map (first + ·)) ([], s)
      ans ST_OK l s

/-- A log entry of 72 bytes (Table 15-11). -/
def logEntry (n : Notice) : List Byte :=
  beBytes 4 n.seq ++ beBytes 2 n.code ++ beBytes 1 n.ports ++ beBytes 1 0 ++ padTo 64 (noticeBody n.status n.unit n.time n.detail)

/-- The effect of NOTICE_LOG_READ. -/
def noticeLogRead (start count : Nat) (s : State) : CmdRes :=
  let l := s.tow.log.reverse
  let old := match l with | n :: _ => n.seq | [] => s.tow.logSeq + 1
  if s.tow.logSeq < start ∨ l = [] then ans ST_NOT_READY [] s
  else
    let es := (l.filter (fun n => decide (max start old ≤ n.seq))).take count
    ans (if start < old then ST_OVERRUN else ST_OK) (beBytes 1 es.length ++ beBytes 3 0 ++ es.flatMap logEntry) s

/-- The effect of UNIT_STATUS_GET. -/
def unitStatusGet (u : Nat) (s : State) : CmdRes :=
  let r := unitOf s (recordUnit u)
  let flags := b2n (unitReady s u) + b2n r.conflict * 2 + b2n (r.vstep != 0 || r.fstep != 0) * 4
  ans ST_OK (beBytes 1 (unitCode r.st) ++ beBytes 1 flags ++ beBytes 1 r.job ++ beBytes 1 r.vstep ++ beBytes 1 r.fstep
    ++ beBytes 3 0 ++ beBytes 8 r.since) s

/-- A window log entry of 64 bytes (Table 18-8). -/
def winEntryBytes (e : WinEntry) : List Byte :=
  padTo 64 (beBytes 4 e.win ++ beBytes 1 e.job ++ beBytes 1 e.flags ++ beBytes 1 e.attempt ++ beBytes 1 0 ++ beBytes 8 e.time
    ++ beBytes 8 e.recip ++ beBytes 8 e.streams ++ e.ranges.flatMap (fun r => beBytes 4 r.1 ++ beBytes 4 r.2))

/-- The effect of WINDOW_LOG_READ. -/
def windowLogRead (back count : Nat) (s : State) : CmdRes :=
  let es := (s.pass.log.drop back).take count
  ans ST_OK (beBytes 1 es.length ++ beBytes 7 0 ++ es.flatMap winEntryBytes) s

/-- The effect of TEST_CONTROL (R503). -/
def testControl (on : Bool) (rotation : Nat) (s : State) : CmdRes :=
  ans ST_OK [] (setPass s { s.pass with testOn := on, rotation := rotation })

/-! ### The commands -/

def execConfigWrite (q : Req) (unit reg entry word : Nat) (data : List W64) (s : State) : Out :=
  .next (serve q (.configWrite q unit reg entry word data) 0x0201
    (guarded_ q [unit] (configWrite unit reg entry word data)) s)
def execConfigRead (q : Req) (unit reg entry word count : Nat) (s : State) : Out :=
  .next (serve q (.configRead q unit reg entry word count) 0x0202
    (guarded_ q [unit] (configRead unit reg entry word count)) s)
def execRouteWrite (q : Req) (unit first : Nat) (data : List W64) (s : State) : Out :=
  .next (serve q (.routeWrite q unit first data) 0x0203
    (guarded_ q [unit] (routeWrite unit first data)) s)
def execWeightsWrite (q : Req) (core matrix row offset : Nat) (last : Bool) (data : List Byte) (s : State) : Out :=
  .next (serve q (.weightsWrite q core matrix row offset last data) 0x0204
    (guarded_ q [uNE core] (weightsWrite core matrix row offset last data)) s)
def execSensorI3c (q : Req) (sluice target : Nat) (i2c : Bool) (wdata : List Byte) (rlen : Nat) (resp : I3cResp)
    (s : State) : Out :=
  .next (serve q (.sensorI3c q sluice target i2c wdata rlen resp) 0x0205
    (guarded_ q [uSL sluice] (sensorI3c q sluice resp)) s)
def execI3cTimeout (sluice : Nat) (s : State) : Out := .next (i3cTimeout sluice s)
def execFilterSync (q : Req) (engines : Nat) (s : State) : Out :=
  .next (serve q (.filterSync q engines) 0x0206 (guarded_ q ((maskBits 3 engines).map uFE) (filterSync engines)) s)
def execTimeGet (q : Req) (s : State) : Out := .next (serve q (.timeGet q) 0x0301 timeGet s)
def execPtpConfig (q : Req) (port profile role : Nat) (logSync logPdelay logAnnounce : Int) (prio1 prio2 : Nat)
    (s : State) : Out :=
  .next (serve q (.ptpConfig q port profile role logSync logPdelay logAnnounce prio1 prio2) 0x0302
    (ptpConfig port profile role logSync logPdelay logAnnounce prio1 prio2) s)
def execResultRead (q : Req) (stream selector seq offset length : Nat) (s : State) : Out :=
  .next (serve q (.resultRead q stream selector seq offset length) 0x0701
    (guarded_ q [uSTREAM stream] (resultRead q stream selector seq offset length)) s)
def execResultRelease (q : Req) (stream seq : Nat) (s : State) : Out :=
  .next (serve q (.resultRelease q stream seq) 0x0702 (guarded_ q [uSTREAM stream] (resultReleaseCmd q stream seq)) s)
def execSubscribe (q : Req) (stream port cls everyM1 : Nat) (s : State) : Out :=
  .next (serve q (.subscribe q stream port cls everyM1) 0x0703
    (subscribe q stream port cls everyM1) s)
def execUnsubscribe (q : Req) (sub : Nat) (s : State) : Out :=
  .next (serve q (.unsubscribe q sub) 0x0704 (unsubscribe q sub) s)
def execCountersRead (q : Req) (unit block entry first count : Nat) (clear : Bool) (s : State) : Out :=
  .next (serve q (.countersRead q unit block entry first count clear) 0x0802
    (guarded_ q [unit] (countersRead q unit block entry first count clear)) s)
def execNoticeLogRead (q : Req) (start count : Nat) (s : State) : Out :=
  .next (serve q (.noticeLogRead q start count) 0x0803 (noticeLogRead start count) s)
def execUnitStatusGet (q : Req) (unit : Nat) (s : State) : Out :=
  .next (serve q (.unitStatusGet q unit) 0x0804 (guarded_ q [unit] (unitStatusGet unit)) s)
def execWindowLogRead (q : Req) (back count : Nat) (s : State) : Out :=
  .next (serve q (.windowLogRead q back count) 0x0506 (windowLogRead back count) s)
def execTestControl (q : Req) (enable : Bool) (rotation : Nat) (s : State) : Out :=
  .next (serve q (.testControl q enable rotation) 0x0505 (testControl enable rotation) s)

end Sys2Proof.Machine
end

