-- ==== Sys2Proof/Machine/Security.lean ====
section
/-! DEFINITION. Staging buffers (R483, R484), images (R522 to R524), live update (R532 to R534), keys and anti-rollback
(R530, R531), attestation, lifecycle and debug (R536 to R546). -/
namespace Sys2Proof.Machine

/-- Changing the security state. -/
def setSec (s : State) (v : SecSt) : State := { s with sec := v }

/-- svn_count (R523). -/
def svnCount (s : State) : Nat := popCount 64 s.sec.svnFuses

/-- A debug session is open: always in MANUFACTURE and RMA (R547). -/
def dbgOpen (s : State) : Bool := s.sec.lifecycle != 1 || s.sec.session.isSome

/-- SCOPE in force (R546). -/
def dbgScope (s : State) : Nat :=
  if s.sec.lifecycle ≠ 1 then 7 else match s.sec.session with | some x => x.1 | none => 0

/-- LIFECYCLE as the replies code it. -/
def lifecycleCode (s : State) : Nat := if s.sec.lifecycle = 1 ∧ s.sec.session.isSome then 2 else s.sec.lifecycle

/-- The hash of a key slot. -/
def keyHash (s : State) (slot : Nat) : Nat :=
  match slot with | 0 => s.sec.keyHash0 | 1 => s.sec.keyHash1 | _ => s.sec.keyHash2

/-- Words of the fuse block (Table 16-5). -/
def secIdWord (s : State) (w : Nat) : Nat :=
  let v := s.sec
  if w = 0 then v.variant % 256 + v.lifecycle % 4 * 2 ^ 8 + v.revoked % 8 * 2 ^ 10
  else if w ≤ 2 then bits v.uid (64 * (w - 1)) 64
  else if w = 3 then v.baseMac % 2 ^ 48
  else if w = 4 then v.bootIp4 % 2 ^ 32
  else if w = 5 then v.svnFuses % 2 ^ 64
  else if w < 10 then bits v.keyHash0 (64 * (w - 6)) 64
  else if w < 14 then bits v.keyHash1 (64 * (w - 10)) 64
  else if w < 18 then bits v.keyHash2 (64 * (w - 14)) 64
  else if w < 22 then bits v.dbgKeyHash (64 * (w - 18)) 64
  else 0

/-! ### Images (R522, R523) -/

/-- The size an image's header gives. -/
def imgSize (l : List Byte) : Nat := 1024 + leAt l 12 4 + 384

/-- Magic, header version, kind, reserved bytes and lengths (R522). -/
def imgShape (l : List Byte) (kind : Nat) : Bool :=
  let body := leAt l 12 4
  l.take 4 == [0x4D, 0x57, 0x46, 0x57] && leAt l 4 1 == 1 && leAt l 5 1 == kind
    && ((l.drop 28).take 36).all (· == 0) && ((l.drop 832).take 192).all (· == 0)
    && l.length == imgSize l && decide (imgSize l ≤ if kind = 0 then 2 ^ 20 else 2 ^ 18)
    && (kind == 1 || (leAt l 16 4 + leAt l 20 4 + leAt l 24 4 == body && decide (leAt l 24 4 ≤ 4096)))

/-- The checks of R523 in order; none when one fails. -/
def verifyImg (l : List Byte) (kind : Nat) (s : State) : Option FwImg :=
  let slot := leAt l 6 1
  let pub := beAt l 64 384
  let signed := l.take (l.length - 384)
  let hash := if keyHash s slot = 0 ∧ s.sec.lifecycle = 0 then Config.factoryKeyHash.toNat else keyHash s slot
  if ¬ imgShape l kind then none
  else if 2 < slot ∨ bit s.sec.revoked slot then none
  else if keyHash s slot = 0 ∧ s.sec.lifecycle ≠ 0 then none
  else if sha256 ((l.drop 64).take 384) ≠ hash then none
  else if ¬ pssVerify pub signed (l.drop (l.length - 384)) then none
  else if kind = 0 ∧ leAt l 7 1 < svnCount s then none
  else if kind = 1 ∧ s.pass.content.any (fun v => decide (leAt l 8 4 < v)) then none
  else some ⟨leAt l 8 4, leAt l 7 1, slot, sha256 signed, pub, beAt l 448 384, l⟩

/-! ### Staging buffers (R483, R484) -/

/-- A staging buffer. -/
def stageOf (s : State) (kind : Nat) : Stage := tget {} s.tow.stages kind

/-- Changing it. -/
def setStage (s : State) (kind : Nat) (v : Stage) : State :=
  { s with tow := { s.tow with stages := tset {} s.tow.stages kind v } }

/-- The size of a staging buffer (Table 15-3a). -/
def stageSize (kind : Nat) : Nat := if kind = 0 then 2 ^ 28 else if kind = 1 then 2 ^ 20 else 2 ^ 18

/-- Another berth holds a command whose code and operands satisfy `p`. -/
def otherHolds (s : State) (q : Req) (p : Instr → Nat → Bool) : Bool :=
  (upto 16).any (fun b => b != q.berth && (berthOf s b).cmd.any (fun i => p i (berthOf s b).code))

/-- A command that consumes the buffer is in progress in another berth. -/
def stageBusy (s : State) (q : Req) (kind : Nat) : Bool :=
  let code := if kind = 0 then 0x0101 else if kind = 1 then 0x0601 else 0x0504
  otherHolds s q (fun _ c => c == code) || (kind == 1 && s.sec.act.isSome)

/-- The effect of BLOB_BEGIN: a new transfer of KIND FIRMWARE discards the staged image (R532). -/
def blobBegin (q : Req) (kind total : Nat) (s : State) : CmdRes :=
  if stageSize kind < total then ans ST_NO_RESOURCE [] s
  else if kind = 0 ∧ ¬ readyBit s RB_DDR then ans ST_WRONG_STATE [] s
  else if stageBusy s q kind then ans ST_BUSY [] s
  else
    let s := setStage s kind { begun := true, total := total, data := [] }
    ans ST_OK [] (if kind = 1 then setSec s { s.sec with staged := none } else s)

/-- The effect of BLOB_WRITE: the reply carries RECEIVED with every status. -/
def blobWrite (q : Req) (kind off : Nat) (data : List Byte) (s : State) : CmdRes :=
  let v := stageOf s kind
  let got := v.data.length
  if ¬ v.begun then ans ST_WRONG_STATE (beBytes 4 got) s
  else if stageBusy s q kind then ans ST_BUSY (beBytes 4 got) s
  else if off < got then ans ST_OK (beBytes 4 got) s
  else if got < off ∨ v.total < off + data.length then ans ST_SHAPE (beBytes 4 got) s
  else
    let s := setStage s kind { v with data := v.data ++ data }
    ans ST_OK (beBytes 4 (got + data.length)) (if kind = 0 then ramPut s off data else s)

/-! ### Starting firmware, live update (R504, R532 to R535) -/

/-- The flash's first `n` bytes: bytes that nothing has programmed read 0xFF. -/
def flashBytes (s : State) (n : Nat) : List Byte := (s.sec.flash ++ List.replicate n 0xFF).take n

/-- The running image differs from the flash: a rewrite begins, with one further attempt (R529). -/
def checkFlash (s : State) : State :=
  match s.sec.fw with
  | none => s
  | some f => if ¬ s.sec.flashBad ∧ s.sec.flash = f.bytes then s else setSec s { s.sec with rewrite := 2 }

/-- The lowest active cause. -/
def lowestCause (s : State) : Option Nat := (upto 15).find? (bit s.safe.active)

/-- The ROM starts a verified image: BRINGUP, or SAFE where a cause is active already (R504, R609). -/
def startFw (f : FwImg) (source : Nat) (s : State) : State :=
  let s := setSec s { s.sec with fw := some f, staged := none, towBoot := false, bootSource := source }
  let s := { s with dev := { s.dev with state := .bringup } }
  match lowestCause s with
  | some c => enterSafe (c + 1) uDEV s
  | none => s

/-- ROM_FLASH_BOOT (R525). -/
def romFlashBoot (s : State) : State :=
  if s.dev.state ≠ .boot ∨ s.sec.towBoot ∨ s.pwr.por then s
  else if s.sec.bootMode then setSec s { s.sec with towBoot := true }
  else
    let l := flashBytes s (imgSize (flashBytes s 1024))
    match (if s.sec.flashBad then none else verifyImg l 0 s) with
    | some f => startFw f 0 s
    | none => setSec s { s.sec with flashFails := satU 16 (s.sec.flashFails + 1), towBoot := true }

/-- The effect of FW_STAGE: without success no image is staged (R504). -/
def fwStage (len : Nat) (s : State) : CmdRes :=
  if ¬ secReady s then ans ST_WRONG_STATE [] s
  else if s.sec.act.isSome then ans ST_BUSY [] s
  else
    let d := (stageOf s 1).data
    match (if d.length < len then none else verifyImg (d.take len) 0 s) with
    | none => ansKeep ST_AUTH [] (setSec s { s.sec with staged := none })
    | some f => ans ST_OK (beBytes 4 f.version ++ beBytes 32 f.meas ++ beBytes 1 f.slot)
        (setSec s { s.sec with staged := some f })

/-- The effect of FW_ACTIVATE: in BOOT the ROM starts the image at once; otherwise the activation waits for a quiescent point. -/
def fwActivate (q : Req) (version : Nat) (s : State) : CmdRes :=
  match s.sec.staged with
  | none => ans ST_WRONG_STATE [] s
  | some f =>
    if f.version ≠ version then ans ST_WRONG_STATE [] s
    else if s.sec.act.isSome ∨ otherHolds s q (fun i c => c == 0x0601 || c == 0x0605 || c == 0x060A
        || (match i with | .blobBegin _ 1 _ => true | .blobWrite _ 1 _ _ => true | _ => false)) then ans ST_BUSY [] s
    else if s.dev.state = .boot then
      let src := match q.link with | .port p => 1 + p | _ => 1
      waits (setSec (startFw f src s) { (startFw f src s).sec with act := some { berth := q.berth, image := f, exchanged := some (now s) } })
    else waits (setSec s { s.sec with act := some { berth := q.berth, image := f } })

/-- The device is at a quiescent point (R533): no sparing, no checkpoint generation in progress. -/
def quiescent (s : State) : Bool :=
  s.mem.copying.isEmpty && s.mem.paging.isEmpty && (upto 8).all (fun j => (jobOf s j).ckptRun.isNone)

/-- ACTIVATE_QUIESCENT (R533): the banks are exchanged; the staging SRAM holds the old image. -/
def activateQuiescent (s : State) : State :=
  match s.sec.act with
  | none => s
  | some a =>
    if a.exchanged.isSome ∨ ¬ quiescent s then s else
    let old := match s.sec.fw with | some f => f.bytes | none => []
    let s := setStage s 1 { stageOf s 1 with data := old }
    setSec s { s.sec with
      fw := some a.image, staged := none,
      act := some { a with exchanged := some (now s), old := s.sec.fw } }

/-- FIRMWARE_ALIVE (R533): the reply, then berth service, then the flash and the fuses follow. -/
def firmwareAlive (s : State) : State :=
  match s.sec.act with
  | none => s
  | some a =>
    match a.exchanged with
    | none => s
    | some t =>
      if s.mem.lkpReset then s else
      let s := setSec s { s.sec with act := none, ranFrom := some (now s) }
      let s := finishBerth a.berth ST_OK (beBytes 4 a.image.version ++ beBytes 4 ((now s - t) / 1000)) s
      checkFlash (resumeService s)

/-- ACTIVATE_FALLBACK (R534): 15 ms without a sign of life exchange the banks back. -/
def activateFallback (s : State) : State :=
  match s.sec.act with
  | none => s
  | some a =>
    match a.exchanged, a.old with
    | some t, some f =>
      if now s < t + 15000000 then s else
      let s := setStage s 1 { stageOf s 1 with data := a.image.bytes }
      let s := setSec s { s.sec with fw := some f, staged := none, act := none }
      resumeService (finishBerth a.berth ST_WRONG_STATE [] s)
    | _, _ => s

/-- FLASH_REWRITE_DONE (R529). -/
def flashRewriteDone (ok : Bool) (s : State) : State :=
  match s.sec.fw with
  | none => s
  | some f =>
    if s.sec.rewrite = 0 then s else
    let attempt := 3 - s.sec.rewrite
    let s := setSec s { s.sec with
      rewrite := if ok then 0 else s.sec.rewrite - 1,
      flash := if ok then f.bytes else s.sec.flash,
      flashBad := !ok }
    unitNotice 22 (if ok then ST_OK else ST_ABORTED) uLKP attempt 0xFFFF s

/-- Blowing `n` more bits, in ascending order. -/
def blowBits : Nat → Nat → Nat
  | 0, w => w
  | n + 1, w =>
    match (upto 64).find? (fun i => !bit w i) with
    | some i => blowBits n (w + 2 ^ i)
    | none => w

/-- SVN_BURN (R530). -/
def svnBurn (s : State) : State :=
  match s.sec.fw with
  | none => s
  | some f =>
    if s.sec.ranFrom.any (fun t => decide (t ≤ now s)) ∧ svnCount s < f.svn then
      setSec s { s.sec with svnFuses := blowBits (f.svn - svnCount s) s.sec.svnFuses }
    else s

/-- FW_VERSION: 0 in BOOT. -/
def fwVersion (s : State) : Nat := match s.sec.fw with | some f => f.version | none => 0

/-- The first entry to IDLE after a device reset: its STATE notice carries SEC_RSTC, which clears with the brown-out latch (R514,
R515), and the second of R530 begins. -/
def firstIdle (s : State) : State :=
  let v := s.sec
  let s := { s with dev := { s.dev with state := .idle } }
  let s := notice NT_STATE ST_OK uDEV (beBytes 4 v.rstc ++ beBytes 1 v.bootSource ++ beBytes 1 0 ++ beBytes 2 v.flashFails
    ++ beBytes 4 (fwVersion s)) s
  setSec s { s.sec with rstc := 0, brownout := false, told := true, ranFrom := s.sec.ranFrom.or (some (now s + 1000000000)) }

/-! ### Keys, identity, attestation (R531, R537, R538) -/

/-- The effect of KEY_REVOKE. -/
def keyRevoke (slot : Nat) (sig : List Byte) (s : State) : CmdRes :=
  if ¬ secReady s then ans ST_WRONG_STATE [] s
  else if ¬ signedByFw s (revokeMsg slot) sig then ans ST_AUTH [] s
  else if s.sec.act.isSome then ans ST_BUSY [] s
  else if s.sec.fw.any (fun f => f.slot == slot) then ans ST_WRONG_STATE [] s
  else ans ST_OK [] (setSec s { s.sec with
    revoked := setBits s.sec.revoked slot 1 1,
    staged := if s.sec.staged.any (fun f => f.slot == slot) then none else s.sec.staged })

/-- The effect of IDENTITY_GET. -/
def identityGet (off : Nat) (s : State) : CmdRes :=
  ans ST_OK (beBytes 4 s.sec.chain.length ++ (s.sec.chain.drop off).take 1192) s

/-- The measurement of the admitted graph. -/
def graphMeas (s : State) : Nat := match s.dev.graph with | some g => g.meas | none => 0

/-- Bytes 0 to 231 of the quote (Table 16-6). -/
def quoteBody (nonce : Nat) (s : State) : List Byte :=
  beBytes 4 0x4D575154 ++ beBytes 1 1 ++ beBytes 1 (lifecycleCode s) ++ beBytes 1 (dbgScope s)
    ++ beBytes 1 (match s.sec.fw with | some f => f.slot | none => 0) ++ beBytes 4 (fwVersion s) ++ beBytes 1 (svnCount s)
    ++ beBytes 1 s.sec.revoked ++ beBytes 2 0 ++ uidBytes s ++ beBytes 8 (now s) ++ beBytes 32 nonce
    ++ beBytes 32 Config.romHash.toNat ++ beBytes 32 (match s.sec.fw with | some f => f.meas | none => 0)
    ++ beBytes 32 (graphMeas s) ++ beBytes 32 s.sec.contentMeas
    ++ sha256Bytes ((upto 32).flatMap (fun w => leBytes 8 (secIdWord s w)))

/-- The effect of ATTEST_QUOTE: the signature under the device key is an open value. -/
def attestQuote (nonce : Nat) (s : State) : CmdRes :=
  if ¬ secReady s then ans ST_WRONG_STATE [] s
  else
    let b := quoteBody nonce s
    let (x, s) := drawFree 1024 s
    let (y, s) := drawFree 1024 s
    let (z, s) := drawFree 1024 s
    ans ST_OK (b ++ beBytes 128 x ++ beBytes 128 y ++ beBytes 128 z) s

/-- The effect of MACSEC_KEY_SET: the port's CAK and CKN. -/
def macsecKeySet (p len cak ckn : Nat) (s : State) : CmdRes :=
  ans ST_OK [] (setEth s p { ethOf s p with macsecCak := cak, macsecCkn := ckn, cknLen := len })

/-! ### Lifecycle and debug (R539 to R546) -/

/-- A debug session ends: HOLD_POWER clears. -/
def endSession (s : State) : State := setSec s { s.sec with session := none, holdPower := false }

/-- The effect of DEBUG_CHALLENGE: 32 fresh bytes. -/
def debugChallenge (s : State) : CmdRes :=
  let (c, s) := drawFree 256 s
  ans ST_OK (beBytes 32 c) (setSec s { s.sec with challenge := some (c, now s) })

/-- A challenge that is still valid (R505). -/
def validChallenge (s : State) : Option Nat :=
  match s.sec.challenge with
  | some (c, t) => if now s < t + 60000000000 then some c else none
  | none => none

/-- The effect of DEBUG_UNLOCK: the challenge is consumed whatever the outcome (R541). -/
def debugUnlock (scope : Nat) (sig : List Byte) (s : State) : CmdRes :=
  if s.sec.lifecycle ≠ 1 then ans ST_OK (beBytes 1 (lifecycleCode s)) s
  else if ¬ secReady s then ans ST_WRONG_STATE [] s
  else
    let s' := setSec s { s.sec with challenge := none }
    let good : Bool := match validChallenge s, s.sec.fw with
      | some c, some f => decide (s.sec.dbgKeyHash ≠ 0) && sha256 (beBytes 384 f.dbgPub) == s.sec.dbgKeyHash
          && pssVerify f.dbgPub (beBytes 32 c ++ beBytes 1 scope ++ uidBytes s) sig
      | _, _ => false
    if scope = 0 ∨ s.sec.session.isSome ∨ ¬ good then ansKeep ST_AUTH [] s'
    else
      let s' := setSec s' { s'.sec with session := some (scope, now s) }
      ans ST_OK (beBytes 1 (lifecycleCode s')) s'

/-- The effect of DEBUG_LOCK. -/
def debugLock (s : State) : CmdRes :=
  let s := if s.sec.lifecycle = 1 then endSession s else s
  ans ST_OK (beBytes 1 (lifecycleCode s)) s

/-- Unit types of the compute die: what loses its contents when the die does. -/
def computeUnit (u : Nat) : Bool :=
  (1 ≤ utype u && utype u ≤ 0x0B) || (0x0E ≤ utype u && utype u ≤ 0x14) || (0x18 ≤ utype u && utype u ≤ 0x1A)

/-- Every memory and register of the compute die returns to its fill and reset values, but for the memory that `keep` names by
physical address. -/
def loseCompute (keep : Nat → Bool) (s : State) : State :=
  { s with
    regs := tclear (fun k => computeUnit (k / (32 * 65536 * 65536))) s.regs,
    cnt := tclear (fun k => computeUnit (k / (64 * 65536 * 65536))) s.cnt,
    ram := tclear (fun a => !keep a) s.ram,
    ramPoison := tclear (fun a => !keep a) s.ramPoison,
    slu := [], upIn := [], brg := [], apx := {}, inr := {}, srf := [], ne := [], fa := [], ten := [], fus := {},
    res := { s.res with streams := s.res.streams.map (fun e => (e.1, { e.2 with cur := none, waiting := [] })), offered := [] },
    canal := { s.canal with q := [], pol := [], rr := [] }, urg := {} }

/-- Entry to RMA zeroises the MACsec keys, the graph and job contents of the journal, and every memory (R542). -/
def rmaZeroise (s : State) : State :=
  let s := (upto 5).foldl (fun s p => setEth s p { ethOf s p with macsecCak := 0, macsecCkn := 0, cknLen := 0, saks := [] }) s
  let s := loseCompute (fun _ => false) s
  let s := setStage (setStage (setStage s 0 {}) 1 {}) 2 {}
  { s with
    dev := { s.dev with graph := none, jobs := [], units := s.dev.units.map (fun e => (e.1, { e.2 with
      st := if e.2.st = .quarantined ∨ e.2.st = .failed then e.2.st else .unused, job := 0xFF, fullRed := false, movedTo := 0xFFFF })) },
    res := {}, pass := { s.pass with content := none, sections := [] },
    sec := { s.sec with staged := none, contentMeas := 0 } }

/-- The effect of LIFECYCLE_SET. -/
def lifecycleSet (target : Nat) (sig : List Byte) (s : State) : CmdRes :=
  if ¬ secReady s then ans ST_WRONG_STATE [] s
  else if ¬ signedByFw s (lifecycleMsg target s) sig then ans ST_AUTH [] s
  else if s.sec.act.isSome then ans ST_BUSY [] s
  else if target = 1 ∧ s.sec.lifecycle = 0 ∧ s.sec.devKey ∧ s.sec.chain ≠ [] then
    let s := endSession (setSec s { s.sec with lifecycle := 1 })
    ans ST_OK (beBytes 1 (lifecycleCode s)) s
  else if target = 3 ∧ s.sec.lifecycle = 1 then
    let s := rmaZeroise (setSec s { s.sec with lifecycle := 3 })
    let s := if s.dev.state = .loaded then setState .idle s else s
    ans ST_OK (beBytes 1 (lifecycleCode s)) s
  else ans ST_AUTH [] s

/-- CHALLENGE_EXPIRY (R505). -/
def challengeExpiry (s : State) : State :=
  if (validChallenge s).isNone then setSec s { s.sec with challenge := none } else s

/-- DEBUG_SESSION_EXPIRY (R539): 8 h after the unlock. -/
def debugSessionExpiry (s : State) : State :=
  match s.sec.session with
  | some (_, t) => if s.sec.lifecycle = 1 ∧ t + 28800000000000 ≤ now s then endSession s else s
  | none => s

/-- DBG_CTRL as read (Table 16-11). -/
def dbgCtrlWord (s : State) : Nat :=
  b2n s.sec.holdPower * 2 + b2n (dbgOpen s) * 2 ^ 4 + dbgScope s * 2 ^ 5 + b2n s.sec.halted * 2 ^ 8

/-- A write of HOLD_POWER under CONTROL scope (R545). -/
def holdPowerWrite (v : Bool) (s : State) : State :=
  if bit (dbgScope s) 1 then setSec s { s.sec with holdPower := v } else s

/-- LKP_HALT under LOCKKEEPER scope: first SAFE, then the halt (R543). -/
def lkpHalt (s : State) : State :=
  if ¬ bit (dbgScope s) 2 ∨ s.sec.halted then s
  else
    let s := raiseCause 12 uLKP s
    setSec s { s.sec with halted := true }

/-- LKP_RESUME under LOCKKEEPER scope (R546): berth service goes on. -/
def lkpResume (s : State) : State :=
  if ¬ bit (dbgScope s) 2 ∨ ¬ s.sec.halted then s
  else resumeService (setSec s { s.sec with halted := false })

/-! ### The commands -/

def execBlobBegin (q : Req) (kind total : Nat) (s : State) : Out :=
  .next (serve q (.blobBegin q kind total) 0x0A01 (blobBegin q kind total) s)
def execBlobWrite (q : Req) (kind offset : Nat) (data : List Byte) (s : State) : Out :=
  .next (serve q (.blobWrite q kind offset data) 0x0A02 (blobWrite q kind offset data) s)
def execFwStage (q : Req) (length : Nat) (s : State) : Out :=
  .next (serve q (.fwStage q length) 0x0601 (fwStage length) s)
def execFwActivate (q : Req) (version : Nat) (s : State) : Out :=
  .next (serve q (.fwActivate q version) 0x0602 (fwActivate q version) s)
def execActivateQuiescent (s : State) : Out := .next (activateQuiescent s)
def execFirmwareAlive (s : State) : Out := .next (firmwareAlive s)
def execActivateFallback (s : State) : Out := .next (activateFallback s)
def execRomFlashBoot (s : State) : Out := .next (romFlashBoot s)
def execFlashRewriteDone (ok : Bool) (s : State) : Out := .next (flashRewriteDone ok s)
def execSvnBurn (s : State) : Out := .next (svnBurn s)
def execKeyRevoke (q : Req) (slot : Nat) (sig : List Byte) (s : State) : Out :=
  .next (serve q (.keyRevoke q slot sig) 0x0605 (keyRevoke slot sig) s)
def execIdentityGet (q : Req) (offset : Nat) (s : State) : Out :=
  .next (serve q (.identityGet q offset) 0x0604 (identityGet offset) s)
def execAttestQuote (q : Req) (nonce : Nat) (s : State) : Out :=
  .next (serve q (.attestQuote q nonce) 0x0603 (attestQuote nonce) s)
def execMacsecKeySet (q : Req) (port cknLen cak ckn : Nat) (s : State) : Out :=
  .next (serve q (.macsecKeySet q port cknLen cak ckn) 0x0609
    (macsecKeySet port cknLen cak ckn) s)
def execDebugChallenge (q : Req) (s : State) : Out :=
  .next (serve q (.debugChallenge q) 0x0606 debugChallenge s)
def execDebugUnlock (q : Req) (scope : Nat) (sig : List Byte) (s : State) : Out :=
  .next (serve q (.debugUnlock q scope sig) 0x0607 (debugUnlock scope sig) s)
def execDebugLock (q : Req) (s : State) : Out := .next (serve q (.debugLock q) 0x0608 debugLock s)
def execLifecycleSet (q : Req) (target : Nat) (sig : List Byte) (s : State) : Out :=
  .next (serve q (.lifecycleSet q target sig) 0x060A (lifecycleSet target sig) s)
def execChallengeExpiry (s : State) : Out := .next (challengeExpiry s)
def execDebugSessionExpiry (s : State) : Out := .next (debugSessionExpiry s)
def execHoldPowerWrite (set : Bool) (s : State) : Out := .next (holdPowerWrite set s)
def execLkpHalt (s : State) : Out := .next (lkpHalt s)
def execLkpResumeWrite (s : State) : Out := .next (lkpResume s)

/-- STATUS_GET (R520). -/
def statusGet (s : State) : CmdRes :=
  ans ST_OK (beBytes 4 (lkpState s) ++ beBytes 8 s.dev.ready ++ beBytes 1 s.dev.level ++ beBytes 1 (lifecycleCode s)
    ++ beBytes 2 0 ++ beBytes 4 (if s.dev.state = .boot then 0 else fwVersion s) ++ beBytes 32 (graphMeas s)
    ++ beBytes 8 (now s)) s
def execStatusGet (q : Req) (s : State) : Out := .next (serve q (.statusGet q) 0x0801 statusGet s)

end Sys2Proof.Machine
end

