-- ==== Sys2Proof/Machine/Image.lean ====
section
/-! DEFINITION. The graph image (R489, Tables 15-4a to 15-4e): its sections and records, read as data, with the rules that
hold within one record. -/
namespace Sys2Proof.Machine

/-- A section: its kind, the job of its table entry, its bytes. -/
structure GSec where
  kind : Nat
  job : Nat
  body : List Byte
deriving DecidableEq, Repr

/-- A UNITS record. -/
structure GUnit where
  unit : Nat
  job : Nat
  spare : Bool
  red : Bool
deriving DecidableEq, Repr

/-- A CONFIG or ROUTES record: the job of its section, unit, structure, entry, first word and transfer words. -/
structure GCfg where
  job : Nat
  unit : Nat
  reg : Nat
  entry : Nat
  word : Nat
  vals : List Nat
deriving DecidableEq, Repr

/-- A placement: memory, weights or neuron state. `a` and `b` are address and 0, core and matrix, or core and 0; `first`
is the first row or neuron, `n` how many. -/
structure GPut where
  job : Nat
  a : Nat
  b : Nat
  first : Nat
  n : Nat
  data : List Byte
deriving DecidableEq, Repr

/-- An image by its records. -/
structure GImage where
  spareCore : Bool := false
  mask : Nat := 0
  jobs : List (Nat × Job) := []
  units : List GUnit := []
  config : List GCfg := []
  routes : List GCfg := []
  memory : List GPut := []
  weights : List GPut := []
  states : List GPut := []
  pairs : List (Nat × Up) := []
  replay : List (Nat × Nat × Nat) := []
deriving DecidableEq, Repr

/-- A status with a value that counts only when the status is ST_OK. -/
abbrev Read (α : Type) := Nat × α

/-- Every byte of a range is 0. -/
def zeros (b : List Byte) (o n : Nat) : Bool := ((b.drop o).take n).all (· == 0)

/-! ### Header and section table (R489) -/

/-- The rules of the header (Table 15-4a). -/
def checkHeader (b : List Byte) (dev : Nat) : Nat :=
  let n := leAt b 6 2
  firstFail [(64 ≤ b.length ∧ b.take 5 = [0x4D, 0x57, 0x47, 0x49, 1], ST_SHAPE), (leAt b 8 4 = b.length, ST_SHAPE),
    (1 ≤ n ∧ n ≤ 4096 ∧ 64 + 16 * n ≤ b.length, ST_SHAPE), (leAt b 5 1 ≤ 1 ∧ zeros b 14 2 ∧ zeros b 20 44, ST_UNSUPPORTED),
    (leAt b 13 1 = 0xFF ∨ leAt b 13 1 = dev, ST_UNSUPPORTED)]

/-- The byte range of a section. -/
def secRange (b : List Byte) (i : Nat) : Nat × Nat := (leAt b (68 + 16 * i) 4, leAt b (68 + 16 * i) 4 + leAt b (72 + 16 * i) 4)

/-- Two byte ranges share no byte. -/
def apart (p q : Nat × Nat) : Bool := decide (p.2 ≤ p.1 ∨ q.2 ≤ q.1 ∨ p.2 ≤ q.1 ∨ q.2 ≤ p.1)

/-- No two ranges of a list share a byte. -/
def allApart : List (Nat × Nat) → Bool
  | [] => true
  | p :: r => r.all (apart p) && allApart r

/-- The rules of one section table entry (Table 15-4b). A section of a job that JOBS does not name is a wrong shape. -/
def checkSec (b : List Byte) (n i : Nat) : Nat :=
  let o := 64 + 16 * i
  let r := secRange b i
  let j := leAt b (o + 2) 1
  firstFail [(r.1 % 64 = 0 ∧ 64 + 16 * n ≤ r.1 ∧ r.2 ≤ b.length, ST_SHAPE),
    (crc32c ((b.drop r.1).take (r.2 - r.1)) = leAt b (o + 12) 4, ST_SHAPE),
    (1 ≤ leAt b o 2 ∧ leAt b o 2 ≤ 9 ∧ zeros b (o + 3) 1 ∧ (j < 8 ∨ j = 0xFF), ST_UNSUPPORTED),
    (j = 0xFF ∨ bit (leAt b 12 1) j, ST_SHAPE)]

/-- The first failing status of a list. -/
def firstBad : List Nat → Nat
  | [] => ST_OK
  | st :: r => if st = ST_OK then firstBad r else st

/-- The sections of an image in table order. -/
def sections (b : List Byte) (dev : Nat) : Read (List GSec) :=
  let st := checkHeader b dev
  if st ≠ ST_OK then (st, []) else
  let n := leAt b 6 2
  let st := firstBad ((upto n).map (checkSec b n))
  if st ≠ ST_OK then (st, [])
  else if ¬ allApart ((upto n).map (secRange b)) then (ST_SHAPE, [])
  else (ST_OK, (upto n).map (fun i =>
    let r := secRange b i
    ⟨leAt b (64 + 16 * i) 2, leAt b (66 + 16 * i) 1, (b.drop r.1).take (r.2 - r.1)⟩))

/-! ### Records -/

/-- A region of a JOB record. -/
def regionRec (b : List Byte) (i : Nat) : Region :=
  let o := 400 + 16 * i
  ⟨leAt b o 8, leAt b (o + 8) 4 * 65536, leAt b (o + 12) 1 == 1, bit (leAt b (o + 13) 1) 0, bit (leAt b (o + 13) 1) 1⟩

/-- The job of a JOB record (Table 15-4d). -/
def jobRec (b : List Byte) : Job :=
  { exist := true, harts := leAt b 1 1, berths := leAt b 2 2, entry := leAt b 8 8, ckptBase := leAt b 16 8,
    ckptHalf := leAt b 24 4, ckptGrace := leAt b 28 2, stopGrace := leAt b 32 4, jobctlGpa := leAt b 40 8,
    spjob0 := leAt b 48 8, spjob1 := leAt b 56 8, streams := leAt b 72 8, queues := leAt b 80 64,
    fusion := bit (leAt b 144 1) 0, tickHart := leAt b 145 1, arrayHart := leAt b 146 4, berthHart := leAt b 152 16,
    streamHart := leAt b 168 64, captureQ := (upto 16).map (fun c => leAt b (232 + 2 * c) 2),
    undoBase := (upto 16).map (fun c => leAt b (264 + 8 * c) 8), undoBytes := leAt b 392 4,
    regions := (upto (leAt b 396 1)).map (regionRec b) }

/-- Harts that a JOB record names for notices lie within the job (R491); a job without a guest has none to name. -/
def hartsOk (b : List Byte) : Bool :=
  let n := popCount 8 (leAt b 1 1)
  n == 0 || decide (leAt b 145 1 < n) && ((b.drop 146).take 4 ++ (b.drop 152).take 80).all (fun x => decide (x.toNat < n))

/-- The rules within a JOB record (Tables 15-4d, 18-2, 11-7, R376, R379, R491). -/
def checkJobRec (b : List Byte) (sec : Nat) : Nat :=
  let w0 := leAt b 48 8
  let lim := bits w0 32 16
  let ms := leAt b 56 8
  firstFail [(b.length = 640 ∧ leAt b 0 1 = sec, ST_SHAPE),
    (zeros b 4 4 ∧ zeros b 30 2 ∧ zeros b 36 4 ∧ leAt b 68 4 = 0 ∧ leAt b 144 1 ≤ 1 ∧ zeros b 150 2 ∧ zeros b 397 3
      ∧ zeros b 528 112 ∧ bits w0 5 11 = 0 ∧ bits w0 56 8 = 0, ST_UNSUPPORTED),
    (100 ≤ lim ∧ 10 ≤ ms ∧ ms < 65536, ST_UNSUPPORTED),
    (100 ≤ leAt b 28 2 ∧ leAt b 28 2 ≤ 20000 ∧ 100 ≤ leAt b 32 4 ∧ leAt b 32 4 ≤ 100000, ST_UNSUPPORTED),
    (leAt b 396 1 ≤ 8 ∧ leAt b 40 8 % 4096 = 0, ST_SHAPE),
    ((upto (leAt b 396 1)).all (fun i => zeros b (400 + 16 * i) 2), ST_SHAPE),
    ((upto (leAt b 396 1)).all (fun i => leAt b (412 + 16 * i) 1 ≤ 1 && leAt b (413 + 16 * i) 1 < 4 && zeros b (414 + 16 * i) 2),
      ST_UNSUPPORTED),
    (leAt b 24 4 ≤ 33554432, ST_NO_RESOURCE), (hartsOk b, ST_SHAPE)]

/-- A unit type that belongs to at most one job (R40): engine-level units, arrays, tensor builders and urgent pairs. -/
def exclusive (t : Nat) : Bool := (1 ≤ t && t ≤ 6) || (8 ≤ t && t ≤ 10)

/-- UNITS records. -/
def unitRecs (b : List Byte) : List GUnit :=
  (upto (b.length / 8)).map (fun i => ⟨leAt b (8 * i) 2, leAt b (8 * i + 2) 1, leAt b (8 * i + 3) 1 == 1, leAt b (8 * i + 4) 1 == 1⟩)

/-- The rules within UNITS records; `mask` is JOBS. -/
def checkUnitRecs (b : List Byte) (mask : Nat) : Nat :=
  firstFail [(b.length % 8 = 0, ST_SHAPE),
    ((upto (b.length / 8)).all (fun i => unitValid (leAt b (8 * i) 2) && leAt b (8 * i) 2 != uDEV && leAt b (8 * i + 3) 1 ≤ 1
      && leAt b (8 * i + 4) 1 ≤ 1 && zeros b (8 * i + 5) 3), ST_UNSUPPORTED),
    ((unitRecs b).all (fun u => u.job < 8 && bit mask u.job), ST_SHAPE)]

/-- CONFIG records of a section; no list where the records do not fill the section. -/
def cfgRecs (job : Nat) : Nat → List Byte → Option (List GCfg)
  | 0, b => if b = [] then some [] else none
  | k + 1, b =>
    if b = [] then some [] else
    let n := leAt b 7 1
    if b.length < 8 + 8 * n ∨ n = 0 then none
    else (cfgRecs job k (b.drop (8 + 8 * n))).map (fun r =>
      ⟨job, leAt b 0 2, leAt b 2 2, leAt b 4 2, leAt b 6 1, (upto n).map (fun i => leAt b (8 + 8 * i) 8)⟩ :: r)

/-- ROUTES records. -/
def routeRecs (job : Nat) (b : List Byte) : List GCfg :=
  (upto (b.length / 24)).map (fun i =>
    ⟨job, leAt b (24 * i) 2, 0x0507, leAt b (24 * i + 2) 2, 0, [leAt b (24 * i + 8) 8, leAt b (24 * i + 16) 8]⟩)

/-- The rules within ROUTES records. -/
def checkRouteRecs (b : List Byte) : Nat :=
  firstFail [(b.length % 24 = 0, ST_SHAPE),
    ((upto (b.length / 24)).all (fun i => unitValid (leAt b (24 * i) 2)
      && (utype (leAt b (24 * i) 2) == 0x05 || utype (leAt b (24 * i) 2) == 0x0D)
      && zeros b (24 * i + 4) 4 && leAt b (24 * i + 16) 8 < 2 ^ 47), ST_UNSUPPORTED)]

/-- MEMORY records of a section. -/
def memRecs (job : Nat) : Nat → List Byte → Option (List GPut)
  | 0, b => if b = [] then some [] else none
  | k + 1, b =>
    if b = [] then some [] else
    let n := leAt b 8 4
    if b.length < 16 + n ∨ n % 64 ≠ 0 ∨ leAt b 0 8 % 64 ≠ 0 then none
    else (memRecs job k (b.drop (16 + n))).map (fun r => ⟨job, leAt b 0 8, leAt b 12 4, 0, n, (b.drop 16).take n⟩ :: r)

/-- A WEIGHTS section. -/
def weightRec (job : Nat) (b : List Byte) : GPut := ⟨job, leAt b 0 1, leAt b 1 1, leAt b 2 2, leAt b 4 2, b.drop 8⟩

/-- A NEURON_STATE section. -/
def stateRec (job : Nat) (b : List Byte) : GPut := ⟨job, leAt b 0 1, 0, leAt b 2 2, leAt b 4 4, b.drop 8⟩

/-- A zone of a pair record. -/
def zoneRec (b : List Byte) (i : Nat) : UpZone :=
  let o := 8 + 16 * i
  ⟨leAt b o 2, leAt b (o + 2) 2, leAt b (o + 4) 2, leAt b (o + 6) 2, leAt b (o + 8) 1, leAt b (o + 9) 1, leAt b (o + 10) 2,
    leAt b (o + 12) 2, leAt b (o + 14) 2⟩

/-- The pair of an URGENT record (Table 15-4e). -/
def pairRec (b : List Byte) : Up :=
  { used := true, job := leAt b 1 1, stream := leAt b 3 1, ports := leAt b 4 1, zones := (upto (leAt b 2 1)).map (zoneRec b) }

/-- The rules within an URGENT record. -/
def checkPairRec (b : List Byte) (sec mask : Nat) : Nat :=
  let n := leAt b 2 1
  firstFail [(8 ≤ b.length ∧ b.length = 8 + 16 * n, ST_SHAPE),
    (leAt b 0 1 ≤ 3 ∧ leAt b 4 1 ≤ 3 ∧ zeros b 5 3 ∧ 1 ≤ n ∧ n ≤ 16 ∧ (leAt b 3 1 < 64 ∨ leAt b 3 1 = 0xFF), ST_UNSUPPORTED),
    (leAt b 1 1 < 8 ∧ bit mask (leAt b 1 1) ∧ (sec = 0xFF ∨ sec = leAt b 1 1), ST_SHAPE),
    ((pairRec b).zones.all (fun z => z.mask < 16 && 1 ≤ z.minBins && 1 ≤ z.windowUs && z.x0 ≤ z.x1 && z.y0 ≤ z.y1), ST_UNSUPPORTED)]

/-- The rules within REPLAY records. -/
def checkReplayRecs (b : List Byte) (mask : Nat) : Nat :=
  let is := upto (b.length / 16)
  firstFail [(b.length % 16 = 0, ST_SHAPE),
    (is.all (fun i => (leAt b (16 * i + 1) 1 < 64 || leAt b (16 * i + 1) 1 == 0xFF) && leAt b (16 * i + 2) 1 ≤ 3
      && zeros b (16 * i + 3) 13), ST_UNSUPPORTED),
    (is.all (fun i => leAt b (16 * i) 1 < 8 && bit mask (leAt b (16 * i) 1)), ST_SHAPE)]

/-! ### The whole image -/

/-- One section read into the image. -/
def readSec (g : GImage) (x : GSec) : Read GImage :=
  let b := x.body
  let list {α : Type} (l : Option (List α)) (f : List α → GImage) : Read GImage :=
    match l with | some l => (ST_OK, f l) | none => (ST_SHAPE, g)
  match x.kind with
  | 1 =>
    if g.jobs.any (fun j => j.1 == x.job) then (ST_SHAPE, g)
    else (checkJobRec b x.job, { g with jobs := g.jobs ++ [(x.job, jobRec b)] })
  | 2 => (checkUnitRecs b g.mask, { g with units := g.units ++ unitRecs b })
  | 3 => list (cfgRecs x.job b.length b) (fun l => { g with config := g.config ++ l })
  | 4 => (checkRouteRecs b, { g with routes := g.routes ++ routeRecs x.job b })
  | 5 => list (memRecs x.job b.length b) (fun l => { g with memory := g.memory ++ l })
  | 6 =>
    (firstFail [(8 ≤ b.length, ST_SHAPE), (leAt b 0 1 < 16 ∧ leAt b 1 1 < 32 ∧ zeros b 6 2, ST_UNSUPPORTED)],
      { g with weights := g.weights ++ [weightRec x.job b] })
  | 7 =>
    (firstFail [(8 ≤ b.length, ST_SHAPE), (leAt b 0 1 < 16 ∧ zeros b 1 1, ST_UNSUPPORTED),
        (b.length = 8 + 8 * leAt b 4 4 ∧ leAt b 2 2 + leAt b 4 4 ≤ 65536, ST_SHAPE)],
      { g with states := g.states ++ [stateRec x.job b] })
  | 8 =>
    if g.pairs.any (fun p => p.1 == leAt b 0 1) then (ST_SHAPE, g)
    else (checkPairRec b x.job g.mask, { g with pairs := g.pairs ++ [(leAt b 0 1, pairRec b)] })
  | _ =>
    (checkReplayRecs b g.mask, { g with replay := g.replay ++ (upto (b.length / 16)).map (fun i =>
      (leAt b (16 * i) 1, leAt b (16 * i + 1) 1, leAt b (16 * i + 2) 1)) })

/-- Sections read in table order; the first failure ends it. -/
def readSecs (g : GImage) : List GSec → Read GImage
  | [] => (ST_OK, g)
  | x :: r =>
    let (st, g) := readSec g x
    if st = ST_OK then readSecs g r else (st, g)

/-- A unit that two records give to different jobs, or name twice, though it belongs to at most one (R40). -/
def unitClash : List GUnit → Bool
  | [] => false
  | u :: r => (exclusive (utype u.unit) && r.any (fun v => v.unit == u.unit || (recordUnit v.unit == recordUnit u.unit && v.job != u.job)))
      || unitClash r

/-- How many sections of each kind there must be (Table 15-4c), and units named once. -/
def checkCounts (secs : List GSec) (g : GImage) : Nat :=
  let n (k : Nat) : Nat := (secs.filter (fun x => x.kind == k)).length
  firstFail [((upto 8).all (fun j => g.jobs.any (fun e => e.1 == j) == bit g.mask j), ST_SHAPE), (n 2 = 1 ∧ n 9 ≤ 1, ST_SHAPE),
    (¬ unitClash g.units, ST_SHAPE),
    (g.config.all (fun c => unitValid c.unit), ST_UNSUPPORTED), (g.memory.all (fun m => m.b == 0), ST_UNSUPPORTED)]

/-- An image read (R489). -/
def readImage (b : List Byte) (dev : Nat) : Read GImage :=
  let (st, secs) := sections b dev
  if st ≠ ST_OK then (st, {}) else
  let (st, g) := readSecs { spareCore := leAt b 5 1 == 1, mask := leAt b 12 1 } secs
  if st ≠ ST_OK then (st, g) else (checkCounts secs g, g)

end Sys2Proof.Machine
end

