-- ==== Sys2Proof/Machine/Graph.lean ====
section
/-! DEFINITION. Admission of a graph (R40 to R43, R485, R490, R491 and the admission rules of every chapter), unloading (R488)
and reloading a unit from the image (R43, R501, R562, R627). -/
namespace Sys2Proof.Machine

/-- Doing a list of steps in order until one fails. -/
def stepsOk {α : Type} (f : α → State → Nat × State) : List α → State → Nat × State
  | [], s => (ST_OK, s)
  | a :: r, s =>
    let (st, s) := f a s
    if st = ST_OK then stepsOk f r s else (st, s)

/-! ### Memory of the graph (R279, R343, R369, R376, R393, R483, R491, R574) -/

/-- First address of cluster SRAM, and of one cluster's. -/
def sramBase : Nat := 0x1000000000
def sramOf (n : Nat) : Nat := sramBase + n * 0x1000000

/-- A byte range lies in one cluster's SRAM, or in one DDR5 channel below its spare pages and outside the GRAPH buffer. -/
def placed (s : State) (r : Nat × Nat) : Bool :=
  (upto 4).any (fun k => decide (sramOf k ≤ r.1 ∧ r.2 ≤ sramOf (k + 1)))
  || decide (0x10000000 ≤ r.1 ∧ r.2 + 0x100000 ≤ s.dev.ddrGib0 * 2 ^ 30)
  || decide (0x0800000000 ≤ r.1 ∧ r.2 + 0x100000 ≤ 0x0800000000 + s.dev.ddrGib1 * 2 ^ 30)

/-- Memory that a JOB record grants or names: regions, checkpoint halves, undo regions. -/
def jobSpans (v : Job) : List (Nat × Nat) :=
  v.regions.map (fun r => (r.base, r.base + r.len))
    ++ (if v.ckptHalf = 0 then [] else [(v.ckptBase, v.ckptBase + 2 * v.ckptHalf)])
    ++ (v.undoBase.filter (· != 0)).map (fun a => (a, a + v.undoBytes))

/-- A byte range lies in one region of a job, of the right kind. -/
def granted (v : Job) (r : Nat × Nat) : Bool :=
  v.regions.any (fun g => decide (g.base ≤ r.1 ∧ r.2 ≤ g.base + g.len) && g.sram == decide (sramBase ≤ r.1))

/-- Middle and side region of a queue that spills (R391). -/
def queueSpan (s : State) (q : Nat) : Option (Nat × Nat) :=
  let m := qSpillMib s q * 1048576
  let b := rd s (uQUEUE q) BRG_Q.SPILL_BASE
  if qEnable s q ∧ 0 < m then some (b, b + m + m / 8) else none

/-- The frame ring of a sluice in FRAME mode. -/
def frameSpan (s : State) (n : Nat) : Option (Nat × Nat) :=
  if rdB s (uSL n) SLU_PORT.ENABLE ∧ sl s n SLU_PORT.MODE = 2 then
    some (sl s n SLU_FRM.BASE, sl s n SLU_FRM.BASE + frameBufs s n * frameSize s n)
  else none

/-- The three buffers of a valid TEN_VOX entry. -/
def tenSpan (s : State) (k e : Nat) : Option (Nat × Nat) :=
  if tvF s k e TEN_VOX.VALID = 1 then some (tvBase s k e 0, tvBase s k e 3) else none

/-- A stream that the graph describes: its RES_STREAM is not as reset leaves it. -/
def strGiven (s : State) (k : Nat) : Bool :=
  (upto 2).any (fun w => regWord s (uSTREAM k) 0x0801 0 w != (regDefault (regKey (uSTREAM k) 0x0801 0 w)).toNat)

/-- The ring of a stream. -/
def ringSpan (s : State) (k : Nat) : Option (Nat × Nat) :=
  if strGiven s k then some (resF s k RES_STREAM.BASE, resF s k RES_STREAM.BASE + strSlots s k * strSlotBytes s k) else none

/-- What the hardware writes of its own: the job each range belongs to, and the range. -/
def hwSpans (s : State) : List (Nat × (Nat × Nat)) :=
  (upto 512).filterMap (fun q => (queueSpan s q).map (fun r => (qJob s q, r)))
    ++ (upto 16).filterMap (fun n => (frameSpan s n).map (fun r => (unitJob s (uSL n), r)))
    ++ (upto 32).filterMap (fun i => (tenSpan s (i / 8) (i % 8)).map (fun r => (unitJob s (uTEN (i / 8)), r)))

/-- Rings with their jobs. -/
def ringSpans (s : State) : List (Nat × (Nat × Nat)) :=
  (upto 64).filterMap (fun k => (ringSpan s k).map (fun r => (resF s k RES_STREAM.JOB, r)))

/-- Bytes of a cluster SRAM that the graph uses: hardware ranges, rings, placements, shadow stores of its link. -/
def sramUse (s : State) (g : GImage) (k : Nat) : Nat :=
  let inK (r : Nat × Nat) : Nat := if sramOf k ≤ r.1 ∧ r.1 < sramOf (k + 1) then r.2 - r.1 else 0
  ((hwSpans s).map (fun e => inK e.2)).sum + ((ringSpans s).map (fun e => inK e.2)).sum
    + (g.memory.map (fun m => inK (m.a, m.a + m.n))).sum
    + (if rdB s (uCK k) CNL_LINK.ENABLE ∧ rd s (uCK k) CNL_LINK.SHADOW_TGT = 0 then
        rd s (uCK k) CNL_LINK.SHADOW_LIMIT_MIB * 1048576 else 0)

/-- The memory rules that the records alone decide: grants placed and not shared, owners of harts, berths, streams, queues
unique, placements inside what their job is granted. -/
def checkGrants (s : State) (g : GImage) : Nat :=
  let shared (f : Job → Nat) : Bool := g.jobs.any (fun a => g.jobs.any (fun b => a.1 != b.1 && f a.2 &&& f b.2 != 0))
  firstFail [(g.jobs.all (fun j => (jobSpans j.2).all (placed s)), ST_NO_RESOURCE),
    (g.jobs.all (fun j => j.2.ckptHalf == 0 || j.2.ckptBase < sramBase), ST_NO_RESOURCE),
    (g.jobs.all (fun a => g.jobs.all (fun b => a.1 == b.1 || (jobSpans a.2).all (fun p => (jobSpans b.2).all (apart p)))),
      ST_NO_RESOURCE),
    (¬ shared (·.harts) ∧ ¬ shared (·.berths) ∧ ¬ shared (·.streams) ∧ ¬ shared (·.queues), ST_NO_RESOURCE),
    (g.jobs.all (fun j => j.2.captureQ.all (fun q => q == 0xFFFF || bit j.2.queues q && q < 512)), ST_NO_RESOURCE),
    (g.memory.all (fun m => placed s (m.a, m.a + m.n) && (m.job == 0xFF || g.jobs.any (fun j => j.1 == m.job
      && granted j.2 (m.a, m.a + m.n)))), ST_NO_RESOURCE)]

/-- The memory rules of the configuration as written (R70, R279, R343, R393). -/
def checkMemory (s : State) (g : GImage) : Nat :=
  let hw := hwSpans s
  let rings := ringSpans s
  let mem := g.memory.map (fun m => (m.a, m.a + m.n))
  let foreign (e : Nat × (Nat × Nat)) : Bool := (upto 8).all (fun j => j == e.1 || (jobSpans (jobOf s j)).all (apart e.2))
  firstFail [(rings.all (fun e => e.2.2 - e.2.1 ≤ 67108864 && placed s e.2 && granted (jobOf s e.1) e.2), ST_NO_RESOURCE),
    (allApart (mem.filter (fun r => decide (sramBase ≤ r.1))), ST_NO_RESOURCE),
    (allApart (rings.map (·.2)), ST_NO_RESOURCE), (allApart (hw.map (·.2)), ST_NO_RESOURCE),
    (hw.all (fun e => placed s e.2 && foreign e && (rings.map (·.2)).all (apart e.2) && mem.all (apart e.2)), ST_NO_RESOURCE),
    ((upto 512).all (fun q => match queueSpan s q with
      | some r => granted (jobOf s (qJob s q)) r && (qSpillTgt s q == 0) == decide (sramBase ≤ r.1)
      | none => true), ST_NO_RESOURCE),
    ((upto 16).all (fun n => match frameSpan s n with
      | some r => if sl s n SLU_FRM.TGT = 0 then decide (sramOf (n / 4) ≤ r.1 ∧ r.2 ≤ sramOf (n / 4 + 1)) else decide (r.1 < sramBase)
      | none => true), ST_NO_RESOURCE),
    ((upto 32).all (fun i => match tenSpan s (i / 8) (i % 8) with
      | some r => decide (sramOf (i / 8) ≤ r.1 ∧ r.2 ≤ sramOf (i / 8 + 1))
      | none => true), ST_NO_RESOURCE),
    (rings.all (fun e => e.2.1 < sramBase || mem.all (apart e.2)), ST_NO_RESOURCE),
    ((upto 4).all (fun k => sramUse s g k ≤ 0x1000000), ST_NO_RESOURCE)]

/-! ### Sluices, cores, neuron engines (R41, R42, R78, R132, R133, R164, R170, R173, R197, R584) -/

/-- The geometries that a core's enabled entries own, with their sluice. -/
def coreGeos (s : State) (c : Nat) : List (Nat × Nat × Geo) :=
  (upto 4).filterMap (fun p =>
    let n := rd s (uSE c) SRF_PORT.SLUICE p
    if rd s (uSE c) SRF_PORT.ENABLE p = 1 then (geoOf s c n).map (fun g => (p, n, g)) else none)

/-- Pixels of a sluice that a core owns. -/
def ownedPixels (s : State) (c n : Nat) : Nat :=
  if rdB s (uSL n) SLU_PORT.ENABLE ∧ n / 4 = c / 4 then
    (match geoOf s c n with | some g => g.w * (g.o1 - g.o0) | none => 0) else 0

/-- The surface rules of a core. -/
def checkCore (s : State) (c : Nat) : Nat :=
  let gs := coreGeos s c
  let rs := gs.map (fun e => (rd s (uSE c) SRF_PORT.BASE e.1, rd s (uSE c) SRF_PORT.BASE e.1 + regionSize e.2.2))
  firstFail [(((upto 16).map (ownedPixels s c)).sum ≤ 1048576, ST_NO_RESOURCE),
    (rs.all (fun r => r.2 ≤ 8192) && allApart rs, ST_NO_RESOURCE),
    ((gs.filter (fun e => sl s e.2.1 SLU_PORT.SPLIT_ROW != 0)).length ≤ 1, ST_NO_RESOURCE),
    ((upto 4).all (fun p => rd s (uSE c) SRF_PORT.ENABLE p == 0 || namesHome s c (rd s (uSE c) SRF_PORT.SLUICE p)), ST_UNSUPPORTED)]

/-- The neurons of a group as a range. -/
def groupRange (s : State) (c i : Nat) : Nat × Nat :=
  (ng s c i NRN_GRP.FIRST, ng s c i NRN_GRP.FIRST + ng s c i NRN_GRP.COUNT_M1 + 1)

/-- The rules of a neuron engine. -/
def checkNe (s : State) (c : Nat) : Nat :=
  let gs := (upto 64).filter (fun i => ng s c i NRN_GRP.VALID == 1)
  let ms := (upto 32).filter (fun i => rd s (uNE c) NRN_MAT.VALID i == 1)
  let rs := ms.map (fun i => matRange (entryWords s (uNE c) 0x0402 i 2))
  firstFail [(allApart (gs.map (groupRange s c)), ST_SHAPE), (rs.all (fun r => r.2 ≤ 4194304), ST_NO_RESOURCE),
    (allApart rs, ST_NO_RESOURCE),
    (ms.all (fun i =>
      let a := rd s (uNE c) NRN_MAT.TARGET i
      let b := a + rd s (uNE c) NRN_MAT.COLS_M1 i + 1
      gs.any (fun k => decide ((groupRange s c k).1 ≤ a ∧ b ≤ (groupRange s c k).2))), ST_SHAPE),
    (¬ stepped s c ∨ gs.all (fun i => gs.all (fun k => ng s c i NRN_GRP.CLASS == ng s c k NRN_GRP.CLASS)), ST_SHAPE)]

/-- A core is a home of an enabled sluice. -/
def isHome (s : State) (c : Nat) : Bool :=
  (upto 16).any (fun n => rdB s (uSL n) SLU_PORT.ENABLE && n / 4 == c / 4 && (geoOf s c n).isSome)

/-- The spare-core option (R42): each cluster has a SPARE core that is no home. -/
def spareOk (s : State) (g : GImage) : Bool :=
  !g.spareCore || (upto 4).all (fun k => (upto 4).any (fun i =>
    g.units.any (fun u => recordUnit u.unit == uC (4 * k + i) && u.spare) && !isHome s (4 * k + i)))

/-- Full redundancy (R584): the cores of a marked cluster belong to the job; UNITS marks only cores of marked clusters. -/
def redOk (g : GImage) : Bool :=
  g.jobs.all (fun j => (upto 4).all (fun k => !bit j.2.spjob0 (1 + k)
    || (upto 4).all (fun i => g.units.any (fun u => recordUnit u.unit == uC (4 * k + i) && (u.job == j.1 || u.spare)))))
  && g.units.all (fun u => !u.red || (utype (recordUnit u.unit) == 0x02
    && g.jobs.any (fun j => j.1 == u.job && bit j.2.spjob0 (1 + uindex u.unit / 4))))

/-! ### Route trace (R215) -/

/-- The keys that match KEY under MASK. -/
abbrev Cube := Nat × Nat

/-- Keys in both sets. -/
def cubeAnd (a b : Cube) : Option Cube :=
  if (a.1 ^^^ b.1) &&& a.2 &&& b.2 = 0 then some (a.1 ||| b.1, a.2 ||| b.2) else none

/-- A chain: where it leads (lock n is n, the receiver beyond link k is 32 + k), its keys, the places before. -/
structure Chain where
  at_ : Nat
  keys : Cube
  path : List Nat
deriving DecidableEq, Repr

/-- The chains that start at a place for keys arriving on a kind of port, through the entries that the image writes; a chain ends
where it meets itself. -/
def chains (s : State) (es : List (Nat × Nat)) : Nat → Nat → Nat → Cube → List Nat → List Chain
  | 0, _, _, _, _ => []
  | k + 1, at_, src, keys, path =>
    let u := if at_ < 16 then uLOCK at_ else uCK (at_ - 16)
    ((es.filter (fun e => e.1 == u)).filter (fun e => entF s u e.2 CNL_ENT.VALID == 1
        && (16 ≤ at_ || bit (entF s u e.2 CNL_ENT.SRC_SEL) src))).flatMap (fun e =>
      let i := e.2
      let m := entF s u i CNL_ENT.MASK
      match cubeAnd keys (entF s u i CNL_ENT.KEY &&& m, m) with
      | none => []
      | some c =>
        let here := path ++ [at_]
        (maskBits 4 (entF s u i CNL_ENT.LINKS)).map (fun l => ⟨32 + l, c, here⟩)
          ++ (maskBits 16 (entF s u i CNL_ENT.LOCKS)).flatMap (fun n =>
            ⟨n, c, here⟩ :: (if here.contains n then [] else chains s es k n (if at_ < 16 then 1 else 2) c here)))

/-- The forwarding steps of a chain (R211): from lock to lock, and from a link receiver to another link. -/
def chainSteps (c : Chain) : Nat :=
  let l := c.path ++ [c.at_]
  ((l.zip (l.drop 1)).filter (fun e => decide (e.1 < 16 ∧ e.2 < 16) || decide (16 ≤ e.1 ∧ 32 ≤ e.2))).length

/-- A list of chains brings some key twice to one place, or is longer than 15 forwarding steps. -/
def chainsBad : List Chain → Bool
  | [] => false
  | c :: r => c.path.contains c.at_ || decide (15 < chainSteps c)
      || r.any (fun d => d.at_ == c.at_ && d.path != c.path && (cubeAnd c.keys d.keys).isSome) || chainsBad r

/-- The entries an image writes, each once. -/
def imageEntries (g : GImage) : List (Nat × Nat) := (g.routes.map (fun c => (c.unit, c.entry))).eraseDups

/-- Every key range of the image's tables traced from every engine and every link receiver (R215). -/
def tracesOk (s : State) (g : GImage) : Bool :=
  (upto 20).all (fun a => !chainsBad (chains s (imageEntries g) 17 a 0 (0, 0) []))

/-! ### Arrays (R253, R260, R272, R285, R288, R289, R292, R303) -/

/-- Valid layers of an array. -/
def validLayers (s : State) (n : Nat) : List Nat :=
  s.regs.filterMap (fun e =>
    if e.1 / (32 * 65536 * 65536) = uFA n ∧ (e.1 / (32 * 65536)) % 65536 = 0x0602 ∧ e.1 % 32 = 6
        ∧ rd s (uFA n) ARR_LAYER.VALID ((e.1 / 32) % 65536) = 1 then some ((e.1 / 32) % 65536) else none)

/-- The output size of one layer computed and written (R289). -/
def sizeLayer (n l : Nat) (s : State) : Nat × State :=
  let ws := entryWords s (uFA n) 0x0602 l 8
  let st := checkLayer ws
  if st ≠ ST_OK then (st, s)
  else match outSizes (layOf ws) with
    | none => (ST_SHAPE, s)
    | some (w, h) => (ST_OK, wr (wr s (uFA n) ARR_LAYER.OUT_W_M1 (w - 1) l) (uFA n) ARR_LAYER.OUT_H_M1 (h - 1) l)

/-- Every valid layer's output size. -/
def sizeLayers (s : State) : Nat × State :=
  stepsOk (fun n s => stepsOk (sizeLayer n) (validLayers s n) s) (upto 4) s

/-- The descriptors of a list. -/
def descList (s : State) (list n : Nat) : List (List Nat) := (upto n).map (descAt s list)

/-- The pair of a layer among compute descriptors. -/
def listPair (cmps : List (List Nat)) (l : Nat) : Nat × Bool :=
  match cmps.find? (fun d => fldOf d ARR_CMP.LAYER == l) with
  | some d => (fldOf d ARR_CMP.W_FMT, fldOf d ARR_CMP.MXW == 1)
  | none => (1, false)

/-- A TAP lies inside a kernel. -/
def tapIn (l : Lay) (t : Nat) : Bool := decide (t % 16 < l.kw ∧ t / 16 < l.kh)

/-- A compute descriptor. -/
def checkCmpDesc (s : State) (n : Nat) (d : List Nat) : Nat :=
  let f := fldOf d
  let l := layer s n (f ARR_CMP.LAYER)
  firstFail [(pairOk (f ARR_CMP.W_FMT) (f ARR_CMP.A_FMT) (f ARR_CMP.MXW == 1) ∧ f ARR_CMP.APPROX ≤ 2, ST_UNSUPPORTED),
    (¬ l.valid ∨ f ARR_CMP.A_FMT = (if l.fmt = 14 then 11 else l.fmt), ST_SHAPE),
    (¬ l.valid ∨ tapIn l (f ARR_CMP.TAP), ST_SHAPE)]

/-- A load descriptor. -/
def checkLdDesc (s : State) (n : Nat) (cmps : List (List Nat)) (d : List Nat) : Nat :=
  let f := fldOf d
  let l := layer s n (f ARR_LD.LAYER)
  let (p, q) := pairGrid (listPair cmps (f ARR_LD.LAYER)).1
  let cb := f ARR_LD.CB
  let ob := f ARR_LD.OB
  if ¬ l.valid then ST_OK else
  match f ARR_LD.KIND with
  | 0 => firstFail [(tapIn l (f ARR_LD.TAP), ST_SHAPE),
      (f ARR_LD.TILE_Y0 + f ARR_LD.TILES_Y_M1 < (l.outH + 15) / 16 ∧ f ARR_LD.TILE_X0 + f ARR_LD.TILES_X_M1 < (l.outW + 15) / 16, ST_SHAPE),
      (cb < l.inBlocks p q, ST_SHAPE)]
  | 1 => firstFail [(tapIn l (f ARR_LD.TAP), ST_SHAPE),
      (cb < l.inBlocks p q ∧ ob < l.outBlocks p q ∧ l.sameGroup p q cb ob, ST_SHAPE)]
  | 2 => firstFail [(tapIn l (f ARR_LD.TAP) ∧ cb < l.inBlocks p q ∧ ob < l.outBlocks p q, ST_SHAPE)]
  | _ => ST_UNSUPPORTED

/-- A store descriptor. -/
def checkStDesc (s : State) (n : Nat) (cmps : List (List Nat)) (d : List Nat) : Nat :=
  let f := fldOf d
  let l := layer s n (f ARR_ST.LAYER)
  let fm := f ARR_ST.OUT_FMT
  let (p, q) := pairGrid (listPair cmps (f ARR_ST.LAYER)).1
  firstFail [(f ARR_ST.ACT ≤ 2 ∧ fm ≠ 14 ∧ fm ≠ 15 ∧ (f ARR_ST.ZRC = 0 ∨ zrcElem fm ≠ 0), ST_UNSUPPORTED),
    (¬ l.valid ∨ f ARR_ST.OB < l.outBlocks p q, ST_SHAPE),
    (¬ l.valid ∨ f ARR_ST.ZRC = 1 ∨ ((l.outW * fmtBits fm + 7) / 8 ≤ l.outRowP ∧ l.outRowP * l.outH ≤ l.outPlaneP), ST_SHAPE)]

/-- Passes of float layers in order (R260): each compute descriptor takes the next weight set; within one accumulation, input
blocks ascend and within a block the taps, ky then kx. `last` is the position of the pass before. -/
def passOrder (cmps : List (List Nat)) : Option Nat → List (List Nat × List Nat) → Bool
  | _, [] => true
  | last, (d, w) :: r =>
    let at_ := fldOf w ARR_LD.CB * 256 + fldOf d ARR_CMP.TAP
    let last := if fldOf d ARR_CMP.FIRST = 1 then none else last
    let fine : Bool := !pairFloat (fldOf d ARR_CMP.W_FMT) (fldOf d ARR_CMP.MXW == 1) || last.all (fun l => decide (l < at_))
    fine && passOrder cmps (if fldOf d ARR_CMP.LAST = 1 then none else some at_) r

/-- The input-channel blocks of the tiles that INPUT descriptors gather, in order (R265). -/
def tileBlocks (lds : List (List Nat)) : List Nat :=
  (lds.filter (fun d => fldOf d ARR_LD.KIND == 0)).flatMap (fun d =>
    List.replicate ((fldOf d ARR_LD.TILES_Y_M1 + 1) * (fldOf d ARR_LD.TILES_X_M1 + 1)) (fldOf d ARR_LD.CB))

/-- Each pass with its weight set and its tiles, which match by order alone (R266): CB and OB belong together (R292). -/
def passBlocks (s : State) (n : Nat) : List (List Nat × List Nat) → List Nat → Bool
  | [], _ => true
  | (d, w) :: r, ts =>
    let l := layer s n (fldOf d ARR_CMP.LAYER)
    let g := pairGrid (fldOf d ARR_CMP.W_FMT)
    let k := fldOf d ARR_CMP.TILES_M1 + 1
    (!l.valid || (ts.take k).all (fun cb => l.sameGroup g.1 g.2 cb (fldOf w ARR_LD.OB))) && passBlocks s n r (ts.drop k)

/-- A valid programme's lists. -/
def checkProg (s : State) (n p : Nat) : Nat :=
  if prF s n p ARR_PROG.VALID = 0 then ST_OK else
  let cmps := descList s (prF s n p ARR_PROG.CMP_LIST) (prF s n p ARR_PROG.CMP_COUNT)
  let lds := descList s (prF s n p ARR_PROG.LD_LIST) (prF s n p ARR_PROG.LD_COUNT)
  let sts := descList s (prF s n p ARR_PROG.ST_LIST) (prF s n p ARR_PROG.ST_COUNT)
  let pairs := cmps.zip (lds.filter (fun d => fldOf d ARR_LD.KIND == 1))
  firstBad (cmps.map (checkCmpDesc s n) ++ lds.map (checkLdDesc s n cmps) ++ sts.map (checkStDesc s n cmps)
    ++ [firstFail [(passOrder cmps none pairs ∧ passBlocks s n pairs (tileBlocks lds), ST_SHAPE)]])

/-- All compute descriptors of one layer of an array carry the same APPROX (R272). -/
def sameApprox (s : State) (n : Nat) : Bool :=
  let cmps := ((upto 16).filter (fun p => prF s n p ARR_PROG.VALID == 1)).flatMap (fun p =>
    descList s (prF s n p ARR_PROG.CMP_LIST) (prF s n p ARR_PROG.CMP_COUNT))
  cmps.all (fun a => cmps.all (fun b => fldOf a ARR_CMP.LAYER != fldOf b ARR_CMP.LAYER
    || fldOf a ARR_CMP.APPROX == fldOf b ARR_CMP.APPROX))

/-! ### Fusion, streams, class 0 (R226, R310, R343, R448) -/

/-- Grid channels of a source. -/
def srcChannels (s : State) (k : Nat) : Nat × Nat := (fsF s k FUS_SRC.CH_BASE, fsF s k FUS_SRC.CH_BASE + fsF s k FUS_SRC.CH_COUNT)

/-- Valid sources. -/
def validSrcs (s : State) : List Nat := (upto 32).filter (fun k => fsF s k FUS_SRC.VALID == 1)

/-- R310 on the whole graph. -/
def checkSources (s : State) : Nat :=
  let ks := validSrcs s
  firstFail [(ks.all (fun k => (srcChannels s k).2 ≤ 64), ST_SHAPE),
    (ks.all (fun k => fsF s k FUS_SRC.KIND != 1 || ks.all (fun j => j == k || fsF s j FUS_SRC.KIND == 2
      || apart (srcChannels s k) (srcChannels s j))), ST_SHAPE)]

/-- The producers routed to streams: (stream, kind of record they write). -/
def producers (s : State) : List (Nat × Nat) :=
  let ent (u : Nat) : List (Nat × Nat) := ((entryList s u).filter (fun i => entF s u i CNL_ENT.VALID == 1
    && entF s u i CNL_ENT.STREAM_EN == 1)).map (fun i => (entF s u i CNL_ENT.STREAM, 0))
  let inr := ((upto 24).filter (fun c => inrEnabled s c && inF s c INR_CH.TO_STREAM == 1)).map (fun c => (inF s c INR_CH.STREAM, 1))
  let notes := (upto 64).filterMap (fun i =>
    let u := uSE (i / 4)
    if rd s u SRF_PORT.ENABLE (i % 4) = 1 ∧ rd s u SRF_PORT.NOTE_EN (i % 4) = 1 then some (rd s u SRF_PORT.NOTE_STREAM (i % 4), 2) else none)
  let counts := (upto 1024).filterMap (fun i =>
    if ng s (i / 64) (i % 64) NRN_GRP.VALID = 1 ∧ ng s (i / 64) (i % 64) NRN_GRP.CNT_EN = 1 then
      some (ng s (i / 64) (i % 64) NRN_GRP.CNT_STREAM, 3) else none)
  let fus := if (upto 8).all (fun j => !(jobOf s j).fusion) then [] else
    (if fg s FUS_GRID.GRID_STREAM_EN = 1 then [(fg s FUS_GRID.GRID_STREAM, 4)] else [])
      ++ [(fg s FUS_GRID.OBJ_STREAM, 5), (fg s FUS_GRID.EGO_STREAM, 6)]
  let done := (upto 64).filterMap (fun i =>
    if prF s (i / 16) (i % 16) ARR_PROG.VALID = 1 ∧ prF s (i / 16) (i % 16) ARR_PROG.DONE_EN = 1 then
      some (prF s (i / 16) (i % 16) ARR_PROG.DONE_STREAM, 7) else none)
  let alarms := (upto 4).filterMap (fun n => if (upOf s n).used ∧ (upOf s n).stream < 64 then some ((upOf s n).stream, 8) else none)
  (upto 16).flatMap (fun c => ent (uLOCK c)) ++ (upto 4).flatMap (fun k => ent (uCK k))
    ++ inr ++ notes ++ counts ++ fus ++ done ++ alarms

/-- R343 and R670: a producer of another kind, or packets routed to a stream that is not enabled; slots too small. -/
def checkStreams (s : State) : Nat :=
  firstFail [((producers s).all (fun e => resF s e.1 RES_STREAM.KIND == e.2 && (strOn s e.1 || e.2 != 0)), ST_SHAPE),
    ((upto 64).all (slotFits s), ST_SHAPE)]

/-- The class-0 budgets (R226) and the addresses of alarm frames (R448). -/
def checkClass0 (s : State) : Nat :=
  let pairs (p : Nat) : List Nat := (upto 4).filter (fun n => (upOf s n).used && bit (upOf s n).ports p)
  firstFail [((upto 2).all (fun p => ((pairs p).map (polRate s)).sum ≤ 5 && ((pairs p).map (polBurst s)).sum ≤ 8), ST_NO_RESOURCE),
    ((upto 2).all (fun p => pairs p == []
      || (rd s (uETH p) TOW_PORT.NOTIFY_IP4 != 0 && rd s (uETH p) TOW_PORT.NOTIFY_MAC != 0)), ST_UNSUPPORTED)]

/-! ### Admission (R490, R491) -/

/-- A record of a job may name a unit (R491): a stream or queue the job owns, the job itself, a unit that UNITS gives to it.
Device-wide content may name every unit. -/
def mayName (g : GImage) (job u : Nat) : Bool :=
  let v := match g.jobs.find? (fun e => e.1 == job) with | some e => e.2 | none => {}
  let mine := g.units.filter (fun r => recordUnit r.unit == recordUnit u)
  job == 0xFF || (match utype u with
    | 0x18 => bit v.streams (uindex u)
    | 0x19 => bit v.queues (uindex u)
    | 0x1A => uindex u == job
    | _ => mine.any (fun r => r.job == job))

/-- A UNITS record written. QUARANTINED units keep that state; a FAILED unit takes no work. -/
def putUnit (u : GUnit) (s : State) : Nat × State :=
  let r := unitOf s (recordUnit u.unit)
  if r.st = .failed then (ST_NO_RESOURCE, s) else
  (ST_OK, setUnit s (recordUnit u.unit) { r with
    st := if r.st = .quarantined then r.st else if u.spare then .spare else .assigned,
    job := u.job, fullRed := u.red, movedTo := 0xFFFF, since := now s })

/-- A JOB record written, with its replay partner. CNL_JOB goes through the register's own rules. -/
def putJob (g : GImage) (img : List Byte) (e : Nat × Job) (s : State) : Nat × State :=
  let (p, l) := match g.replay.find? (fun r => r.1 == e.1) with | some r => (r.2.1, r.2.2) | none => (0xFF, 0)
  let b := (upto (leAt img 6 2)).findSome? (fun i =>
    if leAt img (64 + 16 * i) 2 = 1 ∧ leAt img (66 + 16 * i) 1 = e.1 then some (img.drop (secRange img i).1) else none)
  cfgWrite uDEV 0x0505 e.1 0 [leAt (b.getD []) 64 8] (setJob s e.1 { e.2 with partner := p, partnerLink := l })

/-- The state words of a NEURON_STATE section written (R169): the reserved bit 63 is ignored (R11). -/
def putStates (m : GPut) (s : State) : State :=
  let v := neOf s m.a
  setNe s m.a { v with
    words := (upto m.n).foldl (fun t i => tset 0 t (m.first + i) (leAt m.data (8 * i) 8 % 2 ^ 63)) v.words }

/-- The rows of a WEIGHTS section written at the stride of R173. -/
def putWeights (m : GPut) (s : State) : Nat × State :=
  let st := strideOf s m.a m.b
  if rd s (uNE m.a) NRN_MAT.VALID m.b = 0 ∨ rd s (uNE m.a) NRN_MAT.ROWS_M1 m.b + 1 < m.first + m.n then (ST_UNSUPPORTED, s)
  else if m.data.length ≠ m.n * st then (ST_SHAPE, s)
  else (ST_OK, (upto m.n).foldl (fun s i => putRowBytes m.a m.b (m.first + i) ((m.data.drop (i * st)).take st) s) s)

/-- A CONFIG record written under its own rules. -/
def putConfig (g : GImage) (c : GCfg) (s : State) : Nat × State :=
  if ¬ mayName g c.job c.unit then (ST_NO_RESOURCE, s) else cfgWrite c.unit c.reg c.entry c.word c.vals s

/-- A ROUTES record written. -/
def putRoute (g : GImage) (c : GCfg) (s : State) : Nat × State :=
  let w0 := c.vals.getD 0 0
  let w1 := c.vals.getD 1 0
  let n := if utype c.unit = 0x05 then 4096 else 1024
  if ¬ mayName g c.job c.unit then (ST_NO_RESOURCE, s)
  else if n ≤ c.entry ∨ checkEnt c.unit w0 w1 ≠ ST_OK then (ST_UNSUPPORTED, s)
  else if ¬ cfgReady s c.unit then (ST_WRONG_STATE, s)
  else (ST_OK, writeEnt c.unit c.entry (w0, w1) s)

/-- An URGENT record written: the pair and its stream belong to the job. -/
def putPair (g : GImage) (e : Nat × Up) (s : State) : Nat × State :=
  let v := e.2
  if ¬ mayName g v.job (uUP e.1) ∨ (v.stream < 64 ∧ ¬ mayName g v.job (uSTREAM v.stream)) then (ST_NO_RESOURCE, s)
  else (ST_OK, setUp s e.1 v)

/-- Every admission rule that is judged on the graph as written. -/
def checkGraph (s : State) (g : GImage) : Nat :=
  firstBad [firstFail [(tracesOk s g, ST_SHAPE)],
    firstBad ((upto 16).map (checkCore s)), firstBad ((upto 16).map (checkNe s)),
    firstBad ((upto 64).map (fun i => checkProg s (i / 16) (i % 16))), firstFail [((upto 4).all (sameApprox s), ST_SHAPE)], checkSources s, checkMemory s g, checkStreams s, checkClass0 s,
    firstFail [(spareOk s g ∧ redOk g, ST_NO_RESOURCE)]]

/-- Two status steps in a row. -/
def andThen (x : Nat × State) (f : State → Nat × State) : Nat × State := if x.1 = ST_OK then f x.2 else x

/-- GRAPH_LOAD's writes and rules in the order of R490. WEIGHTS follow CONFIG, which sets their stride. -/
def admitGraph (img : List Byte) (s : State) : Nat × State :=
  let (st, g) := readImage img (devId s)
  let st := if st = ST_OK then checkGrants s g else st
  if st ≠ ST_OK then (st, s) else
  let cores := (g.units.filter (fun u => utype (recordUnit u.unit) == 0x02)).map (fun u => uindex u.unit)
  let s := cores.foldl (fun s c => setNe s c {}) s
  let s := (upto 4).foldl (fun s n => setFa s n { faOf s n with started := [], dropped := [] }) s
  let x := stepsOk putUnit g.units s
  let x := andThen x (stepsOk (putJob g img) g.jobs)
  let x := andThen x (fun s => (ST_OK, g.memory.foldl (fun s m => ramPut s m.a m.data) s))
  let x := andThen x (stepsOk (fun m s =>
    if mayName g m.job (uNE m.a) then (ST_OK, putStates m s) else (ST_NO_RESOURCE, s)) g.states)
  let x := andThen x (stepsOk (putConfig g) g.config)
  let x := andThen x (stepsOk (fun m s => if mayName g m.job (uNE m.a) then putWeights m s else (ST_NO_RESOURCE, s)) g.weights)
  let x := andThen x (stepsOk (putRoute g) g.routes)
  let x := andThen x (stepsOk (putPair g) g.pairs)
  let x := andThen x sizeLayers
  andThen x (fun s => (checkGraph s g,
    { s with dev := { s.dev with graph := some ⟨img.length, sha256 img, g.spareCore, g.mask⟩ } }))

/-- The effect of GRAPH_LOAD (R485). -/
def graphLoad (len digest : Nat) (s : State) : CmdRes :=
  if ¬ (stageOf s 0).begun ∨ (stageOf s 0).data.length ≠ len then ans ST_SHAPE [] s
  else
    let img := ramBytes s 0 len
    if sha256 img ≠ digest then ans ST_AUTH [] s
    else
      let (st, s') := admitGraph img s
      if st ≠ ST_OK then ans st [] s
      else ans ST_OK (beBytes 32 (sha256 img) ++ beBytes 1 (leAt img 12 1) ++ beBytes 3 0) (setState .loaded s')

/-! ### Units at reset values, reloading (R43, R488, R501, R562, R627) -/

/-- The unit identifiers whose registers a unit's record covers. -/
def unitParts (u : Nat) : List Nat :=
  if utype u = 0x02 then [uSE (uindex u), uNE (uindex u), uLOCK (uindex u), uSEQ (uindex u)] else [u]

/-- Registers of some units at their reset values. -/
def resetRegs (us : List Nat) (s : State) : State :=
  regsClear (fun k => us.contains (k / (32 * 65536 * 65536))) s

/-- What a unit holds beside its registers, as after its reset. -/
def clearUnit (u : Nat) (s : State) : State :=
  let i := uindex u
  match utype u with
  | 0x01 => setSlu s i {}
  | 0x02 =>
    let s := { s with canal := { s.canal with q := tclear (fun k => [pSE i, pNE i, pHub i, pNeIn i, pOut i].contains (k / 4)) s.canal.q } }
    setRowAsm i none (setNe (setSrf s i {}) i {})
  | 0x08 => setFa s i {}
  | 0x09 => { s with ten := tclear (fun k => k / 8 == i) s.ten, canal := { s.canal with q := tclear (fun k => k / 4 == pTen i) s.canal.q } }
  | 0x0A => setUp { s with upIn := tset [] s.upIn i [] } i {}
  | 0x10 => { s with fus := {} }
  | 0x18 => setStr s i {}
  | 0x19 => setQueue s i {}
  | _ => s

/-- A unit at its reset values: it stops first. -/
def unitReset (u : Nat) (s : State) : State :=
  let s := match utype u with
    | 0x01 => if rdB s u SLU_PORT.ENABLE then portDisable (uindex u) s else s
    | 0x18 => if strOn s (uindex u) then streamDisable (uindex u) s else s
    | 0x19 => if rdB s u BRG_Q.ENABLE then queueDisable (uindex u) s else s
    | _ => s
  clearUnit u (resetRegs (unitParts u) s)

/-- One CONFIG record written without its rules, which the admission has judged. -/
def cfgApply (c : GCfg) (s : State) : State :=
  match regDescOf c.unit c.reg with
  | none => s
  | some d =>
    let p0 := c.entry * d.words + c.word
    (touched d.words p0 c.vals.length).foldl (fun s e =>
      let ws := newEntry s c.unit c.reg d.words e p0 c.vals
      writeEntryWords c.unit c.reg e (if c.reg = 0x0901 then keptOfIngest s (uindex c.unit) ws else ws) s) s

/-- The admitted image by its records. -/
def graphImage (s : State) : GImage := match s.dev.graph with | some g => (readImage (ramBytes s 0 g.len) (devId s)).2 | none => {}

/-- The state of the latest checkpoint, if the job has one, put into a core (R168). -/
def restoreCore (j src dst : Nat) (s : State) : State :=
  match (jobOf s j).committed with
  | none => s
  | some g =>
    let pick (l : List (Nat × Nat)) : List (Nat × Nat) := l.filterMap (fun e => if e.1 / 65536 = src then some (e.1 % 65536, e.2) else none)
    let v := neOf s dst
    setNe s dst { v with
      words := (pick g.words).foldl (fun t e => tset 0 t e.1 e.2) [],
      stamps := (pick g.stamps).foldl (fun t e => tset stampNever t e.1 e.2) [],
      step := match g.steps.find? (fun e => e.1 == src) with | some e => e.2 | none => v.step }

/-- The records of unit `src` of the image loaded into unit `dst` of its type (R43): configuration, routes, weights, neuron
state, then the latest checkpoint of its job. -/
def reloadUnit (src dst : Nat) (s : State) : State :=
  let g := graphImage s
  let s := unitReset dst s
  let mine (u : Nat) : Bool := recordUnit u == src
  let onto (u : Nat) : Nat := uid (utype u) (uindex dst)
  let s := (g.states.filter (fun m => mine (uNE m.a))).foldl (fun s m => putStates { m with a := uindex dst } s) s
  let s := (g.config.filter (fun c => mine c.unit)).foldl (fun s c => cfgApply { c with unit := onto c.unit } s) s
  let s := (g.weights.filter (fun m => mine (uNE m.a))).foldl (fun s m => (putWeights { m with a := uindex dst } s).2) s
  let s := (g.routes.filter (fun c => mine c.unit)).foldl (fun s c =>
    writeEnt (onto c.unit) c.entry (c.vals.getD 0 0, c.vals.getD 1 0) s) s
  let s := if utype src = 0x0A then (g.pairs.filter (fun p => uUP p.1 == src)).foldl (fun s p => setUp s (uindex dst) p.2) s else s
  if utype src = 0x02 then restoreCore (unitOf s src).job (uindex src) (uindex dst) s
  else if utype src = 0x08 then (stepsOk (sizeLayer (uindex dst)) (validLayers s (uindex dst)) s).2 else s

/-! ### Unloading (R488) -/

/-- A unit without a graph: unused again, unless quarantined or failed. -/
def unassign (u : Nat) (s : State) : State :=
  let r := unitOf s u
  setUnit s u { r with
    st := if r.st = .quarantined ∨ r.st = .failed then r.st else .unused,
    job := 0xFF, fullRed := false, movedTo := 0xFFFF, since := now s }

/-- The units of the graph at reset values. -/
def unloadUnits (us : List Nat) (s : State) : State :=
  us.foldl (fun s u => unassign u s) (us.foldl (fun s u => unitReset u s) s)

/-- What the jobs of the graph own of something that `f` masks. -/
def ownedBy (s : State) (f : Job → Nat) (n : Nat) : List Nat :=
  (upto n).filter (fun i => (upto 8).any (fun j => bit (f (jobOf s j)) i))

/-- The streams, their subscriptions, and the queues of the graph at reset values. -/
def unloadStreams (streams queues : List Nat) (s : State) : State :=
  let s := streams.foldl (fun s k => unitReset (uSTREAM k) s) s
  let s := queues.foldl (fun s q => unitReset (uQUEUE q) s) s
  (upto 32).foldl (fun s i => if subF s i RES_SUB.VALID = 1 ∧ streams.contains (subF s i RES_SUB.STREAM) then dropSub i s else s) s

/-- CNL_JOB, and the routes of the graph's Canal links, at reset values. -/
def unloadRoutes (links : List Nat) (s : State) : State :=
  regsClear (fun k => (k / (32 * 65536)) % 65536 == 0x0505
    || (links.contains (k / (32 * 65536 * 65536)) && (k / (32 * 65536)) % 65536 == 0x0507)) s

/-- The effect of GRAPH_UNLOAD. -/
def graphUnload (s : State) : CmdRes :=
  let g := graphImage s
  let s := unloadUnits (g.units.map (fun u => recordUnit u.unit)).eraseDups s
  let s := unloadStreams (ownedBy s (·.streams) 64) (ownedBy s (·.queues) 512) s
  let s := unloadRoutes ((g.routes.filter (fun c => utype c.unit == 0x0D)).map (·.unit)).eraseDups s
  let s := (upto 4).foldl (fun s n => setUp s n {}) s
  let s := { s with
    dev := { s.dev with jobs := [], graph := none },
    apx := { s.apx with jobctl := [], msi := [], harts := [] },
    pass := { s.pass with
      steps := [], next := [], replay := [], restart := [], undo := [], ckptUndo := [], ckptStep := [], ranges := [], reported := [] } }
  ans ST_OK [] (setState .idle (setStage s 0 {}))

def execGraphLoad (q : Req) (length digest : Nat) (s : State) : Out :=
  .next (serve q (.graphLoad q length digest) 0x0101 (graphLoad length digest) s)
def execGraphUnload (q : Req) (s : State) : Out := .next (serve q (.graphUnload q) 0x0102 graphUnload s)

end Sys2Proof.Machine
end

