-- ==== Sys2Proof/Machine/Power.lean ====
section
/-! DEFINITION. The power ladder (file 20 of spec/): entry to a level and its refusers, exit, TC10, the governor, adaptive
voltage, clock-stopped islands, and the power commands. -/
namespace Sys2Proof.Machine

/-! ### Refusers (R628) -/

/-- A unit reset, sensor transaction, firmware operation or fuse burn that refuses an entry. -/
def busyUnit (s : State) (target : Nat) : Option Nat :=
  let resets := (s.dev.units.filter (fun e => e.2.resetting)).map (·.1) ++ ((upto 4).filter (fun n => (upOf s n).resetting)).map uUP
    ++ (if s.mem.lkpReset then [uLKP] else [])
  match resets.foldl (fun (m : Option Nat) u => some (match m with | some v => min v u | none => u)) none with
  | some u => some u
  | none =>
    match (upto 16).find? (fun n => (tget none s.tow.i3c n).isSome) with
    | some n => some (uSL n)
    | none =>
      if 3 ≤ target ∧ (s.sec.act.isSome ∨ s.sec.rewrite ≠ 0 ∨ (upto 16).any (fun b => (berthOf s b).cmd.isSome && (berthOf s b).code == 0x0601))
        ∨ target = 4 ∧ s.mem.burns ≠ [] then some uLKP
      else none

/-- The lowest device that an up link or a route in use reaches. -/
def canalPeer (s : State) : Option Nat :=
  (upto 64).find? (fun d =>
    rdB s uDEV TOW_ROUTE.VALID d
    || (upto 4).any (fun k =>
      let l := linkOf s k
      l.up && l.peerDev == d
        && ((entryList s (uCK k)).any (fun i => entF s (uCK k) i CNL_ENT.VALID == 1)
          || (l.lastUse != 0 && decide (now s ≤ l.lastUse + 10000000)))))

/-- A safety-die sensor reads above +100 °C. -/
def leaky (s : State) : Bool := (s.safe.temps.drop 20).any (fun t => decide (1000 < t))

/-- The first failing check of Table 20-3: REFUSER_KIND and REFUSER_DETAIL. -/
def refuser (s : State) (target : Nat) (port : Option Nat) : Option (Nat × Nat) :=
  if s.sec.holdPower ∧ dbgOpen s then some (2, 0)
  else if target = 3 ∧ port.isSome ∧ s.tow.holder ≠ 15 ∧ some s.tow.holder ≠ port then some (3, port.getD 0)
  else match (upto 8).find? (jobRuns s) with
    | some j => some (4, j)
    | none =>
      match busyUnit s target with
      | some u => some (1, u)
      | none =>
        if target = 4 ∧ leaky s then some (5, 0)
        else (canalPeer s).map (fun d => (6, d))

/-- A refused entry is counted and logged. -/
def refuse (target rkind rdetail : Nat) (s : State) : State :=
  let s := setPwr s { s.pwr with refusals := satU 32 (s.pwr.refusals + 1), lastKind := rkind, lastDetail := rdetail }
  powerNotice 1 s.dev.level target 0xFF rkind rdetail s

/-! ### Entry (R629) -/

/-- Result writers commit what is open. -/
def commitOpen (s : State) : State :=
  (upto 64).foldl (fun s k =>
    let s := shutRec k s
    (strOf s k).waiting.foldl (fun s _ => recordCommit k s) s) s

/-- POWER_ENTRY_QUIESCED: the checks hold still, or the entry is aborted; past this point it completes. -/
def entryQuiesced (s : State) : State :=
  match s.pwr.entry with
  | none => s
  | some e =>
    if e.quiesced then s else
    match refuser s e.target (if e.berth.isSome then none else e.ports.head?) with
    | some (k, d) => abortEntry k d s
    | none =>
      let s := commitOpen s
      let s := setPwr s { s.pwr with entry := some { e with quiesced := true } }
      let s := if e.target = 3 then (upto 4).foldl (fun s p => sendTc10 (if e.ports.contains p then 2 else 1) s p) s else s
      match e.berth with
      | some b => finishBerth b ST_OK (levelReply e.target 0 0) s
      | none => s

/-- Memory that a level keeps by physical address (Table 20-2): DDR5 down to PL3, the SRAM of K0 and K1 in PL2. -/
def kept (level a : Nat) : Bool :=
  if a < sramBase then decide (level ≤ 3) else decide (level ≤ 1 ∨ level = 2 ∧ a < sramOf 2)

/-- Readiness bits that a level keeps (R521): the safety die's, and those of the Ethernet ports in PL2. -/
def keptReady (level : Nat) : Nat :=
  2 ^ RB_TMU + 2 ^ RB_SEC + 2 ^ RB_LKP + (if level = 2 then 31 * 2 ^ RB_ETH else 0)

/-- A queue whose words stand in memory that the level keeps. -/
def queueKept (s : State) (level q : Nat) : Bool :=
  qSpillMib s q != 0 && kept level (rd s (uQUEUE q) BRG_Q.SPILL_BASE)

/-- A stream whose ring stands in such memory. -/
def streamKept (s : State) (level k : Nat) : Bool := strOn s k && kept level (resF s k RES_STREAM.BASE)

/-- The Ethernet MACs stop: queued frames, SAKs and PHY state are lost; T1 ports listen for a wake in PL3. -/
def macsStop (level : Nat) (s : State) : State :=
  let s := (upto 5).foldl (fun s p =>
    let v := ethOf s p
    setEth s p { v with
      phyUp := false, trained := false, q0 := [], q1 := [], q2 := [], q3 := [], q4 := [], wire := none, saks := [],
      downSince := now s, sleepListen := decide (level = 3 ∧ p < 4) && isHost s p }) s
  { s with res := { s.res with push := [] } }

/-- PL4 ends a debug session, and zeroises the staging SRAM, staged images and a pending challenge (Table 16-8). -/
def drydock (s : State) : State :=
  let s := setStage (setStage (setStage s 0 {}) 1 {}) 2 {}
  let s := setSec s { s.sec with staged := none, challenge := none }
  let s := if s.sec.lifecycle = 1 then endSession s else s
  regsClear (fun k => utype (k / (32 * 65536 * 65536)) == 0x0C || utype (k / (32 * 65536 * 65536)) == 0x0D) s

/-- What a level takes away. -/
def loseLevel (level : Nat) (s : State) : State :=
  let queues := s.brg.filter (fun e => queueKept s level e.1)
  let streams := s.res.streams.filter (fun e => streamKept s level e.1)
  let jobs := s.dev.jobs.map (fun e => (e.1, if kept level e.2.ckptBase then e.2 else { e.2 with committed := none }))
  let s := loseCompute (kept level) s
  let s := { s with
    brg := queues.map (fun e => (e.1, dropOpen e.2)),
    res := { s.res with streams := streams },
    dev := { s.dev with jobs := jobs, ready := s.dev.ready &&& keptReady level },
    mem := { s.mem with tested := [] },
    canal := { s.canal with links := [] } }
  let s := if 3 ≤ level then macsStop level s else s
  if level = 4 then drydock s else s

/-- POWER_ENTRY_COMPLETE: the level is reached; a wake that arrived meanwhile starts an exit. -/
def entryComplete (s : State) : State :=
  match s.pwr.entry with
  | none => s
  | some e =>
    if ¬ e.quiesced then s else
    let from_ := s.dev.level
    let was := if from_ ≤ 1 then s.dev.ready else s.pwr.wasReady
    let s := loseLevel e.target s
    let s := setPwr { s with dev := { s.dev with level := e.target } } { s.pwr with
      entry := none, wasReady := was, rungs := [], throttled := false, stopped := [],
      enCore := decide (e.target ≤ 2), enDdr := decide (e.target ≤ 3), enAux := decide (e.target ≤ 3),
      lowPower := decide (e.target = 4), exit_ := e.wake.map (fun w => { src := w.1, target := 0, port := w.2 }) }
    powerNotice 0 from_ e.target 0xFF 0 0 s

/-! ### Exit (R632, R627) -/

/-- The CONFIG records of a section with the unit of each and its byte range in the image. -/
def cfgSpans (off : Nat) : Nat → List Byte → List (Nat × Nat × Nat)
  | 0, _ => []
  | k + 1, b =>
    if b.length < 8 then [] else
    let n := 8 + 8 * leAt b 7 1
    (leAt b 0 2, off, off + n) :: cfgSpans (off + n) k (b.drop n)

/-- The units whose records stand in the image, with the byte ranges of the records. -/
def recordSpans (img : List Byte) : List (Nat × Nat × Nat) :=
  (upto (leAt img 6 2)).flatMap (fun i =>
    let r := secRange img i
    let b := (img.drop r.1).take (r.2 - r.1)
    match leAt img (64 + 16 * i) 2 with
    | 3 => cfgSpans r.1 b.length b
    | 4 => (upto (b.length / 24)).map (fun k => (leAt b (24 * k) 2, r.1 + 24 * k, r.1 + 24 * k + 24))
    | 6 => [(uC (leAt b 0 1), r.1, r.2)]
    | 7 => [(uC (leAt b 0 1), r.1, r.2)]
    | 8 => [(uUP (leAt b 0 1), r.1, r.2)]
    | _ => [])

/-- The units with a poisoned image line; the image stands at address 0 (Table 15-3a). -/
def poisonedUnits (s : State) : List Nat :=
  match s.dev.graph with
  | none => []
  | some g => ((((recordSpans (ramBytes s 0 g.len)).filter (fun e => ramBad s e.2.1 (e.2.2 - e.2.1))).map (fun e => recordUnit e.1)).eraseDups)

/-- Streams and queues take their registers back; those that lost their memory restart (R345, R405). -/
def reloadPort (g : GImage) (u : Nat) (s : State) : State :=
  let had : Bool := if utype u = 0x18 then s.res.streams.any (fun e => e.1 == uindex u) else s.brg.any (fun e => e.1 == uindex u)
  let s := (g.config.filter (fun c => c.unit == u)).foldl (fun s c => cfgApply c s) s
  if had then s
  else if utype u = 0x18 then (if strOn s (uindex u) then streamEnable (uindex u) s else s)
  else setQueue s (uindex u) {}

/-- Every unit of the admitted graph is loaded again, with the memory of the image that the level lost; a unit with a
poisoned image line is QUARANTINED instead. -/
def reloadGraph (level : Nat) (s : State) : State :=
  let g := graphImage s
  let s := (g.memory.filter (fun m => !kept level m.a)).foldl (fun s m => ramPut s m.a m.data) s
  let bad := poisonedUnits s
  let us := ((g.config ++ g.routes).map (fun c => recordUnit c.unit) ++ g.weights.map (fun m => uC m.a) ++ g.states.map (fun m => uC m.a)
    ++ g.pairs.map (fun p => uUP p.1)).eraseDups
  let us := us.filter (fun u => computeUnit u)
  us.foldl (fun s u =>
    if utype u = 0x18 ∨ utype u = 0x19 then reloadPort g u s
    else
      let r := unitOf s u
      if r.st = .quarantined ∧ r.movedTo ≠ 0xFFFF then reloadUnit u r.movedTo s
      else if r.st = .quarantined ∨ r.st = .failed then s
      else if bad.contains u then
        settleState (unitNotice 16 ST_POISONED u 0 0xFFFF (setUnit s u { r with st := .quarantined, since := now s }))
      else reloadUnit u u s) s

/-- What is usable at the exit from a level (Table 20-2), of what was ready before: DDR5 but after PL4, the hubs of the retention banks
after PL2. Every other function passes its self-test or trains again and reports then (R521). -/
def exitReady (s : State) (from_ : Nat) : Nat :=
  let usable := (if from_ ≤ 3 then [RB_DDR, RB_DDR + 1] else []) ++ (if from_ = 2 then [RB_HUB, RB_HUB + 1] else [])
  ((usable.filter (bit s.pwr.wasReady)).map (2 ^ ·)).sum

/-- POWER_EXIT_COMPLETE: the target level is reached. -/
def exitComplete (s : State) : State :=
  match s.pwr.exit_ with
  | none => s
  | some x =>
    let from_ := s.dev.level
    let s := setPwr { s with dev := { s.dev with level := x.target } } { s.pwr with
      exit_ := none, lowPower := false, enAux := true, enDdr := true, enCore := true, stopped := [] }
    let s := if from_ ≤ 1 then s else
      let s := { s with dev := { s.dev with ready := s.dev.ready ||| exitReady s from_ } }
      let s := setPwr s { s.pwr with rungs := [], hold := 0, coolFrom := none }
      let s := (upto 2).foldl (fun s h => if from_ = 2 then fillPolicer h s else s) s
      let s := if from_ ≤ 3 then reloadGraph from_ s else s
      if 3 ≤ from_ then (upto 4).foldl (fun s p =>
        let s := setEth s p { ethOf s p with sleepListen := false }
        if isHost s p ∧ x.port ≠ some p then sendTc10 4 s p else s) s else s
    let s := powerNotice 0 from_ x.target x.src 0 0 s
    match x.berth with
    | some b => finishBerth b ST_OK (levelReply x.target 0 0) s
    | none => s

/-! ### Commands -/

/-- The effect of POWER_LEVEL_SET (R500, R626, R628). It waits while another change is in progress. -/
def powerLevelSet (q : Req) (level : Nat) (s : State) : CmdRes :=
  if s.pwr.entry.isSome ∨ s.pwr.exit_.isSome then waits (setBerth s q.berth { berthOf s q.berth with started := none })
  else if level = 4 ∧ s.dev.graph.isSome then ans ST_WRONG_STATE [] s
  else if level = s.dev.level then ans ST_OK (levelReply level 0 0) s
  else if level < s.dev.level then
    waits (setPwr s { s.pwr with exit_ := some { src := 0, target := level, berth := some q.berth } })
  else if level = 1 then
    ans ST_OK (levelReply 1 0 0) (powerNotice 0 0 1 0xFF 0 0 { s with dev := { s.dev with level := 1 } })
  else match refuser s level none with
    | some (k, d) => ansKeep ST_ABORTED (levelReply s.dev.level k d) (refuse level k d s)
    | none => waits (setPwr s { s.pwr with entry := some { target := level, berth := some q.berth } })

/-- A POWER_LEVEL_SET that waited for a change of level takes its turn (Table 20-8). -/
def nextLevelSet (s : State) : State :=
  if s.pwr.entry.isSome ∨ s.pwr.exit_.isSome then s else
  (upto 16).foldl (fun s b =>
    let v := berthOf s b
    match v.cmd with
    | some (.powerLevelSet q level) =>
      if v.started.isNone ∧ svcRuns s then runInTurn q (.powerLevelSet q level) 0x0401 (powerLevelSet q level) s else s
    | _ => s) s

/-- The effect of POWER_LIMIT_SET. -/
def powerLimitSet (limit : Nat) (s : State) : CmdRes := ans ST_OK (beBytes 2 limit) (setPwr s { s.pwr with limit := limit })

/-- The position of a governor rung: 0 at its top. -/
def rung (s : State) (i : Nat) : Nat := tget 0 s.pwr.rungs i

/-- The effect of POWER_STATUS_GET. -/
def powerStatusGet (s : State) : CmdRes :=
  ans ST_OK (beBytes 1 s.dev.level ++ beBytes 1 (rung s 0) ++ beBytes 2 s.pwr.limit ++ beBytes 4 s.pwr.mw
    ++ beBytes 2 (lowBits 16 (tjMax s)) ++ beBytes 2 s.pwr.vddMv ++ beBytes 4 s.pwr.refusals ++ beBytes 2 s.pwr.lastKind
    ++ beBytes 2 s.pwr.lastDetail) s

/-! ### TC10 (R630, R637) -/

/-- TC10_SLEEP_REQUEST. -/
def tc10SleepRequest (p : Nat) (s : State) : State :=
  if 4 ≤ p ∨ 3 ≤ s.dev.level then s
  else if ¬ isHost s p then sendTc10 3 s p
  else match s.pwr.entry with
    | some e =>
      if e.quiesced then sendTc10 2 s p else setPwr s { s.pwr with entry := some { e with ports := e.ports ++ [p] } }
    | none =>
      if s.pwr.exit_.isSome then sendTc10 3 s p
      else match refuser s 3 (some p) with
        | some (k, d) => sendTc10 3 (refuse 3 k d s) p
        | none => setPwr s { s.pwr with entry := some { target := 3, ports := [p] } }

/-- TC10_SLEEP_REJECT: the port stays awake in TC10 listen, and a UNIT notice names it. -/
def tc10SleepReject (p : Nat) (s : State) : State :=
  let entering : Bool := match s.pwr.entry with | some e => e.target == 3 && e.quiesced | none => s.dev.level == 3
  if p < 4 ∧ entering then
    unitNotice 23 ST_OK (uETH p) 0 0xFFFF (setEth s p { ethOf s p with sleepListen := true })
  else s

/-- TC10_WAKE: HOST ports listen in PL3. -/
def tc10Wake (p : Nat) (s : State) : State :=
  if p < 4 ∧ (isHost s p ∨ (ethOf s p).sleepListen) then powerWake 1 (some p) s else s

/-! ### Governor and adaptive voltage (R638, R639, R641) -/

/-- Steps of each rung from top to floor (Table 20-7). -/
def rungSteps (i : Nat) : Nat := match i with | 0 => 12 | 1 => 8 | _ => 4

/-- One step of a rung; the hold runs from it. -/
def stepRung (i n : Nat) (s : State) : State :=
  setPwr s { s.pwr with rungs := tset 0 s.pwr.rungs i n, hold := now s + 200000 }

/-- A notice of the governor. -/
def governorNotice (kind : Nat) (s : State) : State := powerNotice kind s.dev.level s.dev.level 0xFF 0 0 s

/-- The step of one governor period: `past` the limit, a `hot` die, the power `low` enough to step up. -/
def governorStep (past hot low : Bool) (s : State) : State :=
  if now s < s.pwr.hold then s
  else if past || hot then
    match (upto 4).find? (fun i => decide (rung s i < rungSteps i)) with
    | some i =>
      let s := stepRung i (rung s i + 1) s
      if hot && !s.pwr.throttled then governorNotice 4 (setPwr s { s.pwr with throttled := true }) else s
    | none => s
  else if low ∧ s.pwr.coolFrom.any (fun t => decide (t + 2000000 ≤ now s)) then
    match (upto 4).reverse.find? (fun i => rung s i != 0) with
    | some i =>
      let s := stepRung i (rung s i - 1) s
      if s.pwr.throttled && (upto 4).all (fun i => rung s i == 0) then
        governorNotice 5 (setPwr s { s.pwr with throttled := false })
      else s
    | none => s
  else s

/-- GOVERNOR_PERIOD: `mw` is the average over the last 1 ms. An entry freezes the governor (Table 20-8). -/
def governorPeriod (mw : Nat) (s : State) : State :=
  if 2 ≤ s.dev.level ∨ s.pwr.entry.isSome then s else
  let die := s.safe.temps.take 16
  let past : Bool := decide (s.pwr.limit * 1000 < mw)
  let hot : Bool := die.any (fun t => decide (1150 ≤ t))
  let low : Bool := decide (mw + 3000 < s.pwr.limit * 1000)
  let cool : Bool := die.all (fun t => decide (t ≤ 1120))
  let s := setPwr s { s.pwr with
    mw := mw, coolFrom := if cool then some (s.pwr.coolFrom.getD (now s)) else none }
  let s := governorStep past hot low s
  if (upto 4).all (fun i => rung s i == rungSteps i) ∧ (past ∨ hot)
      ∧ (s.pwr.floorAt = 0 ∨ s.pwr.floorAt + 1000000000 ≤ now s) then
    governorNotice 3 (setPwr s { s.pwr with floorAt := now s })
  else s

/-- AVS_ADJUST: the set point moves by an amount up to 5 mV that the spec leaves open, within 700 to 850 mV; three
transactions without an answer stop the adjustment. -/
def avsAdjust (slackOk answered : Bool) (s : State) : State :=
  if 3 ≤ s.pwr.avsFails then s
  else if ¬ answered then setPwr s { s.pwr with avsFails := s.pwr.avsFails + 1 }
  else
    let (d, s) := drawFree 16 s
    let d := d % 6
    let v := s.pwr.vddMv
    setPwr s { s.pwr with avsFails := 0, vddMv := if slackOk then max 700 (v - d) else min 850 (v + d) }

/-! ### Clock-stopped islands (R624, R228) -/

/-- The units of an island, numbered as Table 1-4 lists them. -/
def islandUnits (i : Nat) : List Nat :=
  if i < 16 then [uC i, uSE i, uNE i, uLOCK i, uSEQ i] else if i < 32 then [uSL (i - 16)] else if i < 36 then [uFA (i - 32)]
  else if i < 40 then [uHUB (i - 36), uTEN (i - 36), uUP (i - 36), sliceUnit (i - 36)] else if i < 42 then [uDDR (i - 40)]
  else if i < 47 then [uETH (i - 42)] else if i < 51 then [uCK (i - 47)]
  else if i = 51 then uAPX :: (upto 8).map uHART
  else if i = 52 then uINR :: ((upto 24).map uIN ++ (upto 3).map uFE) else if i = 53 then [uFUS]
  else if i = 54 then [uLKP] else if i = 55 then [uTMU] else if i = 56 then [uSEC] else []

/-- Every unit of the island is UNUSED or FAILED; memory, ports and links serve without a graph. -/
def islandIdle (s : State) (i : Nat) : Bool :=
  (decide (i < 40) || decide (51 ≤ i ∧ i ≤ 53)) && (islandUnits i).all (fun u =>
    let st := (unitOf s (recordUnit u)).st
    st == .unused || st == .failed)

/-- An island on an admitted class-0 route of a running job: hubs, and the ports and links that carry alarms. -/
def onClass0 (s : State) (i : Nat) : Bool :=
  (decide (36 ≤ i ∧ i < 40) || i == 42 || i == 43 || decide (47 ≤ i ∧ i < 51)) && (upto 4).any (upRuns s)

/-- A copy waits at one of the ports. -/
def anyAt (s : State) (ps : List Nat) : Bool := ps.any (fun p => portLen s p != 0)

/-- A core has work: inputs, ticks, batches or count copies of its neuron engine, corners, a surface being cleared or a queue packet
of its surface engine, copies at its ports. -/
def coreBusy (s : State) (c : Nat) : Bool :=
  let v := neOf s c
  !v.inputs.isEmpty || !v.ticks.isEmpty || !v.batches.isEmpty || !v.copies.isEmpty || !(srfOf s c).corners.isEmpty
    || (srfOf s c).cur.isSome || (upto 4).any (fun p => (spOf s c p).clearing || seWaits s c p)
    || anyAt s (nodePorts (.lock c) ++ [pNeIn c])

/-- A hub has work: copies on their way through it or bound for its builder, its streams and its queues, bins of its urgent pair,
an open window or a buffer being cleared of its builder, entries and records of its streams. -/
def hubBusy (s : State) (h : Nat) : Bool :=
  anyAt s ((upto 4).map (fun c => pOut (4 * h + c)) ++ (upto 4).map (fun g => pMesh g h) ++ [pTen h, pSvc h])
    || !(tget [] s.upIn h).isEmpty
    || (upto 8).any (fun e => (tenOf s h e).open_.isSome || (tenOf s h e).grace.isSome || (tenOf s h e).wait.isSome
        || (tenOf s h e).bufs.any (fun b => b.2 == 3))
    || (upto 16).any (fun i => portLen s (pStream (16 * h + i)) != 0 || !(tget [] s.res.offered (16 * h + i)).isEmpty
        || (strOf s (16 * h + i)).cur.isSome || !(strOf s (16 * h + i)).waiting.isEmpty)
    || (upto 512).any (fun q => sliceOfQueue q == h && portLen s (pQueue q) != 0)

/-- A Canal link has copies, frames, notes or control words to send, or copies that its receiver holds. -/
def ckBusy (s : State) (k : Nat) : Bool :=
  let l := linkOf s k
  !l.ctl.isEmpty || !l.notes.isEmpty || !l.replay.isEmpty || l.resend != 0 || anyAt s [pTx k, pRx k]

/-- An Ethernet MAC has work while its PHY is up, since a frame can begin at any time, and while it holds a message. -/
def macBusy (s : State) (p : Nat) : Bool :=
  let e := ethOf s p
  e.phyUp || e.wire.isSome || !(e.q0 ++ e.q1 ++ e.q2 ++ e.q3 ++ e.q4).isEmpty

/-- Pending work of an island (R624). A DDR5 controller refreshes and is swept by the dredger, the Lockkeeper, the time unit and the
regulator supervisor count and watch, an enabled filter channel samples and an enabled fusion grid counts to its next tick without
end: these islands always have work. -/
def islandBusy (s : State) (i : Nat) : Bool :=
  if i < 16 then coreBusy s i
  else if i < 32 then
    let v := sluOf s (i - 16)
    v.clearing || !v.buffered.isEmpty || v.frame.isSome
  else if i < 36 then (faOf s (i - 32)).run.isSome || !(faOf s (i - 32)).queue.isEmpty
  else if i < 40 then hubBusy s (i - 36)
  else if i < 42 then true
  else if i < 47 then macBusy s (i - 42)
  else if i < 51 then ckBusy s (i - 47)
  else if i = 51 then (upto 8).any (fun j => jobRuns s j && (jobOf s j).harts != 0) || (upto 16).any (fun b => (bportOf s b).busy)
  else if i = 52 then (upto 24).any (fun k => (tget {} s.inr.ch k).on)
  else if i = 53 then
    (jobTakes s (fusJob s) && fg s FUS_GRID.ENABLE == 1) || s.fus.grid.isSome || !s.fus.ego.isEmpty || !s.fus.obj.isEmpty
  else if i = 56 then (upto 16).any (fun b => (berthOf s b).cmd.isSome) || s.sec.act.isSome || s.sec.rewrite != 0
  else if i = 57 then s.sec.session.isSome
  else if i = 58 then !s.mem.burns.isEmpty
  else true

/-- ISLAND_CLOCK_STOP (R624): in PL0 an island whose units are all UNUSED or FAILED, in PL1 also one without pending work. -/
def islandClockStop (i : Nat) (s : State) : State :=
  if 60 ≤ i ∨ s.pwr.stopped.contains i ∨ onClass0 s i then s
  else if (s.dev.level ≤ 1 ∧ islandIdle s i) ∨ (s.dev.level = 1 ∧ ¬ islandBusy s i) then setPwr s { s.pwr with stopped := s.pwr.stopped ++ [i] }
  else s

/-- ISLAND_CLOCK_RESTART. -/
def islandClockRestart (i : Nat) (s : State) : State := setPwr s { s.pwr with stopped := s.pwr.stopped.filter (· != i) }

/-! ### The commands -/

def execPowerLevelSet (q : Req) (level : Nat) (s : State) : Out :=
  .next (serve q (.powerLevelSet q level) 0x0401 (powerLevelSet q level) s)
def execPowerLimitSet (q : Req) (limit : Nat) (s : State) : Out :=
  .next (serve q (.powerLimitSet q limit) 0x0402 (powerLimitSet limit) s)
def execPowerStatusGet (q : Req) (s : State) : Out :=
  .next (serve q (.powerStatusGet q) 0x0403 powerStatusGet s)
def execPowerEntryQuiesced (s : State) : Out := .next (nextLevelSet (entryQuiesced s))
def execPowerEntryComplete (s : State) : Out := .next (nextLevelSet (entryComplete s))
def execPowerExitComplete (s : State) : Out := .next (nextLevelSet (exitComplete s))
def execTc10SleepRequest (port : Nat) (s : State) : Out := .next (tc10SleepRequest port s)
def execTc10SleepReject (port : Nat) (s : State) : Out := .next (tc10SleepReject port s)
def execTc10Wake (port : Nat) (s : State) : Out := .next (tc10Wake port s)
def execWakeN (s : State) : Out := .next (powerWake 2 none s)
def execLpCurrent (s : State) : Out := .next (if s.pwr.lowPower then powerWake 4 none s else s)
def execGovernorPeriod (mw : Nat) (s : State) : Out := .next (governorPeriod mw s)
def execAvsAdjust (slackOk answered : Bool) (s : State) : Out := .next (avsAdjust slackOk answered s)
def execIslandClockStop (island : Nat) (s : State) : Out := .next (islandClockStop island s)
def execIslandClockRestart (island : Nat) (s : State) : Out := .next (islandClockRestart island s)

end Sys2Proof.Machine
end

