-- ==== Sys2Proof/Machine/Jobs.lean ====
section
/-! DEFINITION. Jobs (R378 to R383, R486, R487, R596): start, stop, checkpoint and restart, with what happens to their guests;
and the way out of SAFE (R39, R616). -/
namespace Sys2Proof.Machine

/-! ### What a start or a restart does to the units of a job -/

/-- Arrays of a job. -/
def jobArrays (s : State) (j : Nat) : List Nat := (upto 4).filter (fun n => faJob s n == j && (unitOf s (uFA n)).st == .assigned)

/-- Tensor builders of a job. -/
def jobTens (s : State) (j : Nat) : List Nat :=
  (upto 4).filter (fun n => (unitOf s (uTEN n)).job == j && (unitOf s (uTEN n)).st == .assigned)

/-- An array with nothing pending: the buffers it held are free. -/
def clearArray (n : Nat) (s : State) : State :=
  let v := faOf s n
  let s := (v.queue.map (·.buf) ++ (v.run.map (·.pend.buf)).toList ++ v.held.map (·.2)).foldl (fun s b => freeBuf n b s) s
  setFa s n { started := v.started, dropped := v.dropped }

/-- The synapse store and the routes of a core, again from the image (R596). -/
def reloadTables (c : Nat) (s : State) : State :=
  let g := graphImage s
  let src := uindex (originOf s (uC c))
  let s := (g.weights.filter (fun m => m.a == src)).foldl (fun s m => (putWeights { m with a := c } s).2) s
  (g.routes.filter (fun r => r.unit == uLOCK src)).foldl (fun s r => writeEnt (uLOCK c) r.entry (r.vals.getD 0 0, r.vals.getD 1 0) s) s

/-- The neuron state of the image in a core, every stamp unset. -/
def freshCore (c : Nat) (s : State) : State :=
  let g := graphImage s
  let src := uindex (originOf s (uC c))
  let s := setNe s c { neOf s c with words := [], stamps := [], step := 0 }
  (g.states.filter (fun m => m.a == src)).foldl (fun s m => putStates { m with a := c } s) s

/-- A core at a start or restart: its state fresh, or that of the last committed generation. -/
def startCore (j : Nat) (again : Bool) (s : State) (c : Nat) : State :=
  let s := if again then clearSurfaces c (reloadTables c s) else s
  let s := if again ∧ (jobOf s j).committed.isSome then restoreCore j (uindex (originOf s (uC c))) c s else freshCore c s
  neStart c (neOf s c).step s

/-- The guest enters: afresh, or again, with the last committed generation if there is one (R378, R380). -/
def enterGuest (j : Nat) (again : Bool) (s : State) : State :=
  match (jobOf s j).committed with
  | some g => if again then enterHarts j 1 g.gen g.half s else enterHarts j 0 0 0 s
  | none => enterHarts j (b2n again) 0 0 s

/-- Every unit of a job begins, and its guest enters (R378): `again` for a restart from the last committed generation. -/
def startUnits (j : Nat) (again : Bool) (s : State) : State :=
  let s := (jobCores s j).foldl (startCore j again) s
  let s := (jobArrays s j).foldl (fun s n => clearArray n s) s
  let s := (jobTens s j).foldl (fun s k => tenStart k (tenStop k s)) s
  let s := if (jobOf s j).fusion then (if again ∧ (jobOf s j).committed.isSome then fusRestore s else fusStart s) else s
  enterGuest j again (armProbes j s)

/-! ### JOB_START (R486, R387, R642) -/

/-- Jobs that a mask names but the graph does not hold. -/
def absentJob (s : State) (mask : Nat) : Bool := mask == 0 || (maskBits 8 mask).any (fun j => !(jobOf s j).exist)

/-- The memory and the units of a job have reported ready. -/
def jobReady (s : State) (j : Nat) : Bool :=
  (jobSpans (jobOf s j)).all (fun r => memReady s r.1)
    && ((jobOf s j).harts == 0 || readyBit s RB_APX)
    && s.dev.units.all (fun e => e.2.job != j || e.2.st != .assigned || unitReady s e.1)

/-- A job starts. -/
def startJob (again : Bool) (s : State) (j : Nat) : State :=
  let s := setJob s j { jobOf s j with
    run := true, restarting := false, stopping := none, stopBerth := none, forced := false, cyclesSince := 0, lastCkpt := now s,
    resumedAt := now s }
  startUnits j again (setPass s { s.pass with next := tset 0 s.pass.next j (jobWindow s j) })

/-- The effect of JOB_START. -/
def jobStart (mask : Nat) (again : Bool) (s : State) : CmdRes :=
  let js := maskBits 8 mask
  if absentJob s mask then ans ST_UNSUPPORTED [] s
  else if js.any (jobRuns s) ∨ js.any (fun j => !jobReady s j) ∨ 2 ≤ s.dev.level ∨ s.pwr.entry.any (·.quiesced) then
    ans ST_WRONG_STATE [] s
  else if again ∧ js.any (fun j => (jobOf s j).committed.isNone) then ans ST_NOT_READY [] s
  else
    let s := abortEntry 4 (js.headD 0) s
    ans ST_OK (beBytes 1 mask) (settleState (js.foldl (startJob again) s))

/-! ### JOB_STOP (R381) -/

/-- The reply of a JOB_STOP once every job of it has stopped. -/
def stopReply (b : Nat) (s : State) : State :=
  let js := (upto 8).filter (fun j => (jobOf s j).stopBerth == some b)
  if js.any (jobRuns s) then s
  else
    let mask (l : List Nat) : Nat := (l.map (2 ^ ·)).sum
    let reply := beBytes 1 (mask js) ++ beBytes 1 (mask (js.filter (fun j => (jobOf s j).forced)))
    let s := js.foldl (fun s j => setJob s j { jobOf s j with stopBerth := none, forced := false }) s
    finishBerth b ST_OK reply s

/-- A job counts as stopped; JOB_RESTART berths that waited for it end with ST_ABORTED. -/
def stopJob (j : Nat) (forced : Bool) (s : State) : State :=
  let b := (jobOf s j).stopBerth
  let waiting : List Nat := match tget none s.pass.restart j with | some r => r.berths | none => []
  let s := endJob j s
  let s := setJob s j { jobOf s j with stopBerth := b, forced := forced }
  let s := waiting.foldl (fun s b => finishBerth b ST_ABORTED [] s) (settleState s)
  match b with
  | some b => stopReply b s
  | none => s

/-- JOB_STOP reaches a job: the STOP interrupt of its harts; a job with no hart in its guest stops at once. -/
def askStop (b : Nat) (s : State) (j : Nat) : State :=
  let v := jobOf s j
  let n := popCount 8 v.harts
  let s := setJob s j { v with stopping := some (now s + v.stopGrace * 1000), stopBerth := some b, forced := false }
  if n = 0 ∨ v.restarting then stopJob j false s else (upto n).foldl (fun s h => raiseMsi j h 2 s) s

/-- The effect of JOB_STOP. -/
def jobStop (q : Req) (mask : Nat) (s : State) : CmdRes :=
  let js := maskBits 8 mask
  if absentJob s mask then ans ST_UNSUPPORTED [] s
  else if js.any (fun j => !jobRuns s j || (jobOf s j).stopBerth.isSome) then ans ST_WRONG_STATE [] s
  else
    let s := js.foldl (fun s j => setJob s j { jobOf s j with stopBerth := some q.berth }) s
    waits (js.foldl (askStop q.berth) s)

/-- JOB_STOP_HALT: its harts have all executed WFI with STOP taken, or the grace has passed. -/
def jobStopHalt (j : Nat) (s : State) : State :=
  match (jobOf s j).stopping with
  | some due => if jobRuns s j then stopJob j (decide (due ≤ now s)) s else s
  | none => s

/-! ### JOB_CHECKPOINT, JOB_RESTART (R487, R596) -/

/-- The effect of JOB_CHECKPOINT. -/
def jobCheckpoint (q : Req) (j : Nat) (s : State) : CmdRes :=
  if 8 ≤ j ∨ ¬ (jobOf s j).exist then ans ST_UNSUPPORTED [] s
  else if ¬ jobRuns s j then ans ST_WRONG_STATE [] s
  else if ¬ jobTakes s j ∨ (jobOf s j).stopping.isSome then ans ST_ABORTED [] s
  else waits (ckptBegin j (jobWindow s j) [q.berth] s)

/-- The effect of JOB_RESTART. -/
def jobRestart (q : Req) (j : Nat) (s : State) : CmdRes :=
  if 8 ≤ j ∨ ¬ (jobOf s j).exist then ans ST_UNSUPPORTED [] s
  else if ¬ jobRuns s j then ans ST_WRONG_STATE [] s
  else if (jobOf s j).committed.isNone then ans ST_NOT_READY [] s
  else waits (beginRestart j 5 0xFFFF 0 (some q.berth) s)

/-- RESTART_RESUMED (Table 18-4): the job's units hold the last committed generation, its guest has entered again, and it
takes input; the POISON notice tells when. -/
def restartResumed (j : Nat) (s : State) : State :=
  match tget none s.pass.restart j with
  | none => s
  | some r =>
    let s := setPass s { s.pass with restart := tset none s.pass.restart j none }
    let s := startUnits j true (setJob s j { jobOf s j with restarting := false, resumedAt := now s, cyclesSince := 0, lastCkpt := now s })
    let s := poisonNotice j r s
    r.berths.foldl (fun s b => finishBerth b ST_OK (beBytes 4 r.gen) s) s

/-! ### Guests (R366, R377, R382, R370 to R373) -/

/-- HART_POISON_TRAP (R382). -/
def hartPoisonTrap (h addr : Nat) (s : State) : State :=
  let v : Hart := tget {} s.apx.harts h
  if 8 ≤ h ∨ ¬ v.inGuest then s
  else
    let s := apxBump 1 s
    let s := { s with apx := { s.apx with harts := tmod {} s.apx.harts h (fun x => { x with faultAddr := addr }) } }
    consumePoison v.job (uHART h) (haltHarts v.job s)

/-- L1_PARITY_ERROR (R366): the line comes again from the L2, and nothing is lost: the data cache writes through. -/
def l1ParityError (h : Nat) (s : State) : State := if h < 8 then apxBump 2 s else s

/-! ### Leaving SAFE (R36, R39, R616) -/

/-- The image in the GRAPH buffer of DDR0 (R483) measures as it did at GRAPH_LOAD; a poisoned line of it does not. -/
def imageHolds (s : State) : Bool :=
  match s.dev.graph with
  | none => true
  | some g => sha256 (ramBytes s 0 g.len) == g.meas && !ramBad s 0 g.len

/-- The effect of SAFE_EXIT. -/
def safeExit (s : State) : CmdRes :=
  if s.safe.active ≠ 0 then ans ST_CONFLICT [] s
  else if ¬ imageHolds s then ans ST_AUTH [] s
  else
    let s := if s.dev.graph.isSome then setState .loaded s else if s.sec.told then setState .idle s else firstIdle s
    ans ST_OK (beBytes 1 (stateCode s.dev.state)) ((upto 4).foldl (fun s h => fillPolicer h s) s)

/-! ### The commands -/

def execJobStart (q : Req) (mask : Nat) (fromCkpt : Bool) (s : State) : Out :=
  .next (serve q (.jobStart q mask fromCkpt) 0x0103 (jobStart mask fromCkpt) s)
def execJobStop (q : Req) (mask : Nat) (s : State) : Out :=
  .next (serve q (.jobStop q mask) 0x0104 (jobStop q mask) s)
def execJobStopHalt (job : Nat) (s : State) : Out := .next (jobStopHalt job s)
def execJobCheckpoint (q : Req) (job : Nat) (s : State) : Out :=
  .next (serve q (.jobCheckpoint q job) 0x0105 (jobCheckpoint q job) s)
def execJobRestart (q : Req) (job : Nat) (s : State) : Out :=
  .next (serve q (.jobRestart q job) 0x0106 (jobRestart q job) s)
def execRestartResumed (job : Nat) (s : State) : Out := .next (restartResumed job s)
def execHartPoisonTrap (hart addr : Nat) (s : State) : Out := .next (hartPoisonTrap hart addr s)
def execL1ParityError (hart : Nat) (s : State) : Out := .next (l1ParityError hart s)
def execSafeExit (q : Req) (s : State) : Out := .next (serve q (.safeExit q) 0x0107 safeExit s)

end Sys2Proof.Machine
end

