-- ==== Sys2Proof/Machine/Requests.lean ====
section
/-! DEFINITION. Messages from outside (file 14 of spec/): requests as bytes on Ethernet, in berth portals and over the relay,
the other frames of HOST and SENSOR ports, key agreement, and what leaves a port. -/
namespace Sys2Proof.Machine

/-! ### Request payloads (Tables 15-3 to 15-12, R475, R477) -/

/-- The 8-byte transfer words of a payload from byte `o` (R477). -/
def beWords (b : List Byte) (o : Nat) : List W64 := (upto ((b.length - o) / 8)).map (fun i => BitVec.ofNat 64 (beAt b (o + 8 * i) 8))

/-- A signed byte. -/
def beI8 (b : List Byte) (o : Nat) : Int := sx 8 (beAt b o 1)

/-- Commands on jobs, graphs, blobs and units: Tables 15-3, 15-4, 15-7, 15-8. -/
def parseDevice (q : Req) (code : Nat) (b : List Byte) : Option Instr :=
  let n := b.length
  let f := beAt b
  let only (c : Bool) (i : Instr) : Option Instr := if c then some i else none
  match code with
  | 0x0A01 => only (n == 8 && zeros b 1 3) (.blobBegin q (f 0 1) (f 4 4))
  | 0x0A02 => only (8 ≤ n && zeros b 1 3) (.blobWrite q (f 0 1) (f 4 4) (b.drop 8))
  | 0x0101 => only (n == 36) (.graphLoad q (f 0 4) (f 4 32))
  | 0x0102 => only (n == 0) (.graphUnload q)
  | 0x0103 => only (n == 2 && f 1 1 ≤ 1) (.jobStart q (f 0 1) (f 1 1 == 1))
  | 0x0104 => only (n == 1) (.jobStop q (f 0 1))
  | 0x0105 => only (n == 1) (.jobCheckpoint q (f 0 1))
  | 0x0106 => only (n == 1) (.jobRestart q (f 0 1))
  | 0x0107 => only (n == 0) (.safeExit q)
  | 0x0301 => only (n == 0) (.timeGet q)
  | 0x0302 => only (n == 8 && bits (f 1 1) 4 4 == 0 && zeros b 7 1)
      (.ptpConfig q (f 0 1) (bits (f 1 1) 0 2) (bits (f 1 1) 2 2) (beI8 b 2) (beI8 b 3) (beI8 b 4) (f 5 1) (f 6 1))
  | 0x0401 => only (n == 1) (.powerLevelSet q (f 0 1))
  | 0x0402 => only (n == 2) (.powerLimitSet q (f 0 2))
  | 0x0403 => only (n == 0) (.powerStatusGet q)
  | 0x0501 => only (n == 2) (.unitQuarantine q (f 0 2))
  | 0x0502 => only (n == 2) (.unitRelease q (f 0 2))
  | 0x0503 => only (n == 4) (.unitMargin q (f 0 2) (f 2 1) (f 3 1))
  | 0x0504 => only (n == 4) (.testContentLoad q (f 0 4))
  | 0x0505 => only (n == 4 && f 0 1 ≤ 1 && zeros b 1 1) (.testControl q (f 0 1 == 1) (f 2 2))
  | 0x0506 => only (n == 4 && zeros b 3 1) (.windowLogRead q (f 0 2) (f 2 1))
  | _ => none

/-- Commands on registers and results: Tables 15-5 and 15-10. The target of SENSOR_I3C has not answered yet. -/
def parseData (q : Req) (code : Nat) (b : List Byte) : Option Instr :=
  let n := b.length
  let f := beAt b
  let only (c : Bool) (i : Instr) : Option Instr := if c then some i else none
  match code with
  | 0x0201 => only (8 ≤ n && n == 8 + 8 * f 7 1) (.configWrite q (f 0 2) (f 2 2) (f 4 2) (f 6 1) (beWords b 8))
  | 0x0202 => only (n == 8) (.configRead q (f 0 2) (f 2 2) (f 4 2) (f 6 1) (f 7 1))
  | 0x0203 => only (8 ≤ n && n == 8 + 16 * f 4 1 && zeros b 5 3) (.routeWrite q (f 0 2) (f 2 2) (beWords b 8))
  | 0x0204 => only (8 ≤ n && f 6 1 ≤ 1 && zeros b 7 1) (.weightsWrite q (f 0 1) (f 1 1) (f 2 2) (f 4 2) (f 6 1 == 1) (b.drop 8))
  | 0x0205 => only (4 ≤ n && n == 4 + f 2 1)
      (.sensorI3c q (f 0 1) (bits (f 1 1) 0 7) (bit (f 1 1) 7) (b.drop 4) (f 3 1) .silent)
  | 0x0206 => only (n == 1) (.filterSync q (f 0 1))
  | 0x0701 => only (n == 14 && zeros b 2 2) (.resultRead q (f 0 1) (f 1 1) (f 4 4) (f 8 4) (f 12 2))
  | 0x0702 => only (n == 8 && zeros b 1 3) (.resultRelease q (f 0 1) (f 4 4))
  | 0x0703 => only (n == 4) (.subscribe q (f 0 1) (f 1 1) (f 2 1) (f 3 1))
  | 0x0704 => only (n == 1) (.unsubscribe q (f 0 1))
  | _ => none

/-- Commands on firmware, keys, status and the helm: Tables 15-9, 15-11 and 15-12. -/
def parseAdmin (q : Req) (code : Nat) (b : List Byte) : Option Instr :=
  let n := b.length
  let f := beAt b
  let only (c : Bool) (i : Instr) : Option Instr := if c then some i else none
  match code with
  | 0x0601 => only (n == 4) (.fwStage q (f 0 4))
  | 0x0602 => only (n == 4) (.fwActivate q (f 0 4))
  | 0x0603 => only (n == 32) (.attestQuote q (f 0 32))
  | 0x0604 => only (n == 4) (.identityGet q (f 0 4))
  | 0x0605 => only (n == 388 && zeros b 1 3) (.keyRevoke q (f 0 1) (b.drop 4))
  | 0x0606 => only (n == 0) (.debugChallenge q)
  | 0x0607 => only (n == 388 && zeros b 1 3) (.debugUnlock q (f 0 1) (b.drop 4))
  | 0x0608 => only (n == 0) (.debugLock q)
  | 0x0609 => only (n == 68 && zeros b 2 2) (.macsecKeySet q (f 0 1) (f 1 1) (f 4 32) (f 36 32))
  | 0x060A => only (n == 388 && zeros b 1 3) (.lifecycleSet q (f 0 1) (b.drop 4))
  | 0x0801 => only (n == 0) (.statusGet q)
  | 0x0802 => only (n == 12 && f 8 1 ≤ 1 && zeros b 9 3) (.countersRead q (f 0 2) (f 2 2) (f 4 2) (f 6 1) (f 7 1) (f 8 1 == 1))
  | 0x0803 => only (n == 8 && zeros b 5 3) (.noticeLogRead q (f 0 4) (f 4 1))
  | 0x0804 => only (n == 2) (.unitStatusGet q (f 0 2))
  | 0x0901 => only (n == 1 && f 0 1 ≤ 1) (.helmClaim q (f 0 1 == 1))
  | 0x0902 => only (n == 0) (.helmKeep q)
  | 0x0903 => only (n == 0) (.helmRelease q)
  | 0x0904 => only (n == 1) (.helmHandover q (f 0 1))
  | 0x0905 => only (n == 1) (.progressGet q (f 0 1))
  | 0x0906 => only (n == 1) (.commandAbort q (f 0 1))
  | _ => none

/-- The command of a request, none where its code is no command or its payload does not have the layout (checks 4 and 5). -/
def parseCmd (q : Req) (code : Nat) (b : List Byte) : Option Instr :=
  ((parseDevice q code b).or (parseData q code b)).or (parseAdmin q code b)

/-! ### Headers (R450, R451) -/

/-- The reserved header bits of Table 14-4 are 0. -/
def headerClean (b : List Byte) : Bool :=
  bits (beAt b 3 1) 2 2 == 0 && bits (beAt b 4 1) 4 4 == 0 && !bit (beAt b 5 1) 7 && bits (beAt b 14 2) 2 14 == 0
    && bits (beAt b 18 1) 5 3 == 0 && beAt b 19 1 == 0

/-- A whole Towline message: magic, version, reserved bits, length and, unless from a portal, CRC (R451, R374). -/
def messageOk (b : List Byte) (portal : Bool) : Bool :=
  let n := beAt b 16 2
  decide (32 ≤ b.length) && beAt b 0 2 == 0x5457 && beAt b 2 1 == 1 && n ≤ 1200 && 32 + n ≤ b.length && headerClean b
    && (portal || crc32c (b.take 28 ++ beBytes 4 0 ++ (b.drop 32).take n) == beAt b 28 4)

/-- The KIND of a message. -/
def messageKind (b : List Byte) : Nat := bits (beAt b 3 1) 4 4

/-- The request of a message from a link, as the berths take it. -/
def requestOf (l : Link) (berth src srcPort : Nat) (b : List Byte) : WaitReq :=
  let q : Req := { link := l, berth := berth, cls := bits (beAt b 3 1) 0 2, seq := beAt b 8 4, epoch := beAt b 24 4 }
  let code := beAt b 6 2
  ⟨q, src, srcPort, parseCmd q code ((b.drop 32).take (beAt b 16 2)), code⟩

/-- A request reaches the berths, or waits for berth service (R453, R535). -/
def offerReq (w : WaitReq) (s : State) : State :=
  if ¬ svcRuns s then holdReq w s else if romHears s w.req then takeReq w s else s

/-- A message with header bits changed: relay and origin set, CRC over the new header and the payload (R466). -/
def relayBytes (origin : Nat) (b : List Byte) : List Byte :=
  let front := b.take 5 ++ beBytes 1 (setBits (beAt b 5 1) 6 1 1) ++ (b.drop 6).take 12 ++ beBytes 1 (16 + origin) ++ (b.drop 19).take 9
  let body := (b.drop 32).take (beAt b 16 2)
  front ++ beBytes 4 (crc32c (front ++ beBytes 4 0 ++ body)) ++ body

/-! ### Ethernet ports (R444, R446, R466, R471, R527) -/

/-- A frame that the port discards (R444, R446). -/
def rxOther (p : Nat) (s : State) : State := towBump p 2 s

/-- A port that can receive: its PHY is up. -/
def portHears (s : State) (p : Nat) : Bool := decide (p < 5) && (ethOf s p).phyUp && !(unitOf s (uETH p)).resetting

/-- An IP frame that a HOST port accepts (R444, R446). -/
def frameFits (s : State) (p : Nat) (w : Wrap) : Bool :=
  w.own && w.plain && w.secured == rdB s (uETH p) TOW_PORT.MACSEC_EN

/-- A Towline datagram that a HOST port accepts: over the IP version that IPV6 selects, to UDP_PORT. -/
def towFits (s : State) (p : Nat) (w : Wrap) : Bool :=
  frameFits s p w && w.v6 == rdB s (uETH p) TOW_PORT.IPV6 && w.udp == rd s (uETH p) TOW_PORT.UDP_PORT

/-- A Towline datagram as the ROM takes it: T1A and T1B, IPv4 without MACsec, UDP port 47100, DEV and RELAY ignored (R527). -/
def romRequest (p src srcPort : Nat) (w : Wrap) (b : List Byte) (s : State) : State :=
  if 2 ≤ p ∨ w.secured ∨ w.v6 ∨ ¬ w.own ∨ ¬ w.plain ∨ w.udp ≠ 47100 then s
  else if ¬ messageOk b false ∨ messageKind b ≠ 0 then towBump p 1 s
  else offerReq (requestOf (.port p) (bits (beAt b 4 1) 0 4) src srcPort b) s

/-- A head device relays a request for another device (R466), and keeps where its replies go (R455). -/
def relayRequest (p src srcPort : Nat) (b : List Byte) (s : State) : State :=
  let dev := bits (beAt b 5 1) 0 6
  let berth := bits (beAt b 4 1) 0 4
  let r : Relayed := ⟨dev, p, berth, src, srcPort⟩
  let rest := s.tow.relayed.filter (fun x => !(x.dev == dev && x.port == p && x.berth == berth))
  sendMgmt dev (relayBytes p b) (towBump p 0 { s with tow := { s.tow with relayed := r :: rest } })

/-- TOWLINE_REQUEST_RX: discarded, relayed, or run through the checks into a berth. -/
def towlineRx (p src srcPort : Nat) (w : Wrap) (b : List Byte) (s : State) : State :=
  if ¬ portHears s p then s
  else if romServes s then romRequest p src srcPort w b s
  else if ¬ isHost s p then s
  else if ¬ towFits s p w then rxOther p s
  else if ¬ messageOk b false ∨ messageKind b ≠ 0 then towBump p 1 s
  else if bits (beAt b 5 1) 0 6 = devId s then offerReq (requestOf (.port p) (bits (beAt b 4 1) 0 4) src srcPort b) s
  else if isHead s then relayRequest p src srcPort b s
  else towBump p 1 s

/-- A port's MAC address (R443, R536): the base address of the device, and one more for each port. -/
def portMac (s : State) (p : Nat) : Nat := s.sec.baseMac + p

/-- The IPv6 address of a port. -/
def ownIp6 (s : State) (p : Nat) : Nat := regWord s (uETH p) 0x0B01 0 2 * 2 ^ 64 + regWord s (uETH p) 0x0B01 0 3

/-- ARP_ICMP_RX (R444): answers for the port's own address; an echo of more than 64 bytes is discarded. In BOOT the ROM answers
ARP for its own address (R527). -/
def arpIcmpRx (p : Nat) (req : ArpIcmp) (s : State) : State :=
  let rom := if s.sec.bootIp4 = 0 then 0xA9FE4701 else s.sec.bootIp4
  let ip4 := if romServes s then rom else rd s (uETH p) TOW_PORT.OWN_IP4
  let mac := beBytes 6 (portMac s p)
  let send (l : List Byte) (s : State) : State := enqueue p 4 ⟨.other, 0, 0, l⟩ s
  if ¬ portHears s p ∨ ¬ isHost s p ∨ (romServes s ∧ 2 ≤ p) then s
  else match req with
    | .arp t => if t = ip4 then send (mac ++ beBytes 4 t) s else rxOther p s
    | .nd t => if t = ownIp6 s p ∧ ¬ romServes s then send (mac ++ beBytes 16 t) s else rxOther p s
    | .echo t data w =>
      if ¬ romServes s ∧ frameFits s p w ∧ data.length ≤ 64 ∧ t = (if w.v6 then ownIp6 s p else ip4) then send data s else rxOther p s

/-- SENSOR_FRAME_RX (R471): stamp, length, frame, and last the slot sequence, into the ring of the matching entry. -/
def sensorFrameRx (p udp : Nat) (frame : List Byte) (s : State) : State :=
  let f (i : Nat) (x : Fld) : Nat := rd s (uETH p) x i
  if ¬ portHears s p ∨ rd s (uETH p) TOW_PORT.ROLE ≠ 2 then s
  else match (upto 8).find? (fun i => f i TOW_RXF.VALID == 1 && f i TOW_RXF.PORT == udp) with
    | none => s
    | some i =>
      let base := f i TOW_RXF.BASE * 64
      let e := ethOf s p
      let n := tget 0 e.ringSeq i
      let slots := f i TOW_RXF.SLOTS_M1 + 1
      let a := base + n % slots * 2048
      if ¬ memReady s a then s
      else
        let data := frame.take 2032
        let s := if slots ≤ n then towBump p 12 s else s
        let s := ramPut (ramPutNat (ramPutNat s a 8 (now s)) (a + 8) 4 data.length) (a + 16) data
        let s := ramPutNat s (a + 12) 4 ((n + 1) % 2 ^ 32)
        setEth s p { ethOf s p with ringSeq := tset 0 (ethOf s p).ringSeq i (n + 1) }

/-- MKA_PDU_RX (R446): a PDU under the installed CAK that verifies installs its SAK; the one before stays until the next. -/
def mkaPduRx (p : Nat) (m : MkaPdu) (s : State) : State :=
  let e := ethOf s p
  if ¬ portHears s p then s
  else if ¬ rdB s (uETH p) TOW_PORT.MACSEC_EN ∨ e.cknLen = 0 ∨ m.ckn ≠ e.macsecCkn ∨ ¬ m.icvOk then rxOther p s
  else match m.sak with
    | some k => setEth s p { e with saks := (k :: e.saks).take 2 }
    | none => s

/-! ### What leaves a port (R447 to R449, R612) -/

/-- The 802.1Q tag of a frame, as its 16 bits of tag control (R447): PCP c for a Towline frame of class c, a class-0 request's
reply leaving as class 1 (R452), PCP_PTP for a PTP frame; alarm frames and ARP carry none. -/
def tagOf (s : State) (p : Nat) (m : TxMsg) : Option Nat :=
  let f (x : Fld) : Nat := rd s (uETH p) x
  let tci (pcp : Nat) : Option Nat := if f TOW_PORT.TAG_EN = 1 then some (pcp * 2 ^ 13 + f TOW_PORT.VID) else none
  match m.kind with
  | .alarm | .other => none
  | .ptp => tci (f TOW_PORT.PCP_PTP)
  | _ => match classQueue (bits (beAt m.bytes 3 1) 0 2) with
    | 2 => tci (f TOW_PORT.PCP1)
    | 3 => tci (f TOW_PORT.PCP2)
    | _ => tci (f TOW_PORT.PCP3)

/-- Bytes of a frame on the wire, from preamble to gap (R449). -/
def wireBytes (s : State) (p : Nat) (m : TxMsg) : Nat :=
  if m.kind = .alarm then 118
  else
    let v6 := rdB s (uETH p) TOW_PORT.IPV6
    let sec := rdB s (uETH p) TOW_PORT.MACSEC_EN && !(m.kind == .ptp && rdB s (uETH p) TOW_PORT.PTP_BYPASS)
    max 84 (8 + 14 + (if (tagOf s p m).isSome then 4 else 0) + (if sec then 32 else 0) + (if v6 then 40 else 20) + 8
      + m.bytes.length + 4 + 12)

/-- Wire time in ns: 8 ns a byte at 1 Gb/s, 0.8 ns at 10 Gb/s. -/
def wireNs (p n : Nat) : Nat := if p = 4 then (n * 8 + 9) / 10 else n * 8

/-- A message that leaves in SAFE carries INVALID = 1 (R612). -/
def stampInvalid (s : State) (m : TxMsg) : TxMsg :=
  if s.dev.state ≠ .safe ∨ m.kind = .ptp ∨ m.kind = .other ∨ bit (beAt m.bytes 14 2) 0 then m
  else
    let front := m.bytes.take 14 ++ beBytes 2 (setBits (beAt m.bytes 14 2) 0 1 1) ++ (m.bytes.drop 16).take 12
    { m with bytes := front ++ beBytes 4 (crc32c (front ++ beBytes 4 0 ++ m.bytes.drop 32)) ++ m.bytes.drop 32 }

/-- The port's transmitter is free: its PHY is up and the frame before has left. -/
def txFree (s : State) (p : Nat) : Bool := portHears s p && ((ethOf s p).wire.isNone || decide ((ethOf s p).wireEnd ≤ now s))

/-- A message starts on the wire, and is counted. -/
def startFrame (p : Nat) (m : TxMsg) (s : State) : State :=
  let m := stampInvalid s m
  let s := setEth s p { ethOf s p with wire := some m, tag := tagOf s p m, wireEnd := now s + wireNs p (wireBytes s p m), badFcs := false }
  match m.kind with
  | .reply => towBump p 4 s
  | .notice => towBump p 5 s
  | .push => towBump p 6 s
  | .alarm => towBump p 7 s
  | _ => s

/-- ALARM_FRAME_TX (R448). -/
def alarmFrameTx (p : Nat) (s : State) : State :=
  if ¬ txFree s p then s
  else match (ethOf s p).q0 with
    | [] => s
    | m :: r => startFrame p m (setEth s p { ethOf s p with q0 := r })

/-- A Towline message may leave: a port with MACsec needs a SAK (R446). -/
def keyed (s : State) (p : Nat) (m : TxMsg) : Bool :=
  !rdB s (uETH p) TOW_PORT.MACSEC_EN || (ethOf s p).saks != [] || (m.kind == .ptp && rdB s (uETH p) TOW_PORT.PTP_BYPASS)

/-- ETH_FRAME_TX (R447): the first queue that holds a message, while no alarm frame waits. -/
def ethFrameTx (p : Nat) (s : State) : State :=
  let e := ethOf s p
  if ¬ txFree s p ∨ e.q0 ≠ [] then s
  else
    let send (m : TxMsg) (e' : EthPort) : State := if keyed s p m then startFrame p m (setEth s p e') else s
    match e.q1, e.q2, e.q3, e.q4 with
    | m :: r, _, _, _ => send m { e with q1 := r }
    | [], m :: r, _, _ => send m { e with q2 := r }
    | [], [], m :: r, _ => send m { e with q3 := r }
    | [], [], [], m :: r => send m { e with q4 := r }
    | [], [], [], [] => s

/-! ### Berth portals (R374, R375) -/

/-- BERTH_GO: the request area goes to the berth; a GO while BUSY has no effect. A request area that holds no Towline request
is discarded as R451 says. -/
def berthGo (b : Nat) (data : List Byte) (s : State) : State :=
  match berthJob s b with
  | none => s
  | some j =>
    let v := bportOf s b
    if v.busy then apxBump 4 s
    else if data.length < 32 ∨ 2032 < data.length ∨ ¬ messageOk data true ∨ messageKind data ≠ 0 then s
    else offerReq (requestOf (.portal j) b 0 0 data) (setBport s b { v with busy := true, reqBytes := data.length, req := tput 0 v.req 0 data })

/-! ### The relay (R466 to R470) -/

/-- The head device sends a remote device's message to the host: replies and pushes on the port of their ORIGIN, notices
on every HOST port. -/
def forwardToHost (src : Nat) (b : List Byte) (s : State) : State :=
  let q := classQueue (bits (beAt b 3 1) 0 2)
  let o := bits (beAt b 18 1) 0 4
  let berth := bits (beAt b 4 1) 0 4
  match messageKind b with
  | 1 =>
    match s.tow.relayed.find? (fun r => r.dev == src && r.port == o && r.berth == berth) with
    | some r => enqueue o q ⟨.reply, r.src, r.srcPort, b⟩ s
    | none => s
  | 2 => (hostPorts s).foldl (fun s p => enqueue p q ⟨.notice, notifyIp s p, rd s (uETH p) TOW_PORT.NOTIFY_PORT, b⟩ s) s
  | 3 => if isHost s o then enqueue o q ⟨.push, notifyIp s o, rd s (uETH o) TOW_PORT.NOTIFY_PORT, b⟩ s else s
  | _ => s

/-- A whole message that is this device's own: a relayed request, or a message for the host. -/
def mgmtOwn (src : Nat) (b : List Byte) (s : State) : State :=
  if ¬ messageOk b false then s
  else if messageKind b ≠ 0 then (if isHead s then forwardToHost src (b.take (32 + beAt b 16 2)) s else s)
  else if ¬ bit (beAt b 18 1) 4 ∨ 5 ≤ bits (beAt b 18 1) 0 4 then s
  else
    let s := { s with tow := { s.tow with headDev := src } }
    offerReq (requestOf (.relay (bits (beAt b 18 1) 0 4)) (bits (beAt b 4 1) 0 4) 0 0 b) s

/-- A whole message from link `k`: this device's own, or passed on (R466, R468, R470). -/
def mgmtMessage (m : Reasm) (s : State) : State :=
  let drop (s : State) : State := bump uDEV 0x0B0F 11 s
  if m.direct then (if devAssigned s ∧ m.dst ≠ devId s then drop s else mgmtOwn m.src m.data s)
  else if m.dst = devId s then mgmtOwn m.src m.data s
  else match routeTo s m.dst with
    | none => drop s
    | some (k, direct) =>
      if ¬ (linkOf s k).up then drop s
      else
        let x : MgmtMsg := { dst := m.dst, src := m.src, tag := m.tag, direct := direct, bytes := m.data }
        { s with tow := { s.tow with mgmtTx := tmod [] s.tow.mgmtTx k (· ++ [x]) } }

/-- An MGMT fragment from link `k` (Table 14-11): 16 reassembly buffers, and the link of the latest message of its source. -/
def mgmtFragment (k v : Nat) (s : State) : State :=
  let dst := bits v 4 6
  let src := bits v 10 6
  let tag := bits v 16 6
  let data := (upto 8).map (fun i => BitVec.ofNat 8 (bits v (32 + 8 * i) 8))
  let same (r : Reasm) : Bool := r.src == src && r.dst == dst && r.tag == tag && r.link == k
  let s := { s with tow := { s.tow with lastFrom := tset 0 s.tow.lastFrom src (k + 1) } }
  let rest := s.tow.reasm.filter (fun r => !same r)
  let whole (r : Reasm) (s : State) : State :=
    if bit v 23 then mgmtMessage r { s with tow := { s.tow with reasm := rest } }
    else { s with tow := { s.tow with reasm := rest ++ [r] } }
  if bit v 22 then
    if 16 ≤ rest.length then bump uDEV 0x0B0F 11 s
    else whole ⟨src, dst, tag, k, bit v 24, data⟩ s
  else match s.tow.reasm.find? same with
    | some r => whole { r with data := r.data ++ data } s
    | none => s

/-! ### The commands -/

def execTowlineRequestRx (port src srcPort : Nat) (wrap : Wrap) (data : List Byte) (s : State) : Out :=
  .next (towlineRx port src srcPort wrap data s)
def execArpIcmpRx (port : Nat) (req : ArpIcmp) (s : State) : Out := .next (arpIcmpRx port req s)
def execSensorFrameRx (port udp : Nat) (data : List Byte) (s : State) : Out := .next (sensorFrameRx port udp data s)
def execEthFrameTx (port : Nat) (s : State) : Out := .next (ethFrameTx port s)
def execAlarmFrameTx (port : Nat) (s : State) : Out := .next (alarmFrameTx port s)
def execMkaPduRx (port : Nat) (pdu : MkaPdu) (s : State) : Out := .next (mkaPduRx port pdu s)
def execBerthGo (berth : Nat) (data : List Byte) (s : State) : Out := .next (berthGo berth data s)

end Sys2Proof.Machine
end

