-- ==== Sys2Proof/Machine/Access.lean ====
section
/-! DEFINITION. Accesses of guests to the physical memory map (R357, R367 to R375, R377, R407): what Table 11-2 grants, what a load
returns, what a store does, and the fault of every other access. -/
namespace Sys2Proof.Machine

/-! ### What a guest may reach (Table 11-2, R376, R377) -/

/-- A region of a job as its guest may use it (Table 15-4d). -/
def regionMay (g : Region) (a n : Nat) (write : Bool) : Bool :=
  decide (g.base ≤ a ∧ a + n ≤ g.base + g.len) && (g.rw || g.ro && !write)

/-- An access of a job's guest lies in what Table 11-2 grants it. -/
def guestMay (s : State) (j h a n : Nat) (write : Bool) : Bool :=
  let v := jobOf s j
  let within (base size : Nat) : Bool := decide (base ≤ a ∧ a + n ≤ base + size)
  if within v.jobctlGpa 4096 then true
  else if a < 0x1100000000 then
    v.regions.any (fun g => regionMay g a n write) || (v.ckptHalf != 0 && within v.ckptBase (2 * v.ckptHalf))
  else if a < 0x1200000000 then !write && (jobCores s j).any (fun c => within (0x1100000000 + c * 0x1000000) 0x1000000)
  else if a < 0x1300000000 then !write && (maskBits 64 v.streams).any (fun k => within (0x1200000000 + k * 0x4000000) 0x4000000)
  else if a < 0x1400000000 then (maskBits 512 v.queues).any (fun q => within (0x1300000000 + q * 0x1000) 0x1000)
  else if a < 0x1F00000000 then
    within (0x1401000000 + h * 0x8000 + 0x1000) 0x1000
      || write && (jobArrays s j).any (fun k => within (0x1402000000 + k * 0x1000) 0x1000)
  else (maskBits 16 v.berths).any (fun b => within (0x1F00000000 + b * 0x1000) 0x1000)

/-! ### The views of a core window (Table 11-3) -/

/-- Byte `i` of a number in memory order. -/
def byteAt (w i : Nat) : Byte := BitVec.ofNat 8 (w / 2 ^ (8 * i))

/-- A byte of the window of a core; none where the spec does not say what is read. -/
def coreByte (s : State) (c off : Nat) : Option Byte :=
  let v := neOf s c
  let f := srfOf s c
  if off < 0x80000 then some (byteAt (tget 0 v.words (off / 8)) (off % 8))
  else if off < 0xB0000 then
    some (byteAt (tget stampNever v.stamps ((off - 0x80000) / 3)) ((off - 0x80000) % 3))
  else if off < 0x100000 then none
  else if off < 0x500000 then some (tget 0 v.syn (off - 0x100000))
  else if off < 0xB00000 then some (byteAt (tget neverWord f.mem ((off - 0x500000) / 6)) ((off - 0x500000) % 6))
  else if off < 0xB18000 then some (byteAt (tget neverWord f.halo ((off - 0xB00000) / 6)) ((off - 0xB00000) % 6))
  else some 0

/-- A byte of the window of a stream: the ring (R371); none beyond its end. -/
def ringByte (s : State) (k off : Nat) : Option Byte :=
  if off < strSlots s k * strSlotBytes s k then some (ramByte s (resF s k RES_STREAM.BASE + off)) else none

/-! ### Control pages and portals -/

/-- LKP_JOBCTL (Table 11-7). -/
def jobctlWord (s : State) (j w : Nat) : Nat :=
  let c := jobctlOf s j
  let v := jobOf s j
  match w with
  | 0 => c.ckptGen + c.ckptAck * 2 ^ 32
  | 1 => c.ckptHalf
  | 2 => c.streamEn &&& v.streams
  | 3 => c.arrayEn + b2n c.tickEn * 16 + v.ckptGrace * 2 ^ 16 + v.stopGrace * 2 ^ 32
  | _ => 0

/-- LKP_BPORT (Table 11-5). -/
def bportWord (s : State) (b : Nat) : Nat :=
  let v := bportOf s b
  b2n v.busy * 2 + b2n v.fin * 4 + b2n v.noteEn * 8 + v.reqBytes * 2 ^ 16 + v.replyBytes * 2 ^ 32

/-- A byte of a berth portal (R374). -/
def bportByte (s : State) (b off : Nat) : Byte :=
  let v := bportOf s b
  if off < 0x800 then tget 0 v.req off
  else if off < 0xFF0 then v.reply.getD (off - 0x800) 0
  else if off < 0xFF8 then byteAt (bportWord s b) (off - 0xFF0) else 0

/-- `n` bytes at an offset of a page of 64-bit words. -/
def pageBytes (word : Nat → Nat) (off n : Nat) : List Byte := (upto n).map (fun i => byteAt (word ((off + i) / 8)) ((off + i) % 8))

/-- A 64-bit word after a store of `n` bytes at an offset of its page. -/
def storedWord (old w off n v : Nat) : Nat :=
  leVal ((upto 8).map (fun i =>
    if off ≤ 8 * w + i ∧ 8 * w + i < off + n then byteAt v (8 * w + i - off) else byteAt old i))

/-- The word that a POP returns (Table 12-6). -/
def popWord (q : Queue) : Nat :=
  match q.latched with
  | w :: _ => w.w + 2 ^ 32 + b2n w.poison * 2 ^ 33 + b2n w.first * 2 ^ 34 + b2n w.last * 2 ^ 35
  | [] => 0

/-- A load from a queue portal (Table 12-6): the bytes, and the effect. -/
def loadPortal (q j off n : Nat) (s : State) : List Byte × State :=
  if off = 0x18 ∧ n = 8 then
    let s := portalPopTaken q j false s
    (leBytes 8 (if qCons s q = 2 then popWord (queueOf s q) else 0), s)
  else if 0x20 ≤ off ∧ off < 0x30 then (pageBytes (fun w => qstatWord s q (w - 4)) off n, s)
  else if 0x30 ≤ off then (leBytes n 0, s)
  else (leBytes n 0, brgBump q 9 s)

/-- The words of a store to PUSH or PUSH_END: one of 32 bits or two (R407). -/
def pushWords (n v : Nat) : List Nat := if n = 8 then [v % 2 ^ 32, v / 2 ^ 32 % 2 ^ 32] else if n = 4 then [v % 2 ^ 32] else []

/-- A store to a queue portal (Table 12-6). -/
def storePortal (q j off n v : Nat) (s : State) : State :=
  match off with
  | 0 => portalPush q j (pushWords n v) false false s
  | 8 => portalPush q j (pushWords n v) true false s
  | 0x10 => portalAbort q j s
  | 0x28 => writeQstat q (storedWord 0 0 0 n v) s
  | _ => brgBump q 9 s

/-- A store to a berth portal (R374, R375): the request area, or the register. -/
def storeBport (b off n v : Nat) (s : State) : State :=
  let p := bportOf s b
  if off + n ≤ 0x800 then setBport s b { p with req := tput 0 p.req off (leBytes n v) }
  else if 0xFF0 ≤ off ∧ off < 0xFF8 then
    let w := storedWord (bportWord s b - b2n p.fin * 4) 0 (off - 0xFF0) n v
    let s := setBport s b { p with fin := p.fin && !bit w 2, noteEn := bit w 3, reqBytes := bits w 16 12 }
    if bit w 0 then berthGo b (trange 0 p.req 0 (bits w 16 12)) s else s
  else s

/-- A store to LKP_JOBCTL (R379, R385). -/
def storeJobctl (j off n v : Nat) (s : State) : State :=
  let w := off / 8
  let x := storedWord (jobctlWord s j w) w off n v
  match w with
  | 0 => if off + n ≤ 4 then s else ckptAck j (x / 2 ^ 32) s
  | 2 => setJobctl s j { jobctlOf s j with streamEn := x &&& (jobOf s j).streams }
  | 3 => setJobctl s j { jobctlOf s j with arrayEn := bits x 0 4, tickEn := bit x 4 }
  | _ => s

/-! ### Loads and stores -/

/-- A line of 64 bytes that a load touches is poisoned in the L2 (R382). -/
def lineBad (s : State) (a n : Nat) : Bool := ramBad s (a / 64 * 64) ((a + n + 63) / 64 * 64 - a / 64 * 64)

/-- The bytes of a load from views; a byte that the spec leaves open is a free value. -/
def viewBytes (l : List (Option Byte)) (s : State) : List Byte × State :=
  let (x, s') := drawFree 8 s
  (l.map (fun b => b.getD (BitVec.ofNat 8 x)), if l.all (·.isSome) then s else s')

/-- What a granted load returns, and its effect. -/
def loadBytes (j a n : Nat) (s : State) : List Byte × State :=
  let g := (jobOf s j).jobctlGpa
  if g ≤ a ∧ a + n ≤ g + 4096 then (pageBytes (jobctlWord s j) (a - g) n, s)
  else if a < 0x1100000000 then (ramBytes s a n, s)
  else if a < 0x1200000000 then
    viewBytes ((upto n).map (fun i => coreByte s ((a - 0x1100000000) / 0x1000000) ((a + i) % 0x1000000))) s
  else if a < 0x1300000000 then
    viewBytes ((upto n).map (fun i => ringByte s ((a - 0x1200000000) / 0x4000000) ((a + i - 0x1200000000) % 0x4000000))) s
  else if a < 0x1400000000 then loadPortal ((a - 0x1300000000) / 0x1000) j (a % 0x1000) n s
  else if a < 0x1F00000000 then (leBytes n 0, s)
  else ((upto n).map (fun i => bportByte s ((a - 0x1F00000000) / 0x1000) ((a + i) % 0x1000)), s)

/-- The bytes that a hart has loaded. -/
def setLoaded (h : Nat) (l : List Byte) (s : State) : State :=
  { s with apx := { s.apx with harts := tmod {} s.apx.harts h (fun x => { x with loaded := l }) } }

/-- A granted load (R357, R370, R371, R382). -/
def guestLoad (h j a n : Nat) (s : State) : State :=
  if a < 0x1100000000 ∧ lineBad s a n then hartPoisonTrap h a s
  else
    let (l, s) := loadBytes j a n s
    setLoaded h l s

/-- The place of a hart among its job's. -/
def hartIndex (s : State) (j h : Nat) : Nat := ((maskBits 8 (jobOf s j).harts).findIdx? (· == h)).getD 0

/-- A granted store (R367, R373 to R375, R385, R407): what it stores every engine reads from then on. -/
def guestStore (h j a n v : Nat) (s : State) : State :=
  let g := (jobOf s j).jobctlGpa
  if g ≤ a ∧ a + n ≤ g + 4096 then storeJobctl j (a - g) n v s
  else if a < 0x1100000000 then ramPutNat s a n v
  else if a < 0x1400000000 then storePortal ((a - 0x1300000000) / 0x1000) j (a % 0x1000) n v s
  else if 0x1402000000 ≤ a ∧ a < 0x1F00000000 then
    if n = 4 ∧ a % 0x1000 = 0 then arrRunWrite ((a - 0x1402000000) / 0x1000) (v % 16) j s else s
  else if a < 0x1F00000000 then
    if n = 4 ∧ a % 0x1000 = 0 ∧ 0 < v ∧ v < 1024 then raiseMsi j (hartIndex s j h) v s else s
  else storeBport ((a - 0x1F00000000) / 0x1000) (a % 0x1000) n v s

/-- GUEST_ACCESS_FAULT (R368, R370, R371, R377): a load or store of a guest. What Table 11-2 grants is carried out; a write to a
read-only window of the job is ignored and counted; any other access is counted and gets an access fault. -/
def guestAccess (h a n : Nat) (write : Bool) (v : Nat) (s : State) : State :=
  let x : Hart := tget {} s.apx.harts h
  if 8 ≤ h ∨ ¬ x.inGuest then s
  else if guestMay s x.job h a n write then (if write then guestStore h x.job a n v s else guestLoad h x.job a n s)
  else if write ∧ 0x1100000000 ≤ a ∧ a < 0x1300000000 ∧ guestMay s x.job h a n false then guestFault s
  else
    let s := guestFault s
    { s with apx := { s.apx with harts := tmod {} s.apx.harts h (fun x => { x with faults := x.faults + 1, faultAddr := a }) } }

def execGuestAccessFault (hart addr size : Nat) (write : Bool) (value : Nat) (s : State) : Out :=
  .next (guestAccess hart addr size write value s)

end Sys2Proof.Machine
end

