-- ==== Sys2Proof/Machine/Reports.lean ====
section
/-! DEFINITION. Memory events (file 17): the rows of Table 17-4, the UNIT notices of Table 17-6, the resumption of a unit that an
uncorrectable error had reset. -/
namespace Sys2Proof.Machine

/-- The key of a memory: its unit and its row of Table 17-4. -/
def memKey (u row : Nat) : Nat := u * 64 + row

/-- The record of a memory. -/
def memOf (s : State) (u row : Nat) : MemReg := tget {} s.mem.regs (memKey u row)

/-- Changing memory integrity. -/
def setMem (s : State) (m : MemSt) : State := { s with mem := m }

/-- Changing the record of a memory. -/
def setMemOf (s : State) (u row : Nat) (m : MemReg) : State := setMem s { s.mem with regs := tset {} s.mem.regs (memKey u row) m }

/-- The unit type that holds a row of Table 17-4, none beyond the table. -/
def rowType (row : Nat) : Option Nat :=
  match row with
  | 0 | 1 => some 0x17
  | 2 => some 0x16
  | 3 | 4 | 5 => some 0x01
  | 6 | 7 | 8 | 9 => some 0x02
  | 10 | 11 | 12 => some 0x07
  | 13 => some 0x09
  | 14 => some 0x0A
  | 15 | 16 => some 0x08
  | 17 | 18 => some 0x10
  | 19 | 20 => some 0x11
  | 21 | 22 => some 0x19
  | 23 | 24 | 25 => some 0x18
  | 26 | 29 | 30 => some 0x0C
  | 27 | 28 => some 0x0D
  | 31 => some 0x0B
  | 33 | 34 => some 0x12
  | _ => none

/-- The memory exists. -/
def memExists (u row : Nat) : Bool := match rowType row with | some t => utype u == t && unitValid u && u != uDEV | none => false

/-- A configuration memory (R561). -/
def isConfig (row : Nat) : Bool := [2, 5, 9, 11, 13, 14, 16, 18, 20, 22, 25, 28, 30, 34].contains row

/-- The physical address of a byte of cluster SRAM or DDR5 memory. -/
def physical (u row addr : Nat) : Nat := if row = 12 then 0x1000000000 + uindex u * 0x1000000 + addr else addr

/-- The job that owns a memory, 0xFF for none (R564): that of the region an address lies in, of the queue or stream, or of the
unit. -/
def memJob (s : State) (u row addr : Nat) : Nat :=
  if row = 12 ∨ row = 31 ∨ row = 33 then
    let a := physical u row addr
    ((upto 8).find? (fun j => (jobOf s j).exist && (jobOf s j).regions.any (fun r => decide (r.base ≤ a ∧ a < r.base + r.len)))).getD 0xFF
  else if utype u = 0x19 then qJob s (uindex u)
  else if utype u = 0x18 then resF s (uindex u) RES_STREAM.JOB
  else (unitOf s u).job

/-- Field entries of a group in use, or spare pages of a channel; and how many there are (R572, R574). -/
def sparesUsed (s : State) (u row : Nat) : Nat :=
  if row = 31 then ((s.mem.pages ++ s.mem.paging).filter (fun p => p / 2 ^ 32 == uindex u)).length
  else (memOf s u row).fuses.length + ((s.mem.copying ++ s.mem.burns).filter (fun r => r.region == memKey u row)).length

/-- How many spares a memory has. -/
def sparesAll (row : Nat) : Nat := if row = 31 then 256 else 64

/-- A memory notice (R575, Table 17-6). -/
def memNotice (kind u row addr lap resumed : Nat) (s : State) : State :=
  let m := memOf s u row
  let st := if kind = 3 ∨ kind = 4 then ST_POISONED else if kind = 6 ∨ kind = 7 then ST_NO_RESOURCE else ST_OK
  let used := sparesUsed s u row
  notice NT_UNIT st u (beBytes 1 kind ++ beBytes 1 row ++ beBytes 1 (memJob s u row addr) ++ beBytes 1 0 ++ beBytes 8 addr
    ++ beBytes 4 (min lap 0xFFFFFFFF) ++ beBytes 4 m.ce ++ beBytes 4 m.ue ++ beBytes 2 used ++ beBytes 2 (sparesAll row - used)
    ++ beBytes 8 resumed ++ beBytes 4 0) s

/-- The UE_RESET notice of a unit that an uncorrectable error had reset, once it has resumed. -/
def reportResumed (u : Nat) (s : State) : State :=
  match tget none s.mem.why u with
  | none => s
  | some (row, addr) =>
    memNotice 4 u row addr 0 (now s) (setMem s { s.mem with why := tset none s.mem.why u none })

/-- A unit whose fill or self-test fails enters FAILED, with its notice (R519, R560); on the safety die it is a dangerous failure. -/
def unitFails (u : Nat) (s : State) : State :=
  let s := match unitBit u with | some b => setReady b false s | none => s
  let s := setUnit s u { unitOf s u with st := .failed, since := now s, resetting := false }
  let s := unitNotice 20 ST_OK u 0 0xFFFF s
  if utype u = 0x15 ∨ utype u = 0x16 ∨ utype u = 0x17 then raiseCause 11 u s else s

/-! ### Work that moves to a spare (R43) -/

/-- The cluster of a unit, none for units outside the clusters. -/
def clusterOf (u : Nat) : Option Nat :=
  match utype u with
  | 0x01 | 0x02 => some (uindex u / 4)
  | 0x07 | 0x08 | 0x09 | 0x0A => some (uindex u)
  | _ => none

/-- The lowest ready SPARE unit of the same type in the same cluster. -/
def spareFor (s : State) (u : Nat) : Option Nat :=
  ((upto (unitRange (utype u))).map (uid (utype u))).find? (fun v =>
    v != u && (clusterOf u).isSome && clusterOf v == clusterOf u && (unitOf s v).st == .spare && !(unitOf s v).resetting
      && unitReady s v)

/-- The work of a unit moves to a spare, which is loaded from the graph image and the latest checkpoint. -/
def moveWork (u v : Nat) (s : State) : State :=
  let o := originOf s u
  let r := unitOf s u
  let s := setUnit s v { unitOf s v with st := .assigned, job := r.job, fullRed := r.fullRed, since := now s }
  let s := setUnit s o { unitOf s o with movedTo := if o = v then 0xFFFF else v }
  reloadUnit o v s

/-- A unit leaves service for quarantine; the work of an ASSIGNED unit moves to a spare, and its job restarts. The number of the
spare, or 0xFFFF. -/
def quarantine (cause pcause taint u : Nat) (s : State) : Nat × State :=
  let s := dropReplaysOn u s
  let r := unitOf s u
  let dst := if r.st = .assigned then spareFor s u else none
  let j := r.job
  let s := match dst with | some v => moveWork u v s | none => s
  let s := setUnit s u { unitOf s u with st := .quarantined, since := now s }
  let s := unitNotice 16 ST_OK u cause (dst.getD 0xFFFF) s
  let s := settleState s
  let s := if dst.isSome ∧ jobRuns s j then beginRestart j pcause u taint none s else s
  (dst.getD 0xFFFF, s)

end Sys2Proof.Machine
end

