-- ==== Sys2Proof/Machine/Links.lean ====
section
/-! DEFINITION. Canal links and Ethernet PHYs (files 06 and 14): frames with their slots, replay, credits, guarded windows, the
recipient log, links and PHYs that come up and go down. -/
namespace Sys2Proof.Machine

/-! ### Slots (R230 to R233, R243) -/

/-- The type of slot `i` of a frame. -/
def slotType (v i : Nat) : Nat := bits v (2 * i) 2

/-- Slot `i` of a frame. -/
def slotBits (v i : Nat) : Nat := bits v (16 + 96 * i) 96

/-- A packet as a slot carries it (Tables 6-1 and 6-6). -/
def packetSlot (p : Pkt) : Nat :=
  p.pay % 2 ^ 32 + p.key % 2 ^ 32 * 2 ^ 32 + (p.cls % 4 + b2n p.poison * 4 + b2n p.prov * 8 + p.parK % 2 * 16 + p.parP % 2 * 32
    + p.hops % 16 * 64 + p.job % 8 * 1024 + p.win % 1024 * 2 ^ 13 + p.att % 4 * 2 ^ 23 + p.src.getD 0 % 64 * 2 ^ 25) * 2 ^ 64

/-- The packet in a slot. -/
def slotPacket (v : Nat) : Pkt :=
  let x := bits v 64 32
  {
    key := bits v 32 32, pay := bits v 0 32, cls := bits x 0 2, poison := bit x 2, prov := bit x 3, parK := bits x 4 1,
    parP := bits x 5 1, hops := bits x 6 4, job := bits x 10 3, from_ := 2, win := bits x 13 10, att := bits x 23 2,
    src := some (bits x 25 6) }

/-- A notice as a slot carries it (Table 6-10). -/
def noticeSlot (n : LinkNote) : Nat :=
  n.kind % 4 + n.job % 8 * 4 + n.win % 2 ^ 32 * 2 ^ 5 + n.att % 4 * 2 ^ 37 + n.src % 64 * 2 ^ 39 + n.count % 2 ^ 24 * 2 ^ 45

/-- The notice in a slot. -/
def slotNotice (v : Nat) : LinkNote := ⟨bits v 0 2, bits v 2 3, bits v 5 32, bits v 37 2, bits v 39 6, bits v 45 24⟩

/-- A link-control slot: kind and arguments. -/
def ctlSlot : LinkCtl → Nat
  | .ack n => (Config.ctlKind 0).toNat + (Config.ctlEncode 0 n).toNat * 16
  | .nak n => (Config.ctlKind 1).toNat + (Config.ctlEncode 1 n).toNat * 16
  | .credit c n => (Config.ctlKind 2).toNat + (Config.ctlEncode 2 (c + n * 8)).toNat * 16
  | .hello d a l c => (Config.ctlKind 3).toNat + (Config.ctlEncode 3 (d + b2n a * 64 + l * 128 + c * 512)).toNat * 16
  | .mgmt b => (Config.ctlKind 4).toNat + b / 16 * 16

/-- The link control in a slot; other kinds are discarded (R233). -/
def slotCtl (v : Nat) : Option LinkCtl :=
  let arg (k : Nat) : Nat := (Config.ctlDecode k (BitVec.ofNat 92 (v / 16))).toNat
  match (upto 5).find? (fun k => (Config.ctlKind k).toNat == v % 16) with
  | some 0 => some (.ack (arg 0 % 64))
  | some 1 => some (.nak (arg 1 % 64))
  | some 2 => some (.credit (arg 2 % 8) (arg 2 / 8))
  | some 3 => some (.hello (arg 3 % 64) (bit (arg 3) 6) (bits (arg 3) 7 2) (bits (arg 3) 9 8))
  | some 4 => some (.mgmt v)
  | _ => none

/-- The next fragment of a message (Table 14-11), without its kind. -/
def fragment (m : MgmtMsg) : Nat :=
  let d := padTo 8 (m.bytes.take 8)
  m.dst % 64 * 16 + m.src % 64 * 1024 + m.tag % 64 * 2 ^ 16 + b2n (!m.begun) * 2 ^ 22
    + b2n (decide (m.bytes.length ≤ 8)) * 2 ^ 23 + b2n m.direct * 2 ^ 24 + leVal d * 2 ^ 32

/-! ### The recipient log (R249) -/

/-- A window's full number from the ten bits a slot carries: the one nearest to the job's current window. -/
def fullWindow (s : State) (j w10 : Nat) : Nat :=
  let c := jobWindow s j
  let d := (w10 + 1024 - c % 1024) % 1024
  if d < 512 ∨ c < 1024 - d then c + d else c + d - 1024

/-- An entry of the recipient log made or completed; 1,024 are kept. `jobs` are those whose units its packets reached here. -/
def logRecipient (src j w : Nat) (loc : Bool) (jobs links : Nat) (g : Bool) (s : State) : State :=
  let w := w % 2 ^ 32
  let same (e : RLog) : Bool := e.src == src && e.job == j && e.win == w
  let l := s.canal.rlog
  { s with canal := { s.canal with
      rlog := if l.any same then
          l.map (fun e => if same e then
            { e with loc := e.loc || loc, links := e.links ||| links, guarded := e.guarded || g, jobs := e.jobs ||| jobs } else e)
        else (⟨w, j, src, loc, links, g, jobs⟩ :: l).take 1024 } }

/-! ### Sending frames -/

/-- One more provisional packet of (source, job, window, attempt) in a list of windows. -/
def countSent (src j w a : Nat) (p : Option Pkt) (l : List WinSent) : List WinSent :=
  let same (e : WinSent) : Bool := e.src == src && e.job == j && e.win == w && e.att == a
  if l.any same then
    l.map (fun e => if same e then { e with count := e.count + 1, pkts := e.pkts ++ p.toList } else e)
  else l ++ [{ src := src, job := j, win := w, att := a, count := 1, pkts := p.toList }]

/-- The packet as it goes into a frame: what the source fills in (R231, R242) and a device on the way keeps. -/
def sideband (s : State) (p : Pkt) : Pkt :=
  match p.src with
  | some _ => p
  | none =>
    { p with
      prov := guarded s p.job && p.cls != 0, win := jobWindow s p.job % 1024, att := attemptOf s p.job (jobWindow s p.job),
      src := some (devId s) }

/-- A packet goes into a frame: its credit is spent, its window is counted and logged. -/
def placePacket (k : Nat) (p : Pkt) (s : State) : Nat × State :=
  let p := sideband s p
  let src := p.src.getD 0
  let w := fullWindow s p.job p.win
  let l := linkOf s k
  let l := { l with credits := tmod 0 l.credits p.cls (· - 1), lastUse := now s }
  let l :=
    if ¬ p.prov then l
    else if src = devId s then { l with sent := countSent src p.job w p.att (some p) l.sent }
    else { l with passed := countSent src p.job w p.att none l.passed }
  (packetSlot p, logRecipient src p.job w p.loc p.jobs (2 ^ k) (p.prov || (decide (src = devId s) && guarded s p.job)) (setLink s k l))

/-- A class whose head packet has a credit gives it to the frame. -/
def takeClass (k c : Nat) (s : State) : Option (Nat × State) :=
  match cq s (pTx k) c with
  | [] => none
  | p :: r =>
    if ¬ linkUsable s k ∨ tget 0 (linkOf s k).credits c = 0 then none
    else some (placePacket k p (setCq s (pTx k) c r))

/-- A provisional packet of a notice's window that has yet to leave on a link: it waits at the link, or in a receiver. -/
def windowQueued (s : State) (k : Nat) (n : LinkNote) : Bool :=
  let mine (p : Pkt) : Bool := p.prov && p.src == some n.src && p.job == n.job && p.win == n.win % 1024 && p.att == n.att
  queuedFor s k mine || (upto 4).any (fun c => (upto 4).any (fun i => (cq s (pRx i) c).any (fun p => mine p
      && (match p.dst with | none => true | some d => (maskBits 4 d.links).any (fun m => linkFor s m == some k)))))

/-- The packets a link carried of a notice's window and attempt. -/
def carried (s : State) (k : Nat) (n : LinkNote) : Option WinSent :=
  let l := linkOf s k
  ((if n.src = devId s then l.sent else l.passed)).find?
    (fun e => e.src == n.src && e.job == n.job && e.win % 1024 == n.win % 1024 && e.att == n.att)

/-- The first notice that can leave: the packets of its window have left, with the count of this link (R242, R246). -/
def takeNote (k : Nat) (s : State) : Option (Nat × State) :=
  let l := linkOf s k
  match l.notes with
  | [] => none
  | n :: r =>
    if ¬ linkUsable s k ∨ tget 0 l.credits 4 = 0 ∨ (n.kind < 2 ∧ windowQueued s k n) then none
    else
      let c := match carried s k n with | some e => e.count | none => n.count
      let keep (e : WinSent) : Bool := !(e.src == n.src && e.job == n.job && e.win % 1024 == n.win % 1024 && e.att == n.att)
      some (noticeSlot { n with count := if n.kind < 2 then c else n.count }, setLink s k { l with
        notes := r, credits := tmod 0 l.credits 4 (· - 1),
        sent := if n.kind < 2 then l.sent.map (fun e => if keep e then e else { e with ended := true }) else l.sent,
        passed := if n.kind < 2 then l.passed.filter keep else l.passed })

/-- The next link-control slot: what waits, then a fragment of a message (R467). -/
def takeCtl (k : Nat) (s : State) : Option (Nat × State) :=
  let l := linkOf s k
  match l.ctl, tget [] s.tow.mgmtTx k with
  | c :: r, _ => some (ctlSlot c, setLink s k { l with ctl := r })
  | [], m :: r =>
    let rest := if m.bytes.length ≤ 8 then r else { m with bytes := m.bytes.drop 8, begun := true } :: r
    some (ctlSlot (.mgmt (fragment m)), { s with tow := { s.tow with mgmtTx := tset [] s.tow.mgmtTx k rest } })
  | [], [] => none

/-- What goes into one of slots 1 to 4, with its type, by the precedence of R232. -/
def fillSlot (k : Nat) (s : State) : Nat × Nat × State :=
  let pick (t : Nat) (o : Option (Nat × State)) : Option (Nat × Nat × State) := o.map (fun e => (t, e.1, e.2))
  ((pick 1 (takeClass k 0 s)).orElse fun _ => (pick 3 (takeCtl k s)).orElse fun _ => (pick 2 (takeNote k s)).orElse fun _ =>
    (pick 1 (takeClass k 1 s)).orElse fun _ => (pick 1 (takeClass k 2 s)).orElse fun _ =>
      pick 1 (takeClass k 3 s)).getD (0, 0, s)

/-- What goes into slot 0: class 0 alone. -/
def fillFirst (k : Nat) (s : State) : Nat × Nat × State := (takeClass k 0 s).elim (0, 0, s) (fun e => (1, e.1, e.2))

/-- What goes into slot `i`. -/
def fillAt (k i : Nat) (s : State) : Nat × Nat × State := if i = 0 then fillFirst k s else fillSlot k s

/-- A frame with its slots from `i` on filled. -/
def fillFrame (k : Nat) : Nat → Nat → Nat → State → Nat × State
  | 0, _, v, s => (v, s)
  | n + 1, i, v, s =>
    let f := fillAt k i s
    fillFrame k n (i + 1) (v + f.1 * 2 ^ (2 * i) + f.2.1 % 2 ^ 96 * 2 ^ (16 + 96 * i)) f.2.2

/-- A new frame leaves with its CRC and is kept for replay. -/
def sendFrame (k : Nat) (p : Nat × State) : State :=
  let f := p.1 + crc16Frame p.1 * 2 ^ 496
  let l := linkOf p.2 k
  setLink p.2 k { l with txFrame := f, txSeq := (l.txSeq + 1) % 64, replay := l.replay ++ [(l.txSeq, f)] }

/-- A class-3 copy waits at a transmitter while packets of other classes have gone into the frame (STARVE_CYCLES, R219). -/
def frameStarves (k : Nat) (before after : State) : Bool :=
  let low (s : State) : Nat := ((upto 3).map (fun c => (cq s (pTx k) c).length)).sum
  decide (low after < low before) && cq after (pTx k) 3 != []

/-- LINK_FRAME_TX (R230, R232, R234): a frame that is to be sent again, or a new one that is kept for replay. -/
def linkFrameTx (k : Nat) (s : State) : State :=
  let l := linkOf s k
  if ¬ l.up ∨ ¬ islandRuns s (uCK k) then s
  else if 0 < l.resend then
    let f := (l.replay.drop (l.replay.length - l.resend)).head?
    setLink s k { l with txFrame := (f.map (·.2)).getD 0, resend := l.resend - 1 }
  else if 64 ≤ l.replay.length then s
  else
    let x := fillFrame k 5 0 (l.txSeq * 1024) s
    sendFrame k (x.1, if frameStarves k s x.2 then cnlBump (uCK k) 4 x.2 else x.2)

/-! ### Windows refused (R245) -/

/-- WINDOW_NAK came back for a window of this device (R245). -/
def windowRefused (k : Nat) (n : LinkNote) (s : State) : State :=
  if 3 ≤ n.att then beginRestart n.job 3 (uCK k) 0 none s
  else
    let s := setAttempt n.job n.win (max (attemptOf s n.job n.win) (n.att + 1)) s
    let s := resendOn k n.job n.win n.att (n.att + 1) (failWindow n.job n.win s)
    match linkFor s k with
    | some k' => setLink s k' { linkOf s k' with notes := (linkOf s k').notes ++ [⟨0, n.job, n.win, n.att + 1, devId s, 0⟩] }
    | none => s

/-! ### Receiving frames -/

/-- The latest attempt seen of a window. -/
def latestAtt (l : CkLink) (src j w : Nat) : Option Nat :=
  (l.latest.find? (fun e => e.1 == src && e.2.1 == j && e.2.2.1 == w)).map (·.2.2.2)

/-- Credits withheld while the shadow store was at its limit are returned once it has space (R247). -/
def releaseCredits (k : Nat) (s : State) : State :=
  let l := linkOf s k
  if rd s (uCK k) CNL_LINK.SHADOW_LIMIT_MIB * 1048576 ≤ shadowBytes l then s
  else
    let due := [1, 2, 3].filter (fun c => tget 0 l.withheld c != 0)
    setLink s k { l with ctl := l.ctl ++ due.map (fun c => .credit c (tget 0 l.withheld c)), withheld := [] }

/-- A provisional packet (R244): counted in its window; the part for this device is held, the part for other links goes on. -/
def receiveProv (k : Nat) (p : Pkt) (s : State) : State :=
  let src := p.src.getD 0
  let w := fullWindow s p.job p.win
  let l := linkOf s k
  if (latestAtt l src p.job w).any (fun a => decide (p.att < a)) then returnCredit k p.cls s
  else
    let (p, s) := checkParity (uCK k) p s
    let d := destSet s (.link k) p.key p.from_
    let loc : Bool := d.any Dst.isLocal
    let links := (d.map (·.links)).getD 0
    let same (e : Shadow) : Bool := e.src == src && e.job == p.job && e.win == w && e.att == p.att
    let held : List Pkt := if loc then [p] else []
    let l := linkOf s k
    let l := { l with
      shadow := if l.shadow.any same then
          l.shadow.map (fun e => if same e then { e with count := e.count + 1, pkts := e.pkts ++ held } else e)
        else l.shadow ++ [⟨src, p.job, w, p.att, 1, held⟩],
      latest := ((src, p.job, w, p.att) :: l.latest.filter (fun e => !(e.1 == src && e.2.1 == p.job && e.2.2.1 == w))).take 1024 }
    let js := reach s p.key 17 (.link k) p.from_
    let s := logRecipient src p.job w (js != []) (jobMask js) 0 true (setLink s k l)
    let s := if d.isNone then cnlBump (uCK k) 1 s else s
    if links = 0 then returnCredit k p.cls s
    else putCq (pRx k) { p with dst := some { links := links } } s

/-- A packet slot. -/
def receivePacket (k : Nat) (p : Pkt) (s : State) : State :=
  let s := setLink s k { linkOf s k with lastUse := now s }
  if p.prov ∧ p.cls ≠ 0 then receiveProv k p s
  else
    let js := reach s p.key 17 (.link k) p.from_
    putCq (pRx k) p (logRecipient (p.src.getD 0) p.job (fullWindow s p.job p.win) (js != []) (jobMask js) 0 false s)

/-- A held packet is folded in (R244): the part for this device goes to the table, PROV cleared. Its credit went back when the
shadow store took it; beyond the receiver's 128 places it still stands in the store, in its turn. -/
def foldPacket (k : Nat) (p : Pkt) (s : State) : State :=
  match destSet s (.link k) p.key p.from_ with
  | none => cnlBump (uCK k) 1 s
  | some d => putCq (pRx k) { p with prov := false, dst := some { d with links := 0 }, credit := false } s

/-- A notice goes on along every other link that carried, or will carry, packets of its window (R246). -/
def passNote (k : Nat) (n : LinkNote) (s : State) : State :=
  (upto 4).foldl (fun s m =>
    if m ≠ k ∧ n.src ≠ devId s ∧ ((carried s m n).isSome ∨ windowQueued s m n) then
      setLink s m { linkOf s m with notes := (linkOf s m).notes ++ [n] }
    else s) s

/-- COMMIT (R244): the held packets of the window are folded in, or refused where their number differs. -/
def receiveCommit (k : Nat) (n : LinkNote) (s : State) : State :=
  let l := linkOf s k
  let mine (e : Shadow) : Bool := e.src == n.src && e.job == n.job && e.win % 2 ^ 32 == n.win && e.att == n.att
  let e := l.shadow.find? mine
  let num := (e.map (·.count)).getD 0
  let ps := (e.map (·.pkts)).getD []
  let away := (upto 4).any (fun m => m != k && ((carried s m n).isSome || windowQueued s m n))
  let s := setLink s k { l with shadow := l.shadow.filter (fun e => !mine e) }
  let s :=
    if num = n.count ∨ (ps = [] ∧ away) then cnlBumpN ps.length (uCK k) 12 (ps.foldl (fun s p => foldPacket k p s) s)
    else
      cnlBump (uCK k) 10 (setLink s k { linkOf s k with
        notes := (linkOf s k).notes ++ [{ n with kind := 2 }] })
  passNote k n (releaseCredits k s)

/-- RETRACT (R244). -/
def receiveRetract (k : Nat) (n : LinkNote) (s : State) : State :=
  let l := linkOf s k
  let mine (e : Shadow) : Bool := e.src == n.src && e.job == n.job && e.win % 2 ^ 32 == n.win && e.att == n.att
  let ps := (l.shadow.filter mine).flatMap (·.pkts)
  let s := setLink s k { l with shadow := l.shadow.filter (fun e => !mine e) }
  passNote k n (releaseCredits k (cnlBumpN ps.length (uCK k) 9 s))

/-- WINDOW_NAK (R245): this device's own, or on towards its source over the links its window came on. -/
def receiveNak (k : Nat) (n : LinkNote) (s : State) : State :=
  if n.src = devId s then windowRefused k n s
  else (upto 4).foldl (fun s m =>
    if m ≠ k ∧ (linkOf s m).latest.any (fun e => e.1 == n.src && e.2.1 == n.job && e.2.2.1 % 2 ^ 32 == n.win) then
      setLink s m { linkOf s m with notes := (linkOf s m).notes ++ [n] }
    else s) s

/-- A notice slot; its credit goes back at once. -/
def receiveNote (k : Nat) (n : LinkNote) (s : State) : State :=
  let s := setLink s k { linkOf s k with ctl := (linkOf s k).ctl ++ [.credit 4 1] }
  match n.kind with
  | 0 => receiveCommit k n s
  | 1 => receiveRetract k n s
  | 2 => receiveNak k n s
  | _ => s

/-- The peer told who it is and what its end can do (R233, R236). -/
def peerKnown (k dev : Nat) (asg : Bool) (caps : Nat) (s : State) : State :=
  rerouteTx k (duplicateNotice k (setLink s k { linkOf s k with peerDev := dev, peerAsg := asg, peerCaps := caps }))

/-- A link-control slot (R233, R234). -/
def receiveCtl (k : Nat) (c : LinkCtl) (s : State) : State :=
  let l := linkOf s k
  match c with
  | .ack n => if l.replay.any (·.1 == n) then
      setLink s k { l with replay := (l.replay.dropWhile (·.1 != n)).drop 1 } else s
  | .nak n =>
    if ¬ l.replay.any (·.1 == n) then s else
    let ms := now s / 1000000
    cnlBump (uCK k) 6 (setLink s k { l with
      replay := l.replay.dropWhile (·.1 != n), resend := (l.replay.dropWhile (·.1 != n)).length, replayMs := ms,
      replayN := (if l.replayMs = ms then l.replayN else 0) + 1 })
  | .credit c n => setLink s k { l with credits := tmod 0 l.credits c (· + n) }
  | .hello d a _ c => peerKnown k d a c s
  | .mgmt v => mgmtFragment k v s

/-- One slot of a received frame. -/
def receiveSlot (k v i : Nat) (s : State) : State :=
  let x := slotBits v i
  match slotType v i with
  | 1 => if i = 0 ∧ (slotPacket x).cls ≠ 0 then s else receivePacket k (slotPacket x) s
  | 2 => if i = 0 then s else receiveNote k (slotNotice x) s
  | 3 => if i = 0 then s else (match slotCtl x with | some c => receiveCtl k c s | none => s)
  | _ => s

/-- LINK_FRAME_RX (R234): a frame that fails its CRC is discarded and asked for again, whenever it fails; of the later frames, which
are discarded too, the first that is out of order asks where nothing has asked yet. -/
def linkFrameRx (k : Nat) (f : BitVec 512) (s : State) : State :=
  let s := wakeIsland (uCK k) s
  let v := f.toNat
  let l := linkOf s k
  let fails : Bool := crc16Frame v != bits v 496 16
  if ¬ l.up then s
  else if fails ∨ bits v 10 6 ≠ l.rxSeq then
    if l.nakSent ∧ ¬ fails then s else setLink s k { l with nakSent := true, ctl := l.ctl ++ [.nak l.rxSeq] }
  else
    let full : Bool := 15 ≤ l.sinceAck
    let s := setLink s k { l with
      rxSeq := (l.rxSeq + 1) % 64, nakSent := false, sinceAck := if full then 0 else l.sinceAck + 1,
      ctl := if full then l.ctl ++ [.ack l.rxSeq] else l.ctl }
    (upto 5).foldl (fun s i => receiveSlot k v i s) s

/-! ### Links up and down (R236 to R239, R248) -/

/-- The lanes that LANE_MODE allows. -/
def lanesOk (mode lanes : Nat) : Bool := if mode = 0 then 1 ≤ lanes && lanes ≤ 3 else lanes == mode

/-- LINK_UP (R237): HELLO has been exchanged, credits are initialised, the readiness bit is set. -/
def linkUp (k lanes peer : Nat) (asg : Bool) (caps : Nat) (s : State) : State :=
  if ¬ rdB s (uCK k) CNL_LINK.ENABLE ∨ (linkOf s k).up ∨ ¬ lanesOk (rd s (uCK k) CNL_LINK.LANE_MODE) lanes ∨ 2 ≤ s.dev.level then s
  else
    let s := setLink s k {
      up := true, lanes := lanes, peerDev := peer % 64, peerAsg := asg, peerCaps := caps,
      credits := (upto 5).foldl (fun t c => tset 0 t c (if c = 0 then 8 else if c = 4 then Config.noticeCredits.toNat else 128)) [],
      sent := (linkOf s k).sent, lastUse := (linkOf s k).lastUse }
    let s := setReady (RB_CK + k) true s
    let s := linkNotice 1 k 1 lanes (peer % 64) (ckFlags s k false (linkClass0 s k)) ST_OK s
    let s := duplicateNotice k s
    let s := reportResumed (uCK k) s
    if (upto 4).all (fun i => !linkClass0 s i || (linkFor s i).isSome) then clearCause 5 s else s

/-- A link goes down of its own (R238), which LINK_DOWN counts. -/
def linkFails (k : Nat) (s : State) : State := linkLost k (cnlBump (uCK k) 7 s)

/-- LINK_DOWN (R238): a replay count ends a link only beyond REPLAY_MAX in the present millisecond. -/
def linkDown (k : Nat) (r : LinkLoss) (s : State) : State :=
  let l := linkOf s k
  let past : Bool := l.replayMs == now s / 1000000 && decide (rd s (uCK k) CNL_LINK.REPLAY_MAX < l.replayN)
  if ¬ l.up ∨ (r = .replays ∧ ¬ past) then s else linkFails k s

/-! ### Ethernet PHYs (R235, R465, R473) -/

/-- ETH_PHY_LINK_CHANGE: a PHY trains, with the result of its self-tests, or loses its link. -/
def ethPhyLinkChange (p : Nat) (up selfTest : Bool) (s : State) : State :=
  let e := ethOf s p
  if 5 ≤ p ∨ e.phyUp = up ∨ (up ∧ 3 ≤ s.dev.level) then s
  else if up then
    let s := setEth s p { e with phyUp := true, trained := true, sleepListen := false, tc10 := 0 }
    let s := if selfTest then setReady (RB_ETH + p) true s else s
    let s := linkNotice 0 p 1 0 0 0 ST_OK s
    if p < 2 then clearCause 6 s else s
  else
    let s := setEth s p { e with phyUp := false, wire := none, saks := [], downSince := now s }
    linkNotice 0 p 0 0 0 0 ST_OK (setReady (RB_ETH + p) false s)

/-! ### The commands -/

def execLinkUp (link lanes peer : Nat) (peerAsg : Bool) (caps : Nat) (s : State) : Out := .next (linkUp link lanes peer peerAsg caps s)
def execLinkDown (link : Nat) (reason : LinkLoss) (s : State) : Out := .next (linkDown link reason s)
def execLinkFrameTx (link : Nat) (s : State) : Out := .next (linkFrameTx link s)
def execLinkFrameRx (link : Nat) (frame : BitVec 512) (s : State) : Out := .next (linkFrameRx link frame s)
def execEthPhyLinkChange (port : Nat) (up selfTest : Bool) (s : State) : Out := .next (ethPhyLinkChange port up selfTest s)

end Sys2Proof.Machine
end

