-- ==== Sys2Proof/Machine/Integrity.lean ====
section
/-! DEFINITION. Memory integrity (file 17): the codes, the dredger, the outcome of each uncorrectable error (Table 17-4), unit
resets and resumptions, spares, fuses and laps, the Lockkeeper's reset. -/
namespace Sys2Proof.Machine

/-! ### The codes (R549 to R555) -/

/-- What a checker makes of a stored byte or line. -/
inductive Checked
  | clean | corrected | uncorrectable | marker
deriving DecidableEq, Repr

/-- The check bits c0 to c4 of a byte (Table 17-1). -/
def sramCheck (d : Nat) : Nat :=
  let x (l : List Nat) : Nat := (l.map (bits d · 1)).sum % 2
  let c0 := x [0, 1, 3, 4, 6]
  let c1 := x [0, 2, 3, 5, 6]
  let c2 := x [1, 2, 3, 7]
  let c3 := x [4, 5, 6, 7]
  c0 + c1 * 2 + c2 * 4 + c3 * 8 + (parity 8 d + c0 + c1 + c2 + c3) % 2 * 16

/-- The stored form of a byte, as itself or as a poison marker (R549, R551). -/
def sramStore (d : Nat) (poison : Bool) : Nat := d % 256 + ((sramCheck (d % 256)) ^^^ (if poison then 31 else 0)) * 256

/-- The data bit at a Hamming position, if it is one. -/
def hammingBit (pos : Nat) : Option Nat :=
  match pos with
  | 3 => some 0 | 5 => some 1 | 6 => some 2 | 7 => some 3 | 9 => some 4 | 10 => some 5 | 11 => some 6 | 12 => some 7
  | _ => none

/-- A stored byte decoded (Table 17-2): its data and what the checker finds. -/
def sramDecode (v : Nat) : Nat × Checked :=
  let d := bits v 0 8
  let s := (bits v 8 4) ^^^ (sramCheck d % 16)
  let p := parity 13 v
  if p = 0 then (d, if s = 0 then .clean else .uncorrectable)
  else if s ≤ 12 then (match hammingBit s with | some b => d ^^^ 2 ^ b | none => d, .corrected)
  else (d, if s = 15 then .marker else .uncorrectable)

/-- A DDR5 line decoded from its symbols in error (R553, R555): symbol 8k + j is symbol j of device k. -/
def ddrDecode (syms : List Nat) (poison : Bool) : Checked :=
  let syms := syms.eraseDups
  if poison then (if syms = [] then .marker else .uncorrectable)
  else match syms with
    | [] => .clean
    | a :: _ => if syms.length ≤ 2 ∨ syms.all (fun b => b / 8 == a / 8) then .corrected else .uncorrectable

/-! ### Data memories (R564, Table 17-4) -/

/-- Changing one element of a list. -/
def modAt {α : Type} (i : Nat) (f : α → α) (l : List α) : List α := l.zipIdx.map (fun e => if e.2 = i then f e.1 else e.1)

/-- A poisoned operand. -/
def badVal (v : Val) : Val := { v with bad := true }

/-- A surface word or halo word poisoned. -/
def poisonSurface (c off : Nat) (s : State) : State :=
  let v := srfOf s c
  if 0x500000 ≤ off ∧ off < 0xB00000 then setSrf s c { v with bad := tset false v.bad ((off - 0x500000) / 6) true }
  else if 0xB00000 ≤ off ∧ off < 0xB18000 then setSrf s c { v with haloBad := tset false v.haloBad ((off - 0xB00000) / 6) true }
  else s

/-- A gyro history entry poisoned: group × 4 + axis, 16 entries each, 16 bytes an entry. -/
def poisonGyro (c off : Nat) (s : State) : State :=
  let v := srfOf s c
  let i := off / 16
  setSrf s c { v with hist := tmod [] v.hist (i / 16) (modAt (i % 16) (fun e => { e with bad := true })) }

/-- The POISON bit of a neuron (Table 5-2). -/
def poisonNeuron (c n : Nat) (s : State) : State :=
  let v := neOf s c
  setNe s c { v with words := tmod 0 v.words n (fun w => setBits w 57 1 1) }

/-- A word of a neuron engine poisoned: states, stamps and synapses as in the core window (Table 11-3); then the reorder buffer, the
count buffers and the accumulators. -/
def poisonNe (c off : Nat) (s : State) : State :=
  let v := neOf s c
  if off < 0x80000 then poisonNeuron c (off / 8) s
  else if off < 0xB0000 then poisonNeuron c ((off - 0x80000) / 3) s
  else if 0x100000 ≤ off ∧ off < 0x500000 then setNe s c { v with synBad := tset false v.synBad ((off - 0x100000) / 4) true }
  else if 0xC00000 ≤ off ∧ off < 0xD00000 then
    setNe s c { v with inputs := modAt ((off - 0xC00000) / 8) (fun e => { e with poison := true }) v.inputs }
  else if 0xD00000 ≤ off ∧ off < 0xE00000 then setNe s c { v with cntBad := tset false v.cntBad ((off - 0xD00000) / 2) true }
  else if 0xE00000 ≤ off then
    let n := (off - 0xE00000) / 4
    setNe s c { v with batches := v.batches.map (fun b => match tget none b.acc n with
      | some a => { b with acc := tset none b.acc n (some { a with poison := true }) }
      | none => b) }
  else s

/-- A copy or a held alarm of a hub poisoned. -/
def poisonHub (h off : Nat) (s : State) : State :=
  if off < 0x1000 then
    let i := off / 16
    let port := pHub (4 * h + i / 64)
    let c := i / 16 % 4
    setCq s port c (modAt (i % 16) (fun p => { p with poison := true }) (cq s port c))
  else
    setPol s h { polOf s h with hold := modAt ((off - 0x1000) / 32) (fun a => { a with poison := true }) (polOf s h).hold }

/-- The operands of a row that a byte of a weight set holds: two of 4 bits in a row of 512, else one. -/
def badWeight (b : Nat) (r : List Val) : List Val :=
  if 256 < r.length then modAt (2 * b + 1) badVal (modAt (2 * b) badVal r) else modAt b badVal r

/-- The operands under an MX scale. -/
def badScale (blk : Nat) (r : List Val) : List Val := r.zipIdx.map (fun e => if e.2 / 32 = blk then badVal e.1 else e.1)

/-- A word of an array's buffers poisoned (Table 7-4): tile slots of 256 vectors of 512 bytes, weight sets of 256 rows of 256 bytes
and behind them their MX scales, tile regions of 256 × 256 accumulators of 8 bytes, the ARR_RQ table. -/
def poisonFa (n off : Nat) (s : State) : State :=
  let v := faOf s n
  if off < 0x400000 then
    setFa s n { v with tiles := modAt (off / 0x20000) (fun t =>
      { t with vecs := modAt (off / 512 % 256) (modAt (off % 512) badVal) t.vecs }) v.tiles }
  else if off < 0x420000 then
    let o := off - 0x400000
    setFa s n { v with wsets := modAt (o / 0x10000) (fun w => { w with rows := modAt (o / 256 % 256) (badWeight (o % 256)) w.rows }) v.wsets }
  else if off < 0x800000 then
    let o := off - 0x420000
    setFa s n { v with wsets := modAt (o / 0x1000) (fun w => { w with rows := modAt (o / 16 % 256) (badScale (o % 16)) w.rows }) v.wsets }
  else if off < 0xC00000 then
    let o := (off - 0x800000) % 0x200000 / 8
    let f (t : AccTile) : AccTile :=
      { t with acc := modAt (o / 256 % 256) (modAt (o % 256) (fun a => { a with bad := true })) t.acc }
    if off < 0xA00000 then setFa s n { v with half0 := modAt (o / 0x10000) f v.half0 }
    else setFa s n { v with half1 := modAt (o / 0x10000) f v.half1 }
  else setFa s n { v with rq := modAt ((off - 0xC00000) / 32) (fun e => { e with bad := true }) v.rq }

/-- A word of the fusion engine's memories poisoned (R317, R339): the flow store of 16,384 vectors of 16 bytes, then the tile buffers,
4 bytes an element, tile by tile of the grid: 64 channels of 32 × 32 cells. -/
def poisonFus (off : Nat) (s : State) : State :=
  if off < 0x40000 then
    { s with fus := { s.fus with flows := modAt (off / 16) (fun v => { v with bad := true }) s.fus.flows } }
  else
    let e := (off - 0x40000) / 4
    let g := e / 65536
    let k := cellKey (e / 1024 % 64) (g / tilesX s * 32 + e / 32 % 32) (g % tilesX s * 32 + e % 32)
    { s with fus := { s.fus with grid := s.fus.grid.map (fun c => { c with tileBad := k :: c.tileBad }) } }

/-- A word of a queue poisoned: a committed word counts MEM_POISON, a word of the open packet makes the packet bad (R395, R399). -/
def poisonQueue (q off : Nat) (s : State) : State :=
  let v := queueOf s q
  let i := off / 4
  if v.ws.length ≤ i then s
  else if committedWords v ≤ i then markBad q 4 true s
  else brgBump q 7 (setQueue s q { v with ws := modAt i (fun w => { w with poison := true }) v.ws })

/-- A poisoned frame of the replay buffer: its packets take POISON, and its CRC is formed again. -/
def poisonFrame (f : Nat) : Nat :=
  let f := (upto 5).foldl (fun f i => if slotType f i = 1 then setBits f (16 + 96 * i + 66) 1 1 else f) f
  setBits f 496 16 (crc16Frame f)

/-- A packet of a link's replay buffer or shadow store poisoned. -/
def poisonLink (k off : Nat) (s : State) : State :=
  let l := linkOf s k
  if off < 4096 then setLink s k { l with replay := modAt (off / 64) (fun e => (e.1, poisonFrame e.2)) l.replay }
  else
    let i := (off - 4096) / 16
    let go := l.shadow.foldl (fun (a : List Shadow × Nat) e =>
      (a.1 ++ [if a.2 ≤ i then { e with pkts := modAt (i - a.2) (fun p => { p with poison := true }) e.pkts } else e], a.2 + e.pkts.length))
      ([], 0)
    setLink s k { l with shadow := go.1 }

/-- A push whose record stands on a bad word is abandoned, and counted. -/
def abandonPush (p : Nat) (s : State) : State :=
  let v := pushOf s p
  match v.cur with
  | none => s
  | some j =>
    let sub : SubSt := tget {} s.res.subs j.sub
    let s := { s with res := { s.res with subs := tset {} s.res.subs j.sub { sub with gap := sub.gap + 1 } } }
    bump (uSTREAM j.stream) 0x080F 8 (setPush s p { v with cur := none, buf := [], sent := 0, gap := 0 }) j.sub

/-- An uncorrectable byte of a data memory (Table 17-4). -/
def poisonByte (u row off : Nat) (s : State) : State :=
  let i := uindex u
  match row with
  | 3 => setSlu s i { sluOf s i with bufBad := (off / 4 * 4) :: (sluOf s i).bufBad }
  | 4 =>
    let v := sluOf s i
    if off < 0x400000 then setSlu s i { v with refrBad := tset false v.refrBad (off / 2) true }
    else setSlu s i { v with flkBad := tset false v.flkBad ((off - 0x400000) / 8) true }
  | 6 => poisonSurface i off s
  | 7 => poisonGyro i off s
  | 8 => poisonNe i off s
  | 10 => poisonHub i off s
  | 12 | 31 | 33 => setRamBad s (physical u row off) 1 true
  | 15 => poisonFa i off s
  | 17 => poisonFus off s
  | 19 => if off / 1024 < 24 then failPath (off / 1024) (off / 256 % 4 % 3) s else s
  | 21 => poisonQueue i off s
  | 23 => setRamBad s (slotAddr s i 0 + off) 1 true
  | 24 => setStr s i { strOf s i with slots := tmod {} (strOf s i).slots (off / 8) (fun e => { e with marks := 2 ^ 64 - 1 }) }
  | 26 => abandonPush i s
  | 27 => poisonLink i off s
  | 29 =>
    if off < 0x10000 then (if (ethOf s i).wire.isSome then setEth s i { ethOf s i with badFcs := true } else s)
    else rxOther i s
  | _ => s

/-! ### Configuration memories (R562, Table 17-4) -/

/-- The job that runs on a unit restarts. -/
def restartOf (u j : Nat) (s : State) : State := if j < 8 then beginRestart j 0 u 0 none s else s

/-- What the parts of a core have passed of their self-test (R208). -/
def setTested (u : Nat) (ok : Bool) (s : State) : State :=
  if utype u = 0x02 then setMem s { s.mem with tested := (unitParts u).foldl (fun t v => tset false t v ok) s.mem.tested } else s

/-- A unit is held in its reset: its readiness bit is clear (R521). -/
def holdReset (u : Nat) (s : State) : State :=
  let s := match unitBit u with | some b => setReady b false s | none => s
  let s := setTested u false s
  setUnit s u { unitOf s u with resetting := true }

/-- The configuration records of the image for a unit, applied again. -/
def reapply (p : Nat → Bool) (s : State) : State :=
  ((graphImage s).config.filter (fun c => p c.unit)).foldl (fun s c => cfgApply c s) s

/-- A core reset (R562): the work moves to a spare of the cluster, or stays; the job restarts either way. -/
def coreReset (u : Nat) (s : State) : State :=
  let j := (unitOf s u).job
  let on : Bool := (unitOf s u).st == .assigned
  let s := match (if on then spareFor s u else none) with
    | some v =>
      let s := moveWork u v s
      setUnit s u { unitOf s u with st := .spare, job := 0xFF, since := now s }
    | none => s
  let s := clearUnit u (holdReset u s)
  if on then restartOf u j s else s

/-- The ports whose queues a hub holds (R218): to its locks, builder, link and service port, and to and from the other hubs. -/
def hubPorts (h p : Nat) : Bool :=
  (upto 4).any (fun i => p == pHub (4 * h + i) || p == pOut (4 * h + i) || p == pMesh h i || p == pMesh i h)
    || p == pTen h || p == pTx h || p == pSvc h

/-- A hub reset: what it holds is lost, and every job of the cluster restarts; on a class-0 route it is a dangerous failure. -/
def hubReset (h : Nat) (s : State) : State :=
  let c0 : Bool := (upOf s h).used && jobRuns s (upOf s h).job
  let s := holdReset (uHUB h) s
  let s := { s with canal := { s.canal with q := tclear (fun k => hubPorts h (k / 4)) s.canal.q } }
  let s := setPol s h { polOf s h with hold := [] }
  let mine (u : Nat) : Bool := clusterOf u == some h
  let js := (s.dev.units.filter (fun e => mine e.1 && e.2.st == .assigned)).map (·.2.job)
  let s := js.eraseDups.foldl (fun s j => restartOf (uHUB h) j s) s
  if c0 then raiseCause 3 (uHUB h) s else s

/-- A queue reset and emptied: an ingest queue counts what was lost, otherwise its consumer's job restarts. -/
def queueUe (q : Nat) (s : State) : State :=
  let v := queueOf s q
  let n := v.ws.length
  let s := reapply (· == uQUEUE q) (setQueue s q {})
  match ingestSluice s q with
  | some k => sluBumpN n k 15 s
  | none => restartOf (uQUEUE q) (qJob s q) s

/-- A tensor builder reset: open windows are discarded and counted; its entries begin again with the next window. -/
def tenUe (k : Nat) (s : State) : State :=
  let open_ := (upto 8).filter (fun e => (tenOf s k e).open_.isSome)
  let s := open_.foldl (fun s _ => tenBump k 5 s) s
  let s := reapply (· == uTEN k) s
  open_.foldl (fun s e =>
    let t := tenOf s k e
    setTen s k e { t with open_ := t.open_.map (fun w => (w.1 + 1, w.2)), grace := none }) s

/-- The Ethernet MAC is reset: frames and SAKs are lost, the PHY stays trained. -/
def macReset (p : Nat) (s : State) : State :=
  let v := ethOf s p
  holdReset (uETH p) (setEth s p { v with q0 := [], q1 := [], q2 := [], q3 := [], q4 := [], wire := none, saks := [] })

/-- The complex island is reset (R383): every job with a guest restarts. -/
def apxReset (s : State) : State :=
  let s := holdReset uAPX s
  let js := (upto 8).filter (fun j => jobRuns s j && (jobOf s j).harts != 0)
  let s := { s with apx := { s.apx with harts := [], msi := [] } }
  js.foldl (fun s j => restartOf uAPX j s) s

/-- The reset that an uncorrectable error of a configuration memory makes (Table 17-4). -/
def configUe (u row : Nat) (s : State) : State :=
  let i := uindex u
  match row with
  | 2 => holdReset u s
  | 5 => holdReset u (setSlu s i { sluOf s i with frame := none, buffered := [], bufBad := [] })
  | 9 => coreReset u s
  | 11 => hubReset i s
  | 13 => tenUe i s
  | 14 => raiseCause 2 u (holdReset u (resetPair i s))
  | 16 => holdReset u (clearArray i s)
  | 18 => restartOf u (fusJob s) (holdReset u s)
  | 20 => holdReset u { s with inr := {} }
  | 22 => queueUe i s
  | 25 => dropRecords s
  | 28 => if (linkOf s i).up then linkFails i s else s
  | 30 => macReset i s
  | 34 => apxReset s
  | _ => s

/-- Resets that are over at once; the others end with UNIT_RESET_DONE, a link's with LINK_UP. -/
def resetsAtOnce (row : Nat) : Bool := row == 13 || row == 22 || row == 25

/-- An uncorrectable error in a configuration memory: the unit is reset at once, once for errors that coincide; the second in one
macro group within 24 h quarantines a core (R562); its spare copies are abandoned (Table 17-7). -/
def configError (u row addr : Nat) (again : Bool) (s : State) : State :=
  if (unitOf s u).resetting then s
  else
    let s := setMem s { s.mem with
      copying := s.mem.copying.filter (fun r => r.region / 64 != u), why := tset none s.mem.why u (some (row, addr)) }
    let s := configUe u row s
    let s := if row = 9 ∧ again then (quarantine 1 0 0 u s).2 else s
    if resetsAtOnce row then reportResumed u s else s

/-! ### The Lockkeeper's memories (R563, R609) -/

/-- The Lockkeeper pair is reset; a second cause of it within 1 s is a dangerous failure. -/
def lkpFault (s : State) : State :=
  let twice : Bool := s.mem.lkpUe != 0 && decide (now s ≤ s.mem.lkpUe + 1000000000)
  let s := setMem s { s.mem with lkpUe := max 1 (now s), lkpReset := true }
  if twice then raiseCause 7 uLKP s else s

/-- The staging SRAM: what is staged is discarded, and an activation that consumes it ends (Table 17-4). -/
def stagingError (s : State) : State :=
  let s := setStage (setStage s 1 {}) 2 {}
  match s.sec.act with
  | some a =>
    if a.exchanged.isSome then setSec s { s.sec with staged := none }
    else finishBerth a.berth ST_ABORTED [] (setSec s { s.sec with staged := none, act := none })
  | none => setSec s { s.sec with staged := none }

/-- LKP_LOCKSTEP_MISMATCH. -/
def lockstepMismatch (s : State) : State := if s.mem.lkpReset ∨ romServes s then s else lkpFault s

/-- LKP_RECOVERED (R563): in the pause of an activation R534 holds (Table 17-7); service resumes from a clean journal copy; errors in both copies are a dangerous failure. -/
def lkpRecovered (clean : Bool) (s : State) : State :=
  if ¬ s.mem.lkpReset ∨ s.sec.act.any (·.exchanged.isSome) then s
  else if ¬ clean then raiseCause 7 uLKP s
  else
    let s := setMem s { s.mem with lkpReset := false }
    let s := reportResumed uLKP s
    resumeService (clearCause 7 s)

/-! ### Spares (R569 to R574) -/

/-- A day in ns. -/
def dayNs : Nat := 86400000000000

/-- A correctable error is noted for its unit; four within 1 ms are a burst, and the unit's steps become suspect (R569). -/
def noteCe (u row addr : Nat) (s : State) : State :=
  let l := ((tget [] s.mem.ceTimes u).filter (fun t => decide (now s ≤ t + 1000000))) ++ [now s]
  if l.length < 4 then setMem s { s.mem with ceTimes := tset [] s.mem.ceTimes u l }
  else
    let s := memNotice 2 u row addr 0 0 (setMem s { s.mem with ceTimes := tset [] s.mem.ceTimes u [] })
    suspectUnit u s

/-- The repairs of a macro that are in force or being copied. -/
def repairsOf (s : State) (u row mac : Nat) : List Repair :=
  ((memOf s u row).repairs ++ s.mem.copying).filter (fun r => r.region == memKey u row && r.mac == mac)

/-- A location kept in service without a spare gives one more error: after 16 within 24 h its unit is quarantined (R573). -/
def keptError (u row : Nat) (loc : Nat × Nat × Nat) (s : State) : State :=
  let m := memOf s u row
  let ts := ((m.kept.find? (·.1 == loc)).map (·.2)).getD []
  let ts := (ts.filter (fun t => decide (now s ≤ t + dayNs))) ++ [now s]
  let s := setMemOf s u row { m with kept := m.kept.map (fun e => if e.1 = loc then (loc, ts) else e) }
  if 16 ≤ ts.length ∧ (unitOf s (recordUnit u)).st ≠ .quarantined ∧ (unitOf s (recordUnit u)).st ≠ .failed then
    (quarantine 1 0 0 (recordUnit u) (setMemOf s u row { memOf s u row with
      kept := (memOf s u row).kept.map (fun e => if e.1 = loc then (loc, []) else e) })).2
  else s

/-- A hard fault of an SRAM location (R570 to R573): its row, or the column once three of its rows are bad, is copied to the first free
spare; without one, or without a fuse entry, the location stays in service. -/
def hardSram (r : MemRead) (s : State) : State :=
  let loc := (r.macroIx, r.row, r.col)
  let m := memOf s r.unit r.memory
  if m.kept.any (·.1 == loc) then s
  else
    let m := { m with hard := if m.hard.contains loc then m.hard else loc :: m.hard }
    let s := setMemOf s r.unit r.memory m
    let inCol := (m.hard.filter (fun l => l.1 == r.macroIx && l.2.2 == r.col)).length
    let col : Bool := 3 ≤ inCol
    let a := if col then r.col else r.row
    let used := repairsOf s r.unit r.memory r.macroIx
    if used.any (fun x => x.col == col && x.addr == a) then s
    else
      match (upto (if col then 2 else 4)).find? (fun i => used.all (fun x => x.col != col || x.spare != i)) with
      | some i =>
        if sparesUsed s r.unit r.memory < 64 then
          setMem s { s.mem with copying := s.mem.copying ++ [⟨memKey r.unit r.memory, r.macroIx, col, a, i, r.addr⟩] }
        else memNotice 6 r.unit r.memory r.addr 0 0 (setMemOf s r.unit r.memory { m with kept := (loc, []) :: m.kept })
      | none => memNotice 6 r.unit r.memory r.addr 0 0 (setMemOf s r.unit r.memory { m with kept := (loc, []) :: m.kept })

/-- A hard fault of a DDR5 page (R574). -/
def hardDdr (r : MemRead) (s : State) : State :=
  let p := uindex r.unit * 2 ^ 32 + r.addr % 0x800000000 / 4096
  if (s.mem.pages ++ s.mem.paging).contains p then s
  else if sparesUsed s r.unit 31 < 256 then setMem s { s.mem with paging := s.mem.paging ++ [p] }
  else
    let m := memOf s r.unit 31
    let loc := (0, r.addr / 4096, 0)
    if m.kept.any (·.1 == loc) then s
    else memNotice 6 r.unit 31 r.addr 0 0 (setMemOf s r.unit 31 { m with kept := (loc, []) :: m.kept })

/-- SPARE_SWITCH (R571, R572): a copy is complete, the spare takes over, and its fuse entry waits for its burn. -/
def spareSwitch (u row mac : Nat) (s : State) : State :=
  let mine (r : Repair) : Bool := r.region == memKey u row && r.mac == mac
  match s.mem.copying.find? mine with
  | none => s
  | some r =>
    let m := memOf s u row
    let at_ (l : Nat × Nat × Nat) : Bool := l.1 == mac && (if r.col then l.2.2 else l.2.1) == r.addr
    let s := setMemOf s u row { m with
      repairs := m.repairs ++ [r], hard := m.hard.filter (fun l => !at_ l), fixed := m.fixed.filter (fun l => !at_ l) }
    let s := setMem s { s.mem with copying := s.mem.copying.filter (· != r), burns := s.mem.burns ++ [r] }
    memNotice 5 u row r.byte 0 0 s

/-- PAGE_REMAP (R574). -/
def pageRemap (chan page : Nat) (s : State) : State :=
  let p := chan * 2 ^ 32 + page
  if ¬ s.mem.paging.contains p then s
  else memNotice 5 (uDDR chan) 31 (chan * 0x800000000 + page * 4096) 0 0
    (setMem s { s.mem with paging := s.mem.paging.filter (· != p), pages := s.mem.pages ++ [p] })

/-- A MEM_FUSE field entry (Table 17-5). -/
def fuseEntry (r : Repair) : Nat :=
  let v := r.addr % 4096 + b2n r.col * 4096 + r.mac % 64 * 8192 + r.spare % 8 * 2 ^ 19 + 2 ^ 23
  v + crc8Fuse v * 2 ^ 24

/-- FUSE_BURN_DONE (R572): a burn that fails leaves an entry whose CHECK fails, and its slot stays used. -/
def fuseBurnDone (ok : Bool) (s : State) : State :=
  match s.mem.burns with
  | [] => s
  | r :: rest =>
    let u := r.region / 64
    let row := r.region % 64
    let e := fuseEntry r
    let e := if ok then e else e ^^^ 2 ^ 24
    setMemOf (setMem s { s.mem with burns := rest }) u row { memOf s u row with fuses := (memOf s u row).fuses ++ [e] }

/-! ### The dredger (R566 to R568) -/

/-- What the dredger's checker makes of a line. -/
def lineOutcome (r : MemRead) : Checked :=
  if r.memory = 31 then ddrDecode r.syms r.poison
  else
    let l := r.stored.map (fun b => (sramDecode b).2)
    if l.contains .uncorrectable then .uncorrectable else if l.contains .corrected then .corrected
    else if l.contains .marker then .marker else .clean

/-- The byte places of a line that are uncorrectable; the whole line of DDR5. -/
def badBytes (r : MemRead) : List Nat :=
  if r.memory = 31 then (upto 8).map (fun i => r.addr / 64 * 64 + 8 * i)
  else (r.stored.zipIdx.filter (fun e => (sramDecode e.1).2 == .uncorrectable)).map (fun e => r.addr + e.2)

/-- The dredger writes corrected bytes of a cluster SRAM back; elsewhere the state holds the corrected value already. -/
def writeBack (r : MemRead) (s : State) : State :=
  if r.memory ≠ 12 then s
  else (r.stored.zipIdx).foldl (fun s e =>
    if (sramDecode e.1).2 = .corrected then
      ramPut s (physical r.unit 12 (r.addr + e.2)) [BitVec.ofNat 8 (sramDecode e.1).1]
    else s) s

/-- A correctable error: counted, written back unless another write met it, one more error of a location kept in service without a
spare (R573), and a hard fault if it shows again within the lap. -/
def ceFound (r : MemRead) (s : State) : State :=
  let loc := (r.macroIx, r.row, r.col)
  let m := memOf s r.unit r.memory
  let again := m.fixed.contains loc
  let s := setMemOf s r.unit r.memory { m with ce := m.ce + 1, fixed := if again then m.fixed else loc :: m.fixed }
  let s := noteCe r.unit r.memory r.addr s
  let s := if r.clash then s else writeBack r s
  let s := if m.kept.any (·.1 == loc) ∧ r.memory ≠ 31 then keptError r.unit r.memory loc s else s
  if ¬ again then s else if r.memory = 31 then hardDdr r s else hardSram r s

/-- An uncorrectable error: counted, and handled as its class says (R561, R567). -/
def ueFound (r : MemRead) (s : State) : State :=
  let m := memOf s r.unit r.memory
  let again : Bool := m.lastUe != 0 && decide (now s ≤ m.lastUe + dayNs)
  let s := setMemOf s r.unit r.memory { m with ue := m.ue + 1, lastUe := max 1 (now s) }
  if r.memory = 0 then
    lkpFault (setMem s { s.mem with why := tset none s.mem.why uLKP (some (0, r.addr)) })
  else if r.memory = 1 then stagingError s
  else if isConfig r.memory then configError r.unit r.memory r.addr again s
  else
    let s := (if r.clash then [] else badBytes r).foldl (fun s b => poisonByte r.unit r.memory b s) s
    memNotice 3 r.unit r.memory r.addr 0 0 s

/-- The end of a lap (R568). -/
def lapEnds (u row : Nat) (s : State) : State :=
  let m := memOf s u row
  let ns := now s - m.lapStart
  let ms := ns / 1000000
  let s := setMemOf s u row { m with lapMs := ms, lapStart := now s, fixed := [] }
  if (if row = 31 then 3600000000000 else 10000000000) < ns then memNotice 1 u row 0 ms 0 s else s

/-- The unit's reset began at this very time, so an error that coincides with its cause is still counted (Table 17-7). -/
def hitNow (s : State) (u : Nat) : Bool :=
  match tget none s.mem.why u with
  | some (row, _) => (memOf s u row).lastUe == max 1 (now s)
  | none => false

/-- DREDGER_READ (R566, R567): one line of a memory that has been released to its unit. -/
def dredgerRead (r : MemRead) (s : State) : State :=
  if ¬ memExists r.unit r.memory ∨ ((¬ unitReady s r.unit ∨ (unitOf s r.unit).resetting) ∧ ¬ hitNow s r.unit) then s
  else
    let s := match lineOutcome r with
      | .corrected => ceFound r s
      | .uncorrectable => ueFound r s
      | _ => s
    if r.last then lapEnds r.unit r.memory s else s

/-- LAP_NOTICE (R568): at most once in 60 s for a memory. -/
def lapNotice (u row : Nat) (s : State) : State :=
  let m := memOf s u row
  if ¬ memExists u row ∨ (m.told ≠ 0 ∧ now s < m.told + 60000000000) then s
  else
    let s := memNotice 0 u row 0 m.lapMs 0 s
    setMemOf s u row { memOf s u row with ce := 0, ue := 0, told := max 1 (now s) }

/-! ### The end of a unit reset (R558, R562) -/

/-- The unit has passed its self-test again (R558), takes its configuration from the graph image and works; a core without work stands
at its reset values (R208). -/
def unitResumes (u : Nat) (s : State) : State :=
  let i := uindex u
  let s := setTested u true s
  let s := setUnit s u { unitOf s u with resetting := false }
  let s := match unitBit u with | some b => setReady b true s | none => s
  match utype u with
  | 0x02 => if (unitOf s u).st = .assigned then reloadUnit (originOf s u) u s else unitReset u s
  | 0x01 | 0x08 => reloadUnit (originOf s u) u s
  | 0x0A =>
    let s := setUp s i { upOf s i with resetting := false }
    if (upto 4).any (fun n => (upOf s n).resetting) then s else clearCause 1 (clearCause 2 s)
  | 0x07 => clearCause 3 (fillPolicer i (reapply (· == u) s))
  | 0x10 => reapply (· == u) s
  | 0x11 =>
    let s := reapply (fun v => v == u || utype v == 0x0E) s
    (upto 3).foldl (fun s e => scheduleReset e s) s
  | 0x0C => reapply (· == u) s
  | 0x12 => monitorStarts s
  | _ => s

/-- UNIT_RESET_DONE. -/
def unitResetDone (u : Nat) (pass : Bool) (s : State) : State :=
  let held : Bool := (unitOf s u).resetting || (utype u == 0x0A && (upOf s (uindex u)).resetting)
  if ¬ held then s
  else if pass then reportResumed u (unitResumes u s)
  else
    let s := match tget none s.mem.why u with | some (row, a) => memNotice 7 u row a 0 0 s | none => s
    unitFails u (setMem s { s.mem with why := tset none s.mem.why u none })

/-! ### The commands -/

def execDredgerRead (line : MemRead) (s : State) : Out := .next (dredgerRead line s)
def execUnitResetDone (unit : Nat) (pass : Bool) (s : State) : Out := .next (unitResetDone unit pass s)
def execLkpRecovered (cleanCopy : Bool) (s : State) : Out := .next (lkpRecovered cleanCopy s)
def execLkpLockstepMismatch (s : State) : Out := .next (lockstepMismatch s)
def execLapNotice (unit memory : Nat) (s : State) : Out := .next (lapNotice unit memory s)
def execSpareSwitch (unit memory macroIx : Nat) (s : State) : Out := .next (spareSwitch unit memory macroIx s)
def execPageRemap (chan page : Nat) (s : State) : Out := .next (pageRemap chan page s)
def execFuseBurnDone (ok : Bool) (s : State) : Out := .next (fuseBurnDone ok s)

end Sys2Proof.Machine
end

