-- ==== Sys2Proof/Machine/Passage.lean ====
section
/-! DEFINITION. Second passage, test content and margining (file 18), the unit commands of R501 to R503, unit conflicts (R44). -/
namespace Sys2Proof.Machine

/-! ### Commit of a window (R587) -/

/-- Full device µs of a 24-bit stamp, the one nearest to now. -/
def stampFull (s : State) (t : Nat) : Nat :=
  let n := nowUs s
  let d := (t + 2 ^ 24 - n % 2 ^ 24) % 2 ^ 24
  if d < 2 ^ 23 then n + d else n + d - 2 ^ 24

/-- The end of a job's window in device ns. -/
def windowStop (s : State) (j w : Nat) : Nat := (w + 1) * (max 1 (rd s uDEV CNL_JOB.WIN_US j) * 1000)

/-- A neuron engine has no input and no batch left of windows up to `w`. -/
def neFinished (s : State) (j w c : Nat) : Bool :=
  let v := neOf s c
  if stepped s c then v.batches == []
  else
    let old (t : Nat) : Bool := decide (stampFull s t * 1000 < windowStop s j w)
    !(v.inputs.any (fun e => old e.stamp)) && !(v.batches.any (fun b => old b.stamp))

/-- An array has no instance left of windows up to `w`. -/
def faFinished (s : State) (j w n : Nat) : Bool :=
  let v := faOf s n
  !(v.run.any (fun r => decide (instWindow s n r ≤ w))) && !(v.queue.any (fun p => decide (winOfTime s j p.tov ≤ w)))

/-- Every step of the window has finished. -/
def stepsFinished (s : State) (j w : Nat) : Bool :=
  (jobCores s j).all (neFinished s j w) && (jobArrays s j).all (faFinished s j w)

/-- The suspect steps of a window that are not confirmed. -/
def openSteps (s : State) (j w : Nat) : List StepRec :=
  s.pass.steps.filter (fun r => r.job == j && r.win == w && stepWaits s j w r.unit)

/-- Buffers of an array that were kept for windows up to `w` are returned (R589). -/
def freeHeld (w n : Nat) (s : State) : State :=
  let v := faOf s n
  let s := (v.held.filter (fun e => decide (e.1 ≤ w))).foldl (fun s e => freeBuf n e.2 s) s
  setFa s n { faOf s n with held := v.held.filter (fun e => decide (w < e.1)) }

/-- The LAG of a job in ns (Table 18-2). -/
def commitLag (s : State) (j : Nat) : Nat := bits (jobOf s j).spjob0 16 16 * 1000

/-- The next window of a job may commit. -/
def windowReady (s : State) (j : Nat) : Bool :=
  let w := nextWin s j
  jobTakes s j && decide (windowStop s j w + commitLag s j ≤ now s) && stepsFinished s j w && (openSteps s j w).isEmpty

/-- The held records of a job are committed, with those closed before them (R350). -/
def commitHeld (j : Nat) (s : State) : State :=
  (upto 64).foldl (fun s k =>
    if (strOf s k).waiting.any (fun r => r.held && r.job == j) then commitAll k (strOf s k).waiting s else s) s

/-- WINDOW_COMMIT: held records are committed, notices leave, what was retained is freed, the log entry is written, a checkpoint that
waits takes its state. -/
def windowCommit (j : Nat) (s : State) : State :=
  if 8 ≤ j ∨ ¬ windowReady s j then s
  else
    let w := nextWin s j
    let s := commitHeld j s
    let s := if guarded s j then windowNotices 0 j w s else s
    let s := logWindow j w 0 s
    let s := (jobQueues s j).foldl (fun s q => freeRetained q (fun x => decide (x ≤ w)) s) s
    let s := (jobArrays s j).foldl (fun s n => freeHeld w n s) s
    let s := setPass s { s.pass with
      undo := (jobCores s j).foldl (fun t c => tmod [] t c (fun l => l.filter (fun u => decide (w < u.win)))) s.pass.undo,
      next := tset 0 s.pass.next j (w + 1) }
    ckptWindow j w s

/-! ### Suspects (R588) -/

/-- SUPPLY_DROOP: every unit of the island in every uncommitted window. -/
def supplyDroop (island : Nat) (s : State) : State := (islandUnits island).foldl (fun s u => suspectUnit u s) s

/-! ### Replay (R591 to R593) -/

/-- The oldest suspect step of a job that has finished and is not confirmed. -/
def nextSuspect (s : State) (j : Nat) : Option StepRec :=
  let l := s.pass.steps.filter (fun r => r.job == j && decide (nextWin s j ≤ r.win ∧ windowStop s j r.win ≤ now s)
    && stepWaits s j r.win r.unit)
  (sortBy (fun a b => decide (a.win < b.win ∨ (a.win = b.win ∧ a.unit < b.unit))) l).head?

/-- A replay runs on a target. -/
def targetBusy (s : State) (u : Nat) : Bool :=
  s.pass.replay.any (fun e => e.2.any (fun r => r.target != 0xFFFF && recordUnit r.target == recordUnit u))

/-- The targets of a unit's replay in the order of R591; a link stands for the replay partner. -/
def replayTargets (s : State) (j u : Nat) : List Nat :=
  let local_ := if utype u = 0x04 then
      ((upto 16).filter (fun c => decide (c / 4 = uindex u / 4) && (unitOf s (uC c)).st == .spare && readyBit s (RB_CORE + c)
        && !(unitOf s (uC c)).resetting)).map uC
    else
      ((upto 4).filter (fun n => n != uindex u && readyBit s (RB_FA + n) && !(unitOf s (uFA n)).resetting
        && (((unitOf s (uFA n)).st == .assigned && faJob s n == j) || (unitOf s (uFA n)).st == .spare))).map uFA
  let v := jobOf s j
  local_ ++ (if v.partner ≠ 0xFF ∧ guarded s j ∧ linkUsable s v.partnerLink then [uCK v.partnerLink] else [])

/-- REPLAY_START: the oldest suspect step runs again on the first target that is free; without any target the job restarts. -/
def replayStart (j : Nat) (s : State) : State :=
  if 8 ≤ j ∨ ¬ jobTakes s j then s
  else
    let cur := tget none s.pass.replay j
    let go (win u : Nat) (tried : List Nat) : State :=
      let ts := (replayTargets s j u).filter (fun t => !tried.contains t)
      if ts = [] then beginRestart j 4 u 0 none s
      else match ts.find? (fun t => !targetBusy s t) with
        | none => s
        | some t => setPass s { s.pass with replay := tset none s.pass.replay j (some ⟨win, u, t, now s, tried⟩) }
    match cur with
    | some r => if r.target = 0xFFFF then go r.win r.unit r.tried else s
    | none => match nextSuspect s j with
      | none => s
      | some r => go r.win r.unit []

/-- The state of a neuron at the end of a window: what the next window's undo record kept, or the present one. -/
def stateAt (s : State) (c w n : Nat) : Nat × Nat :=
  let later := (tget [] s.pass.undo c).filter (fun u => u.neuron == n && decide (w < u.win))
  match (sortBy (fun a b => decide (a.win < b.win)) later).head? with
  | some u => (u.word, u.stamp)
  | none => (tget 0 (neOf s c).words n, tget stampNever (neOf s c).stamps n)

/-- The signature of a step (R592): over what it emitted or stored, then for a neuron engine over the final state words and stamps
of the neurons it wrote. -/
def stepSignature (s : State) (r : StepRec) : Nat :=
  if utype r.unit ≠ 0x04 then r.crc ^^^ 0xFFFFFFFF
  else
    let c := uindex r.unit
    let ns := sortBy (fun a b => decide (a < b)) (((tget [] s.pass.undo c).filter (fun u => u.win == r.win)).map (·.neuron))
    (crc32cFold r.crc (ns.flatMap (fun n => let e := stateAt s c r.win n; leBytes 8 e.1 ++ leBytes 4 e.2))) ^^^ 0xFFFFFFFF

/-- A record holds output of a step. -/
def recOf (r : Rec) (unit win : Nat) : Bool := r.steps.contains (unit, win)

/-- The body of a held record replaced by the replay's. -/
def swapBody (k : Nat) (b : List Byte) (r : Rec) (s : State) : Rec × State :=
  ({ r with
      held := true, replayed := true, swapped := true, bytes := b.length, poison := false, lastV := none
      entries := if r.kind ≤ 2 then b.length / 16 else 0 },
    ramPut s (slotAddr s k r.slot + 32) b)

/-- The records of a step in one stream, with HELD and REPLAYED (R592); the replay's bodies take their places where it differs. The
records, the bodies left and the state. -/
def replaceRecs (k unit win : Nat) (swap : Bool) : List (List Byte) → List Rec → State → List Rec × List (List Byte) × State
  | bs, [], s => ([], bs, s)
  | bs, r :: rest, s =>
    if ¬ recOf r unit win then
      let (l, bs, s) := replaceRecs k unit win swap bs rest s
      (r :: l, bs, s)
    else if ¬ swap then
      let (l, bs, s) := replaceRecs k unit win swap bs rest s
      ({ r with held := true, replayed := true } :: l, bs, s)
    else match bs with
      | [] => replaceRecs k unit win swap [] rest s
      | b :: bs =>
        let (r, s) := swapBody k b r s
        let (l, bs, s) := replaceRecs k unit win swap bs rest s
        (r :: l, bs, s)

/-- The closed records of a stream and its open one after an arbitration. -/
def arbitrateStream (unit win : Nat) (swap : Bool) (bodies : List (Nat × List Byte)) (k : Nat) (s : State) : State :=
  let v := strOf s k
  let bs := (bodies.filter (fun e => e.1 == k)).map (·.2)
  let (l, bs, s) := replaceRecs k unit win swap bs v.waiting s
  let (c, _, s) := replaceRecs k unit win swap bs v.cur.toList s
  setStr s k { strOf s k with waiting := l, cur := c.head? }

/-- The output of the two runs that agree is committed: `swap` where it is not the suspect step's own. -/
def arbitrated (j : Nat) (r : StepRec) (swap : Bool) (bodies : List (Nat × List Byte)) (s : State) : State :=
  let s := setStep { r with ok := true, replayed := true } s
  let s := (upto 64).foldl (fun s k => arbitrateStream r.unit r.win swap bodies k s) s
  if guarded s j then windowLost 4 j r.win s else s

/-- REPLAY_VERDICT: equal signatures confirm the step; otherwise the arbiter's run decides, or the job restarts. -/
def replayVerdict (j : Nat) (v : ReplayRuns) (s : State) : State :=
  match tget none s.pass.replay j with
  | none => s
  | some p =>
    if p.target = 0xFFFF then s
    else
      let r := stepOf s j p.win p.unit
      let own := stepSignature s r
      let s := setPass s { s.pass with replay := tset none s.pass.replay j none }
      if v.replay = own then setStep { r with ok := true } s
      else if v.arbiter = some own then arbitrated j r false [] s
      else if v.arbiter = some v.replay then arbitrated j r true v.bodies s
      else beginRestart j 3 p.unit 0 none s

/-- REPLAY_LIMIT_EXPIRY. -/
def replayLimit (j : Nat) (s : State) : State :=
  match (if j < 8 then nextSuspect s j else none) with
  | none => s
  | some r =>
    if windowStop s j r.win + bits (jobOf s j).spjob0 32 16 * 1000 ≤ now s then beginRestart j 4 r.unit 0 none s else s

/-! ### Fully redundant pairs (R584, R585) -/

/-- The packets of a pair differ: neither leaves, both cores stop, their work moves to the spare cores of the cluster if there are any,
and the job restarts. -/
def pairDiffers (c : Nat) (s : State) : State :=
  let e := c / 2 * 2
  let j := (unitOf s (uC e)).job
  let drop (s : State) (p : Nat) : State := (upto 4).foldl (fun s k => setCq s p k ((cq s p k).drop 1)) s
  let s := [pSE e, pNE e].foldl drop s
  let s := [e, e + 1].foldl (fun s n =>
    let s := match spareFor s (uC n) with | some v => moveWork (uC n) v s | none => s
    let s := setUnit s (uC n) { unitOf s (uC n) with st := .unused, job := 0xFF, since := now s }
    setPass s { s.pass with tests := tmod {} s.pass.tests (uC n) (fun t => { t with stopped := true }) }) s
  beginRestart j 2 (uC e) 0 none s

/-- LOCK_LOOKUP with the comparison of R584: `mismatch` says that the two cores of a redundant pair have given different packets. -/
def lockLookup (node : LockNode) (mismatch : Bool) (s : State) : State :=
  match node with
  | .lock c =>
    if mismatch ∧ c < 16 ∧ (unitOf s (uC c)).fullRed ∧ (unitOf s (uC c)).st = .assigned ∧ (portLen s (pSE (c / 2 * 2)) ≠ 0
      ∨ portLen s (pNE (c / 2 * 2)) ≠ 0) then pairDiffers c s
    else lookupNode node s
  | .link _ => lookupNode node s

/-! ### Test content (R598 to R603) -/

/-- The test state of a unit. -/
def testOf (s : State) (u : Nat) : TestSt := tget {} s.pass.tests u

/-- Changing it. -/
def setTest (u : Nat) (t : TestSt) (s : State) : State := setPass s { s.pass with tests := tset {} s.pass.tests u t }

/-- Units that the rotation covers (R599), a stopped core of R585 among them. -/
def inRotation (s : State) (u : Nat) : Bool :=
  let t := utype u
  let st := (unitOf s (recordUnit u)).st
  let served : Bool := st == .assigned || st == .spare || st == .quarantined
  unitValid u && u != uDEV
    && (((decide (2 ≤ t ∧ t ≤ 0x0A) || t == 0x0F || t == 0x10 || t == 0x13) && (served || (testOf s u).stopped))
      || (t == 0x01 && (rdB s u SLU_PORT.ENABLE || st == .quarantined))
      || (t == 0x0C && rd s u TOW_PORT.ROLE != 0))

/-- A unit that the margin ladder serves (R602). -/
def marginable (u : Nat) : Bool := utype u == 0x02 || utype u == 0x08 || utype u == 0x07

/-- The settings of the ladder: VSTEP and FSTEP. -/
def ladder (u : Nat) : List (Nat × Nat) :=
  [(1, 0), (2, 0), (3, 0)] ++ (if utype u = 0x08 then [] else [(0, 1), (0, 2), (0, 3), (0, 4)])

/-- A unit takes a margin setting; its notice (R603). -/
def setMargin (u v f : Nat) (s : State) : State :=
  unitNotice 19 ST_OK u 0 0xFFFF (setUnit s u { unitOf s u with vstep := v, fstep := f })

/-- The ladder's position `i`, or FAILED beyond its end. -/
def marginStep (u i : Nat) (s : State) : State :=
  match (ladder u)[i]? with
  | some (v, f) => setMargin u v f (setTest u { testOf s u with ladder := some i, passes := 0 } s)
  | none =>
    let s := setTest u { testOf s u with ladder := none, passes := 0 } s
    setMargin u 0 0 (setUnit s u { unitOf s u with st := .failed, since := now s })

/-- TEST_VISIT_START: content is loaded and the rotation runs; a replay on the unit goes first (Table 18-9). -/
def testVisitStart (u : Nat) (s : State) : State :=
  let t := testOf s u
  if s.pass.content.isNone ∨ ¬ s.pass.testOn ∨ t.running ∨ ¬ inRotation s u ∨ targetBusy s u then s
  else setTest u { t with prev := t.start, start := max 1 (now s), running := true } s

/-- A wrong signature (R601): the unit is quarantined, windows are tainted, its job restarts, and it is margined. -/
def testFails (u : Nat) (s : State) : State :=
  let m := recordUnit u
  let t := testOf s u
  let j := (unitOf s m).job
  let s := setPass s { s.pass with
    log := s.pass.log.map (fun e => if e.job = j ∧ t.lastPass < e.time then { e with flags := e.flags ||| 64 } else e) }
  let s := setTest u { t with running := false, passes := 0 } s
  let s := if utype u = 0x0A then
      raiseCause 14 u { s with safe := { s.safe with
        pairBad := setBits s.safe.pairBad (uindex u) 1 1, pairOk := tset 0 s.safe.pairOk (uindex u) 0 } }
    else s
  let s := (quarantine 1 1 t.lastPass m s).2
  let s := if j < 8 then beginRestart j 1 m t.lastPass none s else s
  if marginable m then marginStep m 0 s else s

/-- A passing visit of a failed urgent pair: after three in a row its cause clears (Table 19-2). -/
def pairPasses (n : Nat) (s : State) : State :=
  if ¬ bit s.safe.pairBad n then s
  else
    let k := tget 0 s.safe.pairOk n + 1
    if k < 3 then { s with safe := { s.safe with pairOk := tset 0 s.safe.pairOk n k } }
    else
      let s := { s with safe := { s.safe with pairOk := tset 0 s.safe.pairOk n 0, pairBad := setBits s.safe.pairBad n 1 0 } }
      if s.safe.pairBad = 0 then clearCause 14 s else s

/-- A passing visit: the unit is no longer late; on the ladder the third one in a row returns it to SPARE. -/
def testPasses (u : Nat) (s : State) : State :=
  let t := testOf s u
  let r := unitOf s u
  let t := { t with running := false, lastPass := now s, late := false }
  let s := if utype u = 0x0A then pairPasses (uindex u) s else s
  if t.stopped then
    setUnit (setTest u { t with stopped := false } s) u { r with st := .spare, since := now s }
  else if t.ladder.isSome ∧ r.st = .quarantined then
    if t.passes < 2 then setTest u { t with passes := t.passes + 1 } s
    else
      let s := setTest u { t with ladder := none, passes := 0 } s
      settleState (unitNotice 17 ST_OK u 0 0xFFFF (setUnit s u { r with st := .spare, job := 0xFF, since := now s }))
  else setTest u t s

/-- TEST_VISIT_DONE. -/
def testVisitDone (u : Nat) (ok : Bool) (s : State) : State :=
  let t := testOf s u
  if ¬ t.running then s
  else if ok then testPasses u s
  else
    let s := setTest u { t with running := false } s
    match t.ladder with
    | some i => if (unitOf s u).st = .quarantined then marginStep u (i + 1) s else testFails u s
    | none =>
      if (unitOf s (recordUnit u)).st = .quarantined then
        (if utype u = 0x0A then { s with safe := { s.safe with pairOk := tset 0 s.safe.pairOk (uindex u) 0 } } else s)
      else testFails u (setTest u { testOf s u with stopped := false } s)

/-- The start of a unit's previous visit: the one before the visit in progress. -/
def visitBase (t : TestSt) : Nat := if t.running then t.prev else t.start

/-- TEST_LATE (R600). -/
def testLate (u : Nat) (s : State) : State :=
  let t := testOf s u
  let b := visitBase t
  if s.pass.content.isNone ∨ ¬ s.pass.testOn ∨ ¬ inRotation s u ∨ t.late ∨ b = 0
    ∨ now s ≤ b + (s.pass.rotation + 4) * 1000000 then s
  else
    let s := setTest u { t with late := true } s
    let s := notice NT_UNIT ST_OK u (beBytes 1 8 ++ beBytes 1 0xFF ++ beBytes 1 (unitOf s (recordUnit u)).job ++ beBytes 9 0
      ++ beBytes 4 (min ((now s - b) / 1000000) 0xFFFFFFFF) ++ beBytes 24 0) s
    suspectUnit u s

/-- The sections of a test-content body: unit type and expected signature (Table 18-6). -/
def contentSections (b : List Byte) : List (Nat × Nat) :=
  (upto (min 64 (leAt b 0 4))).map (fun i => (leAt b (8 + 16 * i) 2, leAt b (8 + 16 * i + 12) 4))

/-- The units of this device on its suspect list (R598). -/
def contentSuspects (s : State) (b : List Byte) : List Nat :=
  let o := 8 + 16 * min 64 (leAt b 0 4)
  ((upto (min 64 (leAt b 4 4))).filter (fun i =>
    let uid_ := beAt b (o + 24 * i) 16
    uid_ == 0 || uid_ == s.sec.uid)).map (fun i => leAt b (o + 24 * i + 16) 2)

/-- The effect of TEST_CONTENT_LOAD (R503, R524): the units of its suspect list become suspect (R588). -/
def testContentLoad (len : Nat) (s : State) : CmdRes :=
  if ¬ secReady s then ans ST_WRONG_STATE [] s
  else
    let d := (stageOf s 2).data
    match (if d.length < len then none else verifyImg (d.take len) 1 s) with
    | none => ans ST_AUTH [] s
    | some f =>
      let b := f.bytes.drop 1024
      let s := setPass s { s.pass with
        content := some f.version, sections := contentSections b, suspects := contentSuspects s b }
      let s := setSec s { s.sec with contentMeas := f.meas, journal := f.bytes }
      ans ST_OK (beBytes 4 f.version ++ beBytes 32 f.meas) (s.pass.suspects.foldl (fun s u => suspectUnit u s) s)

/-! ### Unit commands (R501, R502) and conflicts (R44) -/

/-- The effect of UNIT_QUARANTINE. -/
def unitQuarantine (u : Nat) (s : State) : CmdRes :=
  let u := recordUnit u
  let st := (unitOf s u).st
  if ¬ unitReady s u ∨ st = .quarantined ∨ st = .failed then ans ST_WRONG_STATE [] s
  else if st = .assigned ∧ (spareFor s u).isNone then ans ST_NO_RESOURCE [] s
  else
    let (v, s) := quarantine 0 5 0 u s
    ans ST_OK (beBytes 2 v) s

/-- The state a released unit takes: it carries the work of a unit of the image, its work has moved, or its role in the image. -/
def releasedSt (s : State) (u : Nat) : UnitSt :=
  let g := graphImage s
  if s.dev.graph.isNone then .unused
  else if originOf s u ≠ u then .assigned
  else if (unitOf s u).movedTo ≠ 0xFFFF then .spare
  else match g.units.find? (fun e => e.unit == u) with
    | some e => if e.spare then .spare else .assigned
    | none => .unused

/-- The effect of UNIT_RELEASE. -/
def unitRelease (u : Nat) (s : State) : CmdRes :=
  let u := recordUnit u
  let r := unitOf s u
  if r.st ≠ .quarantined then ans ST_WRONG_STATE [] s
  else if r.conflict then ans ST_CONFLICT [] s
  else
    let st := releasedSt s u
    let s := setUnit s u { r with st := st, job := if st = .assigned then r.job else 0xFF, since := now s }
    let s := setTest u { testOf s u with ladder := none, passes := 0 } s
    let s := if st = .assigned then reloadUnit (originOf s u) u s else s
    let s := settleState (unitNotice 17 ST_OK u 0 0xFFFF s)
    ans ST_OK (beBytes 1 (unitCode st)) s

/-- The effect of UNIT_MARGIN. -/
def unitMargin (u v f : Nat) (s : State) : CmdRes :=
  let st := (unitOf s u).st
  if ¬ marginable u ∨ (utype u = 0x08 ∧ f ≠ 0) then ans ST_UNSUPPORTED [] s
  else if st ≠ .quarantined ∧ st ≠ .spare then ans ST_WRONG_STATE [] s
  else ans ST_OK [] (setMargin u v f s)

/-- STATE_CONFLICT (R44): the state that the hardware reports is taken as true and kept; the unit is quarantined and marked
until a later reading agrees with what the Lockkeeper holds: the state taken, or the quarantine. -/
def stateConflict (u : Nat) (hw : UnitSt) (s : State) : State :=
  let u := recordUnit u
  let r := unitOf s u
  if ¬ unitValid u ∨ u = uDEV then s
  else if hw = r.st ∨ (r.conflict ∧ r.hw = some hw) then
    (if r.conflict then setUnit s u { r with conflict := false, hw := none } else s)
  else
    let dst := if r.st = .assigned then spareFor s u else none
    let s := match dst with | some v => moveWork u v s | none => s
    let s := setUnit s u { unitOf s u with st := .quarantined, conflict := true, hw := some hw, since := now s }
    let s := settleState (unitNotice 18 ST_CONFLICT u 0 (dst.getD 0xFFFF) s)
    if dst.isSome ∧ jobRuns s r.job then beginRestart r.job 1 u 0 none s else s

/-! ### The commands -/

def execLockLookup (node : LockNode) (mismatch : Bool) (s : State) : Out := .next (lockLookup node mismatch s)
def execWindowCommit (job : Nat) (s : State) : Out := .next (windowCommit job s)
def execSupplyDroop (island : Nat) (s : State) : Out := .next (supplyDroop island s)
def execReplayStart (job : Nat) (s : State) : Out := .next (replayStart job s)
def execReplayVerdict (job : Nat) (runs : ReplayRuns) (s : State) : Out := .next (replayVerdict job runs s)
def execReplayLimitExpiry (job : Nat) (s : State) : Out := .next (replayLimit job s)
def execTestVisitStart (unit : Nat) (s : State) : Out := .next (testVisitStart unit s)
def execTestVisitDone (unit : Nat) (ok : Bool) (s : State) : Out := .next (testVisitDone unit ok s)
def execTestLate (unit : Nat) (s : State) : Out := .next (testLate unit s)
def execTestContentLoad (q : Req) (length : Nat) (s : State) : Out :=
  .next (serve q (.testContentLoad q length) 0x0504 (testContentLoad length) s)
def execUnitQuarantine (q : Req) (unit : Nat) (s : State) : Out :=
  .next (serve q (.unitQuarantine q unit) 0x0501 (unitQuarantine unit) s)
def execUnitRelease (q : Req) (unit : Nat) (s : State) : Out := .next (serve q (.unitRelease q unit) 0x0502 (unitRelease unit) s)
def execUnitMargin (q : Req) (unit vstep fstep : Nat) (s : State) : Out :=
  .next (serve q (.unitMargin q unit vstep fstep) 0x0503 (unitMargin unit vstep fstep) s)
def execStateConflict (unit : Nat) (hw : UnitSt) (s : State) : Out := .next (stateConflict unit hw s)

end Sys2Proof.Machine
end

