-- ==== Sys2Proof/Machine/Hazards.lean ====
section
/-! DEFINITION. Dangerous failures that the safety die's monitors report, their clearing (Table 19-2), the diagnostics of R611. -/
namespace Sys2Proof.Machine

/-- Changing the safe state. -/
def setSafe (s : State) (v : SafeSt) : State := { s with safe := v }

/-- SUPPLY_FAULT: a rail has been out of range for 10 µs. -/
def supplyFault (s : State) : State := raiseCause 8 uDEV s

/-- CLOCK_FAULT. -/
def clockFault (s : State) : State := raiseCause 9 uDEV s

/-- SAFE_N_FAULT. -/
def safeNFault (s : State) : State := raiseCause 13 uDEV s

/-- THERMAL_SAMPLE: readings in 0.1 °C, 16 of the compute die, 4 of the port die, 4 of the safety die; a sensor at +135 °C or more in
two samples in a row is a dangerous failure. -/
def thermalSample (l : List Int) (s : State) : State :=
  let l := l.take 24
  let hot := ((l.zipIdx.filter (fun e => decide (1350 ≤ e.1))).map (fun e => 2 ^ e.2)).sum
  let twice : Bool := (hot &&& s.safe.hot) != 0
  let s := setSafe s { s.safe with temps := l, hot := hot }
  if twice then raiseCause 10 uDEV s else s

/-- HOST_LINKS_DOWN: T1A and T1B have trained, and both have been down for 2 ms. -/
def hostLinksDown (s : State) : State :=
  let a := ethOf s 0
  let b := ethOf s 1
  if s.dev.level ≤ 1 ∧ (a.trained ∨ b.trained) ∧ ¬ a.phyUp ∧ ¬ b.phyUp ∧ max a.downSince b.downSince + 2000000 ≤ now s then
    raiseCause 6 (uETH 0) s
  else s

/-- The value at place `k` of a list in ascending order. -/
def ranked (l : List Int) (k : Nat) : Int :=
  (l.find? (fun t => decide (l.countP (· < t) ≤ k ∧ k < l.countP (· ≤ t)))).getD 0

/-- No sensor of a die lies more than 10 °C from the die's median (Table 19-2a): with an even number of sensors, from the middle of
the two in the middle. -/
def dieAgrees (l : List Int) : Bool :=
  let mid := ranked l ((l.length - 1) / 2) + ranked l (l.length / 2)
  l.all (fun t => decide ((2 * t - mid).natAbs ≤ 200))

/-- The junction sensors agree: 16 of the compute die, 4 of the port die, 4 of the safety die. -/
def sensorsAgree (s : State) : Bool :=
  let l := s.safe.temps
  dieAgrees (l.take 16) && dieAgrees ((l.drop 16).take 4) && dieAgrees (l.drop 20)

/-- MECH_DIAGNOSTIC (R611): the comparison of the junction sensors judges their latest sample, every other diagnostic tells whether it
passed. A failure is a dangerous failure; a failed diagnostic counts as mended after three passes in a row. -/
def mechDiagnostic (m : Nat) (pass : Bool) (s : State) : State :=
  let pass := if m = 3 then sensorsAgree s else pass
  if 6 ≤ m then s
  else if ¬ pass then
    raiseCause 15 uLKP (setSafe s { s.safe with mechBad := setBits s.safe.mechBad m 1 1, mechOk := tset 0 s.safe.mechOk m 0 })
  else if ¬ bit s.safe.mechBad m then s
  else
    let k := tget 0 s.safe.mechOk m + 1
    if k < 3 then setSafe s { s.safe with mechOk := tset 0 s.safe.mechOk m k }
    else
      let s := setSafe s { s.safe with mechOk := tset 0 s.safe.mechOk m 0, mechBad := setBits s.safe.mechBad m 1 0 }
      if s.safe.mechBad = 0 then clearCause 15 s else s

/-- The condition of Table 19-2 for a cause to clear, where the state can tell; rails, clocks and the read-back of SAFE_N are judged by
their monitors, which send the event. -/
def causeGone (s : State) (c : Nat) : Bool :=
  match c with
  | 1 | 2 => (upto 4).all (fun n => !(upOf s n).resetting)
  | 3 => (upto 4).all (fun h => !(unitOf s (uHUB h)).resetting)
  | 4 => (upto 8).all (fun i => decide (3 ≤ (chkOf s (i / 4) (i % 4)).good))
  | 5 => (upto 4).all (fun k => !linkClass0 s k || (linkFor s k).isSome)
  | 6 => (ethOf s 0).phyUp || (ethOf s 1).phyUp
  | 7 => !s.mem.lkpReset
  | 8 | 9 | 13 => true
  | 10 => s.safe.temps.all (fun t => decide (t ≤ 1250))
  | 12 => !s.sec.halted && !dbgOpen s
  | 14 => s.safe.pairBad == 0
  | 15 => s.safe.mechBad == 0
  | _ => false

/-- SAFE_CAUSE_CLEAR (R614). -/
def safeCauseClear (c : Nat) (s : State) : State :=
  if 1 ≤ c ∧ c ≤ 15 ∧ causeGone s c then clearCause c s else s

def execSupplyFault (_rail : Nat) (s : State) : Out := .next (supplyFault s)
def execClockFault (_pll : Bool) (s : State) : Out := .next (clockFault s)
def execSafeNFault (s : State) : Out := .next (safeNFault s)
def execThermalSample (readings : List Int) (s : State) : Out := .next (thermalSample readings s)
def execHostLinksDown (s : State) : Out := .next (hostLinksDown s)
def execMechDiagnostic (mech : Nat) (pass : Bool) (s : State) : Out := .next (mechDiagnostic mech pass s)
def execSafeCauseClear (cause : Nat) (s : State) : Out := .next (safeCauseClear cause s)

end Sys2Proof.Machine
end

