-- ==== Sys2Proof/Machine/Boot.lean ====
section
/-! DEFINITION. Device resets, the power-up sequence, bring-up (files 16 and 21), the debug bus (R546), the tick of the time unit. -/
namespace Sys2Proof.Machine

/-! ### Device resets (R513, R514) -/

/-- A field entry of a fuse map that takes effect at fuse load: VALID, with a CHECK that holds (R572). -/
def entryHolds (e : Nat) : Bool := bit e 23 && bits e 24 8 == crc8Fuse (e % 2 ^ 24)

/-- The repairs that the entries of a macro group make. -/
def fuseRepairs (key : Nat) (l : List Nat) : List Repair :=
  (l.filter entryHolds).map (fun e => ⟨key, bits e 13 6, bit e 12, bits e 0 12, bits e 19 3, 0⟩)

/-- What is left of a memory's record: its fuses and the repairs they make. -/
def fusedMem (e : Nat × MemReg) : Nat × MemReg := (e.1, { fuses := e.2.fuses, repairs := fuseRepairs e.1 e.2.fuses })

/-- What every device reset keeps: the fuses and the identity memory, the flash, which a rewrite cut short leaves partial (R529), and the
always-on registers. -/
def keptSec (v : SecSt) (rstc : Nat) : SecSt :=
  {
    variant := v.variant, lifecycle := v.lifecycle, revoked := v.revoked, uid := v.uid, baseMac := v.baseMac, bootIp4 := v.bootIp4,
    svnFuses := v.svnFuses, keyHash0 := v.keyHash0, keyHash1 := v.keyHash1, keyHash2 := v.keyHash2, dbgKeyHash := v.dbgKeyHash,
    devKey := v.devKey, chain := v.chain, flash := v.flash, flashBad := v.flashBad || v.rewrite != 0, rstc := rstc,
    brownout := v.brownout, bootMode := v.bootMode }

/-- A device reset: every other field takes its reset value; the enables stay as they are, and a device without VDD_CORE goes through
the power-up sequence (R657). -/
def deviceReset (rstc : Nat) (s : State) : State :=
  {
    sec := keptSec s.sec rstc
    mem := { regs := (s.mem.regs.filter (fun e => e.2.fuses != [])).map fusedMem }
    pwr := { enAux := s.pwr.enAux, enDdr := s.pwr.enDdr, enCore := s.pwr.enCore, por := s.pwr.por || !s.pwr.enCore }
    freeCount := s.freeCount
    pending := s.pending }

/-- A power-on reset: the enables are lowered (R660); SEC_RSTC tells a brown-out (R514). -/
def powerOnReset (s : State) : State :=
  let s := deviceReset (if s.sec.brownout then 0x11 else 1) s
  { s with pwr := {} }

/-- A reset source that ORs its bit into SEC_RSTC. -/
def otherReset (b : Nat) (s : State) : State := deviceReset (setBits s.sec.rstc b 1 1) s

/-- EXTERNAL_RESET: BOOT_MODE is sampled as RESET_N rises (R525). -/
def externalReset (mode : Bool) (s : State) : State :=
  let s := otherReset 1 s
  setSec s { s.sec with bootMode := mode }

/-- WATCHDOG_RESET: the pause of an activation holds the watchdog (Table 16-9). -/
def watchdogReset (s : State) : State := if s.sec.act.any (·.exchanged.isSome) then s else otherReset 2 s

/-- DEBUG_SYS_RESET: CONTROL scope. -/
def debugSysReset (s : State) : State := if bit (dbgScope s) 1 then otherReset 3 s else s

/-- BROWN_OUT (R635). -/
def brownOut (s : State) : State := powerOnReset (setSec s { s.sec with brownout := true })

/-! ### Enables (R657, R659) -/

/-- POWER_UP_SEQUENCE (Table 21-8). -/
def powerUp (r : Rail) (s : State) : State :=
  match r with
  | .vsysSafe => setPwr s { s.pwr with enAux := true }
  | .aux => if s.pwr.enAux then setPwr s { s.pwr with enDdr := true } else s
  | .ddr => if s.pwr.enDdr then setPwr s { s.pwr with enCore := true } else s
  | .core => if s.pwr.enCore then setPwr s { s.pwr with por := false } else s

/-- Every enable low. -/
def enablesLow (s : State) : State := setPwr s { s.pwr with enAux := false, enDdr := false, enCore := false, por := true }

/-- RAIL_TIMEOUT: every enable falls; during an exit the device counts as in power-on reset (Table 21-14). -/
def railTimeout (s : State) : State :=
  if s.pwr.exit_.isSome then powerOnReset s else if s.pwr.por then enablesLow s else s

/-! ### Bring-up (R517 to R521) -/

/-- A function's part of a core has passed: the core is ready once its four engines have (Table 16-3). -/
def corePart (u : Nat) (s : State) : State :=
  let s := setMem s { s.mem with tested := tset false s.mem.tested u true }
  let n := uindex u
  if [uSE n, uNE n, uLOCK n, uSEQ n].all (fun v => tget false s.mem.tested v) then setReady (RB_CORE + n) true s else s

/-- A slice of the barge manager has passed: the manager is ready once all four have (R27, R411). -/
def slicePart (u : Nat) (s : State) : State :=
  let s := setMem s { s.mem with tested := tset false s.mem.tested u true }
  if (upto 4).all (fun n => tget false s.mem.tested (sliceUnit n)) then setReady RB_BRG true s else s

/-- A unit that reports its self-test: one of Table 15-1, or a slice of the barge manager. -/
def testedUnit (u : Nat) : Bool := unitValid u || (utype u == 0x14 && decide (uindex u < 4))

/-- What follows a unit's readiness: an engine-wide reset of the inertial chain (R128), a full bucket of the policer (R225). -/
def readied (u : Nat) (s : State) : State :=
  match utype u with
  | 0x03 | 0x04 | 0x05 | 0x06 => corePart u s
  | 0x07 => fillPolicer (uindex u) (setReady (RB_HUB + uindex u) true s)
  | 0x11 => (upto 3).foldl (fun s e => scheduleReset e s) (setReady RB_INR true s)
  | 0x14 => slicePart u s
  | 0x12 => monitorStarts (setReady RB_APX true s)
  | 0x09 | 0x0B | 0x0C | 0x0D => s
  | _ => match unitBit u with | some b => setReady b true s | none => s

/-- A function of the safety die. -/
def onSafetyDie (u : Nat) : Bool := utype u == 0x15 || utype u == 0x16 || utype u == 0x17

/-- A safety-die function fails in BOOT: SAFE, where only the ROM serves (R38). -/
def bootFailure (u : Nat) (s : State) : State :=
  let s := unitFails u s
  let s := { s with dev := { s.dev with romSafe := true } }
  enterSafe 11 u s

/-- SELF_TEST_DONE (R519). -/
def selfTestDone (u : Nat) (pass : Bool) (s : State) : State :=
  let m := recordUnit u
  if ¬ testedUnit u ∨ u = uDEV ∨ (unitOf s m).st = .failed ∨ (s.dev.state = .boot ∧ ¬ onSafetyDie u) ∨ s.dev.romSafe ∨ s.pwr.por then s
  else if (unitBit u).any (readyBit s) then s
  else if pass then readied u s
  else if s.dev.state = .boot then bootFailure u s
  else unitFails m s

/-- The UNIT notice of a DDR5 channel that stays out (R518). -/
def ddrNotReady (chan cause : Nat) (s : State) : State := unitNotice 21 ST_NO_RESOURCE (uDDR chan) cause 0xFFFF s

/-- The populated capacity of a channel. -/
def ddrGib (s : State) (chan : Nat) : Nat := if chan = 0 then s.dev.ddrGib0 else s.dev.ddrGib1

/-- DDR_TRAINING_DONE (R518). -/
def ddrTrainingDone (chan : Nat) (r : DdrTraining) (s : State) : State :=
  if 2 ≤ chan ∨ readyBit s (RB_DDR + chan) ∨ s.dev.state = .boot then s
  else match r with
    | .trained g =>
      let g := min g 32
      { s with dev := { s.dev with
          ddrGib0 := if chan = 0 then g else s.dev.ddrGib0, ddrGib1 := if chan = 1 then g else s.dev.ddrGib1 } }
    | .noConfig => ddrNotReady chan 0 s
    | .failed => ddrNotReady chan 1 s

/-- DDR_FILL_DONE (R557, R560). -/
def ddrFillDone (chan : Nat) (pass : Bool) (s : State) : State :=
  if 2 ≤ chan ∨ readyBit s (RB_DDR + chan) ∨ ddrGib s chan = 0 then s
  else if pass then setReady (RB_DDR + chan) true s
  else ddrNotReady chan 2 s

/-- Units whose fill and self-test bring-up waits for: the compute die's and the Lockkeeper's, but for DDR5, ports and links. -/
def bringupUnits : List Nat :=
  (upto 16).map uSL ++ (upto 16).map uC ++ (upto 4).map uFA ++ (upto 4).map uUP ++ (upto 4).map uHUB ++ [uINR, uFUS, uAPX, uBRG]

/-- Every one of them is ready or FAILED, and berth service runs (R517). -/
def bringupOver (s : State) : Bool :=
  readyBit s RB_LKP && bringupUnits.all (fun u => unitReady s u || (unitOf s u).st == .failed)

/-- BRINGUP_COMPLETE: IDLE, with the first STATE notice (R515); SEC_RSTC and the brown-out latch clear (R514). -/
def bringupComplete (s : State) : State :=
  if s.dev.state ≠ .bringup ∨ ¬ bringupOver s then s
  else
    let s := firstIdle s
    let s := setPwr s { s.pwr with limit := if s.sec.variant = 2 then 90 else 110 }
    if s.sec.bootSource = 0 then s else checkFlash s

/-! ### The debug bus (R543 to R546) -/

/-- STATUS and DATA that the next capture loads. -/
def dbgAnswer (st data : Nat) (s : State) : State := setSec s { s.sec with dbgStatus := st, dbgData := data }

/-- A write of DBG_CTRL (Table 16-11) within the session's scope. -/
def dbgCtrlWrite (d : Nat) (s : State) : State :=
  let sc := dbgScope s
  let control : Bool := bit d 0 || (bit d 1 != s.sec.holdPower)
  let lkp : Bool := bit d 2 || bit d 3
  if (control ∧ ¬ bit sc 1) ∨ (lkp ∧ ¬ bit sc 2) ∨ (¬ bit sc 1 ∧ ¬ bit sc 2) then dbgAnswer 2 0 s
  else
    let s := dbgAnswer 0 s.sec.dbgData s
    let s := if bit sc 1 then holdPowerWrite (bit d 1) s else s
    let s := if bit d 2 then lkpHalt s else s
    let s := if bit d 3 then lkpResume s else s
    if bit d 0 then debugSysReset s else s

/-- DBG_BUS_ACCESS: an update of the 70-bit data register (Table 16-10). DBG_CTRL is the one address that the spec gives; another read
inside the scope answers a value the spec does not state, another write changes nothing the spec names. -/
def dbgBusAccess (v : Nat) (s : State) : State :=
  let a := bits v 2 32
  let d := bits v 34 32
  let sc := dbgScope s
  if s.dev.level = 4 ∨ a % 4 ≠ 0 then dbgAnswer 1 0 s
  else if ¬ dbgOpen s then dbgAnswer 2 0 s
  else if a = 0 then (if bit v 0 then dbgCtrlWrite d s else dbgAnswer 0 (dbgCtrlWord s) s)
  else if bit v 0 then dbgAnswer (if bit sc 1 then 0 else 2) s.sec.dbgData s
  else if ¬ bit sc 0 then dbgAnswer 2 0 s
  else
    let (x, s) := drawFree 32 s
    dbgAnswer 0 x s

/-! ### The tick (R412, R625) -/

/-- COUNTER_TICK: `n` ticks of the running counter; in PL4 each is a period of the reference and adds 32 times as much. -/
def counterTick (n : Nat) (s : State) : State :=
  if ¬ readyBit s RB_TMU then s else tickBy n (if s.dev.level = 4 then 32 else 1) s

/-! ### The commands -/

def execPowerOnReset (s : State) : Out := .next (powerOnReset s)
def execExternalReset (bootMode : Bool) (s : State) : Out := .next (externalReset bootMode s)
def execWatchdogReset (s : State) : Out := .next (watchdogReset s)
def execDebugSysReset (s : State) : Out := .next (debugSysReset s)
def execBrownOut (s : State) : Out := .next (brownOut s)
def execPowerUpSequence (rail : Rail) (s : State) : Out := .next (powerUp rail s)
def execRailTimeout (s : State) : Out := .next (railTimeout s)
def execVsysSafeFall (s : State) : Out := .next (enablesLow s)
def execSelfTestDone (unit : Nat) (pass : Bool) (s : State) : Out := .next (selfTestDone unit pass s)
def execBringupComplete (s : State) : Out := .next (bringupComplete s)
def execDdrTrainingDone (chan : Nat) (result : DdrTraining) (s : State) : Out := .next (ddrTrainingDone chan result s)
def execDdrFillDone (chan : Nat) (pass : Bool) (s : State) : Out := .next (ddrFillDone chan pass s)
def execDbgBusAccess (data : Nat) (s : State) : Out := .next (dbgBusAccess data s)
def execCounterTick (ticks : Nat) (s : State) : Out := .next (counterTick ticks s)

end Sys2Proof.Machine
end

