-- ==== Sys2Proof/Machine/Dispatch.lean ====
section
/-! DEFINITION. The effect of every command: one direct call of its meaning per row of the table. -/
namespace Sys2Proof.Machine

/-- The effect of a command on everything but the queue. -/
def exec (i : Instr) (s : State) : Host.Outcome State Fault Refusal :=
  match i with
  | .powerOnReset => Sys2Proof.Machine.execPowerOnReset s
  | .externalReset bootMode => Sys2Proof.Machine.execExternalReset bootMode s
  | .watchdogReset => Sys2Proof.Machine.execWatchdogReset s
  | .debugSysReset => Sys2Proof.Machine.execDebugSysReset s
  | .brownOut => Sys2Proof.Machine.execBrownOut s
  | .powerUpSequence rail => Sys2Proof.Machine.execPowerUpSequence rail s
  | .railTimeout => Sys2Proof.Machine.execRailTimeout s
  | .vsysSafeFall => Sys2Proof.Machine.execVsysSafeFall s
  | .romFlashBoot => Sys2Proof.Machine.execRomFlashBoot s
  | .selfTestDone unit pass => Sys2Proof.Machine.execSelfTestDone unit pass s
  | .bringupComplete => Sys2Proof.Machine.execBringupComplete s
  | .ddrTrainingDone chan result => Sys2Proof.Machine.execDdrTrainingDone chan result s
  | .ddrFillDone chan pass => Sys2Proof.Machine.execDdrFillDone chan pass s
  | .tmuTickLock => Sys2Proof.Machine.execTmuTickLock s
  | .ethPhyLinkChange port up selfTest => Sys2Proof.Machine.execEthPhyLinkChange port up selfTest s
  | .linkEnable link word => Sys2Proof.Machine.execLinkEnable link word s
  | .linkUp link lanes peer peerAsg caps => Sys2Proof.Machine.execLinkUp link lanes peer peerAsg caps s
  | .linkDown link reason => Sys2Proof.Machine.execLinkDown link reason s
  | .linkFrameTx link => Sys2Proof.Machine.execLinkFrameTx link s
  | .linkFrameRx link frame => Sys2Proof.Machine.execLinkFrameRx link frame s
  | .devIdWrite dev => Sys2Proof.Machine.execDevIdWrite dev s
  | .lockLookup node mismatch => Sys2Proof.Machine.execLockLookup node mismatch s
  | .packetDispatch port => Sys2Proof.Machine.execPacketDispatch port s
  | .cl0Police hub => Sys2Proof.Machine.execCl0Police hub s
  | .cl0TokenAdd hub => Sys2Proof.Machine.execCl0TokenAdd hub s
  | .cnlUpqWrite hub word => Sys2Proof.Machine.execCnlUpqWrite hub word s
  | .probeEmit pair => Sys2Proof.Machine.execProbeEmit pair s
  | .pathProbe port pair => Sys2Proof.Machine.execPathProbe port pair s
  | .upBinnedCopy pair mismatch parBad => Sys2Proof.Machine.execUpBinnedCopy pair mismatch parBad s
  | .alarmFramerRx port parBad => Sys2Proof.Machine.execAlarmFramerRx port parBad s
  | .alarmFrameTx port => Sys2Proof.Machine.execAlarmFrameTx port s
  | .safeStopFrame port => Sys2Proof.Machine.execSafeStopFrame port s
  | .safeCauseClear cause => Sys2Proof.Machine.execSafeCauseClear cause s
  | .supplyFault rail => Sys2Proof.Machine.execSupplyFault rail s
  | .clockFault pll => Sys2Proof.Machine.execClockFault pll s
  | .thermalSample readings => Sys2Proof.Machine.execThermalSample readings s
  | .safeNFault => Sys2Proof.Machine.execSafeNFault s
  | .hostLinksDown => Sys2Proof.Machine.execHostLinksDown s
  | .mechDiagnostic mech pass => Sys2Proof.Machine.execMechDiagnostic mech pass s
  | .stateConflict unit hw => Sys2Proof.Machine.execStateConflict unit hw s
  | .csi2LongPacket sluice vc dt ecc crcOk sot data residueBad => Sys2Proof.Machine.execCsi2LongPacket sluice vc dt ecc crcOk sot data residueBad s
  | .frameStart sluice vc num ecc => Sys2Proof.Machine.execFrameStart sluice vc num ecc s
  | .frameEnd sluice vc ecc => Sys2Proof.Machine.execFrameEnd sluice vc ecc s
  | .syncInEdge sluice => Sys2Proof.Machine.execSyncInEdge sluice s
  | .pairTimeout sluice => Sys2Proof.Machine.execPairTimeout sluice s
  | .rateTokenAdd sluice => Sys2Proof.Machine.execRateTokenAdd sluice s
  | .rateInterval sluice => Sys2Proof.Machine.execRateInterval sluice s
  | .refractSweep sluice cell => Sys2Proof.Machine.execRefractSweep sluice cell s
  | .sluLinkUpTimeout sluice => Sys2Proof.Machine.execSluLinkUpTimeout sluice s
  | .portEnable sluice w0 w1 => Sys2Proof.Machine.execPortEnable sluice w0 w1 s
  | .portClearDone sluice => Sys2Proof.Machine.execPortClearDone sluice s
  | .portDisable sluice w0 => Sys2Proof.Machine.execPortDisable sluice w0 s
  | .sourceChange sluice => Sys2Proof.Machine.execSourceChange sluice s
  | .i3cIbi sluice target data => Sys2Proof.Machine.execI3cIbi sluice target data s
  | .inputPeriod engine balls residueFail => Sys2Proof.Machine.execInputPeriod engine balls residueFail s
  | .inrOutput channel => Sys2Proof.Machine.execInrOutput channel s
  | .syncInertEdge => Sys2Proof.Machine.execSyncInertEdge s
  | .synchronisingReset engine retestFail => Sys2Proof.Machine.execSynchronisingReset engine retestFail s
  | .channelResetWrite channel w0 w1 => Sys2Proof.Machine.execChannelResetWrite channel w0 w1 s
  | .seEvent core port residueBad => Sys2Proof.Machine.execSeEvent core port residueBad s
  | .apertureMerge core residueBad => Sys2Proof.Machine.execApertureMerge core residueBad s
  | .seServiceWord core port => Sys2Proof.Machine.execSeServiceWord core port s
  | .gyroRecord core channel parBad => Sys2Proof.Machine.execGyroRecord core channel parBad s
  | .surfaceSweep core => Sys2Proof.Machine.execSurfaceSweep core s
  | .srfPortEnable core entry word => Sys2Proof.Machine.execSrfPortEnable core entry word s
  | .surfaceClearDone core entry => Sys2Proof.Machine.execSurfaceClearDone core entry s
  | .neInput core => Sys2Proof.Machine.execNeInput core s
  | .batchRelease core => Sys2Proof.Machine.execBatchRelease core s
  | .batchUpdate core => Sys2Proof.Machine.execBatchUpdate core s
  | .tickBatch core group => Sys2Proof.Machine.execTickBatch core group s
  | .stampSweep core neuron => Sys2Proof.Machine.execStampSweep core neuron s
  | .stepClose core => Sys2Proof.Machine.execStepClose core s
  | .stepOverrun core => Sys2Proof.Machine.execStepOverrun core s
  | .countWindowClose core group => Sys2Proof.Machine.execCountWindowClose core group s
  | .countCopyDone core => Sys2Proof.Machine.execCountCopyDone core s
  | .arrRunWrite array prog job => Sys2Proof.Machine.execArrRunWrite array prog job s
  | .instanceStart array => Sys2Proof.Machine.execInstanceStart array s
  | .loadDescriptor array => Sys2Proof.Machine.execLoadDescriptor array s
  | .computePass array => Sys2Proof.Machine.execComputePass array s
  | .storeDescriptor array => Sys2Proof.Machine.execStoreDescriptor array s
  | .tenPacket cluster residueBad => Sys2Proof.Machine.execTenPacket cluster residueBad s
  | .tenWindowEnd cluster entry => Sys2Proof.Machine.execTenWindowEnd cluster entry s
  | .tenWindowClose cluster entry => Sys2Proof.Machine.execTenWindowClose cluster entry s
  | .tenBufferCleared cluster entry buf => Sys2Proof.Machine.execTenBufferCleared cluster entry buf s
  | .fusionTick => Sys2Proof.Machine.execFusionTick s
  | .checkpointPeriod job => Sys2Proof.Machine.execCheckpointPeriod job s
  | .gridStageEnd residueBad => Sys2Proof.Machine.execGridStageEnd residueBad s
  | .egoMotionDone residueBad => Sys2Proof.Machine.execEgoMotionDone residueBad s
  | .objectStage residueBad => Sys2Proof.Machine.execObjectStage residueBad s
  | .snapshotCopyDone source => Sys2Proof.Machine.execSnapshotCopyDone source s
  | .lidarRecord source residueBad => Sys2Proof.Machine.execLidarRecord source residueBad s
  | .flowPacket => Sys2Proof.Machine.execFlowPacket s
  | .streamEntry stream => Sys2Proof.Machine.execStreamEntry stream s
  | .recordFlush stream => Sys2Proof.Machine.execRecordFlush stream s
  | .recordCommit stream => Sys2Proof.Machine.execRecordCommit stream s
  | .streamEnable stream w0 w1 => Sys2Proof.Machine.execStreamEnable stream w0 w1 s
  | .streamDisable stream w0 => Sys2Proof.Machine.execStreamDisable stream w0 s
  | .pushCopy port => Sys2Proof.Machine.execPushCopy port s
  | .pushFragment port => Sys2Proof.Machine.execPushFragment port s
  | .berthGo berth data => Sys2Proof.Machine.execBerthGo berth data s
  | .ckptAck job gen => Sys2Proof.Machine.execCkptAck job gen s
  | .ckptGraceExpiry job => Sys2Proof.Machine.execCkptGraceExpiry job s
  | .jobStopHalt job => Sys2Proof.Machine.execJobStopHalt job s
  | .hartPoisonTrap hart addr => Sys2Proof.Machine.execHartPoisonTrap hart addr s
  | .guestAccessFault hart addr size write value => Sys2Proof.Machine.execGuestAccessFault hart addr size write value s
  | .l1ParityError hart => Sys2Proof.Machine.execL1ParityError hart s
  | .portalPush queue job words parBad => Sys2Proof.Machine.execPortalPush queue job words parBad s
  | .portalPushEnd queue job words parBad => Sys2Proof.Machine.execPortalPushEnd queue job words parBad s
  | .portalAbort queue job => Sys2Proof.Machine.execPortalAbort queue job s
  | .portalPop queue job parBad => Sys2Proof.Machine.execPortalPop queue job parBad s
  | .queueCopyWrite queue => Sys2Proof.Machine.execQueueCopyWrite queue s
  | .canalCloseTimeout queue => Sys2Proof.Machine.execCanalCloseTimeout queue s
  | .middleLineWrite queue parBad => Sys2Proof.Machine.execMiddleLineWrite queue parBad s
  | .middleLineRead queue parBad => Sys2Proof.Machine.execMiddleLineRead queue parBad s
  | .queuePop queue parBad => Sys2Proof.Machine.execQueuePop queue parBad s
  | .queueDisable queue w0 => Sys2Proof.Machine.execQueueDisable queue w0 s
  | .ptpSyncRx port secured msg => Sys2Proof.Machine.execPtpSyncRx port secured msg s
  | .ptpFollowUpRx port secured seq pot corr => Sys2Proof.Machine.execPtpFollowUpRx port secured seq pot corr s
  | .ptpLkpMessage port secured msg => Sys2Proof.Machine.execPtpLkpMessage port secured msg s
  | .ptpEventTx port kind seq => Sys2Proof.Machine.execPtpEventTx port kind seq s
  | .txqLookup port key => Sys2Proof.Machine.execTxqLookup port key s
  | .syncTimeout => Sys2Proof.Machine.execSyncTimeout s
  | .holdLimit => Sys2Proof.Machine.execHoldLimit s
  | .gmChange => Sys2Proof.Machine.execGmChange s
  | .servoDisable w0 => Sys2Proof.Machine.execServoDisable w0 s
  | .cmpArm index w0 w1 => Sys2Proof.Machine.execCmpArm index w0 w1 s
  | .comparatorFire index => Sys2Proof.Machine.execComparatorFire index s
  | .syncoutEnable sluice w0 w1 => Sys2Proof.Machine.execSyncoutEnable sluice w0 w1 s
  | .syncOutEdge sluice => Sys2Proof.Machine.execSyncOutEdge sluice s
  | .syncOutPulseEnd sluice => Sys2Proof.Machine.execSyncOutPulseEnd sluice s
  | .ppsEdge => Sys2Proof.Machine.execPpsEdge s
  | .ppsPulseEnd => Sys2Proof.Machine.execPpsPulseEnd s
  | .towlineRequestRx port src srcPort wrap data => Sys2Proof.Machine.execTowlineRequestRx port src srcPort wrap data s
  | .arpIcmpRx port req => Sys2Proof.Machine.execArpIcmpRx port req s
  | .sensorFrameRx port udp data => Sys2Proof.Machine.execSensorFrameRx port udp data s
  | .ethFrameTx port => Sys2Proof.Machine.execEthFrameTx port s
  | .helmSilence => Sys2Proof.Machine.execHelmSilence s
  | .helmObjectExpiry => Sys2Proof.Machine.execHelmObjectExpiry s
  | .blobBegin q kind total => Sys2Proof.Machine.execBlobBegin q kind total s
  | .blobWrite q kind offset data => Sys2Proof.Machine.execBlobWrite q kind offset data s
  | .graphLoad q length digest => Sys2Proof.Machine.execGraphLoad q length digest s
  | .graphUnload q => Sys2Proof.Machine.execGraphUnload q s
  | .jobStart q mask fromCkpt => Sys2Proof.Machine.execJobStart q mask fromCkpt s
  | .jobStop q mask => Sys2Proof.Machine.execJobStop q mask s
  | .jobCheckpoint q job => Sys2Proof.Machine.execJobCheckpoint q job s
  | .jobRestart q job => Sys2Proof.Machine.execJobRestart q job s
  | .safeExit q => Sys2Proof.Machine.execSafeExit q s
  | .configWrite q unit reg entry word data => Sys2Proof.Machine.execConfigWrite q unit reg entry word data s
  | .configRead q unit reg entry word count => Sys2Proof.Machine.execConfigRead q unit reg entry word count s
  | .routeWrite q unit first data => Sys2Proof.Machine.execRouteWrite q unit first data s
  | .weightsWrite q core matrix row offset last data => Sys2Proof.Machine.execWeightsWrite q core matrix row offset last data s
  | .sensorI3c q sluice target i2c wdata rlen resp => Sys2Proof.Machine.execSensorI3c q sluice target i2c wdata rlen resp s
  | .i3cTimeout sluice => Sys2Proof.Machine.execI3cTimeout sluice s
  | .filterSync q engines => Sys2Proof.Machine.execFilterSync q engines s
  | .timeGet q => Sys2Proof.Machine.execTimeGet q s
  | .ptpConfig q port profile role logSync logPdelay logAnnounce prio1 prio2 => Sys2Proof.Machine.execPtpConfig q port profile role logSync logPdelay logAnnounce prio1 prio2 s
  | .powerLevelSet q level => Sys2Proof.Machine.execPowerLevelSet q level s
  | .powerLimitSet q limit => Sys2Proof.Machine.execPowerLimitSet q limit s
  | .powerStatusGet q => Sys2Proof.Machine.execPowerStatusGet q s
  | .unitQuarantine q unit => Sys2Proof.Machine.execUnitQuarantine q unit s
  | .unitRelease q unit => Sys2Proof.Machine.execUnitRelease q unit s
  | .unitMargin q unit vstep fstep => Sys2Proof.Machine.execUnitMargin q unit vstep fstep s
  | .testContentLoad q length => Sys2Proof.Machine.execTestContentLoad q length s
  | .testControl q enable rotation => Sys2Proof.Machine.execTestControl q enable rotation s
  | .windowLogRead q back count => Sys2Proof.Machine.execWindowLogRead q back count s
  | .fwStage q length => Sys2Proof.Machine.execFwStage q length s
  | .fwActivate q version => Sys2Proof.Machine.execFwActivate q version s
  | .attestQuote q nonce => Sys2Proof.Machine.execAttestQuote q nonce s
  | .identityGet q offset => Sys2Proof.Machine.execIdentityGet q offset s
  | .keyRevoke q slot sig => Sys2Proof.Machine.execKeyRevoke q slot sig s
  | .debugChallenge q => Sys2Proof.Machine.execDebugChallenge q s
  | .debugUnlock q scope sig => Sys2Proof.Machine.execDebugUnlock q scope sig s
  | .debugLock q => Sys2Proof.Machine.execDebugLock q s
  | .macsecKeySet q port cknLen cak ckn => Sys2Proof.Machine.execMacsecKeySet q port cknLen cak ckn s
  | .lifecycleSet q target sig => Sys2Proof.Machine.execLifecycleSet q target sig s
  | .resultRead q stream selector seq offset length => Sys2Proof.Machine.execResultRead q stream selector seq offset length s
  | .resultRelease q stream seq => Sys2Proof.Machine.execResultRelease q stream seq s
  | .subscribe q stream port cls everyM1 => Sys2Proof.Machine.execSubscribe q stream port cls everyM1 s
  | .unsubscribe q sub => Sys2Proof.Machine.execUnsubscribe q sub s
  | .statusGet q => Sys2Proof.Machine.execStatusGet q s
  | .countersRead q unit block entry first count clear => Sys2Proof.Machine.execCountersRead q unit block entry first count clear s
  | .noticeLogRead q start count => Sys2Proof.Machine.execNoticeLogRead q start count s
  | .unitStatusGet q unit => Sys2Proof.Machine.execUnitStatusGet q unit s
  | .helmClaim q force => Sys2Proof.Machine.execHelmClaim q force s
  | .helmKeep q => Sys2Proof.Machine.execHelmKeep q s
  | .helmRelease q => Sys2Proof.Machine.execHelmRelease q s
  | .helmHandover q link => Sys2Proof.Machine.execHelmHandover q link s
  | .progressGet q berth => Sys2Proof.Machine.execProgressGet q berth s
  | .commandAbort q berth => Sys2Proof.Machine.execCommandAbort q berth s
  | .flashRewriteDone ok => Sys2Proof.Machine.execFlashRewriteDone ok s
  | .svnBurn => Sys2Proof.Machine.execSvnBurn s
  | .activateQuiescent => Sys2Proof.Machine.execActivateQuiescent s
  | .firmwareAlive => Sys2Proof.Machine.execFirmwareAlive s
  | .activateFallback => Sys2Proof.Machine.execActivateFallback s
  | .challengeExpiry => Sys2Proof.Machine.execChallengeExpiry s
  | .debugSessionExpiry => Sys2Proof.Machine.execDebugSessionExpiry s
  | .dbgBusAccess data => Sys2Proof.Machine.execDbgBusAccess data s
  | .holdPowerWrite set => Sys2Proof.Machine.execHoldPowerWrite set s
  | .lkpHalt => Sys2Proof.Machine.execLkpHalt s
  | .lkpResumeWrite => Sys2Proof.Machine.execLkpResumeWrite s
  | .dredgerRead line => Sys2Proof.Machine.execDredgerRead line s
  | .unitResetDone unit pass => Sys2Proof.Machine.execUnitResetDone unit pass s
  | .lkpRecovered cleanCopy => Sys2Proof.Machine.execLkpRecovered cleanCopy s
  | .lapNotice unit memory => Sys2Proof.Machine.execLapNotice unit memory s
  | .spareSwitch unit memory macroIx => Sys2Proof.Machine.execSpareSwitch unit memory macroIx s
  | .pageRemap chan page => Sys2Proof.Machine.execPageRemap chan page s
  | .fuseBurnDone ok => Sys2Proof.Machine.execFuseBurnDone ok s
  | .windowCommit job => Sys2Proof.Machine.execWindowCommit job s
  | .supplyDroop island => Sys2Proof.Machine.execSupplyDroop island s
  | .replayStart job => Sys2Proof.Machine.execReplayStart job s
  | .replayVerdict job runs => Sys2Proof.Machine.execReplayVerdict job runs s
  | .replayLimitExpiry job => Sys2Proof.Machine.execReplayLimitExpiry job s
  | .restartResumed job => Sys2Proof.Machine.execRestartResumed job s
  | .testVisitStart unit => Sys2Proof.Machine.execTestVisitStart unit s
  | .testVisitDone unit ok => Sys2Proof.Machine.execTestVisitDone unit ok s
  | .testLate unit => Sys2Proof.Machine.execTestLate unit s
  | .powerEntryQuiesced => Sys2Proof.Machine.execPowerEntryQuiesced s
  | .powerEntryComplete => Sys2Proof.Machine.execPowerEntryComplete s
  | .powerExitComplete => Sys2Proof.Machine.execPowerExitComplete s
  | .tc10SleepRequest port => Sys2Proof.Machine.execTc10SleepRequest port s
  | .tc10SleepReject port => Sys2Proof.Machine.execTc10SleepReject port s
  | .tc10Wake port => Sys2Proof.Machine.execTc10Wake port s
  | .wakeN => Sys2Proof.Machine.execWakeN s
  | .lpCurrent => Sys2Proof.Machine.execLpCurrent s
  | .governorPeriod mw => Sys2Proof.Machine.execGovernorPeriod mw s
  | .avsAdjust slackOk answered => Sys2Proof.Machine.execAvsAdjust slackOk answered s
  | .islandClockStop island => Sys2Proof.Machine.execIslandClockStop island s
  | .islandClockRestart island => Sys2Proof.Machine.execIslandClockRestart island s
  | .counterTick ticks => Sys2Proof.Machine.execCounterTick ticks s
  | .mkaPduRx port pdu => Sys2Proof.Machine.execMkaPduRx port pdu s
  | .lkpLockstepMismatch => Sys2Proof.Machine.execLkpLockstepMismatch s

end Sys2Proof.Machine
end

