-- ==== Sys2Proof/Machine/Step.lean ====
section
/-! DEFINITION. One step of the block: the command at the front of the queue takes effect; an empty queue idles. -/
namespace Sys2Proof.Machine

/-- The state without the front command: the queue is its rest. -/
def State.withPending (s : State) (q : List Instr) : State := { s with pending := q }

/-- One step: the front command runs on the state that holds the rest of the queue; on an empty queue nothing
happens (device time advances by COUNTER_TICK only). -/
def step (s : State) : Host.Outcome State Fault Refusal :=
  match s.pending with
  | [] => .next s
  | c :: r => exec c (s.withPending r)

/-- The state with the command that a word spells put at the front of its queue; the rows of the opcode table give
no bits, so no word spells one. -/
def State.withFetchWord (s : State) (nbits w : Nat) : State :=
  match Sys2Proof.decodeTableWord nbits w with
  | none => s
  | some c => s.withPending (c :: s.pending)

end Sys2Proof.Machine
end

