-- ==== Sys2Proof/Safety.lean ====
section
/-! DEFINITION. What counts as a safe state and a safe step in the terms the statements use: the memories, tags,
registers and counters are in canonical form, counters fit their 32 bits, and fuses only burn forward. -/
namespace Sys2Proof.Machine

/-- Memory holds its canonical form: rising addresses, no entry equal to what an unlisted address reads as. -/
abbrev Memory.wf (s : State) : Prop := fwf (fun _ => ramDefault) s.ram = true

/-- The poison tags of memory hold their canonical form. -/
abbrev Tags.wf (s : State) : Prop := fwf (fun _ => false) s.ramPoison = true

/-- The register file holds its canonical form: no listed word equals its reset value. -/
abbrev Registers.wf (s : State) : Prop := fwf regDefault s.regs = true

/-- The counters hold their canonical form. -/
abbrev Counters.wf (s : State) : Prop := fwf (fun _ => (0 : Nat)) s.cnt = true

/-- Every counter fits its 32 bits (R93: saturating). -/
def Counters.bounded (s : State) : Prop := ∀ e ∈ s.cnt, e.2 < 2 ^ 32

/-- The canonical form of everything the block stores under an address. -/
structure State.Canon (s : State) : Prop where
  memory : Memory.wf s
  tags : Tags.wf s
  registers : Registers.wf s
  counters : Counters.wf s
  bounded : Counters.bounded s

/-- Fuses only burn forward (R530, R531, R540, Table 16-5): the identity fuses stay, a revoked key slot stays
revoked, a blown bit of the security version stays blown, RMA is final. -/
structure FusesForward (a b : SecSt) : Prop where
  uid : b.uid = a.uid
  mac : b.baseMac = a.baseMac
  variant : b.variant = a.variant
  ip : b.bootIp4 = a.bootIp4
  hashes : b.keyHash0 = a.keyHash0 ∧ b.keyHash1 = a.keyHash1 ∧ b.keyHash2 = a.keyHash2 ∧ b.dbgKeyHash = a.dbgKeyHash
  revoked : ∀ i, bit a.revoked i = true → bit b.revoked i = true
  svn : ∀ i, bit a.svnFuses i = true → bit b.svnFuses i = true
  rma : a.lifecycle = 3 → b.lifecycle = 3

/-! ### How a request comes to run (R37, R453, Table 14-5) -/

/-- The state that the request checks accept a request in, if they do. -/
def accepted (a : Admit) : Option State :=
  match a with
  | .accepted t => some t
  | _ => none

/-- The command in a berth has begun: its start time and its first step. -/
def begun (q : Req) (s : State) : State :=
  let v := berthOf s q.berth
  servedBerth q (setBerth s q.berth { v with started := some (v.started.getD (now s)), stepsDone := v.stepsDone + 1 })

/-- The berth holds this very command, which has not begun. -/
def heldBy (q : Req) (i : Instr) (s : State) : Prop :=
  (berthOf s q.berth).cmd.any (sameCmd i) = true ∧ (berthOf s q.berth).started = none

/-- The request `q` with command `i` runs its effect now, in the state `s₀`: berth service runs and hears the link, the
command is legal, either its berth holds it already, or it arrives, passes Table 14-5 and takes its berth, and no other berth
goes before it (R456). -/
def Starts (q : Req) (i : Instr) (code : Nat) (s s₀ : State) : Prop :=
  svcRuns s = true ∧ romHears s q = true ∧
  (∃ r, cmdRow code = some r ∧ legalNow s₀ code (statesOf i r) = true) ∧
  ((heldBy q i s ∧ nextBerth s = some q.berth ∧ s₀ = begun q s) ∨
   (¬ heldBy q i s ∧ ∃ t, accepted (admitReq q i code 0 0 (noteRequest q.link s)) = some t ∧
      nextBerth (occupy q i code 0 0 t) = some q.berth ∧ s₀ = begun q (occupy q i code 0 0 t)))

/-! ### Register writes (R493, R667) -/

/-- Entry `e` of a structure of `n` transfer words after a write of its first words. -/
def entryAfter (u reg n e : Nat) (vals : List W64) (s : State) : List Nat :=
  newEntry s u reg n e (e * n) (vals.map (·.toNat))

/-- The write is taken: the unit can be configured and the entry keeps every rule of its chapter. -/
def WriteTaken (u reg n e : Nat) (vals : List W64) (s : State) : Prop :=
  cfgReady s u = true ∧ checkEntry s u reg e (entryAfter u reg n e vals s) = ST_OK

/-- The state after a write that is taken. -/
def written (u reg n e : Nat) (vals : List W64) (s : State) : State := writeEntryWords u reg e (entryAfter u reg n e vals s) s

end Sys2Proof.Machine
end

