-- ==== Sys2Proof/Certificates/Slice0/Obligations.lean ====
section
/-! DEFINITION. The statements about the model, family by family. Where a statement says `exec … = .next t`, the term `t` is the
whole next state: a component that no operation in it names stays as it was. -/
open Sys2Proof Sys2Proof.Machine

/-- The helm (R461, Tables 14-8 and 14-9): the next state of each command of Table 15-12 that acts on HOLDER. -/
def Obligations.HelmCommandsChangeTheHolder : Prop :=
  (∀ (q : Req) (force : Bool) (s s₀ : State), Starts q (.helmClaim q force) 0x0901 s s₀ → (s₀.tow.claim = none) → (helmFree s₀ = true) →
    exec (.helmClaim q force) s = .next (complete q 0x0901 ST_OK [] (setHelm (linkCode q.link) (if force then 1 else 0) s₀))) ∧
  (∀ (q : Req) (s s₀ : State) (c : Claim), Starts q (.helmKeep q) 0x0902 s s₀ → (s₀.tow.claim = some c) →
    exec (.helmKeep q) s = .next (complete q 0x0902 ST_OK [] (finishBerth c.berth ST_CONFLICT [] { s₀ with tow := { s₀.tow with claim := none } }))) ∧
  (∀ (q : Req) (s s₀ : State), Starts q (.helmRelease q) 0x0903 s s₀ →
    exec (.helmRelease q) s = .next (complete q 0x0903 ST_OK [] (setHelm 15 3 s₀))) ∧
  (∀ (q : Req) (link : Nat) (s s₀ : State), Starts q (.helmHandover q link) 0x0904 s s₀ → ((link < 5 ∧ isHost s₀ link = true ∧ (ethOf s₀ link).phyUp = true) ∨ (8 ≤ link ∧ link ≤ 12 ∧ tget 0 s₀.tow.lastReq link ≠ 0)) →
    exec (.helmHandover q link) s = .next (complete q 0x0904 ST_OK [] (setHelm link 4 s₀)))

/-- PROGRESS_GET (R458, Table 14-6) and COMMAND_ABORT (R482, Table 15-13). -/
def Obligations.ProgressAndAbort : Prop :=
  (∀ (q : Req) (berth : Nat) (s s₀ : State), Starts q (.progressGet q berth) 0x0905 s s₀ →
    exec (.progressGet q berth) s = .next (complete q 0x0905 ST_OK (progressRecord s₀ berth) s₀)) ∧
  (∀ (q : Req) (berth : Nat) (s s₀ : State), Starts q (.commandAbort q berth) 0x0906 s s₀ → ((berthOf s₀ berth).cmd.isSome = true) → ((cmdRow (berthOf s₀ berth).code).any (·.long) = true) → (unabortable (berthOf s₀ berth).code = false) → (restartRuns s₀ berth = false) →
    exec (.commandAbort q berth) s = .next (complete q 0x0906 ST_OK [] (abortBerth berth s₀))) ∧
  (∀ (q : Req) (berth : Nat) (s s₀ : State), Starts q (.commandAbort q berth) 0x0906 s s₀ → ((berthOf s₀ berth).cmd.isSome = true) → ((cmdRow (berthOf s₀ berth).code).any (·.long) = true) → (unabortable (berthOf s₀ berth).code = false) → (restartRuns s₀ berth = true) →
    exec (.commandAbort q berth) s = .next s₀)

/-- Configuration commands (R493 to R496): the next state of each, whole. -/
def Obligations.ConfigurationCommands : Prop :=
  (∀ (q : Req) (unit reg entry word : Nat) (data : List W64) (s s₀ : State), Starts q (.configWrite q unit reg entry word data) 0x0201 s s₀ → (portalMay s₀ q [unit] = true) → ((cfgWrite unit reg entry word (data.map (·.toNat)) s₀).1 = ST_OK) →
    exec (.configWrite q unit reg entry word data) s = .next (complete q 0x0201 ST_OK [] (cfgWrite unit reg entry word (data.map (·.toNat)) s₀).2)) ∧
  (∀ (q : Req) (unit reg entry word count : Nat) (s s₀ : State), Starts q (.configRead q unit reg entry word count) 0x0202 s s₀ → (portalMay s₀ q [unit] = true) → ((cfgRead unit reg entry word count s₀).1 = ST_OK) →
    exec (.configRead q unit reg entry word count) s = .next (complete q 0x0202 ST_OK ((cfgRead unit reg entry word count s₀).2.1.flatMap (beBytes 8)) (cfgRead unit reg entry word count s₀).2.2)) ∧
  (∀ (q : Req) (unit first : Nat) (data : List W64) (s s₀ : State), Starts q (.routeWrite q unit first data) 0x0203 s s₀ → (portalMay s₀ q [unit] = true) → (utype unit = 0x05 ∨ utype unit = 0x0D) → (first + (pairsOf data).length ≤ (if utype unit = 0x05 then 4096 else 1024)) → (∀ e ∈ pairsOf data, checkEnt unit e.1 e.2 = ST_OK) → (cfgReady s₀ unit = true) →
    exec (.routeWrite q unit first data) s = .next (complete q 0x0203 ST_OK [] (((pairsOf data).zipIdx).foldl (fun s e => writeEnt unit (first + e.2) e.1 s) s₀)))

/-- Weights, sensor and filter commands (R497, R498, R115). Where the reset instant falls in its period is open: a free value. -/
def Obligations.WeightsAndSensorCommands : Prop :=
  (∀ (q : Req) (core matrix row : Nat) (last : Bool) (data : List Byte) (s s₀ : State), Starts q (.weightsWrite q core matrix row 0 last data) 0x0204 s s₀ → (portalMay s₀ q [uNE core] = true) → (unitReady s₀ (uNE core) = true) → (rd s₀ (uNE core) NRN_MAT.VALID matrix ≠ 0) → (row ≤ rd s₀ (uNE core) NRN_MAT.ROWS_M1 matrix) → (data.length ≤ strideOf s₀ core matrix) → (last = true → data.length = strideOf s₀ core matrix) →
    exec (.weightsWrite q core matrix row 0 last data) s = .next (complete q 0x0204 ST_OK (beBytes 2 data.length) (if last then putRowBytes core matrix row data (setRowAsm core (some ⟨matrix, row, data⟩) s₀)
      else setRowAsm core (some ⟨matrix, row, data⟩) s₀))) ∧
  (∀ (q : Req) (sluice target : Nat) (i2c : Bool) (wdata : List Byte) (rlen : Nat) (s s₀ : State), Starts q (.sensorI3c q sluice target i2c wdata rlen .silent) 0x0205 s s₀ → (portalMay s₀ q [uSL sluice] = true) → (unitReady s₀ (uSL sluice) = true) → (tget none s₀.tow.i3c sluice = none) →
    exec (.sensorI3c q sluice target i2c wdata rlen .silent) s = .next (setI3c sluice (some ⟨q.berth, now s₀⟩) s₀)) ∧
  (∀ (q : Req) (sluice target : Nat) (i2c : Bool) (wdata : List Byte) (rlen written : Nat) (read : List Byte) (s s₀ : State), Starts q (.sensorI3c q sluice target i2c wdata rlen (.ended false written read)) 0x0205 s s₀ → (portalMay s₀ q [uSL sluice] = true) → (unitReady s₀ (uSL sluice) = true) → (tget none s₀.tow.i3c sluice = none) →
    exec (.sensorI3c q sluice target i2c wdata rlen (.ended false written read)) s = .next (complete q 0x0205 ST_OK (beBytes 1 written ++ beBytes 1 read.length ++ read) s₀)) ∧
  (∀ (q : Req) (engines : Nat) (s s₀ : State), Starts q (.filterSync q engines) 0x0206 s s₀ → (portalMay s₀ q ((maskBits 3 engines).map uFE) = true) → (readyBit s₀ RB_INR = true) →
    exec (.filterSync q engines) s = .next (complete q 0x0206 ST_OK (beBytes 8 (now (drawFree 6 s₀).2 + 80 + (drawFree 6 s₀).1 % 41)) ((maskBits 3 engines).foldl (fun s e => scheduleReset e s) (drawFree 6 s₀).2)))

/-- Time commands of Table 15-8 (R499). -/
def Obligations.TimeCommands : Prop :=
  (∀ (q : Req) (s s₀ : State), Starts q (.timeGet q) 0x0301 s s₀ →
    exec (.timeGet q) s = .next (complete q 0x0301 ST_OK (beBytes 8 (now s₀) ++ ((upto 4).map (tmuStat s₀)).flatMap (beBytes 8)) s₀)) ∧
  (∀ (q : Req) (port profile role : Nat) (logSync logPdelay logAnnounce : Int) (prio1 prio2 : Nat) (s s₀ : State), Starts q (.ptpConfig q port profile role logSync logPdelay logAnnounce prio1 prio2) 0x0302 s s₀ → (profile = 2 → role ≠ 2 ∧ (upto 5).any (fun p => p != port && (ptpOf s₀ p).profile == 2) = false) →
    exec (.ptpConfig q port profile role logSync logPdelay logAnnounce prio1 prio2) s = .next (complete q 0x0302 ST_OK [] (setPtp s₀ port { ptpOf s₀ port with
      profile := profile, role := if profile = 2 then 1 else role, logSync := logSync, logPdelay := logPdelay,
      logAnnounce := logAnnounce, prio1 := prio1, prio2 := prio2 })))

/-- Power commands (R500, R626, R628, Table 20-3). -/
def Obligations.PowerCommands : Prop :=
  (∀ (q : Req) (level : Nat) (s s₀ : State), Starts q (.powerLevelSet q level) 0x0401 s s₀ → (s₀.pwr.entry = none ∧ s₀.pwr.exit_ = none) → (level = s₀.dev.level) → (level ≠ 4) →
    exec (.powerLevelSet q level) s = .next (complete q 0x0401 ST_OK (levelReply level 0 0) s₀)) ∧
  (∀ (q : Req) (level : Nat) (s s₀ : State), Starts q (.powerLevelSet q level) 0x0401 s s₀ → (s₀.pwr.entry = none ∧ s₀.pwr.exit_ = none) → (level < s₀.dev.level) → (level ≠ 4) →
    exec (.powerLevelSet q level) s = .next (setPwr s₀ { s₀.pwr with exit_ := some { src := 0, target := level, berth := some q.berth } })) ∧
  (∀ (q : Req) (s s₀ : State), Starts q (.powerLevelSet q 1) 0x0401 s s₀ → (s₀.pwr.entry = none ∧ s₀.pwr.exit_ = none) → (s₀.dev.level = 0) →
    exec (.powerLevelSet q 1) s = .next (complete q 0x0401 ST_OK (levelReply 1 0 0) (powerNotice 0 0 1 0xFF 0 0 { s₀ with dev := { s₀.dev with level := 1 } }))) ∧
  (∀ (q : Req) (level : Nat) (s s₀ : State), Starts q (.powerLevelSet q level) 0x0401 s s₀ → (s₀.pwr.entry = none ∧ s₀.pwr.exit_ = none) → (s₀.dev.level < level ∧ 2 ≤ level) → (level = 4 → s₀.dev.graph = none) → (refuser s₀ level none = none) →
    exec (.powerLevelSet q level) s = .next (setPwr s₀ { s₀.pwr with entry := some { target := level, berth := some q.berth } })) ∧
  (∀ (q : Req) (level : Nat) (s s₀ : State) (kd : Nat × Nat), Starts q (.powerLevelSet q level) 0x0401 s s₀ → (s₀.pwr.entry = none ∧ s₀.pwr.exit_ = none) → (s₀.dev.level < level ∧ 2 ≤ level) → (level = 4 → s₀.dev.graph = none) → (refuser s₀ level none = some kd) →
    exec (.powerLevelSet q level) s = .next (complete q 0x0401 ST_ABORTED (levelReply s₀.dev.level kd.1 kd.2) (refuse level kd.1 kd.2 s₀))) ∧
  (∀ (q : Req) (limit : Nat) (s s₀ : State), Starts q (.powerLimitSet q limit) 0x0402 s s₀ →
    exec (.powerLimitSet q limit) s = .next (complete q 0x0402 ST_OK (beBytes 2 limit) (setPwr s₀ { s₀.pwr with limit := limit }))) ∧
  (∀ (q : Req) (s s₀ : State), Starts q (.powerStatusGet q) 0x0403 s s₀ →
    exec (.powerStatusGet q) s = .next (complete q 0x0403 ST_OK (beBytes 1 s₀.dev.level ++ beBytes 1 (rung s₀ 0) ++ beBytes 2 s₀.pwr.limit ++ beBytes 4 s₀.pwr.mw
      ++ beBytes 2 (lowBits 16 (tjMax s₀)) ++ beBytes 2 s₀.pwr.vddMv ++ beBytes 4 s₀.pwr.refusals ++ beBytes 2 s₀.pwr.lastKind
      ++ beBytes 2 s₀.pwr.lastDetail) s₀))

/-- Unit commands (R501, R502, Table 15-11) and the unit record. -/
def Obligations.UnitCommands : Prop :=
  (∀ (q : Req) (unit : Nat) (s s₀ : State), Starts q (.unitQuarantine q unit) 0x0501 s s₀ → (unitReady s₀ (recordUnit unit) = true) → ((unitOf s₀ (recordUnit unit)).st ≠ .quarantined ∧ (unitOf s₀ (recordUnit unit)).st ≠ .failed) → ((unitOf s₀ (recordUnit unit)).st = .assigned → (spareFor s₀ (recordUnit unit)).isSome = true) →
    exec (.unitQuarantine q unit) s = .next (complete q 0x0501 ST_OK (beBytes 2 (quarantine 0 5 0 (recordUnit unit) s₀).1) (quarantine 0 5 0 (recordUnit unit) s₀).2)) ∧
  (∀ (q : Req) (unit : Nat) (s s₀ : State), Starts q (.unitRelease q unit) 0x0502 s s₀ → ((unitOf s₀ (recordUnit unit)).st = .quarantined) → ((unitOf s₀ (recordUnit unit)).conflict = false) → (releasedSt s₀ (recordUnit unit) ≠ .assigned) →
    exec (.unitRelease q unit) s = .next (complete q 0x0502 ST_OK (beBytes 1 (unitCode (releasedSt s₀ (recordUnit unit)))) (settleState (unitNotice 17 ST_OK (recordUnit unit) 0 0xFFFF
      (setTest (recordUnit unit)
        { testOf (setUnit s₀ (recordUnit unit) { unitOf s₀ (recordUnit unit) with
            st := releasedSt s₀ (recordUnit unit), job := 0xFF, since := now s₀ }) (recordUnit unit) with ladder := none, passes := 0 }
        (setUnit s₀ (recordUnit unit) { unitOf s₀ (recordUnit unit) with
          st := releasedSt s₀ (recordUnit unit), job := 0xFF, since := now s₀ })))))) ∧
  (∀ (q : Req) (unit vstep fstep : Nat) (s s₀ : State), Starts q (.unitMargin q unit vstep fstep) 0x0503 s s₀ → (marginable unit = true) → (utype unit = 0x08 → fstep = 0) → ((unitOf s₀ unit).st = .quarantined ∨ (unitOf s₀ unit).st = .spare) →
    exec (.unitMargin q unit vstep fstep) s = .next (complete q 0x0503 ST_OK [] (setMargin unit vstep fstep s₀))) ∧
  (∀ (q : Req) (unit : Nat) (s s₀ : State), Starts q (.unitStatusGet q unit) 0x0804 s s₀ → (portalMay s₀ q [unit] = true) →
    exec (.unitStatusGet q unit) s = .next (complete q 0x0804 ST_OK (beBytes 1 (unitCode (unitOf s₀ (recordUnit unit)).st)
      ++ beBytes 1 (b2n (unitReady s₀ unit) + b2n (unitOf s₀ (recordUnit unit)).conflict * 2
        + b2n ((unitOf s₀ (recordUnit unit)).vstep != 0 || (unitOf s₀ (recordUnit unit)).fstep != 0) * 4)
      ++ beBytes 1 (unitOf s₀ (recordUnit unit)).job ++ beBytes 1 (unitOf s₀ (recordUnit unit)).vstep
      ++ beBytes 1 (unitOf s₀ (recordUnit unit)).fstep ++ beBytes 3 0 ++ beBytes 8 (unitOf s₀ (recordUnit unit)).since) s₀))

/-- Test and window commands (R503, R523, R524, R598). -/
def Obligations.TestCommands : Prop :=
  (∀ (q : Req) (length : Nat) (s s₀ : State) (f : FwImg), Starts q (.testContentLoad q length) 0x0504 s s₀ → (secReady s₀ = true) → (length ≤ (stageOf s₀ 2).data.length) → (verifyImg ((stageOf s₀ 2).data.take length) 1 s₀ = some f) →
    exec (.testContentLoad q length) s = .next (complete q 0x0504 ST_OK (beBytes 4 f.version ++ beBytes 32 f.meas) ((contentSuspects s₀ (f.bytes.drop 1024)).foldl (fun s u => suspectUnit u s) (setSec (setPass s₀ { s₀.pass with
        content := some f.version, sections := contentSections (f.bytes.drop 1024),
        suspects := contentSuspects s₀ (f.bytes.drop 1024) })
      { s₀.sec with contentMeas := f.meas, journal := f.bytes })))) ∧
  (∀ (q : Req) (enable : Bool) (rotation : Nat) (s s₀ : State), Starts q (.testControl q enable rotation) 0x0505 s s₀ →
    exec (.testControl q enable rotation) s = .next (complete q 0x0505 ST_OK [] (setPass s₀ { s₀.pass with testOn := enable, rotation := rotation }))) ∧
  (∀ (q : Req) (back count : Nat) (s s₀ : State), Starts q (.windowLogRead q back count) 0x0506 s s₀ →
    exec (.windowLogRead q back count) s = .next (complete q 0x0506 ST_OK (beBytes 1 ((s₀.pass.log.drop back).take count).length ++ beBytes 7 0 ++ ((s₀.pass.log.drop back).take count).flatMap winEntryBytes) s₀))

/-- Staging and graph commands (R485, R508, Tables 15-2 and 15-3). -/
def Obligations.StagingCommands : Prop :=
  (∀ (q : Req) (kind total : Nat) (s s₀ : State), Starts q (.blobBegin q kind total) 0x0A01 s s₀ → (total ≤ stageSize kind) → (kind = 0 → readyBit s₀ RB_DDR = true) → (stageBusy s₀ q kind = false) →
    exec (.blobBegin q kind total) s = .next (complete q 0x0A01 ST_OK [] (if kind = 1 then setSec (setStage s₀ kind { begun := true, total := total, data := [] })
        { (setStage s₀ kind { begun := true, total := total, data := [] }).sec with staged := none }
      else setStage s₀ kind { begun := true, total := total, data := [] }))) ∧
  (∀ (q : Req) (kind : Nat) (data : List Byte) (s s₀ : State) (offset : Nat), Starts q (.blobWrite q kind offset data) 0x0A02 s s₀ → ((stageOf s₀ kind).begun = true) → (offset = (stageOf s₀ kind).data.length) → (stageBusy s₀ q kind = false) → ((stageOf s₀ kind).data.length + data.length ≤ (stageOf s₀ kind).total) →
    exec (.blobWrite q kind offset data) s = .next (complete q 0x0A02 ST_OK (beBytes 4 ((stageOf s₀ kind).data.length + data.length)) (if kind = 0 then ramPut (setStage s₀ kind { stageOf s₀ kind with data := (stageOf s₀ kind).data ++ data })
        (stageOf s₀ kind).data.length data
      else setStage s₀ kind { stageOf s₀ kind with data := (stageOf s₀ kind).data ++ data }))) ∧
  (∀ (q : Req) (length digest : Nat) (s s₀ : State), Starts q (.graphLoad q length digest) 0x0101 s s₀ → ((stageOf s₀ 0).begun = true ∧ (stageOf s₀ 0).data.length = length) → (sha256 (ramBytes s₀ 0 length) = digest) → ((admitGraph (ramBytes s₀ 0 length) s₀).1 = ST_OK) →
    exec (.graphLoad q length digest) s = .next (complete q 0x0101 ST_OK (beBytes 32 digest ++ beBytes 1 (leAt (ramBytes s₀ 0 length) 12 1) ++ beBytes 3 0) (setState .loaded (admitGraph (ramBytes s₀ 0 length) s₀).2)))

/-- GRAPH_UNLOAD (R488): what a graph left behind is gone. -/
def Obligations.GraphUnloadClearsTheGraph : Prop :=
  ∀ (q : Req) (s s₀ : State), Starts q (.graphUnload q) 0x0102 s s₀ → ∃ t,
    exec (.graphUnload q) s = .next (complete q 0x0102 ST_OK [] t) ∧ t.dev.state = .idle ∧ t.dev.graph = none ∧ t.dev.jobs = [] ∧
    t.apx.jobctl = [] ∧ t.apx.msi = [] ∧ t.apx.harts = [] ∧ t.pass.steps = [] ∧ t.pass.replay = [] ∧
    t.pass.restart = [] ∧ t.pass.undo = []

/-- Job commands (R482, R486, R487, R489, R507, R510, Tables 11-9 and 19-5). -/
def Obligations.JobCommands : Prop :=
  (∀ (q : Req) (mask : Nat) (fromCkpt : Bool) (s s₀ : State), Starts q (.jobStart q mask fromCkpt) 0x0103 s s₀ → (absentJob s₀ mask = false) → ((maskBits 8 mask).all (fun j => !jobRuns s₀ j && jobReady s₀ j) = true) → (s₀.dev.level < 2 ∧ s₀.pwr.entry.any (·.quiesced) = false) → (fromCkpt = true → (maskBits 8 mask).all (fun j => (jobOf s₀ j).committed.isSome) = true) →
    exec (.jobStart q mask fromCkpt) s = .next (complete q 0x0103 ST_OK (beBytes 1 mask) (settleState ((maskBits 8 mask).foldl (startJob fromCkpt) (abortEntry 4 ((maskBits 8 mask).headD 0) s₀))))) ∧
  (∀ (q : Req) (mask : Nat) (s s₀ : State), Starts q (.jobStop q mask) 0x0104 s s₀ → (absentJob s₀ mask = false) → ((maskBits 8 mask).all (fun j => jobRuns s₀ j && (jobOf s₀ j).stopBerth.isNone) = true) →
    exec (.jobStop q mask) s = .next ((maskBits 8 mask).foldl (askStop q.berth) ((maskBits 8 mask).foldl (fun s j => setJob s j { jobOf s j with stopBerth := some q.berth }) s₀))) ∧
  (∀ (q : Req) (job : Nat) (s s₀ : State), Starts q (.jobCheckpoint q job) 0x0105 s s₀ → (job < 8 ∧ (jobOf s₀ job).exist = true) → (jobTakes s₀ job = true) → ((jobOf s₀ job).stopping = none) →
    exec (.jobCheckpoint q job) s = .next (ckptBegin job (jobWindow s₀ job) [q.berth] s₀)) ∧
  (∀ (q : Req) (job : Nat) (s s₀ : State), Starts q (.jobRestart q job) 0x0106 s s₀ → (job < 8 ∧ (jobOf s₀ job).exist = true) → (jobRuns s₀ job = true) → ((jobOf s₀ job).committed.isSome = true) →
    exec (.jobRestart q job) s = .next (beginRestart job 5 0xFFFF 0 (some q.berth) s₀)) ∧
  (∀ (q : Req) (s s₀ : State), Starts q (.safeExit q) 0x0107 s s₀ → (s₀.safe.active = 0) → (imageHolds s₀ = true) →
    exec (.safeExit q) s = .next (complete q 0x0107 ST_OK (beBytes 1 (stateCode (if s₀.dev.graph.isSome then setState .loaded s₀ else if s₀.sec.told then setState .idle s₀ else firstIdle s₀).dev.state)) ((upto 4).foldl (fun s h => fillPolicer h s)
      (if s₀.dev.graph.isSome then setState .loaded s₀ else if s₀.sec.told then setState .idle s₀ else firstIdle s₀)))) ∧
  (∀ (q : Req) (berth : Nat) (s s₀ : State), Starts q (.commandAbort q berth) 0x0906 s s₀ → ((berthOf s₀ berth).cmd.isSome = true) → ((cmdRow (berthOf s₀ berth).code).any (·.long) = true) → (unabortable (berthOf s₀ berth).code = false) → (restartRuns s₀ berth = false) →
    exec (.commandAbort q berth) s = .next (complete q 0x0906 ST_OK [] (abortBerth berth s₀))) ∧
  (∀ (q : Req) (berth : Nat) (s s₀ : State), Starts q (.commandAbort q berth) 0x0906 s s₀ → ((berthOf s₀ berth).cmd.isSome = true) → ((cmdRow (berthOf s₀ berth).code).any (·.long) = true) → (unabortable (berthOf s₀ berth).code = false) → (restartRuns s₀ berth = true) →
    exec (.commandAbort q berth) s = .next s₀)

/-- Firmware, key and lifecycle commands (R504, R505, R523, R530 to R533, R540, R542, Table 16-5). -/
def Obligations.FirmwareAndKeyCommands : Prop :=
  (∀ (q : Req) (length : Nat) (s s₀ : State) (f : FwImg), Starts q (.fwStage q length) 0x0601 s s₀ → (secReady s₀ = true) → (s₀.sec.act = none) → (length ≤ (stageOf s₀ 1).data.length) → (verifyImg ((stageOf s₀ 1).data.take length) 0 s₀ = some f) →
    exec (.fwStage q length) s = .next (complete q 0x0601 ST_OK (beBytes 4 f.version ++ beBytes 32 f.meas ++ beBytes 1 f.slot) (setSec s₀ { s₀.sec with staged := some f }))) ∧
  (∀ (q : Req) (version : Nat) (s s₀ : State) (f : FwImg), Starts q (.fwActivate q version) 0x0602 s s₀ → (s₀.sec.staged = some f) → (f.version = version) → (s₀.sec.act = none) → (otherHolds s₀ q (fun i c => c == 0x0601 || c == 0x0605 || c == 0x060A
      || (match i with | .blobBegin _ 1 _ => true | .blobWrite _ 1 _ _ => true | _ => false)) = false) → (s₀.dev.state ≠ .boot) →
    exec (.fwActivate q version) s = .next (setSec s₀ { s₀.sec with act := some { berth := q.berth, image := f } })) ∧
  (∀ (q : Req) (slot : Nat) (sig : List Byte) (s s₀ : State), Starts q (.keyRevoke q slot sig) 0x0605 s s₀ → (secReady s₀ = true) → (s₀.sec.act = none) → (s₀.sec.fw.any (fun f => f.slot == slot) = false) → (signedByFw s₀ (revokeMsg slot) sig = true) →
    exec (.keyRevoke q slot sig) s = .next (complete q 0x0605 ST_OK [] (setSec s₀ { s₀.sec with
      revoked := setBits s₀.sec.revoked slot 1 1,
      staged := if s₀.sec.staged.any (fun f => f.slot == slot) then none else s₀.sec.staged }))) ∧
  (∀ (q : Req) (sig : List Byte) (s s₀ : State), Starts q (.lifecycleSet q 1 sig) 0x060A s s₀ → (secReady s₀ = true) → (s₀.sec.act = none) → (signedByFw s₀ (lifecycleMsg 1 s₀) sig = true) → (s₀.sec.lifecycle = 0 ∧ s₀.sec.devKey = true ∧ s₀.sec.chain ≠ []) →
    exec (.lifecycleSet q 1 sig) s = .next (complete q 0x060A ST_OK [1] (endSession (setSec s₀ { s₀.sec with lifecycle := 1 })))) ∧
  (∀ (q : Req) (sig : List Byte) (s s₀ : State), Starts q (.lifecycleSet q 3 sig) 0x060A s s₀ → (secReady s₀ = true) → (s₀.sec.act = none) → (signedByFw s₀ (lifecycleMsg 3 s₀) sig = true) → (s₀.sec.lifecycle = 1) →
    exec (.lifecycleSet q 3 sig) s = .next (complete q 0x060A ST_OK (beBytes 1 (lifecycleCode (let t := rmaZeroise (setSec s₀ { s₀.sec with lifecycle := 3 }); if t.dev.state = .loaded then setState .idle t else t))) (let t := rmaZeroise (setSec s₀ { s₀.sec with lifecycle := 3 }); if t.dev.state = .loaded then setState .idle t else t))) ∧
  (∀ (q : Req) (port cknLen cak ckn : Nat) (s s₀ : State), Starts q (.macsecKeySet q port cknLen cak ckn) 0x0609 s s₀ →
    exec (.macsecKeySet q port cknLen cak ckn) s = .next (complete q 0x0609 ST_OK [] (setEth s₀ port { ethOf s₀ port with macsecCak := cak, macsecCkn := ckn, cknLen := cknLen })))

/-- Identity and debug commands (R505, R539, R541, Table 16-6); the signature bytes and the challenge are free values. -/
def Obligations.IdentityAndDebugCommands : Prop :=
  (∀ (q : Req) (nonce : Nat) (s s₀ : State), Starts q (.attestQuote q nonce) 0x0603 s s₀ → (secReady s₀ = true) →
    exec (.attestQuote q nonce) s = .next (complete q 0x0603 ST_OK (quoteBody nonce s₀ ++ beBytes 128 (drawFree 1024 s₀).1 ++ beBytes 128 (drawFree 1024 (drawFree 1024 s₀).2).1
      ++ beBytes 128 (drawFree 1024 (drawFree 1024 (drawFree 1024 s₀).2).2).1) (drawFree 1024 (drawFree 1024 (drawFree 1024 s₀).2).2).2)) ∧
  (∀ (q : Req) (offset : Nat) (s s₀ : State), Starts q (.identityGet q offset) 0x0604 s s₀ →
    exec (.identityGet q offset) s = .next (complete q 0x0604 ST_OK (beBytes 4 s₀.sec.chain.length ++ (s₀.sec.chain.drop offset).take 1192) s₀)) ∧
  (∀ (q : Req) (s s₀ : State), Starts q (.debugChallenge q) 0x0606 s s₀ →
    exec (.debugChallenge q) s = .next (complete q 0x0606 ST_OK (beBytes 32 (drawFree 256 s₀).1) (setSec (drawFree 256 s₀).2 { (drawFree 256 s₀).2.sec with challenge := some ((drawFree 256 s₀).1, now (drawFree 256 s₀).2) }))) ∧
  (∀ (q : Req) (scope : Nat) (sig : List Byte) (s s₀ : State) (c : Nat) (f : FwImg), Starts q (.debugUnlock q scope sig) 0x0607 s s₀ → (s₀.sec.lifecycle = 1 ∧ s₀.sec.session = none) → (secReady s₀ = true) → (validChallenge s₀ = some c ∧ s₀.sec.fw = some f) → (s₀.sec.dbgKeyHash ≠ 0 ∧ sha256 (beBytes 384 f.dbgPub) = s₀.sec.dbgKeyHash) → (scope ≠ 0 ∧ pssVerify f.dbgPub (beBytes 32 c ++ beBytes 1 scope ++ uidBytes s₀) sig = true) →
    exec (.debugUnlock q scope sig) s = .next (complete q 0x0607 ST_OK (beBytes 1 2) (setSec s₀ { s₀.sec with challenge := none, session := some (scope, now s₀) }))) ∧
  (∀ (q : Req) (s s₀ : State), Starts q (.debugLock q) 0x0608 s s₀ → (s₀.sec.lifecycle = 1) →
    exec (.debugLock q) s = .next (complete q 0x0608 ST_OK (beBytes 1 1) (endSession s₀)))

/-- Result commands (R354 to R358, R506, Table 15-10). -/
def Obligations.ResultCommands : Prop :=
  (∀ (q : Req) (stream selector seq offset length : Nat) (s s₀ : State) (i : Nat) (v : Slot), Starts q (.resultRead q stream selector seq offset length) 0x0701 s s₀ → (portalMay s₀ q [uSTREAM stream] = true) → (resolveRead s₀ stream selector seq = .record i v) → (offset < v.bytes ∧ bit v.marks (readerBit q.link) = false) → (ramBad s₀ (slotAddr s₀ stream i) 32 = false ∧ ramBad s₀ (slotAddr s₀ stream i + offset) (min length (v.bytes - offset)) = false) →
    exec (.resultRead q stream selector seq offset length) s = .next (complete q 0x0701 ST_OK ((ramBytes s₀ (slotAddr s₀ stream i) v.bytes).take 32 ++ (beBytes 4 (oldestSeq s₀ stream) ++ beBytes 4 (strOf s₀ stream).lastSeq)
      ++ ((ramBytes s₀ (slotAddr s₀ stream i) v.bytes).drop offset).take (min length (v.bytes - offset))) (if offset + min length (v.bytes - offset) = v.bytes then markRead stream i (readerBit q.link) s₀ else s₀))) ∧
  (∀ (q : Req) (stream seq : Nat) (s s₀ : State), Starts q (.resultRelease q stream seq) 0x0702 s s₀ → (portalMay s₀ q [uSTREAM stream] = true) → (mayRelease s₀ q stream = true) → ((resultRelease stream seq s₀).1 = ST_OK) →
    exec (.resultRelease q stream seq) s = .next (complete q 0x0702 ST_OK (beBytes 4 (strOf (resultRelease stream seq s₀).2 stream).relSeq) (resultRelease stream seq s₀).2)) ∧
  (∀ (q : Req) (stream port cls everyM1 : Nat) (s s₀ : State) (i : Nat), Starts q (.subscribe q stream port cls everyM1) 0x0703 s s₀ → (port < 5 → isHost s₀ port = true) → ((upto 32).find? (fun i => subF s₀ i RES_SUB.VALID == 0) = some i) →
    exec (.subscribe q stream port cls everyM1) s = .next (complete q 0x0703 ST_OK (beBytes 1 i) { setRegWord s₀ uDEV 0x0803 i 0 (stream + port * 2 ^ 6 + cls * 2 ^ 9 + everyM1 * 2 ^ 11 + 2 ^ 19) with
      res := { (setRegWord s₀ uDEV 0x0803 i 0 (stream + port * 2 ^ 6 + cls * 2 ^ 9 + everyM1 * 2 ^ 11 + 2 ^ 19)).res with
        subs := tset {} (setRegWord s₀ uDEV 0x0803 i 0 (stream + port * 2 ^ 6 + cls * 2 ^ 9 + everyM1 * 2 ^ 11 + 2 ^ 19)).res.subs i
          { creator := some q.link } } })) ∧
  (∀ (q : Req) (sub : Nat) (s s₀ : State), Starts q (.unsubscribe q sub) 0x0704 s s₀ → (subF s₀ sub RES_SUB.VALID ≠ 0) → ((tget {} s₀.res.subs sub).creator = some q.link) →
    exec (.unsubscribe q sub) s = .next (complete q 0x0704 ST_OK [] (dropSub sub s₀)))

/-- Status commands (R458, R509, R520, Tables 14-6 and 15-13). -/
def Obligations.StatusCommands : Prop :=
  (∀ (q : Req) (s s₀ : State), Starts q (.statusGet q) 0x0801 s s₀ →
    exec (.statusGet q) s = .next (complete q 0x0801 ST_OK (beBytes 4 (lkpState s₀) ++ beBytes 8 s₀.dev.ready ++ beBytes 1 s₀.dev.level ++ beBytes 1 (lifecycleCode s₀)
      ++ beBytes 2 0 ++ beBytes 4 (if s₀.dev.state = .boot then 0 else fwVersion s₀) ++ beBytes 32 (graphMeas s₀) ++ beBytes 8 (now s₀)) s₀)) ∧
  (∀ (q : Req) (unit block entry first count : Nat) (clear : Bool) (s s₀ : State) (d : CntDesc), Starts q (.countersRead q unit block entry first count clear) 0x0802 s s₀ → (portalMay s₀ q [unit] = true) → (cntDescOf unit block = some d) → (first + count ≤ d.count ∧ entry < cntEntries block) → (unitReady s₀ unit = true) → (clear = true → holdsHelm s₀ q = true) →
    exec (.countersRead q unit block entry first count clear) s = .next (complete q 0x0802 ST_OK (readCounters unit block entry clear ((upto count).map (first + ·)) ([], s₀)).1 (readCounters unit block entry clear ((upto count).map (first + ·)) ([], s₀)).2)) ∧
  (∀ (q : Req) (start count : Nat) (s s₀ : State) (n : Notice) (r : List Notice), Starts q (.noticeLogRead q start count) 0x0803 s s₀ → (s₀.tow.log.reverse = n :: r) → (start ≤ s₀.tow.logSeq ∧ n.seq ≤ start) →
    exec (.noticeLogRead q start count) s = .next (complete q 0x0803 ST_OK (beBytes 1 (((s₀.tow.log.reverse).filter (fun m => decide (max start n.seq ≤ m.seq))).take count).length ++ beBytes 3 0
      ++ (((s₀.tow.log.reverse).filter (fun m => decide (max start n.seq ≤ m.seq))).take count).flatMap logEntry) s₀)) ∧
  (∀ (q : Req) (berth : Nat) (s s₀ : State), Starts q (.progressGet q berth) 0x0905 s s₀ →
    exec (.progressGet q berth) s = .next (complete q 0x0905 ST_OK (progressRecord s₀ berth) s₀))

/-- The queue is first in, first out: a step is the front command and nothing else. -/
def Obligations.StepRunsTheFrontCommand : Prop :=
  ∀ (c : Instr) (r : List Instr) (s : State), step (s.withPending (c :: r)) = exec c (s.withPending r)

/-- An empty queue idles: the choice of log entry 1. -/
def Obligations.AnEmptyQueueIdles : Prop :=
  ∀ s : State, s.pending = [] → step s = .next s

/-- The spec gives every step an effect, if only that nothing happens; no path of the model stops. -/
def Obligations.EveryCommandAnswersANextState : Prop :=
  ∀ (c : Instr) (s : State), ∃ t, exec c s = .next t

/-- The state after a device reset (R34, R35, R460, R513, R615). -/
def Obligations.ResetLeaves : Prop :=
  State.reset.dev.state = .boot ∧ State.reset.dev.level = 0 ∧ State.reset.dev.ready = 0 ∧ State.reset.tow.holder = 15 ∧
  State.reset.dev.graph = none ∧ State.reset.dev.jobs = [] ∧ State.reset.safe.active = 0 ∧ now State.reset = 0 ∧
  safeNHigh State.reset = false ∧ State.reset.ram = [] ∧ State.reset.ramPoison = [] ∧ State.reset.regs = [] ∧
  State.reset.cnt = [] ∧ State.reset.pending = []

/-- The invariant holds at reset. -/
def Obligations.ResetIsCanonical : Prop :=
  State.reset.Canon

/-- The canonical form is an invariant of every step. -/
def Obligations.StepKeepsTheCanonicalForm : Prop :=
  ∀ s t : State, s.Canon → step s = .next t → t.Canon

/-- A command acts on everything but the queue. -/
def Obligations.CommandsLeaveTheQueue : Prop :=
  ∀ (c : Instr) (s t : State), exec c s = .next t → t.pending = s.pending

/-- R513 (fuses are kept across every reset), R530 (a one-way counter), R531 (revocation is permanent), R540 (RMA is final). -/
def Obligations.FusesOnlyBurnForward : Prop :=
  ∀ s t : State, step s = .next t → FusesForward s.sec t.sec

/-- R17: a failed command leaves device state, unit state and configuration as before. -/
def Obligations.AFailedCommandKeepsTheState : Prop :=
  ∀ (q : Req) (i : Instr) (code : Nat) (eff : State → CmdRes) (s s₀ : State) (st : Nat) (payload : List Byte),
    Starts q i code s s₀ → (eff s₀).res = some (st, payload) → keepsEffects st = false → (eff s₀).keep = false →
    serve q i code eff s = complete q code st payload s₀

/-- R453: a reply from the steps before the berth is occupied leaves the berth as it was. R454: a duplicate does not run again. -/
def Obligations.ARefusedRequestLeavesItsBerth : Prop :=
  (∀ (q : Req) (i : Instr) (code : Nat) (eff : State → CmdRes) (s u : State) (st : Nat), svcRuns s = true → romHears s q = true →
    ¬ heldBy q i s → admitReq q i code 0 0 (noteRequest q.link s) = .rejected st u → (∀ j, q.link ≠ .portal j) →
    serve q i code eff s = rejectReq q 0 0 code st u ∧ (rejectReq q 0 0 code st u).tow.berths = s.tow.berths) ∧
  (∀ (q : Req) (i : Instr) (code : Nat) (eff : State → CmdRes) (s u : State), svcRuns s = true → romHears s q = true →
    ¬ heldBy q i s → admitReq q i code 0 0 (noteRequest q.link s) = .absorbed u →
    serve q i code eff s = u ∧ u.tow.berths = s.tow.berths)

/-- Device resets (R34, R513, R514, R521): what is left and what is kept. -/
def Obligations.DeviceResets : Prop :=
  (∀ (s : State), (s.sec.brownout = false) → 
    ∃ t, exec .powerOnReset s = .next t ∧ t.dev.state = .boot ∧ t.dev.ready = 0 ∧ t.dev.graph = none ∧ t.dev.jobs = [] ∧ t.tow.holder = 15 ∧ t.ram = [] ∧ t.regs = [] ∧
      t.cnt = [] ∧ t.time.sec = 0 ∧ t.time.ns = 0 ∧ t.safe.active = 0 ∧ t.sec.uid = s.sec.uid ∧ t.sec.baseMac = s.sec.baseMac ∧ t.sec.lifecycle = s.sec.lifecycle ∧
      t.sec.revoked = s.sec.revoked ∧ t.sec.svnFuses = s.sec.svnFuses ∧ t.sec.rstc = 1) ∧
  (∀ (s : State), ∃ t, exec .brownOut s = .next t ∧ t.dev.state = .boot ∧ t.dev.ready = 0 ∧ t.dev.graph = none ∧ t.dev.jobs = [] ∧ t.tow.holder = 15 ∧ t.ram = [] ∧ t.regs = [] ∧
      t.cnt = [] ∧ t.time.sec = 0 ∧ t.time.ns = 0 ∧ t.safe.active = 0 ∧ t.sec.uid = s.sec.uid ∧ t.sec.baseMac = s.sec.baseMac ∧ t.sec.lifecycle = s.sec.lifecycle ∧
      t.sec.revoked = s.sec.revoked ∧ t.sec.svnFuses = s.sec.svnFuses ∧ t.sec.rstc = 0x11) ∧
  (∀ (bootMode : Bool) (s : State), ∃ t, exec (.externalReset bootMode) s = .next t ∧ t.dev.state = .boot ∧ t.dev.ready = 0 ∧ t.dev.graph = none ∧ t.dev.jobs = [] ∧ t.tow.holder = 15 ∧ t.ram = [] ∧ t.regs = [] ∧
      t.cnt = [] ∧ t.time.sec = 0 ∧ t.time.ns = 0 ∧ t.safe.active = 0 ∧ t.sec.uid = s.sec.uid ∧ t.sec.baseMac = s.sec.baseMac ∧ t.sec.lifecycle = s.sec.lifecycle ∧
      t.sec.revoked = s.sec.revoked ∧ t.sec.svnFuses = s.sec.svnFuses ∧ t.sec.rstc = setBits s.sec.rstc 1 1 1 ∧ t.sec.bootMode = bootMode) ∧
  (∀ (s : State), (s.sec.act.any (·.exchanged.isSome) = false) → 
    ∃ t, exec .watchdogReset s = .next t ∧ t.dev.state = .boot ∧ t.dev.ready = 0 ∧ t.dev.graph = none ∧ t.dev.jobs = [] ∧ t.tow.holder = 15 ∧ t.ram = [] ∧ t.regs = [] ∧
      t.cnt = [] ∧ t.time.sec = 0 ∧ t.time.ns = 0 ∧ t.safe.active = 0 ∧ t.sec.uid = s.sec.uid ∧ t.sec.baseMac = s.sec.baseMac ∧ t.sec.lifecycle = s.sec.lifecycle ∧
      t.sec.revoked = s.sec.revoked ∧ t.sec.svnFuses = s.sec.svnFuses ∧ t.sec.rstc = setBits s.sec.rstc 2 1 1) ∧
  (∀ (s : State), (s.sec.act.any (·.exchanged.isSome) = true) → 
    exec .watchdogReset s = .next s) ∧
  (∀ (s : State), (bit (dbgScope s) 1 = true) → 
    ∃ t, exec .debugSysReset s = .next t ∧ t.dev.state = .boot ∧ t.dev.ready = 0 ∧ t.dev.graph = none ∧ t.dev.jobs = [] ∧ t.tow.holder = 15 ∧ t.ram = [] ∧ t.regs = [] ∧
      t.cnt = [] ∧ t.time.sec = 0 ∧ t.time.ns = 0 ∧ t.safe.active = 0 ∧ t.sec.uid = s.sec.uid ∧ t.sec.baseMac = s.sec.baseMac ∧ t.sec.lifecycle = s.sec.lifecycle ∧
      t.sec.revoked = s.sec.revoked ∧ t.sec.svnFuses = s.sec.svnFuses ∧ t.sec.rstc = setBits s.sec.rstc 3 1 1) ∧
  (∀ (s : State), (bit (dbgScope s) 1 = false) → 
    exec .debugSysReset s = .next s)

/-- The supply sequence (R644, R657, R658). -/
def Obligations.SupplySequence : Prop :=
  (∀ (s : State), exec (.powerUpSequence .vsysSafe) s = .next (setPwr s { s.pwr with enAux := true })) ∧
  (∀ (s : State), (s.pwr.enAux = true) → 
    exec (.powerUpSequence .aux) s = .next (setPwr s { s.pwr with enDdr := true })) ∧
  (∀ (s : State), (s.pwr.enDdr = true) → 
    exec (.powerUpSequence .ddr) s = .next (setPwr s { s.pwr with enCore := true })) ∧
  (∀ (s : State), (s.pwr.enCore = true) → 
    exec (.powerUpSequence .core) s = .next (setPwr s { s.pwr with por := false })) ∧
  (∀ (s : State), (s.pwr.exit_ = none ∧ s.pwr.por = true) → 
    exec .railTimeout s = .next (setPwr s { s.pwr with enAux := false, enDdr := false, enCore := false, por := true })) ∧
  (∀ (s : State), (s.pwr.exit_.isSome = true) → 
    exec .railTimeout s = .next (powerOnReset s)) ∧
  (∀ (s : State), (s.pwr.exit_ = none ∧ s.pwr.por = false) → 
    exec .railTimeout s = .next s) ∧
  (∀ (s : State), exec .vsysSafeFall s = .next (setPwr s { s.pwr with enAux := false, enDdr := false, enCore := false, por := true }))

/-- Bring-up (R515 to R519, R520). -/
def Obligations.BringUp : Prop :=
  (∀ (unit : Nat) (s : State), (testedUnit unit = true ∧ unit ≠ uDEV ∧ (unitOf s (recordUnit unit)).st ≠ .failed) → (s.dev.state ≠ .boot ∧ s.dev.romSafe = false ∧ s.pwr.por = false) → ((unitBit unit).any (readyBit s) = false) → 
    exec (.selfTestDone unit true) s = .next (readied unit s)) ∧
  (∀ (unit : Nat) (s : State), (testedUnit unit = true ∧ unit ≠ uDEV ∧ (unitOf s (recordUnit unit)).st ≠ .failed) → (s.dev.state ≠ .boot ∧ s.dev.romSafe = false ∧ s.pwr.por = false) → ((unitBit unit).any (readyBit s) = false) → 
    exec (.selfTestDone unit false) s = .next (unitFails (recordUnit unit) s)) ∧
  (∀ (chan gib : Nat) (s : State), (chan < 2 ∧ readyBit s (RB_DDR + chan) = false ∧ s.dev.state ≠ .boot) → 
    exec (.ddrTrainingDone chan (.trained gib)) s = .next { s with dev := { s.dev with
      ddrGib0 := if chan = 0 then min gib 32 else s.dev.ddrGib0, ddrGib1 := if chan = 1 then min gib 32 else s.dev.ddrGib1 } }) ∧
  (∀ (chan : Nat) (s : State), (chan < 2 ∧ readyBit s (RB_DDR + chan) = false ∧ s.dev.state ≠ .boot) → 
    exec (.ddrTrainingDone chan .noConfig) s = .next (ddrNotReady chan 0 s)) ∧
  (∀ (chan : Nat) (s : State), (chan < 2 ∧ readyBit s (RB_DDR + chan) = false ∧ s.dev.state ≠ .boot) → 
    exec (.ddrTrainingDone chan .failed) s = .next (ddrNotReady chan 1 s)) ∧
  (∀ (chan : Nat) (pass : Bool) (s : State), (chan < 2 ∧ readyBit s (RB_DDR + chan) = false ∧ ddrGib s chan ≠ 0) → 
    exec (.ddrFillDone chan pass) s = .next (if pass then setReady (RB_DDR + chan) true s else ddrNotReady chan 2 s)) ∧
  (∀ (s : State), exec .tmuTickLock s = .next (setReady RB_TMU true s)) ∧
  (∀ (s : State), (s.dev.state = .bringup) → (bringupOver s = true) → 
    ∃ t, exec .bringupComplete s = .next t ∧ t.dev = { s.dev with state := .idle } ∧ t.sec.rstc = 0 ∧ t.sec.brownout = false ∧
      t.sec.ranFrom = s.sec.ranFrom.or (some (now s + 1000000000)) ∧ t.pwr = { s.pwr with limit := if s.sec.variant = 2 then 90 else 110 })

/-- Canal links (R232 to R239). -/
def Obligations.CanalLinks : Prop :=
  (∀ (link lanes peer : Nat) (peerAsg : Bool) (caps : Nat) (s : State), (rdB s (uCK link) CNL_LINK.ENABLE = true ∧ (linkOf s link).up = false) → (lanesOk (rd s (uCK link) CNL_LINK.LANE_MODE) lanes = true ∧ s.dev.level < 2) → 
    exec (.linkUp link lanes peer peerAsg caps) s = .next (
      let s₁ := setReady (RB_CK + link) true (setLink s link {
        up := true, lanes := lanes, peerDev := peer % 64, peerAsg := peerAsg, peerCaps := caps,
        credits := (upto 5).foldl (fun t c => tset 0 t c (if c = 0 then 8 else if c = 4 then Config.noticeCredits.toNat else 128)) [],
        sent := (linkOf s link).sent, lastUse := (linkOf s link).lastUse })
      let s₂ := linkNotice 1 link 1 lanes (peer % 64) (ckFlags s₁ link false (linkClass0 s₁ link)) ST_OK s₁
      let s₄ := reportResumed (uCK link) (duplicateNotice link s₂)
      if (upto 4).all (fun i => !linkClass0 s₄ i || (linkFor s₄ i).isSome) then clearCause 5 s₄ else s₄)) ∧
  (∀ (link : Nat) (reason : LinkLoss) (s : State), ((linkOf s link).up = true) → (reason ≠ .replays) → 
    exec (.linkDown link reason) s = .next (linkFails link s)) ∧
  (∀ (link : Nat) (s : State), ((linkOf s link).up = true ∧ islandRuns s (uCK link) = true) → (0 < (linkOf s link).resend) → 
    exec (.linkFrameTx link) s = .next (setLink s link { linkOf s link with
      txFrame := (((linkOf s link).replay.drop ((linkOf s link).replay.length - (linkOf s link).resend)).head?.map (·.2)).getD 0,
      resend := (linkOf s link).resend - 1 })) ∧
  (∀ (link : Nat) (s : State), ((linkOf s link).up = true ∧ islandRuns s (uCK link) = true) → ((linkOf s link).resend = 0 ∧ (linkOf s link).replay.length < 64) → 
    exec (.linkFrameTx link) s = .next (
      let f := fillFrame link 5 0 ((linkOf s link).txSeq * 1024) s
      sendFrame link (f.1, if frameStarves link s f.2 then cnlBump (uCK link) 4 f.2 else f.2))) ∧
  (∀ (link : Nat) (frame : BitVec 512) (s : State), ((linkOf s link).up = true) → (crc16Frame frame.toNat ≠ bits frame.toNat 496 16) → 
    exec (.linkFrameRx link frame) s = .next (
      let s₁ := wakeIsland (uCK link) s
      setLink s₁ link { linkOf s₁ link with nakSent := true, ctl := (linkOf s₁ link).ctl ++ [.nak (linkOf s₁ link).rxSeq] })) ∧
  (∀ (link : Nat) (frame : BitVec 512) (s : State), ((linkOf s link).up = true) → (crc16Frame frame.toNat = bits frame.toNat 496 16 ∧ bits frame.toNat 10 6 ≠ (linkOf s link).rxSeq) → 
    exec (.linkFrameRx link frame) s = .next (
      let s₁ := wakeIsland (uCK link) s
      if (linkOf s link).nakSent then s₁ else setLink s₁ link { linkOf s₁ link with
        nakSent := true, ctl := (linkOf s₁ link).ctl ++ [.nak (linkOf s₁ link).rxSeq] })) ∧
  (∀ (link : Nat) (frame : BitVec 512) (s : State), ((linkOf s link).up = true) → (crc16Frame frame.toNat = bits frame.toNat 496 16 ∧ bits frame.toNat 10 6 = (linkOf s link).rxSeq) → 
    exec (.linkFrameRx link frame) s = .next (
      let s₁ := wakeIsland (uCK link) s
      (upto 5).foldl (fun t i => receiveSlot link frame.toNat i t) (setLink s₁ link { linkOf s₁ link with
        rxSeq := ((linkOf s link).rxSeq + 1) % 64, nakSent := false,
        sinceAck := if 15 ≤ (linkOf s link).sinceAck then 0 else (linkOf s link).sinceAck + 1,
        ctl := if 15 ≤ (linkOf s link).sinceAck then (linkOf s link).ctl ++ [.ack (linkOf s link).rxSeq] else (linkOf s link).ctl })))

/-- The fabric (R207 to R220, R584). -/
def Obligations.CanalFabric : Prop :=
  (∀ (node : LockNode) (c p : Nat) (s : State), (nodeReady s node = true ∧ islandRuns s (nodeUnit node) = true) → (nextClass s node = some c ∧ nextPort s node c = some p) → 
    exec (.lockLookup node false) s = .next (lookupHead node p c { s with canal := { s.canal with
      rr := tset 0 s.canal.rr (nodeUnit node * 4 + c) (((nodePorts node).findIdx (· == p)) + 1) } })) ∧
  (∀ (core : Nat) (s : State), (core < 16 ∧ (unitOf s (uC core)).fullRed = true ∧ (unitOf s (uC core)).st = .assigned) → (portLen s (pSE (core / 2 * 2)) ≠ 0 ∨ portLen s (pNE (core / 2 * 2)) ≠ 0) → 
    exec (.lockLookup (.lock core) true) s = .next (pairDiffers core s)) ∧
  (∀ (port c : Nat) (p : Pkt) (r : List Pkt) (d : Dst) (s : State), (port < 52) → ((upto 4).find? (classGoes s port) = some c ∧ cq s port c = p :: r ∧ p.dst = some d) → 
    exec (.packetDispatch port) s = .next (
      let s₁ := if (legsOf d).any (legStarves s port c p d) then cnlBump (nodeUnit (portNode port)) 4 s else s
      leaveIfDone port c ((legsOf d).foldl (issueLeg port c) s₁))) ∧
  (∀ (port c : Nat) (p : Pkt) (r : List Pkt) (f : Nat) (x : Pkt) (s : State), (784 ≤ port ∧ port < 800) → ((upto 4).find? (transitGoes s port) = some c ∧ cq s port c = p :: r) → (transitCopy s (crossCheck (uHUB (takingHub port)) p (setCq s port c r)).1 = .to f x) → 
    exec (.packetDispatch port) s = .next (joinStop (fromHub (takingHub port) f) f x (servedPort port c (fromHub (takingHub port) f)
      (crossCheck (uHUB (takingHub port)) p (setCq s port c r)).2)))

/-- Urgent pairs, policer and framers (R221 to R228, R492, R581, R605 to R611). -/
def Obligations.UrgentPath : Prop :=
  (∀ (pair : Nat) (parBad : Bool) (b : Bin) (r : List Bin) (s : State), (tget [] s.upIn pair = b :: r) → (upRuns s pair = true) → 
    exec (.upBinnedCopy pair true parBad) s = .next (
      let s₁ := crossParity (uUP pair) parBad { s with upIn := tset [] s.upIn pair r }
      raiseCause 1 (uUP pair) (resetPair pair s₁))) ∧
  (∀ (pair : Nat) (parBad : Bool) (b : Bin) (r : List Bin) (s : State), (tget [] s.upIn pair = b :: r) → (upRuns s pair = true) → 
    exec (.upBinnedCopy pair false parBad) s = .next (
      let s₁ := crossParity (uUP pair) parBad { s with upIn := tset [] s.upIn pair r }
      let b₁ := { b with poison := b.poison || parBad }
      setUp s₁ pair ((upOf s pair).zones.zipIdx.foldl (fun v e => testZone pair b₁ b₁.poison v e.2 e.1)
        { upOf s pair with stamps := tset stampNever (upOf s pair).stamps (binKey b.sl b.hy b.bx) (storeStamp (b.t / 1000 % 2 ^ 24)) }))) ∧
  (∀ (hub : Nat) (a : Alarm) (r : List Alarm) (s : State), ((upOf s hub).offered = a :: r) → (s.dev.state ≠ .safe ∧ readyBit s (RB_HUB + hub) = true) → ((polOf s hub).hold = [] ∧ 0 < (polOf s hub).tokens) → 
    exec (.cl0Police hub) s = .next (passAlarm a (setPol (setUp s hub { upOf s hub with offered := r }) hub { polOf s hub with tokens := (polOf s hub).tokens - 1 }))) ∧
  (∀ (hub : Nat) (a : Alarm) (r : List Alarm) (s : State), ((upOf s hub).offered = a :: r) → (s.dev.state ≠ .safe ∧ readyBit s (RB_HUB + hub) = true) → ((polOf s hub).tokens = 0 ∧ (polOf s hub).hold.length < 64) → 
    exec (.cl0Police hub) s = .next (cnlBump (uHUB hub) 5 (setPol (setUp s hub { upOf s hub with offered := r }) hub { polOf s hub with hold := (polOf s hub).hold ++ [a] }))) ∧
  (∀ (hub : Nat) (s : State), ((polOf s hub).slot < now s / 10000) → 
    exec (.cl0TokenAdd hub) s = .next (drainHold hub 64 (setPol s hub { polOf s hub with
      tokens := min (polBurst s hub) ((polOf s hub).tokens + (now s / 10000 - (polOf s hub).slot) * polRate s hub), slot := now s / 10000 }))) ∧
  (∀ (pair : Nat) (s : State), (upRuns s pair = true) → ((upOf s pair).probeAt + 1000000 ≤ now s ∧ (upOf s pair).offered = []) → 
    exec (.probeEmit pair) s = .next (
      let s₁ := setUp s pair { upOf s pair with probeAt := now s }
      let s₂ := if bit (upOf s pair).ports 0 then toFramer 0 (.probe (probeKey s pair)) s₁ else s₁
      if bit (upOf s pair).ports 1 then toFramer 1 (.probe (probeKey s pair)) s₂ else s₂)) ∧
  (∀ (port pair : Nat) (s : State), (chkArmed s port pair = true) → ((chkOf s port pair).since + 3500000 ≤ now s) → 
    exec (.pathProbe port pair) s = .next (raiseCause 4 (uETH port) (setChk s port pair { chkOf s port pair with good := 0 }))) ∧
  (∀ (port pair : Nat) (parBad : Bool) (r : List Cl0) (s : State), (pair < 4) → (tget [] s.urg.framers port = .probe (probeKey s pair) :: r) → 
    exec (.alarmFramerRx port parBad) s = .next (
      let s₁ := crossParity (uETH port) parBad { s with urg := { s.urg with framers := tset [] s.urg.framers port r } }
      setChk s₁ port pair ⟨now s, min 3 ((chkOf s port pair).good + 1)⟩)) ∧
  (∀ (port : Nat) (parBad : Bool) (a : Alarm) (r : List Cl0) (s : State), (tget [] s.urg.framers port = .alarm a :: r) → (s.dev.state ≠ .safe) → 
    exec (.alarmFramerRx port parBad) s = .next (
      let s₁ := crossParity (uETH port) parBad { s with urg := { s.urg with framers := tset [] s.urg.framers port r } }
      alarmFrame port 1 (alarmBody { a with poison := a.poison || parBad } true) s₁)) ∧
  (∀ (port : Nat) (s : State), (s.dev.state = .safe ∧ port < 2 ∧ (ethOf s port).phyUp = true) → (tget 0 s.safe.stopSeq port = 0 ∨ tget 0 s.safe.stopAt port + 10000000 ≤ now s) → 
    exec (.safeStopFrame port) s = .next (alarmFrame port 2 (beBytes 8 s.safe.time ++ beBytes 4 (tget 0 s.safe.stopSeq port + 1) ++ beBytes 2 s.safe.reason ++ beBytes 6 0)
      { s with safe := { s.safe with
        stopSeq := tset 0 s.safe.stopSeq port (tget 0 s.safe.stopSeq port + 1), stopAt := tset 0 s.safe.stopAt port (now s) } }))

/-- Ethernet ports (R441 to R444, Table 14-10a). -/
def Obligations.EthernetLinks : Prop :=
  (∀ (port : Nat) (selfTest : Bool) (s : State), (port < 5 ∧ (ethOf s port).phyUp = false ∧ s.dev.level < 3) → 
    exec (.ethPhyLinkChange port true selfTest) s = .next (
      let s₁ := setEth s port { ethOf s port with phyUp := true, trained := true, sleepListen := false, tc10 := 0 }
      let s₂ := if selfTest then setReady (RB_ETH + port) true s₁ else s₁
      let s₃ := linkNotice 0 port 1 0 0 0 ST_OK s₂
      if port < 2 then clearCause 6 s₃ else s₃)) ∧
  (∀ (port : Nat) (selfTest : Bool) (s : State), (port < 5 ∧ (ethOf s port).phyUp = true) → 
    exec (.ethPhyLinkChange port false selfTest) s = .next (linkNotice 0 port 0 0 0 0 ST_OK (setReady (RB_ETH + port) false
      (setEth s port { ethOf s port with phyUp := false, wire := none, saks := [], downSince := now s }))))

/-- Dangerous failures (R34, R606, R611, R612, R615, Table 19-2). -/
def Obligations.DangerousFailuresEnterSafe : Prop :=
  (∀ (rail : Nat) (s : State), (s.dev.state ≠ .boot) → 
    ∃ t, exec (.supplyFault rail) s = .next t ∧ t.dev.state = .safe ∧ t.safe.active = setBits s.safe.active 7 1 1 ∧ safeNHigh t = false) ∧
  (∀ (pll : Bool) (s : State), (s.dev.state ≠ .boot) → 
    ∃ t, exec (.clockFault pll) s = .next t ∧ t.dev.state = .safe ∧ t.safe.active = setBits s.safe.active 8 1 1 ∧ safeNHigh t = false) ∧
  (∀ (s : State), (s.dev.state ≠ .boot) → 
    ∃ t, exec .safeNFault s = .next t ∧ t.dev.state = .safe ∧ t.safe.active = setBits s.safe.active 12 1 1 ∧ safeNHigh t = false) ∧
  (∀ (s : State), (s.dev.state ≠ .boot) → (s.dev.level ≤ 1 ∧ ((ethOf s 0).trained = true ∨ (ethOf s 1).trained = true) ∧ (ethOf s 0).phyUp = false ∧ (ethOf s 1).phyUp = false) → (max (ethOf s 0).downSince (ethOf s 1).downSince + 2000000 ≤ now s) → 
    ∃ t, exec .hostLinksDown s = .next t ∧ t.dev.state = .safe ∧ t.safe.active = setBits s.safe.active 5 1 1 ∧ safeNHigh t = false) ∧
  (∀ (port pair : Nat) (s : State), (s.dev.state ≠ .boot) → (chkArmed s port pair = true) → ((chkOf s port pair).since + 3500000 ≤ now s) → 
    ∃ t, exec (.pathProbe port pair) s = .next t ∧ t.dev.state = .safe ∧ t.safe.active = setBits s.safe.active 3 1 1 ∧ safeNHigh t = false)

/-- R615, whole: the level driven on SAFE_N. -/
def Obligations.SafeNIsHighOnlyInService : Prop :=
  (∀ s : State, safeNHigh s = true →
    (s.dev.state = .idle ∨ s.dev.state = .loaded ∨ s.dev.state = .running ∨ s.dev.state = .degraded) ∧ (s.dev.level = 0 ∨ s.dev.level = 1)) ∧
  (∀ s : State, ¬ ((s.dev.state = .idle ∨ s.dev.state = .loaded ∨ s.dev.state = .running ∨ s.dev.state = .degraded) ∧
    (s.dev.level = 0 ∨ s.dev.level = 1)) → safeNHigh s = false) ∧
  safeNHigh State.reset = false ∧
  (∀ s : State, s.dev.state = .boot ∨ s.dev.state = .bringup ∨ s.dev.state = .safe → safeNHigh s = false)

/-- Safety monitors (R44, R614, R617 to R622, Table 19-2). -/
def Obligations.SafetyMonitors : Prop :=
  (∀ (readings : List Int) (s : State), (((((readings.take 24).zipIdx.filter (fun e => decide (1350 ≤ e.1))).map (fun e => 2 ^ e.2)).sum &&& s.safe.hot) = 0) → 
    exec (.thermalSample readings) s = .next (setSafe s { s.safe with
      temps := readings.take 24,
      hot := (((readings.take 24).zipIdx.filter (fun e => decide (1350 ≤ e.1))).map (fun e => 2 ^ e.2)).sum })) ∧
  (∀ (readings : List Int) (s : State), (((((readings.take 24).zipIdx.filter (fun e => decide (1350 ≤ e.1))).map (fun e => 2 ^ e.2)).sum &&& s.safe.hot) ≠ 0) → 
    exec (.thermalSample readings) s = .next (raiseCause 10 uDEV (setSafe s { s.safe with
      temps := readings.take 24,
      hot := (((readings.take 24).zipIdx.filter (fun e => decide (1350 ≤ e.1))).map (fun e => 2 ^ e.2)).sum }))) ∧
  (∀ (mech : Nat) (pass : Bool) (s : State), (mech < 6 ∧ (if mech = 3 then sensorsAgree s else pass) = false) → 
    exec (.mechDiagnostic mech pass) s = .next (raiseCause 15 uLKP (setSafe s { s.safe with
      mechBad := setBits s.safe.mechBad mech 1 1, mechOk := tset 0 s.safe.mechOk mech 0 }))) ∧
  (∀ (mech : Nat) (pass : Bool) (s : State), (mech < 6 ∧ bit s.safe.mechBad mech = true ∧ (if mech = 3 then sensorsAgree s else pass) = true) → (tget 0 s.safe.mechOk mech < 2) → 
    exec (.mechDiagnostic mech pass) s = .next (setSafe s { s.safe with mechOk := tset 0 s.safe.mechOk mech (tget 0 s.safe.mechOk mech + 1) })) ∧
  (∀ (mech : Nat) (pass : Bool) (s : State), (mech < 6 ∧ bit s.safe.mechBad mech = true ∧ (if mech = 3 then sensorsAgree s else pass) = true) → (2 ≤ tget 0 s.safe.mechOk mech) → 
    exec (.mechDiagnostic mech pass) s = .next (
      let s₁ := setSafe s { s.safe with mechOk := tset 0 s.safe.mechOk mech 0, mechBad := setBits s.safe.mechBad mech 1 0 }
      if s₁.safe.mechBad = 0 then clearCause 15 s₁ else s₁)) ∧
  (∀ (cause : Nat) (s : State), (1 ≤ cause ∧ cause ≤ 15 ∧ causeGone s cause = true) → 
    exec (.safeCauseClear cause) s = .next (clearCause cause s)) ∧
  (∀ (cause : Nat) (s : State), (1 ≤ cause ∧ cause ≤ 15 ∧ causeGone s cause = false) → 
    exec (.safeCauseClear cause) s = .next s) ∧
  (∀ (unit : Nat) (hw : UnitSt) (s : State), (unitValid (recordUnit unit) = true ∧ recordUnit unit ≠ uDEV) → (hw = (unitOf s (recordUnit unit)).st ∨ ((unitOf s (recordUnit unit)).conflict = true ∧ (unitOf s (recordUnit unit)).hw = some hw)) → 
    exec (.stateConflict unit hw) s = .next (if (unitOf s (recordUnit unit)).conflict then setUnit s (recordUnit unit) { unitOf s (recordUnit unit) with conflict := false, hw := none } else s)) ∧
  (∀ (unit : Nat) (hw : UnitSt) (s : State), (unitValid (recordUnit unit) = true ∧ recordUnit unit ≠ uDEV) → (hw ≠ (unitOf s (recordUnit unit)).st ∧ (unitOf s (recordUnit unit)).st ≠ .assigned ∧ ¬ ((unitOf s (recordUnit unit)).conflict = true ∧ (unitOf s (recordUnit unit)).hw = some hw)) → 
    exec (.stateConflict unit hw) s = .next (settleState (unitNotice 18 ST_CONFLICT (recordUnit unit) 0 0xFFFF
      (setUnit s (recordUnit unit) { unitOf s (recordUnit unit) with st := .quarantined, conflict := true, hw := some hw, since := now s }))))

/-- R46, whole: one virtual channel, one data type; other packets are dropped without a count. -/
def Obligations.PacketsOfOtherStreamsAreDropped : Prop :=
  (∀ (sluice vc dt : Nat) (crcOk : Bool) (sot : Nat) (data : List Byte) (flawed : List Nat) (s : State), (sluResetting s sluice = false) → (sl (goodHeader sluice .ok (packetBoundary sluice (wakeIsland (uSL sluice) s))) sluice SLU_PORT.VC ≠ vc ∨ dt ≠ portDt (goodHeader sluice .ok (packetBoundary sluice (wakeIsland (uSL sluice) s))) sluice) → 
    ∃ t, exec (.csi2LongPacket sluice vc dt .ok crcOk sot data flawed) s = .next t ∧ (t = wakeIsland (uSL sluice) s ∨ t = (goodHeader sluice .ok (packetBoundary sluice (wakeIsland (uSL sluice) s)))) ∧ t.cnt = s.cnt ∧ t.ram = s.ram ∧ t.canal = s.canal ∧ t.upIn = s.upIn ∧ t.regs = s.regs) ∧
  (∀ (sluice vc dt : Nat) (crcOk : Bool) (sot : Nat) (data : List Byte) (flawed : List Nat) (s : State) (s₁ : State), (sluResetting s sluice = false) → (packetHeader sluice vc .ok s = (true, s₁)) → (dt = portDt s₁ sluice) → (sl s₁ sluice SLU_PORT.MODE ≠ 2) → 
    exec (.csi2LongPacket sluice vc dt .ok crcOk sot data flawed) s = .next (eventPacket sluice sot crcOk data flawed s₁))

/-- Oversized packets (R48, R49, R668). -/
def Obligations.OversizedPacketsAreDropped : Prop :=
  (∀ (sluice vc dt : Nat) (crcOk : Bool) (sot : Nat) (data : List Byte) (flawed : List Nat) (s : State) (s₁ : State), (sluResetting s sluice = false) → (packetHeader sluice vc .ok s = (true, s₁)) → (dt = portDt s₁ sluice) → (sl s₁ sluice SLU_PORT.MODE ≠ 2) → (16384 < data.length ∨ 32768 < bufferedBytes (sluOf s₁ sluice) + data.length) → 
    exec (.csi2LongPacket sluice vc dt .ok crcOk sot data flawed) s = .next (sluBump sluice 4 s₁)) ∧
  (∀ (sluice vc dt : Nat) (crcOk : Bool) (sot : Nat) (data : List Byte) (flawed : List Nat) (s : State) (s₁ : State), (sluResetting s sluice = false) → (packetHeader sluice vc .ok s = (true, s₁)) → (dt = portDt s₁ sluice) → (sl s₁ sluice SLU_PORT.MODE = 2) → (16384 < data.length ∨ 32768 < bufferedBytes (sluOf s₁ sluice) + data.length) → 
    exec (.csi2LongPacket sluice vc dt .ok crcOk sot data flawed) s = .next (sluBump sluice 4 (if (sluOf s₁ sluice).clearing then waitPacket sluice .lostLine s₁ else lineLost sluice s₁)))

/-- R59, whole: the geometry test of an event. -/
def Obligations.OutOfRangeEventsAreDropped : Prop :=
  (∀ (n x y : Nat) (pol : Bool) (tUs : Int) (s : State) (c : PktCtx), ¬ x < sluWidth s n ∨ ¬ y < sluHeight s n →
    sensorEvent n x y pol (some tUs) (s, c) = (bump (uSL n) 0x010F 8 s, c)) ∧
  (∀ (n x y : Nat) (pol : Bool) (tUs : Int) (s : State) (c : PktCtx), x < sluWidth s n → y < sluHeight s n →
    sensorEvent n x y pol (some tUs) (s, c) = (filterEvent n x y pol (stampOf s n tUs c) s, c))

/-- R64, whole: the order of the layouts and the word that matches none. -/
def Obligations.LayoutsAreTestedInOrder : Prop :=
  (∀ (s : State) (n w i : Nat), findLayout s n w = some i → i < 4 ∧ rd s (uSL n) SLU_FMT.VALID i = 1 ∧
    (w &&& rd s (uSL n) SLU_FMT.MATCH_MASK i) = rd s (uSL n) SLU_FMT.MATCH_VALUE i ∧
    ∀ j, j < i → ¬ (rd s (uSL n) SLU_FMT.VALID j = 1 ∧ (w &&& rd s (uSL n) SLU_FMT.MATCH_MASK j) = rd s (uSL n) SLU_FMT.MATCH_VALUE j)) ∧
  (∀ (s : State) (n w : Nat) (c : PktCtx), (∀ i, i < 4 → ¬ (rd s (uSL n) SLU_FMT.VALID i = 1 ∧
      (w &&& rd s (uSL n) SLU_FMT.MATCH_MASK i) = rd s (uSL n) SLU_FMT.MATCH_VALUE i)) →
    formatWord n (s, c) w = (bump (uSL n) 0x010F 5 s, c))

/-- Sluice events (R52, R53, R60 to R62, R74 to R76, R80 to R92, R435, R497). -/
def Obligations.SluiceEvents : Prop :=
  (∀ (sluice : Nat) (s : State), ((sluOf s sluice).align = .aligned) → ((sluOf s sluice).lastPair + sl s sluice SLU_TAL.PAIR_TIMEOUT_MS * 1000000 ≤ now s) → 
    exec (.pairTimeout sluice) s = .next (enterSuspect sluice s)) ∧
  (∀ (sluice : Nat) (s : State), (sl s sluice SLU_FLT.RATE_MODE = 1) → ((sluOf s sluice).tokenUs < nowUs s) → 
    exec (.rateTokenAdd sluice) s = .next (setSlu s sluice { sluOf s sluice with
      tokens := min (rateDepth s sluice) ((sluOf s sluice).tokens + sl s sluice SLU_FLT.RATE_MEVS * (nowUs s - (sluOf s sluice).tokenUs)),
      tokenUs := nowUs s })) ∧
  (∀ (sluice : Nat) (s : State), ((sluOf s sluice).interval < now s / 64000) → ((sluOf s sluice).removed = 0) → 
    exec (.rateInterval sluice) s = .next (setSlu s sluice { sluOf s sluice with
      interval := now s / 64000, offered := 0, passed := 0, removed := 0,
      k := decimShift (if now s / 64000 = (sluOf s sluice).interval + 1 then (sluOf s sluice).offered else 0) (sl s sluice SLU_FLT.RATE_MEVS * 64) })) ∧
  (∀ (sluice cell stamp : Nat) (s : State), (tget none (sluOf s sluice).refr cell = some stamp) → (256 ≤ (nowUs s % 1024 + 1024 - stamp) % 1024) → 
    exec (.refractSweep sluice cell) s = .next (setSlu s sluice { sluOf s sluice with refr := tset none (sluOf s sluice).refr cell none })) ∧
  (∀ (sluice : Nat) (s : State), ((sluOf s sluice).linkUp = true) → ((sluOf s sluice).lastHdr + 100000000 ≤ now s) → 
    exec (.sluLinkUpTimeout sluice) s = .next (setSlu s sluice { sluOf s sluice with linkUp := false })) ∧
  (∀ (sluice : Nat) (s : State) (u : State), (u = fltWritten sluice (sl s sluice SLU_FLT.RATE_MODE) (limitsChanged sluice (setSlu s sluice { sluOf s sluice with held := heldRegs s sluice }))) → ((sluOf u sluice).source ≠ sl u sluice SLU_TAL.SOURCE) → (sl u sluice SLU_TAL.SOURCE ≠ 0) → 
    exec (.sourceChange sluice) s = .next (setSlu (setTime u { u.time with syncIn := tset [] u.time.syncIn sluice [] }) sluice
      { sluOf u sluice with source := sl u sluice SLU_TAL.SOURCE, align := .unaligned, npairs := 0 })) ∧
  (∀ (sluice : Nat) (s : State) (u : State), (u = fltWritten sluice (sl s sluice SLU_FLT.RATE_MODE) (limitsChanged sluice (setSlu s sluice { sluOf s sluice with held := heldRegs s sluice }))) → ((sluOf u sluice).source ≠ 0) → (sl u sluice SLU_TAL.SOURCE = 0) → 
    exec (.sourceChange sluice) s = .next (setSlu u sluice { sluOf u sluice with source := 0, align := .arrival, npairs := 0 })) ∧
  (∀ (sluice : Nat) (s : State), ((sluOf s sluice).clearing = true) → (sluTakes s sluice = true) → 
    exec (.portClearDone sluice) s = .next ((sluOf s sluice).buffered.foldl (fun (x : State × Nat) w =>
      (waitedPacket sluice (((sluOf s sluice).bufBad.filter (x.2 ≤ ·)).map (· - x.2)) w x.1, x.2 + w.bytes))
      (setSlu s sluice { sluOf s sluice with clearing := false, buffered := [], bufBad := [] }, 0)).1) ∧
  (∀ (sluice target : Nat) (data : List Byte) (s : State), exec (.i3cIbi sluice target data) s = .next (notice NT_SENSOR ST_OK (uSL sluice) (beBytes 1 sluice ++ beBytes 1 1 ++ beBytes 1 target ++ beBytes 1 (data.take 12).length
      ++ padTo 12 (data.take 12)) s)) ∧
  (∀ (sluice : Nat) (s : State), exec (.syncInEdge sluice) s = .next (pushSyncIn sluice (edgeStamp s syncInDelayPs) s)) ∧
  (∀ (sluice : Nat) (r : I3cRun) (s : State), (tget none s.tow.i3c sluice = some r) → (r.started + 1000000 ≤ now s ∧ (berthOf s r.berth).code = 0x0205) → 
    exec (.i3cTimeout sluice) s = .next (finishBerth r.berth ST_ABORTED (beBytes 2 0) (setI3c sluice none s)))

/-- Frames (R47, R67 to R71). -/
def Obligations.FrameEvents : Prop :=
  (∀ (sluice vc num : Nat) (ecc : EccResult) (s : State) (s₁ : State), (num < 65536) → (packetHeader sluice vc ecc s = (true, s₁) ∧ sl s₁ sluice SLU_PORT.MODE = 2 ∧ (sluOf s₁ sluice).clearing = false) → (pickFrameBuf (dropFrame sluice s₁) sluice = none) → 
    exec (.frameStart sluice vc num ecc) s = .next (sluBump sluice 23 (dropFrame sluice s₁))) ∧
  (∀ (sluice vc num : Nat) (ecc : EccResult) (s : State) (s₁ : State) (i : Nat), (num < 65536) → (packetHeader sluice vc ecc s = (true, s₁) ∧ sl s₁ sluice SLU_PORT.MODE = 2 ∧ (sluOf s₁ sluice).clearing = false) → (pickFrameBuf (dropFrame sluice s₁) sluice = some i) → 
    exec (.frameStart sluice vc num ecc) s = .next (
      let s₂ := dropFrame sluice s₁
      let b := tget {} (sluOf s₂ sluice).bufs i
      let s₃ := if b.complete = true ∧ ¬ b.taken = true then sluBump sluice 23 s₂ else s₂
      let flags := ramNat s₃ (frameAddr s₃ sluice i + 17) 1
      let s₄ := ramPutNat s₃ (frameAddr s₃ sluice i + 17) 1 (flags - flags % 2)
      setSlu s₄ sluice { sluOf s₂ sluice with
        bufs := tset {} (sluOf s₂ sluice).bufs i {},
        frame := some { buf := i, lines := 0, bad := false, stamp := frameStamp s₄ sluice (now s), poison := false,
                        suspect := (sluOf s₂ sluice).align != .aligned } })) ∧
  (∀ (sluice vc : Nat) (ecc : EccResult) (s : State) (s₁ : State) (r : FrameRun), (packetHeader sluice vc ecc s = (true, s₁) ∧ sl s₁ sluice SLU_PORT.MODE = 2 ∧ (sluOf s₁ sluice).clearing = false) → ((sluOf s₁ sluice).frame = some r) → (r.bad = false ∧ r.lines = sluHeight s₁ sluice) → 
    exec (.frameEnd sluice vc ecc) s = .next (
      let num := ((sluOf s₁ sluice).frameNo + 1) % 2 ^ 32
      let s₂ := ramPut s₁ (frameAddr s₁ sluice r.buf) (frameHeader s₁ sluice r num true)
      let s₃ := setSlu s₂ sluice { sluOf s₁ sluice with
        frame := none, frameNo := (sluOf s₁ sluice).frameNo + 1,
        bufs := tset {} (sluOf s₁ sluice).bufs r.buf ⟨(sluOf s₁ sluice).frameNo + 1, true, 0, false⟩ }
      frameTrigger sluice r.buf r.stamp s₃)) ∧
  (∀ (sluice vc : Nat) (ecc : EccResult) (s : State) (s₁ : State) (r : FrameRun), (packetHeader sluice vc ecc s = (true, s₁) ∧ sl s₁ sluice SLU_PORT.MODE = 2 ∧ (sluOf s₁ sluice).clearing = false) → ((sluOf s₁ sluice).frame = some r) → (r.bad = true ∨ r.lines ≠ sluHeight s₁ sluice) → 
    exec (.frameEnd sluice vc ecc) s = .next (dropFrame sluice s₁)) ∧
  (∀ (sluice vc : Nat) (s : State), (sluTakes (wakeIsland (uSL sluice) s) sluice = true) → (sl (wakeIsland (uSL sluice) s) sluice SLU_PORT.PHY ≠ 0) → 
    exec (.frameEnd sluice vc .fail) s = .next (sluBump sluice 2 (packetBoundary sluice (wakeIsland (uSL sluice) s))))

/-- Inertial chain (R101 to R119, R128). -/
def Obligations.InertialChain : Prop :=
  (∀ (engine : Nat) (balls : List Nat) (residueFail : List (Nat × Nat)) (s : State), (islandRuns s uINR = true) → 
    exec (.inputPeriod engine balls residueFail) s = .next (
      let s₁ := { s with inr := { s.inr with
        periods := tmod 0 s.inr.periods engine (· + periodEdges s engine),
        sdo := if engForm s engine = 1 then tset 0 s.inr.sdo engine (rd s (uFE engine) INR_ENG.SPI_CMD * 2 ^ 24) else s.inr.sdo } }
      let s₂ := (upto 8).foldl (fun t j =>
        if inrOn t (engine * 8 + j) then
          setInr t (engine * 8 + j) (chanStep t engine (engine * 8 + j) (slotRaw (engForm t engine) balls j)) else t) s₁
      residueFail.foldl (fun t b => if b.1 < 8 ∧ b.2 < 3 ∧ inrOn t (engine * 8 + b.1) then failPath (engine * 8 + b.1) b.2 t else t) s₂)) ∧
  (∀ (channel : Nat) (s : State), (inrOn s channel = true ∧ outputDue s channel = true) → 
    exec (.inrOutput channel) s = .next (fusGyro channel (Sys2Proof.Machine.inrOutput channel s))) ∧
  (∀ (s : State), exec .syncInertEdge s = .next ((upto 3).foldl (fun s e => if rdB s (uFE e) INR_ENG.SYNC_PIN_EN then scheduleReset e s else s)
        (setTime s { s.time with inertStamp := edgeStamp s syncInDelayPs }))) ∧
  (∀ (engine : Nat) (retestFail : List (Nat × Nat)) (s : State), ((tget [] s.inr.due engine).any (fun t => t ≤ now s) = true) → 
    exec (.synchronisingReset engine retestFail) s = .next ((upto 8).foldl (fun s j => resetChan (engine * 8 + j) (badOf (engine * 8 + j) retestFail) s)
        { s with inr := { s.inr with
          due := tset [] s.inr.due engine ((tget [] s.inr.due engine).filter (fun t => now s < t)),
          periods := tset 0 s.inr.periods engine 0 } })) ∧
  (∀ (engine : Nat) (retestFail : List (Nat × Nat)) (s : State), ((tget [] s.inr.due engine).any (fun t => t ≤ now s) = false) → 
    exec (.synchronisingReset engine retestFail) s = .next ((upto 8).foldl (fun s j =>
        if (inrOf s (engine * 8 + j)).resetDue ∧ gridInstant s (engine * 8 + j) then
          resetChan (engine * 8 + j) (badOf (engine * 8 + j) retestFail) s
        else s) s))

/-- Surface engines (R129 to R163). -/
def Obligations.SurfaceEngines : Prop :=
  (∀ (core port : Nat) (flaw : Bool) (g : Geo) (w r : QWord) (t : State) (s : State), (seMay s core port = true) → (geoOf s core (rd s (uSE core) SRF_PORT.SLUICE port) = some g) → (peekQ s g.q = some w ∧ bit w.w 31 = true) → (seStalled s core port = none) → (takeQ g.q (seStart core port s) = (some r, t)) → 
    exec (.seEvent core port flaw) s = .next (seTaken core r (seHandle core (spOf t core port).word g
        ⟨bit r.w 30, bits r.w 7 12, bits r.w 19 11, ((spOf t core port).epoch.getD 0) * 128 + r.w % 128, r.poison, flaw⟩
        (if flaw then reportResidue (uSE core) (unitOf t (uC core)).job t else t)))) ∧
  (∀ (core port k : Nat) (flaw : Bool) (g : Geo) (w : QWord) (s : State), (seMay s core port = true) → (geoOf s core (rd s (uSE core) SRF_PORT.SLUICE port) = some g) → (peekQ s g.q = some w ∧ bit w.w 31 = true) → (seStalled s core port = some k) → 
    exec (.seEvent core port flaw) s = .next (srfBump core k s)) ∧
  (∀ (core port : Nat) (g : Geo) (w r : QWord) (t : State) (s : State), (seMay s core port = true) → (geoOf s core (rd s (uSE core) SRF_PORT.SLUICE port) = some g) → (peekQ s g.q = some w ∧ bit w.w 31 = false ∧ seStalled s core port = none) → (takeQ g.q (seStart core port s) = (some r, t)) → (bit r.w 30 = true) → 
    exec (.seServiceWord core port) s = .next (seTaken core r (setSp t core port { spOf t core port with epoch := some (extendEpoch (spOf t core port).epoch (r.w % 2 ^ 30)) }))) ∧
  (∀ (core : Nat) (flaw : Bool) (k : Corner) (r : List Corner) (vx vy : Int) (conf : Nat) (sat : Bool) (s : State), ((srfOf s core).corners = k :: r) → (portLen s (pSE core) < 32) → (aperture k.cfg (patchFits k.cfg (fun dx dy => k.ages.getD (winIx dx dy) neverAge)) = (some (vx, vy, conf), sat)) → 
    exec (.apertureMerge core flaw) s = .next (let s₁ := srfBumpN ((patchFits k.cfg (fun dx dy => k.ages.getD (winIx dx dy) neverAge)).countP (· == .reject)) core 5 (srfBumpN ((patchFits k.cfg (fun dx dy => k.ages.getD (winIx dx dy) neverAge)).countP (· == .sat)) core 6 (setSrf s core { srfOf s core with corners := r }))
      let s₂ := if flaw then reportResidue (uSE core) k.job s₁ else s₁
      srfBump core 4 (srfFlow core k.prefix_ k.cls k.job k.pol k.x k.y k.t vx vy 1 conf (k.poison || flaw) s₂))) ∧
  (∀ (core : Nat) (flaw : Bool) (k : Corner) (r : List Corner) (sat : Bool) (s : State), ((srfOf s core).corners = k :: r) → (portLen s (pSE core) < 32) → (aperture k.cfg (patchFits k.cfg (fun dx dy => k.ages.getD (winIx dx dy) neverAge)) = (none, sat)) → 
    exec (.apertureMerge core flaw) s = .next (let s₁ := srfBumpN ((patchFits k.cfg (fun dx dy => k.ages.getD (winIx dx dy) neverAge)).countP (· == .reject)) core 5 (srfBumpN ((patchFits k.cfg (fun dx dy => k.ages.getD (winIx dx dy) neverAge)).countP (· == .sat)) core 6 (setSrf s core { srfOf s core with corners := r }))
      let s₂ := if flaw then reportResidue (uSE core) k.job s₁ else s₁
      srfBump core 7 (if sat then srfBump core 6 s₂ else s₂))) ∧
  (∀ (core channel : Nat) (parBad : Bool) (s : State), (1 ≤ inF s channel INR_CH.AXIS ∧ inF s channel INR_CH.AXIS ≤ 3) → ((inrOf s channel).latest.poison = false ∧ parBad = false) → 
    exec (.gyroRecord core channel parBad) s = .next (
      let r := (inrOf s channel).latest
      let g := inF s channel INR_CH.SENSOR
      let ax := inF s channel INR_CH.AXIS
      let h := histOf (srfOf s core) g ax
      let kept := h.filter (fun e => decide (e.tov < r.tov))
      let s₁ := if kept.length < h.length ∧ kept = [] then srfBump core 11 s else s
      let w := fmul (fmul (fint r.value) 0x34000000) (inF s₁ channel INR_CH.SCALE)
      let th := match kept with | [] => f0 | e :: _ => integrate e (r.tov - e.tov)
      setSrf s₁ core { srfOf s core with
        hist := tset [] (srfOf s core).hist (g * 4 + ax) ((⟨r.tov, w, th, kept.head?.any (·.bad)⟩ :: kept).take 16) })) ∧
  (∀ (core channel : Nat) (s : State), (1 ≤ inF s channel INR_CH.AXIS ∧ inF s channel INR_CH.AXIS ≤ 3) → 
    exec (.gyroRecord core channel true) s = .next (srfBump core 12 (crossParity (uSE core) true s))) ∧
  (∀ (core : Nat) (s : State), (readyBit s (RB_CORE + core) = true) → (((srfOf s core).sweep + 16) ≠ lapWords) → 
    exec (.surfaceSweep core) s = .next (
      let t := nowUs s % 2 ^ 24
      let v := (upto 16).foldl (fun v i =>
        let a := v.sweep + i
        if a < 1048576 then { v with mem := tset neverWord v.mem a (sweptWord t (tget neverWord v.mem a)) }
        else
          let h := a - 1048576
          { v with halo := tset neverWord v.halo h (sweptWord t (tget neverWord v.halo h)) }) (srfOf s core)
      let s₁ := setSrf s core { v with sweep := (v.sweep + 16) % lapWords }
      if v.sweep + 16 = lapWords then srfBump core 17 s₁ else s₁)) ∧
  (∀ (core entry : Nat) (s : State), ((spOf s core entry).clearing = true) → (geoOf s core (rd s (uSE core) SRF_PORT.SLUICE entry) = none) → 
    exec (.surfaceClearDone core entry) s = .next (setSp s core entry { spOf s core entry with clearing := false })) ∧
  (∀ (core entry : Nat) (g : Geo) (s : State), ((spOf s core entry).clearing = true) → (geoOf s core (rd s (uSE core) SRF_PORT.SLUICE entry) = some g) → 
    exec (.surfaceClearDone core entry) s = .next (
      let b := rd s (uSE core) SRF_PORT.BASE entry
      let inR := fun (k : Nat) => decide (b ≤ k % 8192 ∧ k % 8192 < b + regionSize g)
      let split : Bool := sl s (rd s (uSE core) SRF_PORT.SLUICE entry) SLU_PORT.SPLIT_ROW != 0
      let v := { srfOf s core with
        mem := tclear inR (srfOf s core).mem, bad := tclear inR (srfOf s core).bad,
        halo := if split then [] else (srfOf s core).halo, haloBad := if split then [] else (srfOf s core).haloBad }
      setSp (setSrf s core v) core entry { spOf s core entry with clearing := false }))

/-- Neuron engines (R175 to R205). -/
def Obligations.NeuronEngines : Prop :=
  (∀ (c : Nat) (p : Pkt) (s : State), (coreTakes s c = true) → (firstCq s (pNeIn c) = some p) → (retainRoom s c 1 = true ∧ stagesFree s c = true) → (isInput s c p = false ∨ heldInputs s c < 8192) → 
    exec (.neInput c) s = .next (takePacket c p (dropCq (pNeIn c) s))) ∧
  (∀ (c : Nat) (p : Pkt) (s : State), (coreTakes s c = true) → (firstCq s (pNeIn c) = some p) → (retainRoom s c 1 = true ∧ stagesFree s c = true) → (isInput s c p = true ∧ 8192 ≤ heldInputs s c) → 
    exec (.neInput c) s = .next (if 8192 ≤ heldInputs (makeRoom c 2 s) c then neBump c 16 (makeRoom c 2 s)
      else takePacket c p (dropCq (pNeIn c) (makeRoom c 2 s)))) ∧
  (∀ (c : Nat) (p : Pkt) (s : State), (coreTakes s c = true) → (firstCq s (pNeIn c) = some p) → (retainRoom s c 1 = false ∨ stagesFree s c = false) → 
    exec (.neInput c) s = .next (neBump c 16 s)) ∧
  (∀ (c t : Nat) (s : State), (coreTakes s c = true) → (stepped s c = false ∧ (neOf s c).batches.length < 2) → (oldestStamp s c = some t) → ((nc s c NRN_CFG.REORDER_US : Int) ≤ sx 24 (nowUs s % 2 ^ 24 + 2 ^ 24 - t)) → 
    exec (.batchRelease c) s = .next (releaseBatch c t s)) ∧
  (∀ (c : Nat) (b : NeBatch) (r : List NeBatch) (s : State), ((neOf s c).batches = b :: r) → (coreTakes s c = true) → (portLen s (pNE c) < cqCap (pNE c) 1 ∧ retainRoom s c b.acc.length = true) → 
    exec (.batchUpdate c) s = .next (
      let s := setNe s c { neOf s c with batches := r }
      let s := updateAll c ⟨b.stamp, stampWindow s c b.stamp, fullUs s b.stamp⟩ b s
      if b.poison then consumePoison (coreJob s c) (uNE c) s else s)) ∧
  (∀ (c g : Nat) (s : State), (coreTakes s c = true) → (stepped s c = false ∧ ng s c g NRN_GRP.TICK_US ≠ 0 ∧ ng s c g NRN_GRP.VALID ≠ 0 ∧ g < 64) → 
    exec (.tickBatch c g) s = .next (
      let p := ng s c g NRN_GRP.TICK_US
      let k := tget 0 (neOf s c).tickLast g / p
      let n := nowUs s / p - k
      setNe s c { neOf s c with
        ticks := (neOf s c).ticks ++ (upto n).map (fun i => ((k + 1 + i) * p, g)),
        tickLast := tset 0 (neOf s c).tickLast g (max (tget 0 (neOf s c).tickLast g) ((k + n) * p)) })) ∧
  (∀ (c n : Nat) (s : State), (n < 65536) → (2 ^ 22 ≤ (stampAge (tget stampNever (neOf s c).stamps n)
      (if stepped s c then (neOf s c).step * nc s c NRN_CFG.STEP_US % 2 ^ 24 else nowUs s % 2 ^ 24)).1) → 
    exec (.stampSweep c n) s = .next (setNe s c { neOf s c with stamps := tset stampNever (neOf s c).stamps n stampNever })) ∧
  (∀ (c : Nat) (s : State), (coreTakes s c = true) → (stepped s c = true) → (nc s c NRN_CFG.STEP_SOURCES ≤ marksIn s c ∧ stepDue s c ≤ now s) → 
    exec (.stepClose c) s = .next (closeStep c s)) ∧
  (∀ (c : Nat) (s : State), (coreTakes s c = true) → (stepped s c = true) → (stepDue s c + nc s c NRN_CFG.STRETCH_LIMIT_US * 1000 ≤ now s) → 
    exec (.stepOverrun c) s = .next (closeStep c (notice NT_STEP ST_OK (uNE c) (beBytes 1 c ++ beBytes 1 (nc s c NRN_CFG.STEP_SOURCES - marksIn s c) ++ beBytes 2 0
        ++ beBytes 4 ((neOf (neBump c 12 s) c).step % 2 ^ 32)) (neBump c 12 s)))) ∧
  (∀ (c g : Nat) (s : State), (coreTakes s c = true) → (g < 64 ∧ ng s c g NRN_GRP.VALID ≠ 0 ∧ ng s c g NRN_GRP.CNT_EN ≠ 0) → (windowEnd s c g ≤ modelPassed s c ∧ firesBefore s c (windowEnd s c g) = false) → ((neOf s c).copies.any (fun e => e.group == g) = false) → 
    exec (.countWindowClose c g) s = .next (swapCounts c g 0 false s)) ∧
  (∀ (c g : Nat) (s : State), (coreTakes s c = true) → (g < 64 ∧ ng s c g NRN_GRP.VALID ≠ 0 ∧ ng s c g NRN_GRP.CNT_EN ≠ 0) → (windowEnd s c g ≤ modelPassed s c ∧ firesBefore s c (windowEnd s c g) = false) → ((neOf s c).copies.any (fun e => e.group == g) = true ∧ tget false (neOf s c).deferred g = false) → 
    exec (.countWindowClose c g) s = .next (neBump c 15 (setNe s c { neOf s c with deferred := tset false (neOf s c).deferred g true }))) ∧
  (∀ (c : Nat) (e : CntCopy) (r : List CntCopy) (s : State), ((neOf s c).copies = e :: r) → 
    exec (.countCopyDone c) s = .next (
      let s := setNe s c { neOf s c with copies := r }
      let s := putRecord (ng s c e.group NRN_GRP.CNT_STREAM) 3 e.tov (countBody s c e) e.poison (e.wins.map (fun w => (uNE c, w))) s
      if tget false (neOf s c).deferred e.group then swapCounts c e.group (windowsPassed s c e.group) true s
      else s))

/-- Feature arrays (R265 to R277, R299 to R305, R373). -/
def Obligations.FeatureArrays : Prop :=
  (∀ (n p job : Nat) (s : State), (prF s n p ARR_PROG.VALID = 1 ∧ prF s n p ARR_PROG.TRIGGER = 0 ∧ faJob s n = job ∧ p < 16) → 
    exec (.arrRunWrite n p job) s = .next (arrTrigger n { prog := p, buf := .none, base := 0, tov := 0, from_ := now s } s)) ∧
  (∀ (n p job : Nat) (s : State), (¬ (prF s n p ARR_PROG.VALID = 1 ∧ prF s n p ARR_PROG.TRIGGER = 0 ∧ faJob s n = job ∧ p < 16)) → 
    exec (.arrRunWrite n p job) s = .next (bump uDEV 0x0C0F 3 s)) ∧
  (∀ (n : Nat) (x : ArrPend) (rest : List ArrPend) (s : State), ((faOf s n).run = none ∧ (faOf s n).queue = x :: rest) → (faTakes s n = true) → (copyHeld s n x.prog = false) → 
    exec (.instanceStart n) s = .next (
      let v := faOf s n
      let k := (tget 0 v.started x.prog + 1) % 2 ^ 32
      setFa s n { v with
        queue := rest, started := tset 0 v.started x.prog k, sems := [], tiles := [], wsets := [], ready := [],
        run := some { prog := x.prog, num := k, start := now s, pend := x, words := entryWords s (uFA n) 0x0601 x.prog 4 } })) ∧
  (∀ (n : Nat) (r : ArrInst) (s : State), (faTakes s n = true) → ((faOf s n).run = some r) → (r.ld < runF r ARR_PROG.LD_COUNT) → (r.ldOn = true ∨ semBlocked (faOf s n) (fldOf (descAt s (runF r ARR_PROG.LD_LIST) r.ld) ARR_LD.WAIT_EN)
      (fldOf (descAt s (runF r ARR_PROG.LD_LIST) r.ld) ARR_LD.WAIT_SEM) = false) → 
    exec (.loadDescriptor n) s = .next (
      let d := descAt s (runF r ARR_PROG.LD_LIST) r.ld
      let f := fldOf d
      let s := if r.ldOn then s else
        setRun n (fun r => { r with ldOn := true }) (setFa s n (semTake (faOf s n) (f ARR_LD.WAIT_EN) (f ARR_LD.WAIT_SEM)))
      match f ARR_LD.KIND with
      | 0 => loadTile n r d s
      | 1 => loadWeights n r d s
      | 2 => loadRequant n r d s
      | _ => loadDone n d s)) ∧
  (∀ (n : Nat) (r : ArrInst) (w : WSet) (ws : List WSet) (s : State), (faTakes s n = true) → ((faOf s n).run = some r ∧ (faOf s n).wsets = w :: ws) → (r.cp < runF r ARR_PROG.CMP_COUNT) → (semBlocked (faOf s n) (fldOf (descAt s (runF r ARR_PROG.CMP_LIST) r.cp) ARR_CMP.WAIT_EN)
      (fldOf (descAt s (runF r ARR_PROG.CMP_LIST) r.cp) ARR_CMP.WAIT_SEM) = false) → (fldOf (descAt s (runF r ARR_PROG.CMP_LIST) r.cp) ARR_CMP.TILES_M1 < (faOf s n).tiles.length) → ((faOf s n).ready.contains (faOf s n).cur = false) → 
    exec (.computePass n) s = .next (
      let v := faOf s n
      let f := fldOf (descAt s (runF r ARR_PROG.CMP_LIST) r.cp)
      let k := f ARR_CMP.TILES_M1 + 1
      let wf := f ARR_CMP.W_FMT
      let fp := pairFloat wf (f ARR_CMP.MXW == 1)
      let thr := skipThresh (f ARR_CMP.A_FMT) (f ARR_CMP.SKIP_THRESH)
      let ts := (v.tiles.take k).map (fun t => (t, tileSkip (f ARR_CMP.APPROX) thr t w))
      let h := passHalf (f ARR_CMP.FIRST == 1) fp (wf == 11) w (halfOf v v.cur) ts
      let last := f ARR_CMP.LAST == 1
      let v := semTake v (f ARR_CMP.WAIT_EN) (f ARR_CMP.WAIT_SEM)
      let v := setHalf { v with wsets := ws, tiles := v.tiles.drop k } v.cur h
      let v := if last then { v with ready := v.ready ++ [v.cur], cur := 1 - v.cur } else v
      let cnt := fun (x : Skip) => (ts.filter (fun e => e.2 == x)).length
      let s := setRun n (fun r => { r with cp := r.cp + 1 }) (setFa s n v)
      let s := faBumpN (cnt .small) n 3 (faBumpN (cnt .zero) n 2 (faBumpN (cnt .no) n 1 (faBump n 0 s)))
      semSignal n (f ARR_CMP.SIGNAL_EN) (f ARR_CMP.SIGNAL_SEM) s)) ∧
  (∀ (n h : Nat) (r : ArrInst) (hs : List Nat) (s : State), (faTakes s n = true) → ((faOf s n).run = some r ∧ (faOf s n).ready = h :: hs) → (r.st < runF r ARR_PROG.ST_COUNT) → (semBlocked (faOf s n) (fldOf (descAt s (runF r ARR_PROG.ST_LIST) r.st) ARR_ST.WAIT_EN)
      (fldOf (descAt s (runF r ARR_PROG.ST_LIST) r.st) ARR_ST.WAIT_SEM) = false) → 
    exec (.storeDescriptor n) s = .next (
      let v := faOf s n
      let d := descAt s (runF r ARR_PROG.ST_LIST) r.st
      let f := fldOf d
      let x := stCtx s n r d
      let half := halfOf v h
      let es := half.flatMap (tileElems x)
      let bad := es.any (·.bad)
      let cnt := fun (p : OutEl → Bool) => (es.filter p).length
      let s := setFa s n { semTake v (f ARR_ST.WAIT_EN) (f ARR_ST.WAIT_SEM) with ready := hs }
      let s := half.foldl (fun s a => storeTile x a s) s
      let s := faBumpN (cnt (·.bad)) n 7 (faBumpN (cnt (·.isNan)) n 6 (faBumpN (cnt (·.outSat)) n 5
        (faBumpN (cnt (·.accSat)) n 4 s)))
      let j := faJob s n
      let s := signStep j (instWindow s n r) (uFA n) (packElems x.fmt (es.map (·.w))) s
      let s := setRun n (fun r => { r with st := r.st + 1, poison := r.poison || bad }) s
      let s := semSignal n (f ARR_ST.SIGNAL_EN) (f ARR_ST.SIGNAL_SEM) s
      let s := if r.st + 1 = runF r ARR_PROG.ST_COUNT then
          instanceDone n { r with st := r.st + 1, poison := r.poison || bad } s else s
      if bad then consumePoison j (uFA n) s else s))

/-- R373, whole: the doorbell. -/
def Obligations.ADoorbellStartsItsProgramme : Prop :=
  (∀ (n p job : Nat) (s : State), p < 16 → prF s n p ARR_PROG.VALID = 1 → prF s n p ARR_PROG.TRIGGER = 0 → faJob s n = job →
    exec (.arrRunWrite n p job) s = .next (arrTrigger n { prog := p, buf := .none, base := 0, tov := 0, from_ := now s } s)) ∧
  (∀ (n p job : Nat) (s : State), prF s n p ARR_PROG.VALID ≠ 1 ∨ prF s n p ARR_PROG.TRIGGER ≠ 0 ∨ faJob s n ≠ job →
    exec (.arrRunWrite n p job) s = .next (bump uDEV 0x0C0F 3 s))

/-- Tensor builders (R275 to R298, R579). -/
def Obligations.TensorBuilders : Prop :=
  (∀ (k : Nat) (bad : Bool) (p p₁ : Pkt) (t : State) (s : State), (tenTakes s k = true) → ((upto 8).any (fun e => (tenOf s k e).wait.isSome) = false) → (firstCq s (pTen k) = some p) → (crossCheck (uTEN k) p (dropCq (pTen k) s) = (p₁, t)) → (tvMatches t k p₁ = []) → 
    exec (.tenPacket k bad) s = .next (tenBump k 1 t)) ∧
  (∀ (k : Nat) (bad : Bool) (p p₁ : Pkt) (t : State) (s : State), (tenTakes s k = true) → ((upto 8).any (fun e => (tenOf s k e).wait.isSome) = false) → (firstCq s (pTen k) = some p) → (crossCheck (uTEN k) p (dropCq (pTen k) s) = (p₁, t)) → (tvMatches t k p₁ ≠ []) → 
    exec (.tenPacket k bad) s = .next ((tvMatches t k p₁).foldl (fun s e => tvPacket k e p₁ bad s) t)) ∧
  (∀ (k e w b : Nat) (s : State), (tenTakes s k = true) → ((tenOf s k e).open_ = some (w, b)) → (tvEnd s k e w ≤ nowUs s) → 
    exec (.tenWindowEnd k e) s = .next (tvOpen k e (w + 1) (setTen (tenClose k e s) k e { tenOf (tenClose k e s) k e with grace := some (w, b) }))) ∧
  (∀ (k e w b : Nat) (s : State), (tenTakes s k = true) → ((tenOf s k e).grace = some (w, b)) → (tvEnd s k e w + tvF s k e TEN_VOX.LATE_US ≤ nowUs s) → (tvF s k e TEN_VOX.TRIG_EN ≠ 1 ∨ prF s k (tvF s k e TEN_VOX.PROG) ARR_PROG.VALID ≠ 1 ∨ prF s k (tvF s k e TEN_VOX.PROG) ARR_PROG.TRIGGER ≠ 1 ∨
      prF s k (tvF s k e TEN_VOX.PROG) ARR_PROG.SRC ≠ e) → 
    exec (.tenWindowClose k e) s = .next (tvFree k e b (setTen s k e { tenOf s k e with grace := none }))) ∧
  (∀ (k e w b : Nat) (s : State), (tenTakes s k = true) → ((tenOf s k e).grace = some (w, b)) → (tvEnd s k e w + tvF s k e TEN_VOX.LATE_US ≤ nowUs s) → (tvF s k e TEN_VOX.TRIG_EN = 1 ∧ prF s k (tvF s k e TEN_VOX.PROG) ARR_PROG.VALID = 1 ∧ prF s k (tvF s k e TEN_VOX.PROG) ARR_PROG.TRIGGER = 1 ∧
      prF s k (tvF s k e TEN_VOX.PROG) ARR_PROG.SRC = e) → 
    exec (.tenWindowClose k e) s = .next (
      let p := tvF s k e TEN_VOX.PROG
      let s₁ := setTen s k e { tenOf s k e with grace := none }
      if arrBusy s₁ k p ∨ ¬ tvSpare (tenOf s k e) b then tenBump k 5 (tvFree k e b s₁)
      else arrTrigger k ⟨p, .ten e b, tvBase s k e b, tvEnd s k e w * 1000, (tvEnd s k e w - tvF s k e TEN_VOX.WINDOW_US) * 1000, false, false⟩ s₁)) ∧
  (∀ (k e b : Nat) (s : State), (tget 0 (tenOf s k e).bufs b = 3 ∧ b < 3) → 
    exec (.tenBufferCleared k e b) s = .next (
      let s₁ := setTen (clearBuf k e b s) k e { tenOf s k e with bufs := tset 0 (tenOf s k e).bufs b 0 }
      match (tenOf s k e).wait with
      | some w => tvOpen k e w s₁
      | none => s₁)) ∧
  (∀ (k e b : Nat) (s : State), (tget 0 (tenOf s k e).bufs b ≠ 3 ∨ 3 ≤ b) → 
    exec (.tenBufferCleared k e b) s = .next s)

/-- Basin fusion (R306 to R348). -/
def Obligations.Fusion : Prop :=
  (∀ (k : Nat) (s : State), (fg s FUS_GRID.PHASE_US * 1000 ≤ now s) → (k = (now s - fg s FUS_GRID.PHASE_US * 1000) / max 1 (fg s FUS_GRID.CYCLE_US * 1000)) → 
    exec .fusionTick s = .next (tickAt k s)) ∧
  (∀ (k : Nat) (c : Contrib) (s : State), ((srcOf s k).fill = some c) → (fsF s k FUS_SRC.KIND = 0 ∧ k < 32) → 
    exec (.snapshotCopyDone k) s = .next (
      let s₁ := copyRam (fsF s k FUS_SRC.SRC_ADDR) (slotOf s k c.slot) (snapSize s k) s
      contribDone k { c with sus := c.sus || (fsF s₁ k FUS_SRC.SLUICE_EN == 1 && badSince s₁ (fsF s₁ k FUS_SRC.SLUICE) c.from_) } s₁)) ∧
  (∀ (k : Nat) (flaw : Bool) (a b c d : QWord) (rest : List QWord) (s : State), (s.fus.cfg = none ∧ fusTakes s = true) → (k < 32 ∧ fsF s k FUS_SRC.VALID ≠ 0 ∧ fsF s k FUS_SRC.KIND = 1) → ((queueOf s (fsF s k FUS_SRC.QUEUE)).latched = a :: b :: c :: d :: rest) → 
    exec (.lidarRecord k flaw) s = .next (
      let q := fsF s k FUS_SRC.QUEUE
      let s := setQueue s q { queueOf s q with latched := rest }
      let flags := bits d.w 16 16
      let bad := (a.poison || b.poison || c.poison || d.poison) || flaw
      let s := if flaw then reportResidue uFUS (fusJob s) s else s
      let s := if bad then consumePoison (fusJob s) uFUS s else s
      let v := srcOf s k
      if bit flags 1 then
        let tov := a.w % 2 ^ 32 + b.w % 2 ^ 32 * 2 ^ 32
        let v := beginFill { v with fill := none } tov tov (bit flags 2)
        let s := ramClear (setSrc s k v) (slotOf (setSrc s k v) k ((v.fill.map (·.slot)).getD 0)) (snapSize (setSrc s k v) k)
        match v.fill with
        | some f => if bit flags 0 then sweepEnd k f s else s
        | none => s
      else
        match v.fill with
        | none => srcBump k 16 s
        | some f =>
          let f := { f with sus := f.sus || bit flags 2 }
          let s := countPoint k f.slot (a.w % 2 ^ 32) (b.w % 2 ^ 32) (c.w % 2 ^ 32) bad (setSrc s k { v with fill := some f })
          if bit flags 0 then sweepEnd k f s else s)) ∧
  (∀ (k : Nat) (flaw : Bool) (s : State) (g : Tbl W64), (s.fus.cfg = some g) → 
    exec (.lidarRecord k flaw) s = .next (withFusRegs (fusRegs s) (takeRecord k flaw (withFusRegs g s)))) ∧
  (∀ (k : Nat) (flaw : Bool) (s : State), (s.fus.cfg = none) → (k < 32 ∧ fsF s k FUS_SRC.VALID ≠ 0 ∧ fsF s k FUS_SRC.KIND = 1) → ((queueOf s (fsF s k FUS_SRC.QUEUE)).latched.length < 4) → 
    exec (.lidarRecord k flaw) s = .next s) ∧
  (∀ (s : State) (p q : Pkt) (t : State) (k : Nat), (s.fus.cfg = none ∧ fusTakes s = true) → (firstCq s pFus = some p) → (crossCheck uFUS p (dropCq pFus s) = (q, t)) → (flowSource (if q.poison then consumePoison (fusJob t) uFUS t else t) (bits q.key 26 6) = some k ∧ bits q.key 24 2 = 2) → 
    exec .flowPacket s = .next (
      let t := if q.poison then consumePoison (fusJob t) uFUS t else t
      { t with fus := { t.fus with flowV := tset none t.fus.flowV (k * 2 ^ 24 + q.key % 2 ^ 24) (some (q.pay, q.poison)) } })) ∧
  (∀ (s : State) (p q : Pkt) (t : State) (k : Nat), (s.fus.cfg = none ∧ fusTakes s = true) → (firstCq s pFus = some p) → (crossCheck uFUS p (dropCq pFus s) = (q, t)) → (flowSource (if q.poison then consumePoison (fusJob t) uFUS t else t) (bits q.key 26 6) = some k ∧ bits q.key 24 2 = 3) → 
    exec .flowPacket s = .next (flowPair k q (if q.poison then consumePoison (fusJob t) uFUS t else t))) ∧
  (∀ (s : State) (g : Tbl W64), (s.fus.cfg = some g) → 
    exec .flowPacket s = .next (withFusRegs (fusRegs s) (takeFlow (withFusRegs g s)))) ∧
  (∀ (flaws : List Nat) (s : State) (c : FusCycle), (fusTakes s = true) → (s.fus.grid = some c) → 
    exec (.gridStageEnd flaws) s = .next (withFusRegs (fusRegs s) (
      let s := withFusRegs c.cfg s
      let t := (writeTiles c (c.tileBad ++ flaws) (srcList s (fun v => v.state == 1)) s).1
      let bads := (writeTiles c (c.tileBad ++ flaws) (srcList s (fun v => v.state == 1)) s).2
      let c := { c with poison := c.poison || bads.any (fun b => b) }
      let s := scoreSources t
      let s := if fg s FUS_GRID.GRID_STREAM_EN = 1 then
          (bads.zipIdx).foldl (fun s e => gridRecord c e.2 e.1 s) s else s
      let s := (upto 32).foldl (fun s k => setSrc s k { srcOf s k with inUse := none }) s
      let s := fusBump 0 { s with fus := { s.fus with grid := none } }
      let s := if flaws ≠ [] then reportResidue uFUS (fusJob s) s else s
      let s := if c.poison then consumePoison (fusJob s) uFUS s else s
      let head : Bool := fg s FUS_OBJ.HEAD_EN == 1
      let s := if head then missHeads s else s
      let drop : Bool := head && headDropped s
      let s := fusionTriggers c s
      if drop then headMissed c s
      else { s with fus := { s.fus with obj := s.fus.obj ++ [{ c with head := !head }] } }))) ∧
  (∀ (flaw : Bool) (s : State) (c : FusCycle) (rest : List FusCycle), (fusTakes s = true) → (s.fus.ego = c :: rest) → 
    exec (.egoMotionDone flaw) s = .next (withFusRegs (fusRegs s) (
      let s := withFusRegs c.cfg { s with fus := { s.fus with ego := rest } }
      let gy := if fg s FUS_EGO.GYRO_EN = 1 then gyroMeas s c else none
      let rg := if fg s FUS_EGO.LIDAR_EN = 1 then regMeas s c else none
      let fl := (egoFlows s).map (fun k => flowMeas s c k)
      let got := fl.filterMap id
      let m := combine s (gy.toList ++ rg.toList ++ got.map (·.1))
      let body := egoBody c m.1 m.2 gy.isSome rg.isSome (!got.isEmpty) ((got.map (·.2)).sum)
      let bad := flaw || (egoFlows s).any (fun k => (flowsOf s c k).any (·.bad))
      let s := if fg s FUS_EGO.GYRO_EN = 1 ∧ gy.isNone then fusBump 4 s else s
      let s := fusBumpN (fl.length - got.length) 5 s
      let s := putRecord (fg s FUS_GRID.EGO_STREAM) 6 (lowBits 64 c.t1) body bad [] s
      let s := { s with fus := { s.fus with
        incs := (s.fus.incs ++ [(c.cycle, m.1, bad)]).drop ((s.fus.incs.length + 1) - 8),
        flows := s.fus.flows.filter (fun v => decide (c.t1 ≤ (v.t : Int) * 1000)) } }
      let s := if flaw then reportResidue uFUS (fusJob s) s else s
      if bad then consumePoison (fusJob s) uFUS s else s))) ∧
  (∀ (flaws : List Nat) (s : State) (c : FusCycle) (rest : List FusCycle) (i : Nat) (inc : List Nat) (incBad : Bool), (fusTakes s = true) → (s.fus.obj = c :: rest) → (c.head = true) → (s.fus.incs.find? (fun e => e.1 == c.cycle) = some (i, inc, incBad)) → 
    exec (.objectStage flaws) s = .next (withFusRegs (fusRegs s) (
      let s := withFusRegs c.cfg { s with fus := { s.fus with obj := rest } }
      let cells := occupied s c
      let comps := (components (cells.length + 1) cells).filter (fun l => decide (fg s FUS_OBJ.MIN_CELLS ≤ l.length))
      let objs := (comps.zipIdx).map (fun e =>
        { measure s c e.1 with bad := (measure s c e.1).bad || incBad || flaws.contains e.2 })
      let ordered := sortBy (fun a b => decide (b.conf < a.conf)) objs
      let keep := ordered.take (fg s FUS_OBJ.OBJ_MAX)
      let a := keep.foldl (matchObj s inc) ⟨s.fus.prev.map (fun q => (q, predict s inc q)), s.fus.nextId, [], []⟩
      let bad := keep.any (·.bad)
      let s := objectsRecord c false a.recs bad (fusBumpN (ordered.length - keep.length) 2 s)
      let s := { s with fus := { s.fus with nextId := a.nextId, prev := a.out } }
      let s := if flaws ≠ [] then reportResidue uFUS (fusJob s) s else s
      let s := if bad then consumePoison (fusJob s) uFUS s else s
      cycleEnds c.tick (dropGrid c.buf s)))) ∧
  (∀ (flaws : List Nat) (s : State) (c : FusCycle) (rest : List FusCycle), (s.fus.obj = c :: rest) → (c.head = false) → 
    exec (.objectStage flaws) s = .next s)

/-- Register writes (R493, R667, R17, R404). -/
def Obligations.RegisterWriteCommands : Prop :=
  (∀ (sluice : Nat) (w0 w1 : W64) (s : State), (sluice < 16) → (WriteTaken (uSL sluice) 0x0101 2 0 [w0, w1 ||| 1] s) → 
    exec (.portEnable sluice w0 w1) s = .next (written (uSL sluice) 0x0101 2 0 [w0, w1 ||| 1] s)) ∧
  (∀ (sluice : Nat) (w0 : W64) (s : State), (sluice < 16) → (WriteTaken (uSL sluice) 0x0101 2 0 [w0, 0] s) → 
    exec (.portDisable sluice w0) s = .next (written (uSL sluice) 0x0101 2 0 [w0, 0] s)) ∧
  (∀ (link : Nat) (word : W64) (s : State), (link < 4) → (WriteTaken (uCK link) 0x0503 1 0 [word ||| 1] s) → 
    exec (.linkEnable link word) s = .next (written (uCK link) 0x0503 1 0 [word ||| 1] s)) ∧
  (∀ (dev : Nat) (s : State), (WriteTaken uDEV 0x0502 1 0 [BitVec.ofNat 64 dev] s) → 
    exec (.devIdWrite dev) s = .next (written uDEV 0x0502 1 0 [BitVec.ofNat 64 dev] s)) ∧
  (∀ (hub : Nat) (word : W64) (s : State), (hub < 4) → (WriteTaken (uHUB hub) 0x0501 1 0 [word] s) → 
    exec (.cnlUpqWrite hub word) s = .next (written (uHUB hub) 0x0501 1 0 [word] s)) ∧
  (∀ (channel : Nat) (w0 w1 : W64) (s : State), (channel < 24) → (WriteTaken (uIN channel) 0x0202 2 0 [w0, w1] s) → 
    exec (.channelResetWrite channel w0 w1) s = .next (written (uIN channel) 0x0202 2 0 [w0, w1] s)) ∧
  (∀ (core entry : Nat) (word : W64) (s : State), (core < 16 ∧ entry < 4) → (WriteTaken (uSE core) 0x0301 1 entry [word ||| 1] s) → 
    exec (.srfPortEnable core entry word) s = .next (written (uSE core) 0x0301 1 entry [word ||| 1] s)) ∧
  (∀ (stream : Nat) (w0 w1 : W64) (s : State), (stream < 64) → (WriteTaken (uSTREAM stream) 0x0801 2 0 [w0 ||| (1 <<< 40), w1] s) → 
    exec (.streamEnable stream w0 w1) s = .next (if ¬ slotsFit (written (uSTREAM stream) 0x0801 2 0 [w0 ||| (1 <<< 40), w1] s) = true then s else written (uSTREAM stream) 0x0801 2 0 [w0 ||| (1 <<< 40), w1] s)) ∧
  (∀ (stream : Nat) (w0 : W64) (s : State), (stream < 64) → (WriteTaken (uSTREAM stream) 0x0801 2 0 [w0 &&& ~~~((1 : W64) <<< 40)] s) → 
    exec (.streamDisable stream w0) s = .next (if ¬ slotsFit (written (uSTREAM stream) 0x0801 2 0 [w0 &&& ~~~((1 : W64) <<< 40)] s) = true then s else written (uSTREAM stream) 0x0801 2 0 [w0 &&& ~~~((1 : W64) <<< 40)] s)) ∧
  (∀ (queue : Nat) (w0 : W64) (s : State), (queue < 512) → (WriteTaken (uQUEUE queue) 0x0901 4 0 [w0 &&& ~~~(1 : W64)] s) → 
    exec (.queueDisable queue w0) s = .next (writeEntryWords (uQUEUE queue) 0x0901 0 (keptOfIngest s queue (entryAfter (uQUEUE queue) 0x0901 4 0 [w0 &&& ~~~(1 : W64)] s)) s)) ∧
  (∀ (w0 : W64) (s : State), (WriteTaken uTMU 0x0A03 4 0 [w0 &&& ~~~((1 : W64) <<< 3)] s) → 
    exec (.servoDisable w0) s = .next (written uTMU 0x0A03 4 0 [w0 &&& ~~~((1 : W64) <<< 3)] s)) ∧
  (∀ (index : Nat) (w0 w1 : W64) (s : State), (index < 8) → (WriteTaken uTMU 0x0A05 2 index [w0, w1 ||| (1 <<< 31)] s) → 
    exec (.cmpArm index w0 w1) s = .next (written uTMU 0x0A05 2 index [w0, w1 ||| (1 <<< 31)] s)) ∧
  (∀ (sluice : Nat) (w0 w1 : W64) (s : State), (sluice < 16) → (WriteTaken (uSL sluice) 0x0A06 4 0 [w0, w1 ||| (1 <<< 31)] s) → 
    exec (.syncoutEnable sluice w0 w1) s = .next (written (uSL sluice) 0x0A06 4 0 [w0, w1 ||| (1 <<< 31)] s))

/-- R17 and R493 for the register write commands. -/
def Obligations.RegisterWritesThatBreakARuleChangeNothing : Prop :=
  (∀ (sluice : Nat) (w0 w1 : W64) (s : State), (sluice < 16) → (¬ WriteTaken (uSL sluice) 0x0101 2 0 [w0, w1 ||| 1] s) → 
    exec (.portEnable sluice w0 w1) s = .next s) ∧
  (∀ (sluice : Nat) (w0 : W64) (s : State), (sluice < 16) → (¬ WriteTaken (uSL sluice) 0x0101 2 0 [w0, 0] s) → 
    exec (.portDisable sluice w0) s = .next s) ∧
  (∀ (link : Nat) (word : W64) (s : State), (link < 4) → (¬ WriteTaken (uCK link) 0x0503 1 0 [word ||| 1] s) → 
    exec (.linkEnable link word) s = .next s) ∧
  (∀ (hub : Nat) (word : W64) (s : State), (hub < 4) → (¬ WriteTaken (uHUB hub) 0x0501 1 0 [word] s) → 
    exec (.cnlUpqWrite hub word) s = .next s) ∧
  (∀ (channel : Nat) (w0 w1 : W64) (s : State), (channel < 24) → (¬ WriteTaken (uIN channel) 0x0202 2 0 [w0, w1] s) → 
    exec (.channelResetWrite channel w0 w1) s = .next s) ∧
  (∀ (core entry : Nat) (word : W64) (s : State), (core < 16 ∧ entry < 4) → (¬ WriteTaken (uSE core) 0x0301 1 entry [word ||| 1] s) → 
    exec (.srfPortEnable core entry word) s = .next s) ∧
  (∀ (stream : Nat) (w0 w1 : W64) (s : State), (stream < 64) → (¬ WriteTaken (uSTREAM stream) 0x0801 2 0 [w0 ||| (1 <<< 40), w1] s) → 
    exec (.streamEnable stream w0 w1) s = .next s) ∧
  (∀ (stream : Nat) (w0 : W64) (s : State), (stream < 64) → (¬ WriteTaken (uSTREAM stream) 0x0801 2 0 [w0 &&& ~~~((1 : W64) <<< 40)] s) → 
    exec (.streamDisable stream w0) s = .next s) ∧
  (∀ (queue : Nat) (w0 : W64) (s : State), (queue < 512) → (¬ WriteTaken (uQUEUE queue) 0x0901 4 0 [w0 &&& ~~~(1 : W64)] s) → 
    exec (.queueDisable queue w0) s = .next s) ∧
  (∀ (w0 : W64) (s : State), (¬ WriteTaken uTMU 0x0A03 4 0 [w0 &&& ~~~((1 : W64) <<< 3)] s) → 
    exec (.servoDisable w0) s = .next s) ∧
  (∀ (index : Nat) (w0 w1 : W64) (s : State), (index < 8) → (¬ WriteTaken uTMU 0x0A05 2 index [w0, w1 ||| (1 <<< 31)] s) → 
    exec (.cmpArm index w0 w1) s = .next s) ∧
  (∀ (sluice : Nat) (w0 w1 : W64) (s : State), (sluice < 16) → (¬ WriteTaken (uSL sluice) 0x0A06 4 0 [w0, w1 ||| (1 <<< 31)] s) → 
    exec (.syncoutEnable sluice w0 w1) s = .next s)

/-- Every register and memory access of the model goes through these four operations. -/
def Obligations.RegistersAndMemoryReadBack : Prop :=
  (∀ (s : State) (u : Nat) (f : Fld) (v e : Nat), Registers.wf s → f.lo + f.width ≤ 64 → rd (wr s u f v e) u f e = v % 2 ^ f.width) ∧
  (∀ (s : State) (u reg e w u' reg' e' w' v : Nat), Registers.wf s → reg < 65536 → reg' < 65536 → e < 65536 → e' < 65536 → w < 32 → w' < 32 →
    (u', reg', e', w') ≠ (u, reg, e, w) → regWord (setRegWord s u reg e w v) u' reg' e' w' = regWord s u' reg' e' w') ∧
  (∀ (s : State) (a : Nat) (l : List Byte), Memory.wf s → ramBytes (ramPut s a l) a l.length = l) ∧
  (∀ (s : State) (a b : Nat) (l : List Byte), Memory.wf s → b < a ∨ a + l.length ≤ b → ramByte (ramPut s a l) b = ramByte s b)

/-- Result streams (R342 to R370). -/
def Obligations.ResultEvents : Prop :=
  (∀ (k : Nat) (p p₁ : Pkt) (t : State) (s : State), (s.dev.state ≠ .safe ∧ islandRuns s (uSTREAM k) = true) → (firstCq s (pStream k) = some p) → (crossCheck (uSTREAM k) p (dropCq (pStream k) s) = (p₁, t)) → 
    exec (.streamEntry k) s = .next (takeEntry k 0 (packetEntry t p₁) t)) ∧
  (∀ (k : Nat) (e : Entry) (r : List Entry) (s : State), (s.dev.state ≠ .safe ∧ islandRuns s (uSTREAM k) = true) → (firstCq s (pStream k) = none) → (tget [] s.res.offered k = e :: r) → 
    exec (.streamEntry k) s = .next (takeEntry k e.kind e { s with res := { s.res with offered := tset [] s.res.offered k r } })) ∧
  (∀ (k : Nat) (r : Rec) (s : State), ((strOf s k).cur = some r) → (r.flush ≠ 0 ∧ r.opened + r.flush * 1000 ≤ now s) → 
    exec (.recordFlush k) s = .next (closeRec k s)) ∧
  (∀ (k : Nat) (r : Rec) (s : State), ((strOf s k).cur = some r) → (r.flush = 0 ∨ now s < r.opened + r.flush * 1000) → 
    exec (.recordFlush k) s = .next s) ∧
  (∀ (k : Nat) (r : Rec) (l : List Rec) (s : State), (s.dev.state ≠ .safe) → ((strOf s k).waiting = r :: l) → (recWaits s r = false) → 
    exec (.recordCommit k) s = .next (commitRec k r (setStr s k { strOf s k with waiting := l }))) ∧
  (∀ (k : Nat) (r : Rec) (l : List Rec) (s : State), (s.dev.state ≠ .safe) → ((strOf s k).waiting = r :: l) → (recWaits s r = true) → 
    exec (.recordCommit k) s = .next (setStr s k { strOf s k with waiting := { r with held := true } :: l })) ∧
  (∀ (p : Nat) (j : PushJob) (r : List PushJob) (s : State), ((pushOf s p).cur = none ∧ (pushOf s p).waiting = j :: r) → (subF s j.sub RES_SUB.VALID ≠ 0) → ((tget {} (strOf s j.stream).slots j.slot : Slot).seq = j.seq) → 
    exec (.pushCopy p) s = .next (
      let slot : Slot := tget {} (strOf s j.stream).slots j.slot
      let sub : SubSt := tget {} s.res.subs j.sub
      setPush { s with res := { s.res with subs := tset {} s.res.subs j.sub { sub with gap := 0 } } } p
        ⟨r, some j, ramBytes s (slotAddr s j.stream j.slot) slot.bytes, 0, sub.gap⟩)) ∧
  (∀ (p : Nat) (j : PushJob) (r : List PushJob) (s : State), ((pushOf s p).cur = none ∧ (pushOf s p).waiting = j :: r) → (subF s j.sub RES_SUB.VALID ≠ 0) → ((tget {} (strOf s j.stream).slots j.slot : Slot).seq ≠ j.seq) → 
    exec (.pushCopy p) s = .next (
      let sub : SubSt := tget {} s.res.subs j.sub
      bump (uSTREAM j.stream) 0x080F 8 (setPush
        { s with res := { s.res with subs := tset {} s.res.subs j.sub { sub with gap := sub.gap + 1 } } } p
        { pushOf s p with waiting := r }) j.sub)) ∧
  (∀ (p : Nat) (j : PushJob) (s : State), ((pushOf s p).cur = some j) → 
    exec (.pushFragment p) s = .next (
      let v := pushOf s p
      let part := (v.buf.drop v.sent).take pushMax
      let last : Bool := v.buf.length ≤ v.sent + part.length
      let sub : SubSt := tget {} s.res.subs j.sub
      let n := (sub.count + 1) % 2 ^ 32
      let s := { s with res := { s.res with subs := tset {} s.res.subs j.sub { sub with count := n } } }
      let h : TowHdr := { kind := 3, cls := subF s j.sub RES_SUB.CLASS, code := 0, seq := n }
      let body := pushPrefix j v.gap v.sent v.buf.length last ++ part
      let s := if p < 5 then sendTo (.port p) .push (notifyIp s p) (rd s (uETH p) TOW_PORT.NOTIFY_PORT) h body s
        else sendTo (match sub.creator with | some (.relay o) => .relay o | _ => .relay 0) .push 0 0 h body s
      if last then
        let s := setPush s p { v with cur := none, buf := [], sent := 0, gap := 0 }
        let s := if (tget {} (strOf s j.stream).slots j.slot : Slot).seq = j.seq then
            markRead j.stream j.slot (if p < 5 then p else 6) s else s
        bump (uSTREAM j.stream) 0x080F 7 s j.sub
      else setPush s p { v with sent := v.sent + part.length }))

/-- The application complex and checkpoints (R371 to R386, R594, R595). -/
def Obligations.GuestEvents : Prop :=
  (∀ (b : Nat) (data : List Byte) (j : Nat) (s : State), (berthJob s b = some j) → ((bportOf s b).busy = false) → (32 ≤ data.length ∧ data.length ≤ 2032 ∧ messageOk data true = true ∧ messageKind data = 0) → 
    exec (.berthGo b data) s = .next (offerReq (requestOf (.portal j) b 0 0 data) (setBport s b { bportOf s b with busy := true, reqBytes := data.length, req := tput 0 (bportOf s b).req 0 data }))) ∧
  (∀ (b : Nat) (data : List Byte) (j : Nat) (s : State), (berthJob s b = some j) → ((bportOf s b).busy = true) → 
    exec (.berthGo b data) s = .next (apxBump 4 s)) ∧
  (∀ (b : Nat) (data : List Byte) (j : Nat) (s : State), (berthJob s b = some j) → ((bportOf s b).busy = false) → (data.length < 32 ∨ 2032 < data.length ∨ messageOk data true = false ∨ messageKind data ≠ 0) → 
    exec (.berthGo b data) s = .next s) ∧
  (∀ (j gen : Nat) (r : CkptRun) (s : State), ((jobOf s j).ckptRun = some r) → (r.gen = gen ∧ now s ≤ r.due) → 
    exec (.ckptAck j gen) s = .next (
      let s₁ := setJobctl s j { jobctlOf s j with ckptAck := gen % 2 ^ 32 }
      ckptTry j (setJob s₁ j { jobOf s j with ckptRun := some { r with acked := true } }))) ∧
  (∀ (j gen : Nat) (s : State), ((jobOf s j).ckptRun = none) → 
    exec (.ckptAck j gen) s = .next (setJobctl s j { jobctlOf s j with ckptAck := gen % 2 ^ 32 })) ∧
  (∀ (j : Nat) (r : CkptRun) (s : State), ((jobOf s j).ckptRun = some r) → (r.acked = false ∧ r.due ≤ now s) → 
    exec (.ckptGraceExpiry j) s = .next (apxBump 5 (dropCkpt j s))) ∧
  (∀ (j : Nat) (s : State), (j < 8 ∧ bits (jobOf s j).spjob0 48 8 = 0) → ((jobOf s j).lastCkpt + bits (jobOf s j).spjob1 0 16 * 1000000 ≤ now s) → 
    exec (.checkpointPeriod j) s = .next (ckptBegin j (jobWindow s j) [] s)) ∧
  (∀ (j d : Nat) (s : State), ((jobOf s j).stopping = some d) → (jobRuns s j = true) → 
    exec (.jobStopHalt j) s = .next (stopJob j (decide (d ≤ now s)) s)) ∧
  (∀ (j : Nat) (r : Restart) (s : State), (tget none s.pass.restart j = some r) → 
    exec (.restartResumed j) s = .next (
      let s₁ := setPass s { s.pass with restart := tset none s.pass.restart j none }
      let s₁ := startUnits j true (setJob s₁ j { jobOf s₁ j with restarting := false, resumedAt := now s₁, cyclesSince := 0, lastCkpt := now s₁ })
      r.berths.foldl (fun s b => finishBerth b ST_OK (beBytes 4 r.gen) s) (poisonNotice j r s₁))) ∧
  (∀ (h a : Nat) (s : State), (h < 8 ∧ (tget {} s.apx.harts h : Hart).inGuest = true) → 
    exec (.hartPoisonTrap h a) s = .next (
      let j := (tget {} s.apx.harts h : Hart).job
      let s₁ := apxBump 1 s
      let s₁ := { s₁ with apx := { s₁.apx with harts := tmod {} s₁.apx.harts h (fun x => { x with faultAddr := a }) } }
      consumePoison j (uHART h) (haltHarts j s₁))) ∧
  (∀ (h a n : Nat) (write : Bool) (v : Nat) (s : State), (h < 8 ∧ (tget {} s.apx.harts h : Hart).inGuest = true) → (guestMay s (tget {} s.apx.harts h : Hart).job h a n write = false) → (write = true ∧ 0x1100000000 ≤ a ∧ a < 0x1300000000 ∧ guestMay s (tget {} s.apx.harts h : Hart).job h a n false = true) → 
    exec (.guestAccessFault h a n write v) s = .next (guestFault s)) ∧
  (∀ (h a n : Nat) (write : Bool) (v : Nat) (s : State), (h < 8 ∧ (tget {} s.apx.harts h : Hart).inGuest = true) → (guestMay s (tget {} s.apx.harts h : Hart).job h a n write = false) → (¬ (write = true ∧ 0x1100000000 ≤ a ∧ a < 0x1300000000 ∧ guestMay s (tget {} s.apx.harts h : Hart).job h a n false = true)) → 
    exec (.guestAccessFault h a n write v) s = .next (
      let s₁ := guestFault s
      { s₁ with apx := { s₁.apx with harts := tmod {} s₁.apx.harts h (fun x => { x with faults := x.faults + 1, faultAddr := a }) } })) ∧
  (∀ (h a n v : Nat) (s : State), (h < 8 ∧ (tget {} s.apx.harts h : Hart).inGuest = true) → (guestMay s (tget {} s.apx.harts h : Hart).job h a n true = true) → (a < 0x1100000000 ∧ ¬ ((jobOf s (tget {} s.apx.harts h : Hart).job).jobctlGpa ≤ a ∧ a + n ≤ (jobOf s (tget {} s.apx.harts h : Hart).job).jobctlGpa + 4096)) → 
    exec (.guestAccessFault h a n true v) s = .next (ramPutNat s a n v)) ∧
  (∀ (h a n v : Nat) (s : State), (h < 8 ∧ (tget {} s.apx.harts h : Hart).inGuest = true) → (guestMay s (tget {} s.apx.harts h : Hart).job h a n false = true) → (a < 0x1100000000 ∧ lineBad s a n = false ∧ ¬ ((jobOf s (tget {} s.apx.harts h : Hart).job).jobctlGpa ≤ a ∧ a + n ≤ (jobOf s (tget {} s.apx.harts h : Hart).job).jobctlGpa + 4096)) → 
    exec (.guestAccessFault h a n false v) s = .next (setLoaded h (ramBytes s a n) s)) ∧
  (∀ (h : Nat) (s : State), (h < 8) → 
    exec (.l1ParityError h) s = .next (apxBump 2 s))

/-- Barge queues (R387 to R408). -/
def Obligations.BargeQueues : Prop :=
  (∀ (q job : Nat) (words : List Nat) (parBad : Bool) (s : State), (ownsQueue s job q = true) → (pushAllowed s q = true ∧ 1 ≤ words.length ∧ words.length ≤ 2) → 
    exec (.portalPush q job words parBad) s = .next (
      let s₁ := portalWords q false words (wakeIsland (uQUEUE q) s)
      if parBad then markBad q 4 true s₁ else s₁)) ∧
  (∀ (q job : Nat) (words : List Nat) (parBad : Bool) (s : State), (ownsQueue s job q = true) → (pushAllowed s q = true ∧ 1 ≤ words.length ∧ words.length ≤ 2) → 
    exec (.portalPushEnd q job words parBad) s = .next (
      let s₁ := wakeIsland (uQUEUE q) s
      if parBad then markBad q 4 false (portalWords q false words s₁) else portalWords q true words s₁)) ∧
  (∀ (q job : Nat) (words : List Nat) (parBad : Bool) (s : State), (ownsQueue s job q = true) → (pushAllowed s q = false ∨ words.length = 0 ∨ 2 < words.length) → 
    exec (.portalPush q job words parBad) s = .next (brgBump q 9 (wakeIsland (uQUEUE q) s))) ∧
  (∀ (q job : Nat) (words : List Nat) (parBad : Bool) (s : State), (ownsQueue s job q = false) → 
    exec (.portalPush q job words parBad) s = .next (guestFault (wakeIsland (uQUEUE q) s))) ∧
  (∀ (q job : Nat) (s : State), (ownsQueue s job q = true) → (qProd s q = 2) → 
    exec (.portalAbort q job) s = .next (markBad q 3 false s)) ∧
  (∀ (q job : Nat) (parBad : Bool) (w : QWord) (first : Bool) (t : State) (s : State), (ownsQueue s job q = true) → (qCons s q = 2) → (popQ q parBad (wakeIsland (uQUEUE q) s) = (some (w, first), t)) → 
    exec (.portalPop q job parBad) s = .next (
      let t₁ := setQueue t q { queueOf t q with latched := [{ w with first := first }] }
      if (queueOf t₁ q).latched.any (·.poison) = true then consumePoison job (uQUEUE q) t₁ else t₁)) ∧
  (∀ (q job : Nat) (parBad : Bool) (s : State), (ownsQueue s job q = true) → (qCons s q ≠ 2) → 
    exec (.portalPop q job parBad) s = .next (brgBump q 9 (wakeIsland (uQUEUE q) s))) ∧
  (∀ (q : Nat) (p p₁ : Pkt) (s₁ t : State) (s : State), (islandRuns s (uQUEUE q) = true ∧ firstCq s (pQueue q) = some p) → (qProd s q = 1) → (crossCheck (uQUEUE q) p s = (p₁, s₁) ∧ canalToQueue q p₁.key p₁.pay p₁.poison s₁ = (true, t)) → 
    exec (.queueCopyWrite q) s = .next (dropCq (pQueue q) t)) ∧
  (∀ (q : Nat) (p p₁ : Pkt) (s₁ t : State) (s : State), (islandRuns s (uQUEUE q) = true ∧ firstCq s (pQueue q) = some p) → (qProd s q = 1) → (crossCheck (uQUEUE q) p s = (p₁, s₁) ∧ canalToQueue q p₁.key p₁.pay p₁.poison s₁ = (false, t)) → 
    exec (.queueCopyWrite q) s = .next s) ∧
  (∀ (q : Nat) (s : State), (qProd s q = 1 ∧ 2 ≤ packetLen (queueOf s q)) → ((queueOf s q).openAt + fldOf (queueOf s q).opn BRG_Q.CLOSE_US * 1000 ≤ now s) → 
    exec (.canalCloseTimeout q) s = .next (commitQ q s)) ∧
  (∀ (q : Nat) (parBad : Bool) (s : State), (lineReady (queueOf s q) = true ∧ spills s q = true) → (parBad = false ∨ lineOpen (queueOf s q) = false) → 
    exec (.middleLineWrite q parBad) s = .next (moveLine q s)) ∧
  (∀ (q : Nat) (parBad : Bool) (s : State), (lineReady (queueOf s q) = true ∧ spills s q = true) → (parBad = true ∧ lineOpen (queueOf s q) = true) → 
    exec (.middleLineWrite q parBad) s = .next (markBad q 4 true s)) ∧
  (∀ (q : Nat) (parBad : Bool) (s : State), ((queueOf s q).midN ≠ 0 ∧ (queueOf s q).headN + 16 ≤ 64) → 
    exec (.middleLineRead q parBad) s = .next (
      let v := queueOf s q
      let n := min 16 v.midN
      let bad := ramBad s (lineAddr s q v.midIx) 64
      let com := committedWords v
      let hit := if bad then min (v.headN + n) com - min v.headN com else 0
      let ws := if bad then (v.ws.zipIdx).map (fun e =>
          if v.headN ≤ e.2 ∧ e.2 < v.headN + n ∧ e.2 < com then { e.1 with poison := true } else e.1) else v.ws
      let s := setQueue s q { v with ws := ws, headN := v.headN + n, midN := v.midN - n, midIx := v.midIx + 1 }
      let s := bumpN hit (uQUEUE q) 0x090F 7 s
      let s := if (bad ∨ parBad) ∧ com < v.headN + n then markBad q 4 true s else s
      setQueue s q (settleQ (queueOf s q)))) ∧
  (∀ (q : Nat) (parBad : Bool) (s : State), (islandRuns s (uQUEUE q) = true ∧ qCons s q = 0) → (coreTakes s (qConsUnit s q) = true) → 
    exec (.queuePop q parBad) s = .next (enginePop q parBad s)) ∧
  (∀ (q : Nat) (parBad : Bool) (s : State), (islandRuns s (uQUEUE q) = true ∧ qCons s q = 1) → (jobTakes s (qJob s q) = true ∧ s.dev.state ≠ .safe) → 
    exec (.queuePop q parBad) s = .next (enginePop q parBad s)) ∧
  (∀ (q : Nat) (parBad : Bool) (s : State), (islandRuns s (uQUEUE q) = true ∧ qCons s q = 3) → (jobTakes s (qJob s q) = true ∧ s.dev.state ≠ .safe) → 
    exec (.queuePop q parBad) s = .next (lockPop q parBad s))

/-- Time unit (R409 to R441). -/
def Obligations.TimeEvents : Prop :=
  (∀ (n : Nat) (s : State), (readyBit s RB_TMU = true) → 
    exec (.counterTick n) s = .next (tickBy n (if s.dev.level = 4 then 32 else 1) s)) ∧
  (∀ (n : Nat) (s : State), (readyBit s RB_TMU = false) → 
    exec (.counterTick n) s = .next s) ∧
  (∀ (i : Nat) (s : State), (i < 8 ∧ cmpDue s i = true) → 
    exec (.comparatorFire i) s = .next (fireCmp i s)) ∧
  (∀ (i : Nat) (s : State), (8 ≤ i ∨ cmpDue s i = false) → 
    exec (.comparatorFire i) s = .next s) ∧
  (∀ (n : Nat) (s : State), (rdB s (uSL n) TMU_SYNCOUT.ENABLE = true) → ((syncOutOf s n).late = true ∨ due s (syncOutOf s n).target = true) → 
    exec (.syncOutEdge n) s = .next (syncOutFire n s)) ∧
  (∀ (n : Nat) (s : State), ((syncOutOf s n).high = true ∧ (syncOutOf s n).endTick ≤ s.time.ticks) → 
    exec (.syncOutPulseEnd n) s = .next (setSyncOut s n { syncOutOf s n with high := false })) ∧
  (∀ (n : Nat) (s : State), ((syncOutOf s n).high = true ∧ s.time.ticks < (syncOutOf s n).endTick) → 
    exec (.syncOutPulseEnd n) s = .next s) ∧
  (∀ (s : State), (rdB s uTMU TMU_PPS.ENABLE = true) → (rd s uTMU TMU_PPS.OFFSET_NS ≤ s.time.ns ∧ s.time.ppsSec ≠ s.time.sec + 1) → (ppsGate s = true) → 
    exec .ppsEdge s = .next (setTime s { s.time with
        ppsSec := s.time.sec + 1, ppsHigh := true,
        ppsEnd := s.time.sec * 1000000000 + rd s uTMU TMU_PPS.OFFSET_NS + rd s uTMU TMU_PPS.WIDTH_US * 1000 })) ∧
  (∀ (s : State), (rdB s uTMU TMU_PPS.ENABLE = true) → (rd s uTMU TMU_PPS.OFFSET_NS ≤ s.time.ns ∧ s.time.ppsSec ≠ s.time.sec + 1) → (ppsGate s = false) → 
    exec .ppsEdge s = .next (setTime s { s.time with ppsSec := s.time.sec + 1 })) ∧
  (∀ (s : State), (s.time.ppsHigh = true ∧ s.time.ppsEnd ≤ now s) → 
    exec .ppsPulseEnd s = .next (setTime s { s.time with ppsHigh := false })) ∧
  (∀ (p : Nat) (sec_ : Bool) (m : PtpSync) (s : State), (ptpHears s p = true ∧ ptpPasses s p sec_ = true) → (m.twoStep = true) → 
    exec (.ptpSyncRx p sec_ m) s = .next (
      let s₁ := if (ptpOf s p).pend.isSome then bump uTMU 0x0A0F 10 s p else s
      setPtp s₁ p { ptpOf s p with pend := some ⟨m.seq, ingress16 s p, m.corr⟩ })) ∧
  (∀ (p : Nat) (sec_ : Bool) (m : PtpSync) (s : State), (ptpHears s p = true ∧ ptpPasses s p sec_ = true) → (m.twoStep = false) → 
    exec (.ptpSyncRx p sec_ m) s = .next (
      let s₁ := if (ptpOf s p).pend.isSome then bump uTMU 0x0A0F 10 s p else s
      portSample p (thetaOf s₁ p (ingress16 s p) m.origin m.corr) (setPtp s₁ p { ptpOf s p with pend := none }))) ∧
  (∀ (p : Nat) (sec_ : Bool) (m : PtpSync) (s : State), (ptpHears s p = true ∧ ptpPasses s p sec_ = false) → 
    exec (.ptpSyncRx p sec_ m) s = .next (bump (uETH p) 0x0B0F 2 s)) ∧
  (∀ (p : Nat) (sec_ : Bool) (m : PtpSync) (s : State), (ptpHears s p = false) → 
    exec (.ptpSyncRx p sec_ m) s = .next s) ∧
  (∀ (p : Nat) (sec_ : Bool) (seq pot : Nat) (corr : Int) (w : PendSync) (s : State), (ptpHears s p = true ∧ ptpPasses s p sec_ = true) → ((ptpOf s p).pend = some w) → (w.seq = seq) → 
    exec (.ptpFollowUpRx p sec_ seq pot corr) s = .next (portSample p (thetaOf s p w.t2 pot (w.corr + corr)) (setPtp s p { ptpOf s p with pend := none }))) ∧
  (∀ (p : Nat) (sec_ : Bool) (seq pot : Nat) (corr : Int) (w : PendSync) (s : State), (ptpPasses s p sec_ = true) → ((ptpOf s p).pend = some w) → (w.seq ≠ seq) → 
    exec (.ptpFollowUpRx p sec_ seq pot corr) s = .next s) ∧
  (∀ (p : Nat) (sec_ : Bool) (m : PtpMsg) (s : State), (ptpHears s p = true ∧ ptpPasses s p sec_ = true) → 
    exec (.ptpLkpMessage p sec_ m) s = .next (
      let s₁ := setPtp s p { ptpOf s p with rxStamps := ((((asr (ingress16 s p) 16).toNat, 0)) :: (ptpOf s p).rxStamps).take 8 }
      match m with
      | .announce gm utc sel =>
        let s₂ := setTime s₁ { s₁.time with utcOff := satS 16 utc }
        let s₂ := match sel with | some k => if k ≤ 5 then selectSource k s₂ else s₂ | none => s₂
        if selected s₂ p ∧ gm ≠ s₂.time.gmId then gmChange (setTime s₂ { s₂.time with gmId := gm }) else s₂
      | .linkDelay v => wr s₁ (uETH p) TMU_PORT.LINK_DELAY v
      | .offset theta => if srcPort s₁ = 5 then offerSample theta s₁ else s₁
      | .other _ => s₁)) ∧
  (∀ (p kind seq : Nat) (s : State), ((ptpOf s p).txq.length < 8) → 
    exec (.ptpEventTx p kind seq) s = .next (
      let t := (asr (egress16 s p) 16).toNat
      setPtp s p { ptpOf s p with txq := (ptpOf s p).txq ++ [⟨(kind % 16) * 4096 + seq % 4096, t / 1000000000, t % 1000000000⟩] })) ∧
  (∀ (p kind seq : Nat) (s : State), (8 ≤ (ptpOf s p).txq.length) → 
    exec (.ptpEventTx p kind seq) s = .next (bump uTMU 0x0A0F 8 (wr s (uETH p) TMU_PORT.TXQ_OVF 1) p)) ∧
  (∀ (p key : Nat) (f : TxStamp) (r : List TxStamp) (s : State), (takeStamp key (ptpOf s p).txq = (some f, r)) → 
    exec (.txqLookup p key) s = .next (setPtp s p { ptpOf s p with found := some f, txq := r })) ∧
  (∀ (p key : Nat) (r : List TxStamp) (s : State), (takeStamp key (ptpOf s p).txq = (none, r)) → 
    exec (.txqLookup p key) s = .next (bump uTMU 0x0A0F 9 (setPtp s p { ptpOf s p with found := none, txq := r }) p)) ∧
  (∀ (s : State), (s.time.lastSample + rd s uTMU TMU_SERVO.SYNC_TIMEOUT_MS * 1000000 ≤ now s) → 
    exec .syncTimeout s = .next (gapRule s)) ∧
  (∀ (s : State), (now s < s.time.lastSample + rd s uTMU TMU_SERVO.SYNC_TIMEOUT_MS * 1000000) → 
    exec .syncTimeout s = .next s) ∧
  (∀ (s : State), (s.time.sync = .holdover ∧ s.time.holdLong = false) → (s.time.holdStart + rd s uTMU TMU_SERVO.HOLD_LIMIT_S * 1000000000 ≤ now s) → 
    exec .holdLimit s = .next (timeNotice 1 (srcPort s) 0 s.time.holdStart (setTime s { s.time with holdLong := true }))) ∧
  (∀ (s : State), exec .gmChange s = .next (setTime (gapRule s) { (gapRule s).time with masterRej := false, newMaster := true }))

/-- Towline (R442 to R484). -/
def Obligations.TowlineEvents : Prop :=
  (∀ (p src srcPort : Nat) (w : Wrap) (b : List Byte) (s : State), (portHears s p = true) → (romServes s = false) → (isHost s p = true) → (towFits s p w = false) → 
    exec (.towlineRequestRx p src srcPort w b) s = .next (rxOther p s)) ∧
  (∀ (p src srcPort : Nat) (w : Wrap) (b : List Byte) (s : State), (portHears s p = true) → (romServes s = false) → (isHost s p = true) → (towFits s p w = true) → (messageOk b false = false ∨ messageKind b ≠ 0) → 
    exec (.towlineRequestRx p src srcPort w b) s = .next (towBump p 1 s)) ∧
  (∀ (p src srcPort : Nat) (w : Wrap) (b : List Byte) (s : State), (portHears s p = true) → (romServes s = false) → (isHost s p = true) → (towFits s p w = true) → (messageOk b false = true ∧ messageKind b = 0) → (bits (beAt b 5 1) 0 6 = devId s) → 
    exec (.towlineRequestRx p src srcPort w b) s = .next (offerReq (requestOf (.port p) (bits (beAt b 4 1) 0 4) src srcPort b) s)) ∧
  (∀ (p src srcPort : Nat) (w : Wrap) (b : List Byte) (s : State), (portHears s p = true) → (romServes s = false) → (isHost s p = true) → (towFits s p w = true) → (messageOk b false = true ∧ messageKind b = 0) → (bits (beAt b 5 1) 0 6 ≠ devId s) → (isHead s = true) → 
    exec (.towlineRequestRx p src srcPort w b) s = .next (relayRequest p src srcPort b s)) ∧
  (∀ (p src srcPort : Nat) (w : Wrap) (b : List Byte) (s : State), (portHears s p = true) → (romServes s = true) → 
    exec (.towlineRequestRx p src srcPort w b) s = .next (romRequest p src srcPort w b s)) ∧
  (∀ (p t : Nat) (s : State), (portHears s p = true) → (romServes s = false) → (isHost s p = true) → (t = rd s (uETH p) TOW_PORT.OWN_IP4) → 
    exec (.arpIcmpRx p (.arp t)) s = .next (enqueue p 4 ⟨.other, 0, 0, beBytes 6 (portMac s p) ++ beBytes 4 t⟩ s)) ∧
  (∀ (p t : Nat) (s : State), (portHears s p = true) → (romServes s = false) → (isHost s p = true) → (t = ownIp6 s p) → 
    exec (.arpIcmpRx p (.nd t)) s = .next (enqueue p 4 ⟨.other, 0, 0, beBytes 6 (portMac s p) ++ beBytes 16 t⟩ s)) ∧
  (∀ (p t : Nat) (data : List Byte) (w : Wrap) (s : State), (portHears s p = true) → (romServes s = false) → (isHost s p = true) → (data.length ≤ 64 ∧ frameFits s p w = true ∧ t = (if w.v6 then ownIp6 s p else rd s (uETH p) TOW_PORT.OWN_IP4)) → 
    exec (.arpIcmpRx p (.echo t data w)) s = .next (enqueue p 4 ⟨.other, 0, 0, data⟩ s)) ∧
  (∀ (p t : Nat) (data : List Byte) (w : Wrap) (s : State), (portHears s p = true) → (romServes s = false) → (isHost s p = true) → (64 < data.length ∨ frameFits s p w = false) → 
    exec (.arpIcmpRx p (.echo t data w)) s = .next (rxOther p s)) ∧
  (∀ (p udp : Nat) (frame : List Byte) (i : Nat) (s : State), (portHears s p = true) → (rd s (uETH p) TOW_PORT.ROLE = 2) → ((upto 8).find? (fun i => rd s (uETH p) TOW_RXF.VALID i == 1 && rd s (uETH p) TOW_RXF.PORT i == udp) = some i) → (memReady s (rd s (uETH p) TOW_RXF.BASE i * 64 + tget 0 (ethOf s p).ringSeq i % (rd s (uETH p) TOW_RXF.SLOTS_M1 i + 1) * 2048) = true) → 
    exec (.sensorFrameRx p udp frame) s = .next (
      let n := tget 0 (ethOf s p).ringSeq i
      let slots := rd s (uETH p) TOW_RXF.SLOTS_M1 i + 1
      let a := rd s (uETH p) TOW_RXF.BASE i * 64 + n % slots * 2048
      let data := frame.take 2032
      let s := if slots ≤ n then towBump p 12 s else s
      let s := ramPut (ramPutNat (ramPutNat s a 8 (now s)) (a + 8) 4 data.length) (a + 16) data
      let s := ramPutNat s (a + 12) 4 ((n + 1) % 2 ^ 32)
      setEth s p { ethOf s p with ringSeq := tset 0 (ethOf s p).ringSeq i (n + 1) })) ∧
  (∀ (p : Nat) (m : TxMsg) (r : List TxMsg) (s : State), (txFree s p = true) → ((ethOf s p).q0 = [] ∧ (ethOf s p).q1 = m :: r) → (keyed s p m = true) → 
    exec (.ethFrameTx p) s = .next (startFrame p m (setEth s p { ethOf s p with q1 := r }))) ∧
  (∀ (p : Nat) (m : TxMsg) (r : List TxMsg) (s : State), (txFree s p = true) → ((ethOf s p).q0 = [] ∧ (ethOf s p).q1 = [] ∧ (ethOf s p).q2 = m :: r) → (keyed s p m = true) → 
    exec (.ethFrameTx p) s = .next (startFrame p m (setEth s p { ethOf s p with q2 := r }))) ∧
  (∀ (p : Nat) (m : TxMsg) (r : List TxMsg) (s : State), (txFree s p = true) → ((ethOf s p).q0 = [] ∧ (ethOf s p).q1 = [] ∧ (ethOf s p).q2 = [] ∧ (ethOf s p).q3 = m :: r) → (keyed s p m = true) → 
    exec (.ethFrameTx p) s = .next (startFrame p m (setEth s p { ethOf s p with q3 := r }))) ∧
  (∀ (p : Nat) (m : TxMsg) (r : List TxMsg) (s : State), (txFree s p = true) → ((ethOf s p).q0 = [] ∧ (ethOf s p).q1 = [] ∧ (ethOf s p).q2 = [] ∧ (ethOf s p).q3 = [] ∧ (ethOf s p).q4 = m :: r) → (keyed s p m = true) → 
    exec (.ethFrameTx p) s = .next (startFrame p m (setEth s p { ethOf s p with q4 := r }))) ∧
  (∀ (p : Nat) (s : State), ((ethOf s p).q0 ≠ []) → 
    exec (.ethFrameTx p) s = .next s) ∧
  (∀ (p : Nat) (m : TxMsg) (r : List TxMsg) (s : State), (txFree s p = true) → ((ethOf s p).q0 = m :: r) → 
    exec (.alarmFrameTx p) s = .next (startFrame p m (setEth s p { ethOf s p with q0 := r }))) ∧
  (∀ (s : State), (s.tow.holder ≠ 15 ∧ holderSilent s = true) → 
    exec .helmSilence s = .next { s with tow := { s.tow with silent := true } }) ∧
  (∀ (s : State), (s.tow.holder = 15 ∨ holderSilent s = false) → 
    exec .helmSilence s = .next s) ∧
  (∀ (c : Claim) (s : State), (s.tow.claim = some c) → (c.due ≤ now s) → 
    exec .helmObjectExpiry s = .next (finishBerth c.berth ST_OK [] (setHelm (linkCode c.link) 2 { s with tow := { s.tow with claim := none } }))) ∧
  (∀ (c : Claim) (s : State), (s.tow.claim = some c) → (now s < c.due) → 
    exec .helmObjectExpiry s = .next s) ∧
  (∀ (p : Nat) (m : MkaPdu) (k : Nat) (s : State), (portHears s p = true) → (rdB s (uETH p) TOW_PORT.MACSEC_EN = true ∧ (ethOf s p).cknLen ≠ 0 ∧ m.ckn = (ethOf s p).macsecCkn ∧ m.icvOk = true) → (m.sak = some k) → 
    exec (.mkaPduRx p m) s = .next (setEth s p { ethOf s p with saks := (k :: (ethOf s p).saks).take 2 })) ∧
  (∀ (p : Nat) (m : MkaPdu) (s : State), (portHears s p = true) → (rdB s (uETH p) TOW_PORT.MACSEC_EN = false ∨ (ethOf s p).cknLen = 0 ∨ m.ckn ≠ (ethOf s p).macsecCkn ∨ m.icvOk = false) → 
    exec (.mkaPduRx p m) s = .next (rxOther p s))

/-- Boot and lifecycle (R519 to R549). -/
def Obligations.SecurityEvents : Prop :=
  (∀ (f : FwImg) (s : State), (s.dev.state = .boot ∧ s.sec.towBoot = false ∧ s.pwr.por = false ∧ s.sec.bootMode = false) → (s.sec.flashBad = false) → (verifyImg (flashBytes s (imgSize (flashBytes s 1024))) 0 s = some f) → 
    exec .romFlashBoot s = .next (startFw f 0 s)) ∧
  (∀ (s : State), (s.dev.state = .boot ∧ s.sec.towBoot = false ∧ s.pwr.por = false ∧ s.sec.bootMode = false) → (s.sec.flashBad = true ∨ verifyImg (flashBytes s (imgSize (flashBytes s 1024))) 0 s = none) → 
    exec .romFlashBoot s = .next (setSec s { s.sec with flashFails := satU 16 (s.sec.flashFails + 1), towBoot := true })) ∧
  (∀ (s : State), (s.dev.state = .boot ∧ s.sec.towBoot = false ∧ s.pwr.por = false ∧ s.sec.bootMode = true) → 
    exec .romFlashBoot s = .next (setSec s { s.sec with towBoot := true })) ∧
  (∀ (a : Activation) (s : State), (s.sec.act = some a) → (a.exchanged = none ∧ quiescent s = true) → 
    exec .activateQuiescent s = .next (
      let s₁ := setStage s 1 { stageOf s 1 with data := match s.sec.fw with | some f => f.bytes | none => [] }
      setSec s₁ { s₁.sec with
        fw := some a.image, staged := none,
        act := some { a with exchanged := some (now s₁), old := s₁.sec.fw } })) ∧
  (∀ (a : Activation) (t : Nat) (s : State), (s.sec.act = some a) → (a.exchanged = some t) → (s.mem.lkpReset = false) → 
    exec .firmwareAlive s = .next (
      let s₁ := setSec s { s.sec with act := none, ranFrom := some (now s) }
      checkFlash (resumeService (finishBerth a.berth ST_OK (beBytes 4 a.image.version ++ beBytes 4 ((now s₁ - t) / 1000)) s₁)))) ∧
  (∀ (a : Activation) (t : Nat) (f : FwImg) (s : State), (s.sec.act = some a) → (a.exchanged = some t ∧ a.old = some f) → (t + 15000000 ≤ now s) → 
    exec .activateFallback s = .next (
      let s₁ := setStage s 1 { stageOf s 1 with data := a.image.bytes }
      resumeService (finishBerth a.berth ST_WRONG_STATE [] (setSec s₁ { s₁.sec with fw := some f, staged := none, act := none })))) ∧
  (∀ (ok : Bool) (f : FwImg) (s : State), (s.sec.fw = some f) → (s.sec.rewrite ≠ 0) → 
    exec (.flashRewriteDone ok) s = .next (unitNotice 22 (if ok then ST_OK else ST_ABORTED) uLKP (3 - s.sec.rewrite) 0xFFFF (setSec s { s.sec with
      rewrite := if ok then 0 else s.sec.rewrite - 1, flash := if ok then f.bytes else s.sec.flash, flashBad := !ok }))) ∧
  (∀ (f : FwImg) (t : Nat) (s : State), (s.sec.fw = some f ∧ s.sec.ranFrom = some t ∧ t ≤ now s) → (svnCount s < f.svn) → 
    exec .svnBurn s = .next (setSec s { s.sec with svnFuses := blowBits (f.svn - svnCount s) s.sec.svnFuses })) ∧
  (∀ (f : FwImg) (s : State), (s.sec.fw = some f) → (f.svn ≤ svnCount s) → 
    exec .svnBurn s = .next s) ∧
  (∀ (s : State), (validChallenge s = none) → 
    exec .challengeExpiry s = .next (setSec s { s.sec with challenge := none })) ∧
  (∀ (s : State), ((validChallenge s).isSome = true) → 
    exec .challengeExpiry s = .next s) ∧
  (∀ (c t : Nat) (s : State), (s.sec.session = some (c, t)) → (s.sec.lifecycle = 1 ∧ t + 28800000000000 ≤ now s) → 
    exec .debugSessionExpiry s = .next (endSession s)) ∧
  (∀ (v : Nat) (s : State), (s.dev.level = 4 ∨ bits v 2 32 % 4 ≠ 0) → 
    exec (.dbgBusAccess v) s = .next (dbgAnswer 1 0 s)) ∧
  (∀ (v : Nat) (s : State), (s.dev.level ≠ 4 ∧ bits v 2 32 % 4 = 0) → (dbgOpen s = false) → 
    exec (.dbgBusAccess v) s = .next (dbgAnswer 2 0 s)) ∧
  (∀ (v : Nat) (s : State), (s.dev.level ≠ 4 ∧ bits v 2 32 = 0) → (dbgOpen s = true) → 
    exec (.dbgBusAccess v) s = .next (if bit v 0 then dbgCtrlWrite (bits v 34 32) s else dbgAnswer 0 (dbgCtrlWord s) s)) ∧
  (∀ (v : Nat) (s : State), (s.dev.level ≠ 4 ∧ bits v 2 32 % 4 = 0 ∧ bits v 2 32 ≠ 0) → (dbgOpen s = true) → 
    exec (.dbgBusAccess v) s = .next (if bit v 0 then dbgAnswer (if bit (dbgScope s) 1 then 0 else 2) s.sec.dbgData s
      else if ¬ bit (dbgScope s) 0 then dbgAnswer 2 0 s
      else dbgAnswer 0 (drawFree 32 s).1 (drawFree 32 s).2)) ∧
  (∀ (v : Bool) (s : State), (bit (dbgScope s) 1 = true) → 
    exec (.holdPowerWrite v) s = .next (setSec s { s.sec with holdPower := v })) ∧
  (∀ (v : Bool) (s : State), (bit (dbgScope s) 1 = false) → 
    exec (.holdPowerWrite v) s = .next s) ∧
  (∀ (s : State), (bit (dbgScope s) 2 = true ∧ s.sec.halted = false) → 
    exec .lkpHalt s = .next (setSec (raiseCause 12 uLKP s) { (raiseCause 12 uLKP s).sec with halted := true })) ∧
  (∀ (s : State), (bit (dbgScope s) 2 = true ∧ s.sec.halted = true) → 
    exec .lkpResumeWrite s = .next (resumeService (setSec s { s.sec with halted := false })))

/-- Memory integrity (R550 to R583). -/
def Obligations.IntegrityEvents : Prop :=
  (∀ (r : MemRead) (s : State), (memExists r.unit r.memory = true ∧ unitReady s r.unit = true ∧ (unitOf s r.unit).resetting = false) → 
    exec (.dredgerRead r) s = .next (
      let s₁ := match lineOutcome r with
        | .corrected => ceFound r s
        | .uncorrectable => ueFound r s
        | _ => s
      if r.last then lapEnds r.unit r.memory s₁ else s₁)) ∧
  (∀ (r : MemRead) (s : State), (memExists r.unit r.memory = false ∨ ((unitReady s r.unit = false ∨ (unitOf s r.unit).resetting = true) ∧ hitNow s r.unit = false)) → 
    exec (.dredgerRead r) s = .next s) ∧
  (∀ (u : Nat) (s : State), ((unitOf s u).resetting = true) → 
    exec (.unitResetDone u true) s = .next (reportResumed u (unitResumes u s))) ∧
  (∀ (u : Nat) (s : State), ((unitOf s u).resetting = true) → 
    exec (.unitResetDone u false) s = .next (
      let s₁ := match tget none s.mem.why u with | some (row, a) => memNotice 7 u row a 0 0 s | none => s
      unitFails u (setMem s₁ { s₁.mem with why := tset none s₁.mem.why u none }))) ∧
  (∀ (u : Nat) (pass : Bool) (s : State), ((unitOf s u).resetting = false ∧ utype u ≠ 0x0A) → 
    exec (.unitResetDone u pass) s = .next s) ∧
  (∀ (s : State), (s.mem.lkpReset = true ∧ s.sec.act.any (·.exchanged.isSome) = false) → 
    exec (.lkpRecovered true) s = .next (resumeService (clearCause 7 (reportResumed uLKP (setMem s { s.mem with lkpReset := false }))))) ∧
  (∀ (s : State), (s.mem.lkpReset = true ∧ s.sec.act.any (·.exchanged.isSome) = false) → 
    exec (.lkpRecovered false) s = .next (raiseCause 7 uLKP s)) ∧
  (∀ (s : State), (s.mem.lkpReset = false ∧ romServes s = false) → 
    exec .lkpLockstepMismatch s = .next (lkpFault s)) ∧
  (∀ (u row : Nat) (s : State), (memExists u row = true) → ((memOf s u row).told = 0 ∨ (memOf s u row).told + 60000000000 ≤ now s) → 
    exec (.lapNotice u row) s = .next (
      let s₁ := memNotice 0 u row 0 (memOf s u row).lapMs 0 s
      setMemOf s₁ u row { memOf s₁ u row with ce := 0, ue := 0, told := max 1 (now s₁) })) ∧
  (∀ (u row : Nat) (s : State), ((memOf s u row).told ≠ 0 ∧ now s < (memOf s u row).told + 60000000000) → 
    exec (.lapNotice u row) s = .next s) ∧
  (∀ (u row mac : Nat) (r : Repair) (s : State), (s.mem.copying.find? (fun r => r.region == memKey u row && r.mac == mac) = some r) → 
    exec (.spareSwitch u row mac) s = .next (
      let at_ (l : Nat × Nat × Nat) : Bool := l.1 == mac && (if r.col then l.2.2 else l.2.1) == r.addr
      let m := memOf s u row
      let s₁ := setMemOf s u row { m with
        repairs := m.repairs ++ [r], hard := m.hard.filter (fun l => !at_ l), fixed := m.fixed.filter (fun l => !at_ l) }
      memNotice 5 u row r.byte 0 0 (setMem s₁ { s₁.mem with copying := s₁.mem.copying.filter (· != r), burns := s₁.mem.burns ++ [r] }))) ∧
  (∀ (chan page : Nat) (s : State), (s.mem.paging.contains (chan * 2 ^ 32 + page) = true) → 
    exec (.pageRemap chan page) s = .next (memNotice 5 (uDDR chan) 31 (chan * 0x800000000 + page * 4096) 0 0
        (setMem s { s.mem with paging := s.mem.paging.filter (· != chan * 2 ^ 32 + page), pages := s.mem.pages ++ [chan * 2 ^ 32 + page] }))) ∧
  (∀ (chan page : Nat) (s : State), (s.mem.paging.contains (chan * 2 ^ 32 + page) = false) → 
    exec (.pageRemap chan page) s = .next s) ∧
  (∀ (ok : Bool) (r : Repair) (l : List Repair) (s : State), (s.mem.burns = r :: l) → 
    exec (.fuseBurnDone ok) s = .next (
      let e := if ok then fuseEntry r else fuseEntry r ^^^ 2 ^ 24
      let s₁ := setMem s { s.mem with burns := l }
      setMemOf s₁ (r.region / 64) (r.region % 64) { memOf s (r.region / 64) (r.region % 64) with
        fuses := (memOf s (r.region / 64) (r.region % 64)).fuses ++ [e] }))

/-- Second passage and test content (R584 to R611). -/
def Obligations.PassageEvents : Prop :=
  (∀ (j : Nat) (s : State), (j < 8) → (windowReady s j = true) → 
    exec (.windowCommit j) s = .next (
      let w := nextWin s j
      let s := commitHeld j s
      let s := if guarded s j then windowNotices 0 j w s else s
      let s := logWindow j w 0 s
      let s := (jobQueues s j).foldl (fun s q => freeRetained q (fun x => decide (x ≤ w)) s) s
      let s := (jobArrays s j).foldl (fun s n => freeHeld w n s) s
      let s := setPass s { s.pass with
        undo := (jobCores s j).foldl (fun t c => tmod [] t c (fun l => l.filter (fun u => decide (w < u.win)))) s.pass.undo,
        next := tset 0 s.pass.next j (w + 1) }
      ckptWindow j w s)) ∧
  (∀ (j : Nat) (s : State), (8 ≤ j ∨ windowReady s j = false) → 
    exec (.windowCommit j) s = .next s) ∧
  (∀ (island : Nat) (s : State), exec (.supplyDroop island) s = .next ((islandUnits island).foldl (fun s u => suspectUnit u s) s)) ∧
  (∀ (j t : Nat) (r : StepRec) (s : State), (j < 8 ∧ jobTakes s j = true) → (tget none s.pass.replay j = none ∧ nextSuspect s j = some r) → ((replayTargets s j r.unit).find? (fun t => !targetBusy s t) = some t) → 
    exec (.replayStart j) s = .next (setPass s { s.pass with replay := tset none s.pass.replay j (some ⟨r.win, r.unit, t, now s, []⟩) })) ∧
  (∀ (j : Nat) (r : StepRec) (s : State), (j < 8 ∧ jobTakes s j = true) → (tget none s.pass.replay j = none ∧ nextSuspect s j = some r) → (replayTargets s j r.unit = []) → 
    exec (.replayStart j) s = .next (beginRestart j 4 r.unit 0 none s)) ∧
  (∀ (j : Nat) (s : State), (j < 8 ∧ jobTakes s j = true) → 
    exec (.replayStart j) s = .next (
      let go (win u : Nat) (tried : List Nat) : State :=
        let ts := (replayTargets s j u).filter (fun t => !tried.contains t)
        if ts = [] then beginRestart j 4 u 0 none s
        else match ts.find? (fun t => !targetBusy s t) with
          | none => s
          | some t => setPass s { s.pass with replay := tset none s.pass.replay j (some ⟨win, u, t, now s, tried⟩) }
      match tget none s.pass.replay j with
      | some r => if r.target = 0xFFFF then go r.win r.unit r.tried else s
      | none => match nextSuspect s j with
        | none => s
        | some r => go r.win r.unit [])) ∧
  (∀ (j : Nat) (v : ReplayRuns) (p : Replay) (s : State), (tget none s.pass.replay j = some p) → (p.target ≠ 0xFFFF) → 
    exec (.replayVerdict j v) s = .next (
      let r := stepOf s j p.win p.unit
      let own := stepSignature s r
      let s := setPass s { s.pass with replay := tset none s.pass.replay j none }
      if v.replay = own then setStep { r with ok := true } s
      else if v.arbiter = some own then arbitrated j r false [] s
      else if v.arbiter = some v.replay then arbitrated j r true v.bodies s
      else beginRestart j 3 p.unit 0 none s)) ∧
  (∀ (j : Nat) (r : StepRec) (s : State), (j < 8 ∧ nextSuspect s j = some r) → (windowStop s j r.win + bits (jobOf s j).spjob0 32 16 * 1000 ≤ now s) → 
    exec (.replayLimitExpiry j) s = .next (beginRestart j 4 r.unit 0 none s)) ∧
  (∀ (u : Nat) (s : State), (s.pass.content.isSome = true ∧ s.pass.testOn = true ∧ (testOf s u).running = false) → (inRotation s u = true ∧ targetBusy s u = false) → 
    exec (.testVisitStart u) s = .next (setTest u { testOf s u with prev := (testOf s u).start, start := max 1 (now s), running := true } s)) ∧
  (∀ (u : Nat) (s : State), ((testOf s u).running = true) → 
    exec (.testVisitDone u true) s = .next (testPasses u s)) ∧
  (∀ (u : Nat) (s : State), ((testOf s u).running = true) → 
    exec (.testVisitDone u false) s = .next (
      let s₁ := setTest u { testOf s u with running := false } s
      match (testOf s u).ladder with
      | some i => if (unitOf s₁ u).st = .quarantined then marginStep u (i + 1) s₁ else testFails u s₁
      | none =>
        if (unitOf s₁ (recordUnit u)).st = .quarantined then
          (if utype u = 0x0A then { s₁ with safe := { s₁.safe with pairOk := tset 0 s₁.safe.pairOk (uindex u) 0 } } else s₁)
        else testFails u (setTest u { testOf s₁ u with stopped := false } s₁))) ∧
  (∀ (u : Nat) (ok : Bool) (s : State), ((testOf s u).running = false) → 
    exec (.testVisitDone u ok) s = .next s) ∧
  (∀ (u : Nat) (s : State), (s.pass.content.isSome = true ∧ s.pass.testOn = true ∧ inRotation s u = true) → ((testOf s u).late = false ∧ visitBase (testOf s u) ≠ 0) → (visitBase (testOf s u) + (s.pass.rotation + 4) * 1000000 < now s) → 
    exec (.testLate u) s = .next (
      let b := visitBase (testOf s u)
      let s := setTest u { testOf s u with late := true } s
      suspectUnit u (notice NT_UNIT ST_OK u (beBytes 1 8 ++ beBytes 1 0xFF ++ beBytes 1 (unitOf s (recordUnit u)).job ++ beBytes 9 0
        ++ beBytes 4 (min ((now s - b) / 1000000) 0xFFFFFFFF) ++ beBytes 24 0) s)))

/-- Power ladder (R622 to R650). -/
def Obligations.PowerEvents : Prop :=
  (∀ (e : PwrEntry) (s : State), (s.pwr.entry = some e) → (e.quiesced = true) → 
    exec .powerEntryQuiesced s = .next (nextLevelSet s)) ∧
  (∀ (e : PwrEntry) (s : State), (s.pwr.entry = some e) → (e.quiesced = false ∧ refuser s e.target (if e.berth.isSome then none else e.ports.head?) = none) → 
    exec .powerEntryQuiesced s = .next (nextLevelSet (
      let s := commitOpen s
      let s := setPwr s { s.pwr with entry := some { e with quiesced := true } }
      let s := if e.target = 3 then (upto 4).foldl (fun s p => sendTc10 (if e.ports.contains p then 2 else 1) s p) s else s
      match e.berth with
      | some b => finishBerth b ST_OK (levelReply e.target 0 0) s
      | none => s))) ∧
  (∀ (e : PwrEntry) (k d : Nat) (s : State), (s.pwr.entry = some e) → (e.quiesced = false ∧ refuser s e.target (if e.berth.isSome then none else e.ports.head?) = some (k, d)) → 
    exec .powerEntryQuiesced s = .next (nextLevelSet (abortEntry k d s))) ∧
  (∀ (e : PwrEntry) (s : State), (s.pwr.entry = some e) → (e.quiesced = true) → 
    exec .powerEntryComplete s = .next (nextLevelSet (
      let from_ := s.dev.level
      let was := if from_ ≤ 1 then s.dev.ready else s.pwr.wasReady
      let s := loseLevel e.target s
      let s := setPwr { s with dev := { s.dev with level := e.target } } { s.pwr with
        entry := none, wasReady := was, rungs := [], throttled := false, stopped := [],
        enCore := decide (e.target ≤ 2), enDdr := decide (e.target ≤ 3), enAux := decide (e.target ≤ 3),
        lowPower := decide (e.target = 4), exit_ := e.wake.map (fun w => { src := w.1, target := 0, port := w.2 }) }
      powerNotice 0 from_ e.target 0xFF 0 0 s))) ∧
  (∀ (x : PwrExit) (s : State), (s.pwr.exit_ = some x) → (s.dev.level ≤ 1) → 
    exec .powerExitComplete s = .next (nextLevelSet (
      let from_ := s.dev.level
      let s := setPwr { s with dev := { s.dev with level := x.target } } { s.pwr with
        exit_ := none, lowPower := false, enAux := true, enDdr := true, enCore := true, stopped := [] }
      let s := powerNotice 0 from_ x.target x.src 0 0 s
      match x.berth with
      | some b => finishBerth b ST_OK (levelReply x.target 0 0) s
      | none => s))) ∧
  (∀ (x : PwrExit) (s : State), (s.pwr.exit_ = some x) → (2 ≤ s.dev.level) → 
    exec .powerExitComplete s = .next (nextLevelSet (
      let from_ := s.dev.level
      let s := setPwr { s with dev := { s.dev with level := x.target } } { s.pwr with
        exit_ := none, lowPower := false, enAux := true, enDdr := true, enCore := true, stopped := [] }
      let s := { s with dev := { s.dev with ready := s.dev.ready ||| exitReady s from_ } }
      let s := setPwr s { s.pwr with rungs := [], hold := 0, coolFrom := none }
      let s := (upto 2).foldl (fun s h => if from_ = 2 then fillPolicer h s else s) s
      let s := if from_ ≤ 3 then reloadGraph from_ s else s
      let s := if 3 ≤ from_ then (upto 4).foldl (fun s p =>
        let s := setEth s p { ethOf s p with sleepListen := false }
        if isHost s p ∧ x.port ≠ some p then sendTc10 4 s p else s) s else s
      let s := powerNotice 0 from_ x.target x.src 0 0 s
      match x.berth with
      | some b => finishBerth b ST_OK (levelReply x.target 0 0) s
      | none => s))) ∧
  (∀ (p : Nat) (s : State), (p < 4 ∧ s.dev.level < 3) → (isHost s p = true ∧ s.pwr.entry = none ∧ s.pwr.exit_ = none ∧ refuser s 3 (some p) = none) → 
    exec (.tc10SleepRequest p) s = .next (setPwr s { s.pwr with entry := some { target := 3, ports := [p] } })) ∧
  (∀ (p : Nat) (s : State), (p < 4 ∧ s.dev.level < 3) → (isHost s p = false) → 
    exec (.tc10SleepRequest p) s = .next (sendTc10 3 s p)) ∧
  (∀ (p : Nat) (e : PwrEntry) (s : State), (p < 4 ∧ s.dev.level < 3) → (isHost s p = true ∧ s.pwr.entry = some e) → 
    exec (.tc10SleepRequest p) s = .next (if e.quiesced then sendTc10 2 s p else setPwr s { s.pwr with entry := some { e with ports := e.ports ++ [p] } })) ∧
  (∀ (p : Nat) (s : State), (p < 4 ∧ s.dev.level = 3 ∧ s.pwr.entry = none) → 
    exec (.tc10SleepReject p) s = .next (unitNotice 23 ST_OK (uETH p) 0 0xFFFF (setEth s p { ethOf s p with sleepListen := true }))) ∧
  (∀ (p : Nat) (s : State), (s.dev.level ≠ 3 ∧ s.pwr.entry = none) → 
    exec (.tc10SleepReject p) s = .next s) ∧
  (∀ (p : Nat) (s : State), (p < 4 ∧ (isHost s p = true ∨ (ethOf s p).sleepListen = true)) → 
    exec (.tc10Wake p) s = .next (powerWake 1 (some p) s)) ∧
  (∀ (p : Nat) (s : State), (isHost s p = false ∧ (ethOf s p).sleepListen = false) → 
    exec (.tc10Wake p) s = .next s) ∧
  (∀ (s : State), (s.pwr.entry = none ∧ s.pwr.exit_ = none) → (wakes 2 s.dev.level = true) → 
    exec .wakeN s = .next (setPwr s { s.pwr with exit_ := some { src := 2, target := 0 } })) ∧
  (∀ (s : State), (s.pwr.lowPower = true) → 
    exec .lpCurrent s = .next (powerWake 4 none s)) ∧
  (∀ (s : State), (s.pwr.lowPower = false) → 
    exec .lpCurrent s = .next s) ∧
  (∀ (mw : Nat) (s : State), (s.dev.level < 2 ∧ s.pwr.entry = none) → 
    exec (.governorPeriod mw) s = .next (
      let die := s.safe.temps.take 16
      let past : Bool := decide (s.pwr.limit * 1000 < mw)
      let hot : Bool := die.any (fun t => decide (1150 ≤ t))
      let low : Bool := decide (mw + 3000 < s.pwr.limit * 1000)
      let cool : Bool := die.all (fun t => decide (t ≤ 1120))
      let s := setPwr s { s.pwr with
        mw := mw, coolFrom := if cool then some (s.pwr.coolFrom.getD (now s)) else none }
      let s := governorStep past hot low s
      if (upto 4).all (fun i => rung s i == rungSteps i) ∧ (past ∨ hot)
          ∧ (s.pwr.floorAt = 0 ∨ s.pwr.floorAt + 1000000000 ≤ now s) then
        governorNotice 3 (setPwr s { s.pwr with floorAt := now s })
      else s)) ∧
  (∀ (slackOk : Bool) (s : State), (s.pwr.avsFails < 3) → 
    exec (.avsAdjust slackOk false) s = .next (setPwr s { s.pwr with avsFails := s.pwr.avsFails + 1 })) ∧
  (∀ (slackOk : Bool) (s : State), (s.pwr.avsFails < 3) → 
    exec (.avsAdjust slackOk true) s = .next (
      let d := (drawFree 16 s).1 % 6
      let t := (drawFree 16 s).2
      setPwr t { t.pwr with avsFails := 0, vddMv := if slackOk then max 700 (t.pwr.vddMv - d) else min 850 (t.pwr.vddMv + d) })) ∧
  (∀ (i : Nat) (s : State), (i < 60 ∧ s.pwr.stopped.contains i = false ∧ onClass0 s i = false) → ((s.dev.level ≤ 1 ∧ islandIdle s i = true) ∨ (s.dev.level = 1 ∧ ¬ islandBusy s i = true)) → 
    exec (.islandClockStop i) s = .next (setPwr s { s.pwr with stopped := s.pwr.stopped ++ [i] })) ∧
  (∀ (i : Nat) (s : State), exec (.islandClockRestart i) s = .next (setPwr s { s.pwr with stopped := s.pwr.stopped.filter (· != i) }))
end

