-- ==== Sys2Proof/Laws/State.lean ====
section
/-! SUPPORT. One lemma for each field of State and each of the operations that write one component of it: what the
operation leaves, and what it writes. -/
namespace Sys2Proof.Machine

/-! ### `setLoaded` -/

theorem setLoaded_apx (h : Nat) (l : List Byte) (s : State) :
    (setLoaded h l s).apx = { s.apx with harts := tmod {} s.apx.harts h (fun x => { x with loaded := l }) } := rfl

@[simp] theorem setLoaded_dev (h : Nat) (l : List Byte) (s : State) : (setLoaded h l s).dev = s.dev := rfl

@[simp] theorem setLoaded_regs (h : Nat) (l : List Byte) (s : State) : (setLoaded h l s).regs = s.regs := rfl

@[simp] theorem setLoaded_cnt (h : Nat) (l : List Byte) (s : State) : (setLoaded h l s).cnt = s.cnt := rfl

@[simp] theorem setLoaded_ram (h : Nat) (l : List Byte) (s : State) : (setLoaded h l s).ram = s.ram := rfl

@[simp] theorem setLoaded_time (h : Nat) (l : List Byte) (s : State) : (setLoaded h l s).time = s.time := rfl

@[simp] theorem setLoaded_tow (h : Nat) (l : List Byte) (s : State) : (setLoaded h l s).tow = s.tow := rfl

@[simp] theorem setLoaded_slu (h : Nat) (l : List Byte) (s : State) : (setLoaded h l s).slu = s.slu := rfl

@[simp] theorem setLoaded_upIn (h : Nat) (l : List Byte) (s : State) : (setLoaded h l s).upIn = s.upIn := rfl

@[simp] theorem setLoaded_brg (h : Nat) (l : List Byte) (s : State) : (setLoaded h l s).brg = s.brg := rfl

@[simp] theorem setLoaded_inr (h : Nat) (l : List Byte) (s : State) : (setLoaded h l s).inr = s.inr := rfl

@[simp] theorem setLoaded_srf (h : Nat) (l : List Byte) (s : State) : (setLoaded h l s).srf = s.srf := rfl

@[simp] theorem setLoaded_ne (h : Nat) (l : List Byte) (s : State) : (setLoaded h l s).ne = s.ne := rfl

@[simp] theorem setLoaded_fa (h : Nat) (l : List Byte) (s : State) : (setLoaded h l s).fa = s.fa := rfl

@[simp] theorem setLoaded_ten (h : Nat) (l : List Byte) (s : State) : (setLoaded h l s).ten = s.ten := rfl

@[simp] theorem setLoaded_fus (h : Nat) (l : List Byte) (s : State) : (setLoaded h l s).fus = s.fus := rfl

@[simp] theorem setLoaded_canal (h : Nat) (l : List Byte) (s : State) : (setLoaded h l s).canal = s.canal := rfl

@[simp] theorem setLoaded_res (h : Nat) (l : List Byte) (s : State) : (setLoaded h l s).res = s.res := rfl

@[simp] theorem setLoaded_pass (h : Nat) (l : List Byte) (s : State) : (setLoaded h l s).pass = s.pass := rfl

@[simp] theorem setLoaded_urg (h : Nat) (l : List Byte) (s : State) : (setLoaded h l s).urg = s.urg := rfl

@[simp] theorem setLoaded_safe (h : Nat) (l : List Byte) (s : State) : (setLoaded h l s).safe = s.safe := rfl

@[simp] theorem setLoaded_sec (h : Nat) (l : List Byte) (s : State) : (setLoaded h l s).sec = s.sec := rfl

@[simp] theorem setLoaded_mem (h : Nat) (l : List Byte) (s : State) : (setLoaded h l s).mem = s.mem := rfl

@[simp] theorem setLoaded_pwr (h : Nat) (l : List Byte) (s : State) : (setLoaded h l s).pwr = s.pwr := rfl

@[simp] theorem setLoaded_ramPoison (h : Nat) (l : List Byte) (s : State) : (setLoaded h l s).ramPoison = s.ramPoison := rfl

@[simp] theorem setLoaded_freeCount (h : Nat) (l : List Byte) (s : State) : (setLoaded h l s).freeCount = s.freeCount := rfl

@[simp] theorem setLoaded_pending (h : Nat) (l : List Byte) (s : State) : (setLoaded h l s).pending = s.pending := rfl

/-! ### `setFa` -/

theorem setFa_fa (s : State) (n : Nat) (v : Fa) :
    (setFa s n v).fa = tset {} s.fa n v := rfl

@[simp] theorem setFa_dev (s : State) (n : Nat) (v : Fa) : (setFa s n v).dev = s.dev := rfl

@[simp] theorem setFa_regs (s : State) (n : Nat) (v : Fa) : (setFa s n v).regs = s.regs := rfl

@[simp] theorem setFa_cnt (s : State) (n : Nat) (v : Fa) : (setFa s n v).cnt = s.cnt := rfl

@[simp] theorem setFa_ram (s : State) (n : Nat) (v : Fa) : (setFa s n v).ram = s.ram := rfl

@[simp] theorem setFa_time (s : State) (n : Nat) (v : Fa) : (setFa s n v).time = s.time := rfl

@[simp] theorem setFa_tow (s : State) (n : Nat) (v : Fa) : (setFa s n v).tow = s.tow := rfl

@[simp] theorem setFa_slu (s : State) (n : Nat) (v : Fa) : (setFa s n v).slu = s.slu := rfl

@[simp] theorem setFa_upIn (s : State) (n : Nat) (v : Fa) : (setFa s n v).upIn = s.upIn := rfl

@[simp] theorem setFa_brg (s : State) (n : Nat) (v : Fa) : (setFa s n v).brg = s.brg := rfl

@[simp] theorem setFa_apx (s : State) (n : Nat) (v : Fa) : (setFa s n v).apx = s.apx := rfl

@[simp] theorem setFa_inr (s : State) (n : Nat) (v : Fa) : (setFa s n v).inr = s.inr := rfl

@[simp] theorem setFa_srf (s : State) (n : Nat) (v : Fa) : (setFa s n v).srf = s.srf := rfl

@[simp] theorem setFa_ne (s : State) (n : Nat) (v : Fa) : (setFa s n v).ne = s.ne := rfl

@[simp] theorem setFa_ten (s : State) (n : Nat) (v : Fa) : (setFa s n v).ten = s.ten := rfl

@[simp] theorem setFa_fus (s : State) (n : Nat) (v : Fa) : (setFa s n v).fus = s.fus := rfl

@[simp] theorem setFa_canal (s : State) (n : Nat) (v : Fa) : (setFa s n v).canal = s.canal := rfl

@[simp] theorem setFa_res (s : State) (n : Nat) (v : Fa) : (setFa s n v).res = s.res := rfl

@[simp] theorem setFa_pass (s : State) (n : Nat) (v : Fa) : (setFa s n v).pass = s.pass := rfl

@[simp] theorem setFa_urg (s : State) (n : Nat) (v : Fa) : (setFa s n v).urg = s.urg := rfl

@[simp] theorem setFa_safe (s : State) (n : Nat) (v : Fa) : (setFa s n v).safe = s.safe := rfl

@[simp] theorem setFa_sec (s : State) (n : Nat) (v : Fa) : (setFa s n v).sec = s.sec := rfl

@[simp] theorem setFa_mem (s : State) (n : Nat) (v : Fa) : (setFa s n v).mem = s.mem := rfl

@[simp] theorem setFa_pwr (s : State) (n : Nat) (v : Fa) : (setFa s n v).pwr = s.pwr := rfl

@[simp] theorem setFa_ramPoison (s : State) (n : Nat) (v : Fa) : (setFa s n v).ramPoison = s.ramPoison := rfl

@[simp] theorem setFa_freeCount (s : State) (n : Nat) (v : Fa) : (setFa s n v).freeCount = s.freeCount := rfl

@[simp] theorem setFa_pending (s : State) (n : Nat) (v : Fa) : (setFa s n v).pending = s.pending := rfl

/-! ### `setTen` -/

theorem setTen_ten (s : State) (k e : Nat) (v : TenEnt) :
    (setTen s k e v).ten = tset {} s.ten (k * 8 + e) v := rfl

@[simp] theorem setTen_dev (s : State) (k e : Nat) (v : TenEnt) : (setTen s k e v).dev = s.dev := rfl

@[simp] theorem setTen_regs (s : State) (k e : Nat) (v : TenEnt) : (setTen s k e v).regs = s.regs := rfl

@[simp] theorem setTen_cnt (s : State) (k e : Nat) (v : TenEnt) : (setTen s k e v).cnt = s.cnt := rfl

@[simp] theorem setTen_ram (s : State) (k e : Nat) (v : TenEnt) : (setTen s k e v).ram = s.ram := rfl

@[simp] theorem setTen_time (s : State) (k e : Nat) (v : TenEnt) : (setTen s k e v).time = s.time := rfl

@[simp] theorem setTen_tow (s : State) (k e : Nat) (v : TenEnt) : (setTen s k e v).tow = s.tow := rfl

@[simp] theorem setTen_slu (s : State) (k e : Nat) (v : TenEnt) : (setTen s k e v).slu = s.slu := rfl

@[simp] theorem setTen_upIn (s : State) (k e : Nat) (v : TenEnt) : (setTen s k e v).upIn = s.upIn := rfl

@[simp] theorem setTen_brg (s : State) (k e : Nat) (v : TenEnt) : (setTen s k e v).brg = s.brg := rfl

@[simp] theorem setTen_apx (s : State) (k e : Nat) (v : TenEnt) : (setTen s k e v).apx = s.apx := rfl

@[simp] theorem setTen_inr (s : State) (k e : Nat) (v : TenEnt) : (setTen s k e v).inr = s.inr := rfl

@[simp] theorem setTen_srf (s : State) (k e : Nat) (v : TenEnt) : (setTen s k e v).srf = s.srf := rfl

@[simp] theorem setTen_ne (s : State) (k e : Nat) (v : TenEnt) : (setTen s k e v).ne = s.ne := rfl

@[simp] theorem setTen_fa (s : State) (k e : Nat) (v : TenEnt) : (setTen s k e v).fa = s.fa := rfl

@[simp] theorem setTen_fus (s : State) (k e : Nat) (v : TenEnt) : (setTen s k e v).fus = s.fus := rfl

@[simp] theorem setTen_canal (s : State) (k e : Nat) (v : TenEnt) : (setTen s k e v).canal = s.canal := rfl

@[simp] theorem setTen_res (s : State) (k e : Nat) (v : TenEnt) : (setTen s k e v).res = s.res := rfl

@[simp] theorem setTen_pass (s : State) (k e : Nat) (v : TenEnt) : (setTen s k e v).pass = s.pass := rfl

@[simp] theorem setTen_urg (s : State) (k e : Nat) (v : TenEnt) : (setTen s k e v).urg = s.urg := rfl

@[simp] theorem setTen_safe (s : State) (k e : Nat) (v : TenEnt) : (setTen s k e v).safe = s.safe := rfl

@[simp] theorem setTen_sec (s : State) (k e : Nat) (v : TenEnt) : (setTen s k e v).sec = s.sec := rfl

@[simp] theorem setTen_mem (s : State) (k e : Nat) (v : TenEnt) : (setTen s k e v).mem = s.mem := rfl

@[simp] theorem setTen_pwr (s : State) (k e : Nat) (v : TenEnt) : (setTen s k e v).pwr = s.pwr := rfl

@[simp] theorem setTen_ramPoison (s : State) (k e : Nat) (v : TenEnt) : (setTen s k e v).ramPoison = s.ramPoison := rfl

@[simp] theorem setTen_freeCount (s : State) (k e : Nat) (v : TenEnt) : (setTen s k e v).freeCount = s.freeCount := rfl

@[simp] theorem setTen_pending (s : State) (k e : Nat) (v : TenEnt) : (setTen s k e v).pending = s.pending := rfl

/-! ### `setQueue` -/

theorem setQueue_brg (s : State) (q : Nat) (v : Queue) :
    (setQueue s q v).brg = tset {} s.brg q { v with decim := ovfNow s q v, toggle := ovfNow s q v && v.toggle } := rfl

@[simp] theorem setQueue_dev (s : State) (q : Nat) (v : Queue) : (setQueue s q v).dev = s.dev := rfl

@[simp] theorem setQueue_regs (s : State) (q : Nat) (v : Queue) : (setQueue s q v).regs = s.regs := rfl

@[simp] theorem setQueue_cnt (s : State) (q : Nat) (v : Queue) : (setQueue s q v).cnt = s.cnt := rfl

@[simp] theorem setQueue_ram (s : State) (q : Nat) (v : Queue) : (setQueue s q v).ram = s.ram := rfl

@[simp] theorem setQueue_time (s : State) (q : Nat) (v : Queue) : (setQueue s q v).time = s.time := rfl

@[simp] theorem setQueue_tow (s : State) (q : Nat) (v : Queue) : (setQueue s q v).tow = s.tow := rfl

@[simp] theorem setQueue_slu (s : State) (q : Nat) (v : Queue) : (setQueue s q v).slu = s.slu := rfl

@[simp] theorem setQueue_upIn (s : State) (q : Nat) (v : Queue) : (setQueue s q v).upIn = s.upIn := rfl

@[simp] theorem setQueue_apx (s : State) (q : Nat) (v : Queue) : (setQueue s q v).apx = s.apx := rfl

@[simp] theorem setQueue_inr (s : State) (q : Nat) (v : Queue) : (setQueue s q v).inr = s.inr := rfl

@[simp] theorem setQueue_srf (s : State) (q : Nat) (v : Queue) : (setQueue s q v).srf = s.srf := rfl

@[simp] theorem setQueue_ne (s : State) (q : Nat) (v : Queue) : (setQueue s q v).ne = s.ne := rfl

@[simp] theorem setQueue_fa (s : State) (q : Nat) (v : Queue) : (setQueue s q v).fa = s.fa := rfl

@[simp] theorem setQueue_ten (s : State) (q : Nat) (v : Queue) : (setQueue s q v).ten = s.ten := rfl

@[simp] theorem setQueue_fus (s : State) (q : Nat) (v : Queue) : (setQueue s q v).fus = s.fus := rfl

@[simp] theorem setQueue_canal (s : State) (q : Nat) (v : Queue) : (setQueue s q v).canal = s.canal := rfl

@[simp] theorem setQueue_res (s : State) (q : Nat) (v : Queue) : (setQueue s q v).res = s.res := rfl

@[simp] theorem setQueue_pass (s : State) (q : Nat) (v : Queue) : (setQueue s q v).pass = s.pass := rfl

@[simp] theorem setQueue_urg (s : State) (q : Nat) (v : Queue) : (setQueue s q v).urg = s.urg := rfl

@[simp] theorem setQueue_safe (s : State) (q : Nat) (v : Queue) : (setQueue s q v).safe = s.safe := rfl

@[simp] theorem setQueue_sec (s : State) (q : Nat) (v : Queue) : (setQueue s q v).sec = s.sec := rfl

@[simp] theorem setQueue_mem (s : State) (q : Nat) (v : Queue) : (setQueue s q v).mem = s.mem := rfl

@[simp] theorem setQueue_pwr (s : State) (q : Nat) (v : Queue) : (setQueue s q v).pwr = s.pwr := rfl

@[simp] theorem setQueue_ramPoison (s : State) (q : Nat) (v : Queue) : (setQueue s q v).ramPoison = s.ramPoison := rfl

@[simp] theorem setQueue_freeCount (s : State) (q : Nat) (v : Queue) : (setQueue s q v).freeCount = s.freeCount := rfl

@[simp] theorem setQueue_pending (s : State) (q : Nat) (v : Queue) : (setQueue s q v).pending = s.pending := rfl

/-! ### `servedPort` -/

theorem servedPort_canal (port cls o : Nat) (s : State) :
    (servedPort port cls o s).canal = { s.canal with rr := tset 0 s.canal.rr (rrKey o cls) ((feeders o).findIdx (· == port) + 1) } := rfl

@[simp] theorem servedPort_dev (port cls o : Nat) (s : State) : (servedPort port cls o s).dev = s.dev := rfl

@[simp] theorem servedPort_regs (port cls o : Nat) (s : State) : (servedPort port cls o s).regs = s.regs := rfl

@[simp] theorem servedPort_cnt (port cls o : Nat) (s : State) : (servedPort port cls o s).cnt = s.cnt := rfl

@[simp] theorem servedPort_ram (port cls o : Nat) (s : State) : (servedPort port cls o s).ram = s.ram := rfl

@[simp] theorem servedPort_time (port cls o : Nat) (s : State) : (servedPort port cls o s).time = s.time := rfl

@[simp] theorem servedPort_tow (port cls o : Nat) (s : State) : (servedPort port cls o s).tow = s.tow := rfl

@[simp] theorem servedPort_slu (port cls o : Nat) (s : State) : (servedPort port cls o s).slu = s.slu := rfl

@[simp] theorem servedPort_upIn (port cls o : Nat) (s : State) : (servedPort port cls o s).upIn = s.upIn := rfl

@[simp] theorem servedPort_brg (port cls o : Nat) (s : State) : (servedPort port cls o s).brg = s.brg := rfl

@[simp] theorem servedPort_apx (port cls o : Nat) (s : State) : (servedPort port cls o s).apx = s.apx := rfl

@[simp] theorem servedPort_inr (port cls o : Nat) (s : State) : (servedPort port cls o s).inr = s.inr := rfl

@[simp] theorem servedPort_srf (port cls o : Nat) (s : State) : (servedPort port cls o s).srf = s.srf := rfl

@[simp] theorem servedPort_ne (port cls o : Nat) (s : State) : (servedPort port cls o s).ne = s.ne := rfl

@[simp] theorem servedPort_fa (port cls o : Nat) (s : State) : (servedPort port cls o s).fa = s.fa := rfl

@[simp] theorem servedPort_ten (port cls o : Nat) (s : State) : (servedPort port cls o s).ten = s.ten := rfl

@[simp] theorem servedPort_fus (port cls o : Nat) (s : State) : (servedPort port cls o s).fus = s.fus := rfl

@[simp] theorem servedPort_res (port cls o : Nat) (s : State) : (servedPort port cls o s).res = s.res := rfl

@[simp] theorem servedPort_pass (port cls o : Nat) (s : State) : (servedPort port cls o s).pass = s.pass := rfl

@[simp] theorem servedPort_urg (port cls o : Nat) (s : State) : (servedPort port cls o s).urg = s.urg := rfl

@[simp] theorem servedPort_safe (port cls o : Nat) (s : State) : (servedPort port cls o s).safe = s.safe := rfl

@[simp] theorem servedPort_sec (port cls o : Nat) (s : State) : (servedPort port cls o s).sec = s.sec := rfl

@[simp] theorem servedPort_mem (port cls o : Nat) (s : State) : (servedPort port cls o s).mem = s.mem := rfl

@[simp] theorem servedPort_pwr (port cls o : Nat) (s : State) : (servedPort port cls o s).pwr = s.pwr := rfl

@[simp] theorem servedPort_ramPoison (port cls o : Nat) (s : State) : (servedPort port cls o s).ramPoison = s.ramPoison := rfl

@[simp] theorem servedPort_freeCount (port cls o : Nat) (s : State) : (servedPort port cls o s).freeCount = s.freeCount := rfl

@[simp] theorem servedPort_pending (port cls o : Nat) (s : State) : (servedPort port cls o s).pending = s.pending := rfl

/-! ### `setRowAsm` -/

theorem setRowAsm_tow (c : Nat) (r : Option RowAsm) (s : State) :
    (setRowAsm c r s).tow = { s.tow with rows := tset none s.tow.rows c r } := rfl

@[simp] theorem setRowAsm_dev (c : Nat) (r : Option RowAsm) (s : State) : (setRowAsm c r s).dev = s.dev := rfl

@[simp] theorem setRowAsm_regs (c : Nat) (r : Option RowAsm) (s : State) : (setRowAsm c r s).regs = s.regs := rfl

@[simp] theorem setRowAsm_cnt (c : Nat) (r : Option RowAsm) (s : State) : (setRowAsm c r s).cnt = s.cnt := rfl

@[simp] theorem setRowAsm_ram (c : Nat) (r : Option RowAsm) (s : State) : (setRowAsm c r s).ram = s.ram := rfl

@[simp] theorem setRowAsm_time (c : Nat) (r : Option RowAsm) (s : State) : (setRowAsm c r s).time = s.time := rfl

@[simp] theorem setRowAsm_slu (c : Nat) (r : Option RowAsm) (s : State) : (setRowAsm c r s).slu = s.slu := rfl

@[simp] theorem setRowAsm_upIn (c : Nat) (r : Option RowAsm) (s : State) : (setRowAsm c r s).upIn = s.upIn := rfl

@[simp] theorem setRowAsm_brg (c : Nat) (r : Option RowAsm) (s : State) : (setRowAsm c r s).brg = s.brg := rfl

@[simp] theorem setRowAsm_apx (c : Nat) (r : Option RowAsm) (s : State) : (setRowAsm c r s).apx = s.apx := rfl

@[simp] theorem setRowAsm_inr (c : Nat) (r : Option RowAsm) (s : State) : (setRowAsm c r s).inr = s.inr := rfl

@[simp] theorem setRowAsm_srf (c : Nat) (r : Option RowAsm) (s : State) : (setRowAsm c r s).srf = s.srf := rfl

@[simp] theorem setRowAsm_ne (c : Nat) (r : Option RowAsm) (s : State) : (setRowAsm c r s).ne = s.ne := rfl

@[simp] theorem setRowAsm_fa (c : Nat) (r : Option RowAsm) (s : State) : (setRowAsm c r s).fa = s.fa := rfl

@[simp] theorem setRowAsm_ten (c : Nat) (r : Option RowAsm) (s : State) : (setRowAsm c r s).ten = s.ten := rfl

@[simp] theorem setRowAsm_fus (c : Nat) (r : Option RowAsm) (s : State) : (setRowAsm c r s).fus = s.fus := rfl

@[simp] theorem setRowAsm_canal (c : Nat) (r : Option RowAsm) (s : State) : (setRowAsm c r s).canal = s.canal := rfl

@[simp] theorem setRowAsm_res (c : Nat) (r : Option RowAsm) (s : State) : (setRowAsm c r s).res = s.res := rfl

@[simp] theorem setRowAsm_pass (c : Nat) (r : Option RowAsm) (s : State) : (setRowAsm c r s).pass = s.pass := rfl

@[simp] theorem setRowAsm_urg (c : Nat) (r : Option RowAsm) (s : State) : (setRowAsm c r s).urg = s.urg := rfl

@[simp] theorem setRowAsm_safe (c : Nat) (r : Option RowAsm) (s : State) : (setRowAsm c r s).safe = s.safe := rfl

@[simp] theorem setRowAsm_sec (c : Nat) (r : Option RowAsm) (s : State) : (setRowAsm c r s).sec = s.sec := rfl

@[simp] theorem setRowAsm_mem (c : Nat) (r : Option RowAsm) (s : State) : (setRowAsm c r s).mem = s.mem := rfl

@[simp] theorem setRowAsm_pwr (c : Nat) (r : Option RowAsm) (s : State) : (setRowAsm c r s).pwr = s.pwr := rfl

@[simp] theorem setRowAsm_ramPoison (c : Nat) (r : Option RowAsm) (s : State) : (setRowAsm c r s).ramPoison = s.ramPoison := rfl

@[simp] theorem setRowAsm_freeCount (c : Nat) (r : Option RowAsm) (s : State) : (setRowAsm c r s).freeCount = s.freeCount := rfl

@[simp] theorem setRowAsm_pending (c : Nat) (r : Option RowAsm) (s : State) : (setRowAsm c r s).pending = s.pending := rfl

/-! ### `setI3c` -/

theorem setI3c_tow (n : Nat) (r : Option I3cRun) (s : State) :
    (setI3c n r s).tow = { s.tow with i3c := tset none s.tow.i3c n r } := rfl

@[simp] theorem setI3c_dev (n : Nat) (r : Option I3cRun) (s : State) : (setI3c n r s).dev = s.dev := rfl

@[simp] theorem setI3c_regs (n : Nat) (r : Option I3cRun) (s : State) : (setI3c n r s).regs = s.regs := rfl

@[simp] theorem setI3c_cnt (n : Nat) (r : Option I3cRun) (s : State) : (setI3c n r s).cnt = s.cnt := rfl

@[simp] theorem setI3c_ram (n : Nat) (r : Option I3cRun) (s : State) : (setI3c n r s).ram = s.ram := rfl

@[simp] theorem setI3c_time (n : Nat) (r : Option I3cRun) (s : State) : (setI3c n r s).time = s.time := rfl

@[simp] theorem setI3c_slu (n : Nat) (r : Option I3cRun) (s : State) : (setI3c n r s).slu = s.slu := rfl

@[simp] theorem setI3c_upIn (n : Nat) (r : Option I3cRun) (s : State) : (setI3c n r s).upIn = s.upIn := rfl

@[simp] theorem setI3c_brg (n : Nat) (r : Option I3cRun) (s : State) : (setI3c n r s).brg = s.brg := rfl

@[simp] theorem setI3c_apx (n : Nat) (r : Option I3cRun) (s : State) : (setI3c n r s).apx = s.apx := rfl

@[simp] theorem setI3c_inr (n : Nat) (r : Option I3cRun) (s : State) : (setI3c n r s).inr = s.inr := rfl

@[simp] theorem setI3c_srf (n : Nat) (r : Option I3cRun) (s : State) : (setI3c n r s).srf = s.srf := rfl

@[simp] theorem setI3c_ne (n : Nat) (r : Option I3cRun) (s : State) : (setI3c n r s).ne = s.ne := rfl

@[simp] theorem setI3c_fa (n : Nat) (r : Option I3cRun) (s : State) : (setI3c n r s).fa = s.fa := rfl

@[simp] theorem setI3c_ten (n : Nat) (r : Option I3cRun) (s : State) : (setI3c n r s).ten = s.ten := rfl

@[simp] theorem setI3c_fus (n : Nat) (r : Option I3cRun) (s : State) : (setI3c n r s).fus = s.fus := rfl

@[simp] theorem setI3c_canal (n : Nat) (r : Option I3cRun) (s : State) : (setI3c n r s).canal = s.canal := rfl

@[simp] theorem setI3c_res (n : Nat) (r : Option I3cRun) (s : State) : (setI3c n r s).res = s.res := rfl

@[simp] theorem setI3c_pass (n : Nat) (r : Option I3cRun) (s : State) : (setI3c n r s).pass = s.pass := rfl

@[simp] theorem setI3c_urg (n : Nat) (r : Option I3cRun) (s : State) : (setI3c n r s).urg = s.urg := rfl

@[simp] theorem setI3c_safe (n : Nat) (r : Option I3cRun) (s : State) : (setI3c n r s).safe = s.safe := rfl

@[simp] theorem setI3c_sec (n : Nat) (r : Option I3cRun) (s : State) : (setI3c n r s).sec = s.sec := rfl

@[simp] theorem setI3c_mem (n : Nat) (r : Option I3cRun) (s : State) : (setI3c n r s).mem = s.mem := rfl

@[simp] theorem setI3c_pwr (n : Nat) (r : Option I3cRun) (s : State) : (setI3c n r s).pwr = s.pwr := rfl

@[simp] theorem setI3c_ramPoison (n : Nat) (r : Option I3cRun) (s : State) : (setI3c n r s).ramPoison = s.ramPoison := rfl

@[simp] theorem setI3c_freeCount (n : Nat) (r : Option I3cRun) (s : State) : (setI3c n r s).freeCount = s.freeCount := rfl

@[simp] theorem setI3c_pending (n : Nat) (r : Option I3cRun) (s : State) : (setI3c n r s).pending = s.pending := rfl

/-! ### `setCq` -/

theorem setCq_canal (s : State) (port cls : Nat) (l : List Pkt) :
    (setCq s port cls l).canal = { s.canal with q := tset [] s.canal.q (port * 4 + cls) l } := rfl

@[simp] theorem setCq_dev (s : State) (port cls : Nat) (l : List Pkt) : (setCq s port cls l).dev = s.dev := rfl

@[simp] theorem setCq_regs (s : State) (port cls : Nat) (l : List Pkt) : (setCq s port cls l).regs = s.regs := rfl

@[simp] theorem setCq_cnt (s : State) (port cls : Nat) (l : List Pkt) : (setCq s port cls l).cnt = s.cnt := rfl

@[simp] theorem setCq_ram (s : State) (port cls : Nat) (l : List Pkt) : (setCq s port cls l).ram = s.ram := rfl

@[simp] theorem setCq_time (s : State) (port cls : Nat) (l : List Pkt) : (setCq s port cls l).time = s.time := rfl

@[simp] theorem setCq_tow (s : State) (port cls : Nat) (l : List Pkt) : (setCq s port cls l).tow = s.tow := rfl

@[simp] theorem setCq_slu (s : State) (port cls : Nat) (l : List Pkt) : (setCq s port cls l).slu = s.slu := rfl

@[simp] theorem setCq_upIn (s : State) (port cls : Nat) (l : List Pkt) : (setCq s port cls l).upIn = s.upIn := rfl

@[simp] theorem setCq_brg (s : State) (port cls : Nat) (l : List Pkt) : (setCq s port cls l).brg = s.brg := rfl

@[simp] theorem setCq_apx (s : State) (port cls : Nat) (l : List Pkt) : (setCq s port cls l).apx = s.apx := rfl

@[simp] theorem setCq_inr (s : State) (port cls : Nat) (l : List Pkt) : (setCq s port cls l).inr = s.inr := rfl

@[simp] theorem setCq_srf (s : State) (port cls : Nat) (l : List Pkt) : (setCq s port cls l).srf = s.srf := rfl

@[simp] theorem setCq_ne (s : State) (port cls : Nat) (l : List Pkt) : (setCq s port cls l).ne = s.ne := rfl

@[simp] theorem setCq_fa (s : State) (port cls : Nat) (l : List Pkt) : (setCq s port cls l).fa = s.fa := rfl

@[simp] theorem setCq_ten (s : State) (port cls : Nat) (l : List Pkt) : (setCq s port cls l).ten = s.ten := rfl

@[simp] theorem setCq_fus (s : State) (port cls : Nat) (l : List Pkt) : (setCq s port cls l).fus = s.fus := rfl

@[simp] theorem setCq_res (s : State) (port cls : Nat) (l : List Pkt) : (setCq s port cls l).res = s.res := rfl

@[simp] theorem setCq_pass (s : State) (port cls : Nat) (l : List Pkt) : (setCq s port cls l).pass = s.pass := rfl

@[simp] theorem setCq_urg (s : State) (port cls : Nat) (l : List Pkt) : (setCq s port cls l).urg = s.urg := rfl

@[simp] theorem setCq_safe (s : State) (port cls : Nat) (l : List Pkt) : (setCq s port cls l).safe = s.safe := rfl

@[simp] theorem setCq_sec (s : State) (port cls : Nat) (l : List Pkt) : (setCq s port cls l).sec = s.sec := rfl

@[simp] theorem setCq_mem (s : State) (port cls : Nat) (l : List Pkt) : (setCq s port cls l).mem = s.mem := rfl

@[simp] theorem setCq_pwr (s : State) (port cls : Nat) (l : List Pkt) : (setCq s port cls l).pwr = s.pwr := rfl

@[simp] theorem setCq_ramPoison (s : State) (port cls : Nat) (l : List Pkt) : (setCq s port cls l).ramPoison = s.ramPoison := rfl

@[simp] theorem setCq_freeCount (s : State) (port cls : Nat) (l : List Pkt) : (setCq s port cls l).freeCount = s.freeCount := rfl

@[simp] theorem setCq_pending (s : State) (port cls : Nat) (l : List Pkt) : (setCq s port cls l).pending = s.pending := rfl

/-! ### `setSrc` -/

theorem setSrc_fus (s : State) (k : Nat) (v : FusSrc) :
    (setSrc s k v).fus = { s.fus with srcs := tset {} s.fus.srcs k v } := rfl

@[simp] theorem setSrc_dev (s : State) (k : Nat) (v : FusSrc) : (setSrc s k v).dev = s.dev := rfl

@[simp] theorem setSrc_regs (s : State) (k : Nat) (v : FusSrc) : (setSrc s k v).regs = s.regs := rfl

@[simp] theorem setSrc_cnt (s : State) (k : Nat) (v : FusSrc) : (setSrc s k v).cnt = s.cnt := rfl

@[simp] theorem setSrc_ram (s : State) (k : Nat) (v : FusSrc) : (setSrc s k v).ram = s.ram := rfl

@[simp] theorem setSrc_time (s : State) (k : Nat) (v : FusSrc) : (setSrc s k v).time = s.time := rfl

@[simp] theorem setSrc_tow (s : State) (k : Nat) (v : FusSrc) : (setSrc s k v).tow = s.tow := rfl

@[simp] theorem setSrc_slu (s : State) (k : Nat) (v : FusSrc) : (setSrc s k v).slu = s.slu := rfl

@[simp] theorem setSrc_upIn (s : State) (k : Nat) (v : FusSrc) : (setSrc s k v).upIn = s.upIn := rfl

@[simp] theorem setSrc_brg (s : State) (k : Nat) (v : FusSrc) : (setSrc s k v).brg = s.brg := rfl

@[simp] theorem setSrc_apx (s : State) (k : Nat) (v : FusSrc) : (setSrc s k v).apx = s.apx := rfl

@[simp] theorem setSrc_inr (s : State) (k : Nat) (v : FusSrc) : (setSrc s k v).inr = s.inr := rfl

@[simp] theorem setSrc_srf (s : State) (k : Nat) (v : FusSrc) : (setSrc s k v).srf = s.srf := rfl

@[simp] theorem setSrc_ne (s : State) (k : Nat) (v : FusSrc) : (setSrc s k v).ne = s.ne := rfl

@[simp] theorem setSrc_fa (s : State) (k : Nat) (v : FusSrc) : (setSrc s k v).fa = s.fa := rfl

@[simp] theorem setSrc_ten (s : State) (k : Nat) (v : FusSrc) : (setSrc s k v).ten = s.ten := rfl

@[simp] theorem setSrc_canal (s : State) (k : Nat) (v : FusSrc) : (setSrc s k v).canal = s.canal := rfl

@[simp] theorem setSrc_res (s : State) (k : Nat) (v : FusSrc) : (setSrc s k v).res = s.res := rfl

@[simp] theorem setSrc_pass (s : State) (k : Nat) (v : FusSrc) : (setSrc s k v).pass = s.pass := rfl

@[simp] theorem setSrc_urg (s : State) (k : Nat) (v : FusSrc) : (setSrc s k v).urg = s.urg := rfl

@[simp] theorem setSrc_safe (s : State) (k : Nat) (v : FusSrc) : (setSrc s k v).safe = s.safe := rfl

@[simp] theorem setSrc_sec (s : State) (k : Nat) (v : FusSrc) : (setSrc s k v).sec = s.sec := rfl

@[simp] theorem setSrc_mem (s : State) (k : Nat) (v : FusSrc) : (setSrc s k v).mem = s.mem := rfl

@[simp] theorem setSrc_pwr (s : State) (k : Nat) (v : FusSrc) : (setSrc s k v).pwr = s.pwr := rfl

@[simp] theorem setSrc_ramPoison (s : State) (k : Nat) (v : FusSrc) : (setSrc s k v).ramPoison = s.ramPoison := rfl

@[simp] theorem setSrc_freeCount (s : State) (k : Nat) (v : FusSrc) : (setSrc s k v).freeCount = s.freeCount := rfl

@[simp] theorem setSrc_pending (s : State) (k : Nat) (v : FusSrc) : (setSrc s k v).pending = s.pending := rfl

/-! ### `withFusRegs` -/

theorem withFusRegs_regs (cfg : Tbl W64) (s : State) :
    (withFusRegs cfg s).regs = cfg.foldl (fun t e => fset regDefault t e.1 e.2) (tclear isFusKey s.regs) := rfl

@[simp] theorem withFusRegs_dev (cfg : Tbl W64) (s : State) : (withFusRegs cfg s).dev = s.dev := rfl

@[simp] theorem withFusRegs_cnt (cfg : Tbl W64) (s : State) : (withFusRegs cfg s).cnt = s.cnt := rfl

@[simp] theorem withFusRegs_ram (cfg : Tbl W64) (s : State) : (withFusRegs cfg s).ram = s.ram := rfl

@[simp] theorem withFusRegs_time (cfg : Tbl W64) (s : State) : (withFusRegs cfg s).time = s.time := rfl

@[simp] theorem withFusRegs_tow (cfg : Tbl W64) (s : State) : (withFusRegs cfg s).tow = s.tow := rfl

@[simp] theorem withFusRegs_slu (cfg : Tbl W64) (s : State) : (withFusRegs cfg s).slu = s.slu := rfl

@[simp] theorem withFusRegs_upIn (cfg : Tbl W64) (s : State) : (withFusRegs cfg s).upIn = s.upIn := rfl

@[simp] theorem withFusRegs_brg (cfg : Tbl W64) (s : State) : (withFusRegs cfg s).brg = s.brg := rfl

@[simp] theorem withFusRegs_apx (cfg : Tbl W64) (s : State) : (withFusRegs cfg s).apx = s.apx := rfl

@[simp] theorem withFusRegs_inr (cfg : Tbl W64) (s : State) : (withFusRegs cfg s).inr = s.inr := rfl

@[simp] theorem withFusRegs_srf (cfg : Tbl W64) (s : State) : (withFusRegs cfg s).srf = s.srf := rfl

@[simp] theorem withFusRegs_ne (cfg : Tbl W64) (s : State) : (withFusRegs cfg s).ne = s.ne := rfl

@[simp] theorem withFusRegs_fa (cfg : Tbl W64) (s : State) : (withFusRegs cfg s).fa = s.fa := rfl

@[simp] theorem withFusRegs_ten (cfg : Tbl W64) (s : State) : (withFusRegs cfg s).ten = s.ten := rfl

@[simp] theorem withFusRegs_fus (cfg : Tbl W64) (s : State) : (withFusRegs cfg s).fus = s.fus := rfl

@[simp] theorem withFusRegs_canal (cfg : Tbl W64) (s : State) : (withFusRegs cfg s).canal = s.canal := rfl

@[simp] theorem withFusRegs_res (cfg : Tbl W64) (s : State) : (withFusRegs cfg s).res = s.res := rfl

@[simp] theorem withFusRegs_pass (cfg : Tbl W64) (s : State) : (withFusRegs cfg s).pass = s.pass := rfl

@[simp] theorem withFusRegs_urg (cfg : Tbl W64) (s : State) : (withFusRegs cfg s).urg = s.urg := rfl

@[simp] theorem withFusRegs_safe (cfg : Tbl W64) (s : State) : (withFusRegs cfg s).safe = s.safe := rfl

@[simp] theorem withFusRegs_sec (cfg : Tbl W64) (s : State) : (withFusRegs cfg s).sec = s.sec := rfl

@[simp] theorem withFusRegs_mem (cfg : Tbl W64) (s : State) : (withFusRegs cfg s).mem = s.mem := rfl

@[simp] theorem withFusRegs_pwr (cfg : Tbl W64) (s : State) : (withFusRegs cfg s).pwr = s.pwr := rfl

@[simp] theorem withFusRegs_ramPoison (cfg : Tbl W64) (s : State) : (withFusRegs cfg s).ramPoison = s.ramPoison := rfl

@[simp] theorem withFusRegs_freeCount (cfg : Tbl W64) (s : State) : (withFusRegs cfg s).freeCount = s.freeCount := rfl

@[simp] theorem withFusRegs_pending (cfg : Tbl W64) (s : State) : (withFusRegs cfg s).pending = s.pending := rfl

/-! ### `setJobctl` -/

theorem setJobctl_apx (s : State) (j : Nat) (v : JobCtl) :
    (setJobctl s j v).apx = { s.apx with jobctl := tset {} s.apx.jobctl j v } := rfl

@[simp] theorem setJobctl_dev (s : State) (j : Nat) (v : JobCtl) : (setJobctl s j v).dev = s.dev := rfl

@[simp] theorem setJobctl_regs (s : State) (j : Nat) (v : JobCtl) : (setJobctl s j v).regs = s.regs := rfl

@[simp] theorem setJobctl_cnt (s : State) (j : Nat) (v : JobCtl) : (setJobctl s j v).cnt = s.cnt := rfl

@[simp] theorem setJobctl_ram (s : State) (j : Nat) (v : JobCtl) : (setJobctl s j v).ram = s.ram := rfl

@[simp] theorem setJobctl_time (s : State) (j : Nat) (v : JobCtl) : (setJobctl s j v).time = s.time := rfl

@[simp] theorem setJobctl_tow (s : State) (j : Nat) (v : JobCtl) : (setJobctl s j v).tow = s.tow := rfl

@[simp] theorem setJobctl_slu (s : State) (j : Nat) (v : JobCtl) : (setJobctl s j v).slu = s.slu := rfl

@[simp] theorem setJobctl_upIn (s : State) (j : Nat) (v : JobCtl) : (setJobctl s j v).upIn = s.upIn := rfl

@[simp] theorem setJobctl_brg (s : State) (j : Nat) (v : JobCtl) : (setJobctl s j v).brg = s.brg := rfl

@[simp] theorem setJobctl_inr (s : State) (j : Nat) (v : JobCtl) : (setJobctl s j v).inr = s.inr := rfl

@[simp] theorem setJobctl_srf (s : State) (j : Nat) (v : JobCtl) : (setJobctl s j v).srf = s.srf := rfl

@[simp] theorem setJobctl_ne (s : State) (j : Nat) (v : JobCtl) : (setJobctl s j v).ne = s.ne := rfl

@[simp] theorem setJobctl_fa (s : State) (j : Nat) (v : JobCtl) : (setJobctl s j v).fa = s.fa := rfl

@[simp] theorem setJobctl_ten (s : State) (j : Nat) (v : JobCtl) : (setJobctl s j v).ten = s.ten := rfl

@[simp] theorem setJobctl_fus (s : State) (j : Nat) (v : JobCtl) : (setJobctl s j v).fus = s.fus := rfl

@[simp] theorem setJobctl_canal (s : State) (j : Nat) (v : JobCtl) : (setJobctl s j v).canal = s.canal := rfl

@[simp] theorem setJobctl_res (s : State) (j : Nat) (v : JobCtl) : (setJobctl s j v).res = s.res := rfl

@[simp] theorem setJobctl_pass (s : State) (j : Nat) (v : JobCtl) : (setJobctl s j v).pass = s.pass := rfl

@[simp] theorem setJobctl_urg (s : State) (j : Nat) (v : JobCtl) : (setJobctl s j v).urg = s.urg := rfl

@[simp] theorem setJobctl_safe (s : State) (j : Nat) (v : JobCtl) : (setJobctl s j v).safe = s.safe := rfl

@[simp] theorem setJobctl_sec (s : State) (j : Nat) (v : JobCtl) : (setJobctl s j v).sec = s.sec := rfl

@[simp] theorem setJobctl_mem (s : State) (j : Nat) (v : JobCtl) : (setJobctl s j v).mem = s.mem := rfl

@[simp] theorem setJobctl_pwr (s : State) (j : Nat) (v : JobCtl) : (setJobctl s j v).pwr = s.pwr := rfl

@[simp] theorem setJobctl_ramPoison (s : State) (j : Nat) (v : JobCtl) : (setJobctl s j v).ramPoison = s.ramPoison := rfl

@[simp] theorem setJobctl_freeCount (s : State) (j : Nat) (v : JobCtl) : (setJobctl s j v).freeCount = s.freeCount := rfl

@[simp] theorem setJobctl_pending (s : State) (j : Nat) (v : JobCtl) : (setJobctl s j v).pending = s.pending := rfl

/-! ### `setSafe` -/

theorem setSafe_safe (s : State) (v : SafeSt) :
    (setSafe s v).safe = v := rfl

@[simp] theorem setSafe_dev (s : State) (v : SafeSt) : (setSafe s v).dev = s.dev := rfl

@[simp] theorem setSafe_regs (s : State) (v : SafeSt) : (setSafe s v).regs = s.regs := rfl

@[simp] theorem setSafe_cnt (s : State) (v : SafeSt) : (setSafe s v).cnt = s.cnt := rfl

@[simp] theorem setSafe_ram (s : State) (v : SafeSt) : (setSafe s v).ram = s.ram := rfl

@[simp] theorem setSafe_time (s : State) (v : SafeSt) : (setSafe s v).time = s.time := rfl

@[simp] theorem setSafe_tow (s : State) (v : SafeSt) : (setSafe s v).tow = s.tow := rfl

@[simp] theorem setSafe_slu (s : State) (v : SafeSt) : (setSafe s v).slu = s.slu := rfl

@[simp] theorem setSafe_upIn (s : State) (v : SafeSt) : (setSafe s v).upIn = s.upIn := rfl

@[simp] theorem setSafe_brg (s : State) (v : SafeSt) : (setSafe s v).brg = s.brg := rfl

@[simp] theorem setSafe_apx (s : State) (v : SafeSt) : (setSafe s v).apx = s.apx := rfl

@[simp] theorem setSafe_inr (s : State) (v : SafeSt) : (setSafe s v).inr = s.inr := rfl

@[simp] theorem setSafe_srf (s : State) (v : SafeSt) : (setSafe s v).srf = s.srf := rfl

@[simp] theorem setSafe_ne (s : State) (v : SafeSt) : (setSafe s v).ne = s.ne := rfl

@[simp] theorem setSafe_fa (s : State) (v : SafeSt) : (setSafe s v).fa = s.fa := rfl

@[simp] theorem setSafe_ten (s : State) (v : SafeSt) : (setSafe s v).ten = s.ten := rfl

@[simp] theorem setSafe_fus (s : State) (v : SafeSt) : (setSafe s v).fus = s.fus := rfl

@[simp] theorem setSafe_canal (s : State) (v : SafeSt) : (setSafe s v).canal = s.canal := rfl

@[simp] theorem setSafe_res (s : State) (v : SafeSt) : (setSafe s v).res = s.res := rfl

@[simp] theorem setSafe_pass (s : State) (v : SafeSt) : (setSafe s v).pass = s.pass := rfl

@[simp] theorem setSafe_urg (s : State) (v : SafeSt) : (setSafe s v).urg = s.urg := rfl

@[simp] theorem setSafe_sec (s : State) (v : SafeSt) : (setSafe s v).sec = s.sec := rfl

@[simp] theorem setSafe_mem (s : State) (v : SafeSt) : (setSafe s v).mem = s.mem := rfl

@[simp] theorem setSafe_pwr (s : State) (v : SafeSt) : (setSafe s v).pwr = s.pwr := rfl

@[simp] theorem setSafe_ramPoison (s : State) (v : SafeSt) : (setSafe s v).ramPoison = s.ramPoison := rfl

@[simp] theorem setSafe_freeCount (s : State) (v : SafeSt) : (setSafe s v).freeCount = s.freeCount := rfl

@[simp] theorem setSafe_pending (s : State) (v : SafeSt) : (setSafe s v).pending = s.pending := rfl

/-! ### `setInr` -/

theorem setInr_inr (s : State) (ch : Nat) (v : InrCh) :
    (setInr s ch v).inr = { s.inr with ch := tset {} s.inr.ch ch v } := rfl

@[simp] theorem setInr_dev (s : State) (ch : Nat) (v : InrCh) : (setInr s ch v).dev = s.dev := rfl

@[simp] theorem setInr_regs (s : State) (ch : Nat) (v : InrCh) : (setInr s ch v).regs = s.regs := rfl

@[simp] theorem setInr_cnt (s : State) (ch : Nat) (v : InrCh) : (setInr s ch v).cnt = s.cnt := rfl

@[simp] theorem setInr_ram (s : State) (ch : Nat) (v : InrCh) : (setInr s ch v).ram = s.ram := rfl

@[simp] theorem setInr_time (s : State) (ch : Nat) (v : InrCh) : (setInr s ch v).time = s.time := rfl

@[simp] theorem setInr_tow (s : State) (ch : Nat) (v : InrCh) : (setInr s ch v).tow = s.tow := rfl

@[simp] theorem setInr_slu (s : State) (ch : Nat) (v : InrCh) : (setInr s ch v).slu = s.slu := rfl

@[simp] theorem setInr_upIn (s : State) (ch : Nat) (v : InrCh) : (setInr s ch v).upIn = s.upIn := rfl

@[simp] theorem setInr_brg (s : State) (ch : Nat) (v : InrCh) : (setInr s ch v).brg = s.brg := rfl

@[simp] theorem setInr_apx (s : State) (ch : Nat) (v : InrCh) : (setInr s ch v).apx = s.apx := rfl

@[simp] theorem setInr_srf (s : State) (ch : Nat) (v : InrCh) : (setInr s ch v).srf = s.srf := rfl

@[simp] theorem setInr_ne (s : State) (ch : Nat) (v : InrCh) : (setInr s ch v).ne = s.ne := rfl

@[simp] theorem setInr_fa (s : State) (ch : Nat) (v : InrCh) : (setInr s ch v).fa = s.fa := rfl

@[simp] theorem setInr_ten (s : State) (ch : Nat) (v : InrCh) : (setInr s ch v).ten = s.ten := rfl

@[simp] theorem setInr_fus (s : State) (ch : Nat) (v : InrCh) : (setInr s ch v).fus = s.fus := rfl

@[simp] theorem setInr_canal (s : State) (ch : Nat) (v : InrCh) : (setInr s ch v).canal = s.canal := rfl

@[simp] theorem setInr_res (s : State) (ch : Nat) (v : InrCh) : (setInr s ch v).res = s.res := rfl

@[simp] theorem setInr_pass (s : State) (ch : Nat) (v : InrCh) : (setInr s ch v).pass = s.pass := rfl

@[simp] theorem setInr_urg (s : State) (ch : Nat) (v : InrCh) : (setInr s ch v).urg = s.urg := rfl

@[simp] theorem setInr_safe (s : State) (ch : Nat) (v : InrCh) : (setInr s ch v).safe = s.safe := rfl

@[simp] theorem setInr_sec (s : State) (ch : Nat) (v : InrCh) : (setInr s ch v).sec = s.sec := rfl

@[simp] theorem setInr_mem (s : State) (ch : Nat) (v : InrCh) : (setInr s ch v).mem = s.mem := rfl

@[simp] theorem setInr_pwr (s : State) (ch : Nat) (v : InrCh) : (setInr s ch v).pwr = s.pwr := rfl

@[simp] theorem setInr_ramPoison (s : State) (ch : Nat) (v : InrCh) : (setInr s ch v).ramPoison = s.ramPoison := rfl

@[simp] theorem setInr_freeCount (s : State) (ch : Nat) (v : InrCh) : (setInr s ch v).freeCount = s.freeCount := rfl

@[simp] theorem setInr_pending (s : State) (ch : Nat) (v : InrCh) : (setInr s ch v).pending = s.pending := rfl

/-! ### `setPwr` -/

theorem setPwr_pwr (s : State) (p : PwrSt) :
    (setPwr s p).pwr = p := rfl

@[simp] theorem setPwr_dev (s : State) (p : PwrSt) : (setPwr s p).dev = s.dev := rfl

@[simp] theorem setPwr_regs (s : State) (p : PwrSt) : (setPwr s p).regs = s.regs := rfl

@[simp] theorem setPwr_cnt (s : State) (p : PwrSt) : (setPwr s p).cnt = s.cnt := rfl

@[simp] theorem setPwr_ram (s : State) (p : PwrSt) : (setPwr s p).ram = s.ram := rfl

@[simp] theorem setPwr_time (s : State) (p : PwrSt) : (setPwr s p).time = s.time := rfl

@[simp] theorem setPwr_tow (s : State) (p : PwrSt) : (setPwr s p).tow = s.tow := rfl

@[simp] theorem setPwr_slu (s : State) (p : PwrSt) : (setPwr s p).slu = s.slu := rfl

@[simp] theorem setPwr_upIn (s : State) (p : PwrSt) : (setPwr s p).upIn = s.upIn := rfl

@[simp] theorem setPwr_brg (s : State) (p : PwrSt) : (setPwr s p).brg = s.brg := rfl

@[simp] theorem setPwr_apx (s : State) (p : PwrSt) : (setPwr s p).apx = s.apx := rfl

@[simp] theorem setPwr_inr (s : State) (p : PwrSt) : (setPwr s p).inr = s.inr := rfl

@[simp] theorem setPwr_srf (s : State) (p : PwrSt) : (setPwr s p).srf = s.srf := rfl

@[simp] theorem setPwr_ne (s : State) (p : PwrSt) : (setPwr s p).ne = s.ne := rfl

@[simp] theorem setPwr_fa (s : State) (p : PwrSt) : (setPwr s p).fa = s.fa := rfl

@[simp] theorem setPwr_ten (s : State) (p : PwrSt) : (setPwr s p).ten = s.ten := rfl

@[simp] theorem setPwr_fus (s : State) (p : PwrSt) : (setPwr s p).fus = s.fus := rfl

@[simp] theorem setPwr_canal (s : State) (p : PwrSt) : (setPwr s p).canal = s.canal := rfl

@[simp] theorem setPwr_res (s : State) (p : PwrSt) : (setPwr s p).res = s.res := rfl

@[simp] theorem setPwr_pass (s : State) (p : PwrSt) : (setPwr s p).pass = s.pass := rfl

@[simp] theorem setPwr_urg (s : State) (p : PwrSt) : (setPwr s p).urg = s.urg := rfl

@[simp] theorem setPwr_safe (s : State) (p : PwrSt) : (setPwr s p).safe = s.safe := rfl

@[simp] theorem setPwr_sec (s : State) (p : PwrSt) : (setPwr s p).sec = s.sec := rfl

@[simp] theorem setPwr_mem (s : State) (p : PwrSt) : (setPwr s p).mem = s.mem := rfl

@[simp] theorem setPwr_ramPoison (s : State) (p : PwrSt) : (setPwr s p).ramPoison = s.ramPoison := rfl

@[simp] theorem setPwr_freeCount (s : State) (p : PwrSt) : (setPwr s p).freeCount = s.freeCount := rfl

@[simp] theorem setPwr_pending (s : State) (p : PwrSt) : (setPwr s p).pending = s.pending := rfl

/-! ### `setNe` -/

theorem setNe_ne (s : State) (c : Nat) (v : Ne) :
    (setNe s c v).ne = tset {} s.ne c v := rfl

@[simp] theorem setNe_dev (s : State) (c : Nat) (v : Ne) : (setNe s c v).dev = s.dev := rfl

@[simp] theorem setNe_regs (s : State) (c : Nat) (v : Ne) : (setNe s c v).regs = s.regs := rfl

@[simp] theorem setNe_cnt (s : State) (c : Nat) (v : Ne) : (setNe s c v).cnt = s.cnt := rfl

@[simp] theorem setNe_ram (s : State) (c : Nat) (v : Ne) : (setNe s c v).ram = s.ram := rfl

@[simp] theorem setNe_time (s : State) (c : Nat) (v : Ne) : (setNe s c v).time = s.time := rfl

@[simp] theorem setNe_tow (s : State) (c : Nat) (v : Ne) : (setNe s c v).tow = s.tow := rfl

@[simp] theorem setNe_slu (s : State) (c : Nat) (v : Ne) : (setNe s c v).slu = s.slu := rfl

@[simp] theorem setNe_upIn (s : State) (c : Nat) (v : Ne) : (setNe s c v).upIn = s.upIn := rfl

@[simp] theorem setNe_brg (s : State) (c : Nat) (v : Ne) : (setNe s c v).brg = s.brg := rfl

@[simp] theorem setNe_apx (s : State) (c : Nat) (v : Ne) : (setNe s c v).apx = s.apx := rfl

@[simp] theorem setNe_inr (s : State) (c : Nat) (v : Ne) : (setNe s c v).inr = s.inr := rfl

@[simp] theorem setNe_srf (s : State) (c : Nat) (v : Ne) : (setNe s c v).srf = s.srf := rfl

@[simp] theorem setNe_fa (s : State) (c : Nat) (v : Ne) : (setNe s c v).fa = s.fa := rfl

@[simp] theorem setNe_ten (s : State) (c : Nat) (v : Ne) : (setNe s c v).ten = s.ten := rfl

@[simp] theorem setNe_fus (s : State) (c : Nat) (v : Ne) : (setNe s c v).fus = s.fus := rfl

@[simp] theorem setNe_canal (s : State) (c : Nat) (v : Ne) : (setNe s c v).canal = s.canal := rfl

@[simp] theorem setNe_res (s : State) (c : Nat) (v : Ne) : (setNe s c v).res = s.res := rfl

@[simp] theorem setNe_pass (s : State) (c : Nat) (v : Ne) : (setNe s c v).pass = s.pass := rfl

@[simp] theorem setNe_urg (s : State) (c : Nat) (v : Ne) : (setNe s c v).urg = s.urg := rfl

@[simp] theorem setNe_safe (s : State) (c : Nat) (v : Ne) : (setNe s c v).safe = s.safe := rfl

@[simp] theorem setNe_sec (s : State) (c : Nat) (v : Ne) : (setNe s c v).sec = s.sec := rfl

@[simp] theorem setNe_mem (s : State) (c : Nat) (v : Ne) : (setNe s c v).mem = s.mem := rfl

@[simp] theorem setNe_pwr (s : State) (c : Nat) (v : Ne) : (setNe s c v).pwr = s.pwr := rfl

@[simp] theorem setNe_ramPoison (s : State) (c : Nat) (v : Ne) : (setNe s c v).ramPoison = s.ramPoison := rfl

@[simp] theorem setNe_freeCount (s : State) (c : Nat) (v : Ne) : (setNe s c v).freeCount = s.freeCount := rfl

@[simp] theorem setNe_pending (s : State) (c : Nat) (v : Ne) : (setNe s c v).pending = s.pending := rfl

/-! ### `setEth` -/

theorem setEth_tow (s : State) (p : Nat) (e : EthPort) :
    (setEth s p e).tow = { s.tow with ports := tset {} s.tow.ports p e } := rfl

@[simp] theorem setEth_dev (s : State) (p : Nat) (e : EthPort) : (setEth s p e).dev = s.dev := rfl

@[simp] theorem setEth_regs (s : State) (p : Nat) (e : EthPort) : (setEth s p e).regs = s.regs := rfl

@[simp] theorem setEth_cnt (s : State) (p : Nat) (e : EthPort) : (setEth s p e).cnt = s.cnt := rfl

@[simp] theorem setEth_ram (s : State) (p : Nat) (e : EthPort) : (setEth s p e).ram = s.ram := rfl

@[simp] theorem setEth_time (s : State) (p : Nat) (e : EthPort) : (setEth s p e).time = s.time := rfl

@[simp] theorem setEth_slu (s : State) (p : Nat) (e : EthPort) : (setEth s p e).slu = s.slu := rfl

@[simp] theorem setEth_upIn (s : State) (p : Nat) (e : EthPort) : (setEth s p e).upIn = s.upIn := rfl

@[simp] theorem setEth_brg (s : State) (p : Nat) (e : EthPort) : (setEth s p e).brg = s.brg := rfl

@[simp] theorem setEth_apx (s : State) (p : Nat) (e : EthPort) : (setEth s p e).apx = s.apx := rfl

@[simp] theorem setEth_inr (s : State) (p : Nat) (e : EthPort) : (setEth s p e).inr = s.inr := rfl

@[simp] theorem setEth_srf (s : State) (p : Nat) (e : EthPort) : (setEth s p e).srf = s.srf := rfl

@[simp] theorem setEth_ne (s : State) (p : Nat) (e : EthPort) : (setEth s p e).ne = s.ne := rfl

@[simp] theorem setEth_fa (s : State) (p : Nat) (e : EthPort) : (setEth s p e).fa = s.fa := rfl

@[simp] theorem setEth_ten (s : State) (p : Nat) (e : EthPort) : (setEth s p e).ten = s.ten := rfl

@[simp] theorem setEth_fus (s : State) (p : Nat) (e : EthPort) : (setEth s p e).fus = s.fus := rfl

@[simp] theorem setEth_canal (s : State) (p : Nat) (e : EthPort) : (setEth s p e).canal = s.canal := rfl

@[simp] theorem setEth_res (s : State) (p : Nat) (e : EthPort) : (setEth s p e).res = s.res := rfl

@[simp] theorem setEth_pass (s : State) (p : Nat) (e : EthPort) : (setEth s p e).pass = s.pass := rfl

@[simp] theorem setEth_urg (s : State) (p : Nat) (e : EthPort) : (setEth s p e).urg = s.urg := rfl

@[simp] theorem setEth_safe (s : State) (p : Nat) (e : EthPort) : (setEth s p e).safe = s.safe := rfl

@[simp] theorem setEth_sec (s : State) (p : Nat) (e : EthPort) : (setEth s p e).sec = s.sec := rfl

@[simp] theorem setEth_mem (s : State) (p : Nat) (e : EthPort) : (setEth s p e).mem = s.mem := rfl

@[simp] theorem setEth_pwr (s : State) (p : Nat) (e : EthPort) : (setEth s p e).pwr = s.pwr := rfl

@[simp] theorem setEth_ramPoison (s : State) (p : Nat) (e : EthPort) : (setEth s p e).ramPoison = s.ramPoison := rfl

@[simp] theorem setEth_freeCount (s : State) (p : Nat) (e : EthPort) : (setEth s p e).freeCount = s.freeCount := rfl

@[simp] theorem setEth_pending (s : State) (p : Nat) (e : EthPort) : (setEth s p e).pending = s.pending := rfl

/-! ### `setRegWord` -/

theorem setRegWord_regs (s : State) (unit reg entry word v : Nat) :
    (setRegWord s unit reg entry word v).regs = fset regDefault s.regs (regKey unit reg entry word) (BitVec.ofNat 64 v) := rfl

@[simp] theorem setRegWord_dev (s : State) (unit reg entry word v : Nat) : (setRegWord s unit reg entry word v).dev = s.dev := rfl

@[simp] theorem setRegWord_cnt (s : State) (unit reg entry word v : Nat) : (setRegWord s unit reg entry word v).cnt = s.cnt := rfl

@[simp] theorem setRegWord_ram (s : State) (unit reg entry word v : Nat) : (setRegWord s unit reg entry word v).ram = s.ram := rfl

@[simp] theorem setRegWord_time (s : State) (unit reg entry word v : Nat) : (setRegWord s unit reg entry word v).time = s.time := rfl

@[simp] theorem setRegWord_tow (s : State) (unit reg entry word v : Nat) : (setRegWord s unit reg entry word v).tow = s.tow := rfl

@[simp] theorem setRegWord_slu (s : State) (unit reg entry word v : Nat) : (setRegWord s unit reg entry word v).slu = s.slu := rfl

@[simp] theorem setRegWord_upIn (s : State) (unit reg entry word v : Nat) : (setRegWord s unit reg entry word v).upIn = s.upIn := rfl

@[simp] theorem setRegWord_brg (s : State) (unit reg entry word v : Nat) : (setRegWord s unit reg entry word v).brg = s.brg := rfl

@[simp] theorem setRegWord_apx (s : State) (unit reg entry word v : Nat) : (setRegWord s unit reg entry word v).apx = s.apx := rfl

@[simp] theorem setRegWord_inr (s : State) (unit reg entry word v : Nat) : (setRegWord s unit reg entry word v).inr = s.inr := rfl

@[simp] theorem setRegWord_srf (s : State) (unit reg entry word v : Nat) : (setRegWord s unit reg entry word v).srf = s.srf := rfl

@[simp] theorem setRegWord_ne (s : State) (unit reg entry word v : Nat) : (setRegWord s unit reg entry word v).ne = s.ne := rfl

@[simp] theorem setRegWord_fa (s : State) (unit reg entry word v : Nat) : (setRegWord s unit reg entry word v).fa = s.fa := rfl

@[simp] theorem setRegWord_ten (s : State) (unit reg entry word v : Nat) : (setRegWord s unit reg entry word v).ten = s.ten := rfl

@[simp] theorem setRegWord_fus (s : State) (unit reg entry word v : Nat) : (setRegWord s unit reg entry word v).fus = s.fus := rfl

@[simp] theorem setRegWord_canal (s : State) (unit reg entry word v : Nat) : (setRegWord s unit reg entry word v).canal = s.canal := rfl

@[simp] theorem setRegWord_res (s : State) (unit reg entry word v : Nat) : (setRegWord s unit reg entry word v).res = s.res := rfl

@[simp] theorem setRegWord_pass (s : State) (unit reg entry word v : Nat) : (setRegWord s unit reg entry word v).pass = s.pass := rfl

@[simp] theorem setRegWord_urg (s : State) (unit reg entry word v : Nat) : (setRegWord s unit reg entry word v).urg = s.urg := rfl

@[simp] theorem setRegWord_safe (s : State) (unit reg entry word v : Nat) : (setRegWord s unit reg entry word v).safe = s.safe := rfl

@[simp] theorem setRegWord_sec (s : State) (unit reg entry word v : Nat) : (setRegWord s unit reg entry word v).sec = s.sec := rfl

@[simp] theorem setRegWord_mem (s : State) (unit reg entry word v : Nat) : (setRegWord s unit reg entry word v).mem = s.mem := rfl

@[simp] theorem setRegWord_pwr (s : State) (unit reg entry word v : Nat) : (setRegWord s unit reg entry word v).pwr = s.pwr := rfl

@[simp] theorem setRegWord_ramPoison (s : State) (unit reg entry word v : Nat) : (setRegWord s unit reg entry word v).ramPoison = s.ramPoison := rfl

@[simp] theorem setRegWord_freeCount (s : State) (unit reg entry word v : Nat) : (setRegWord s unit reg entry word v).freeCount = s.freeCount := rfl

@[simp] theorem setRegWord_pending (s : State) (unit reg entry word v : Nat) : (setRegWord s unit reg entry word v).pending = s.pending := rfl

/-! ### `regsClear` -/

theorem regsClear_regs (p : Nat → Bool) (s : State) :
    (regsClear p s).regs = tclear p s.regs := rfl

@[simp] theorem regsClear_dev (p : Nat → Bool) (s : State) : (regsClear p s).dev = s.dev := rfl

@[simp] theorem regsClear_cnt (p : Nat → Bool) (s : State) : (regsClear p s).cnt = s.cnt := rfl

@[simp] theorem regsClear_ram (p : Nat → Bool) (s : State) : (regsClear p s).ram = s.ram := rfl

@[simp] theorem regsClear_time (p : Nat → Bool) (s : State) : (regsClear p s).time = s.time := rfl

@[simp] theorem regsClear_tow (p : Nat → Bool) (s : State) : (regsClear p s).tow = s.tow := rfl

@[simp] theorem regsClear_slu (p : Nat → Bool) (s : State) : (regsClear p s).slu = s.slu := rfl

@[simp] theorem regsClear_upIn (p : Nat → Bool) (s : State) : (regsClear p s).upIn = s.upIn := rfl

@[simp] theorem regsClear_brg (p : Nat → Bool) (s : State) : (regsClear p s).brg = s.brg := rfl

@[simp] theorem regsClear_apx (p : Nat → Bool) (s : State) : (regsClear p s).apx = s.apx := rfl

@[simp] theorem regsClear_inr (p : Nat → Bool) (s : State) : (regsClear p s).inr = s.inr := rfl

@[simp] theorem regsClear_srf (p : Nat → Bool) (s : State) : (regsClear p s).srf = s.srf := rfl

@[simp] theorem regsClear_ne (p : Nat → Bool) (s : State) : (regsClear p s).ne = s.ne := rfl

@[simp] theorem regsClear_fa (p : Nat → Bool) (s : State) : (regsClear p s).fa = s.fa := rfl

@[simp] theorem regsClear_ten (p : Nat → Bool) (s : State) : (regsClear p s).ten = s.ten := rfl

@[simp] theorem regsClear_fus (p : Nat → Bool) (s : State) : (regsClear p s).fus = s.fus := rfl

@[simp] theorem regsClear_canal (p : Nat → Bool) (s : State) : (regsClear p s).canal = s.canal := rfl

@[simp] theorem regsClear_res (p : Nat → Bool) (s : State) : (regsClear p s).res = s.res := rfl

@[simp] theorem regsClear_pass (p : Nat → Bool) (s : State) : (regsClear p s).pass = s.pass := rfl

@[simp] theorem regsClear_urg (p : Nat → Bool) (s : State) : (regsClear p s).urg = s.urg := rfl

@[simp] theorem regsClear_safe (p : Nat → Bool) (s : State) : (regsClear p s).safe = s.safe := rfl

@[simp] theorem regsClear_sec (p : Nat → Bool) (s : State) : (regsClear p s).sec = s.sec := rfl

@[simp] theorem regsClear_mem (p : Nat → Bool) (s : State) : (regsClear p s).mem = s.mem := rfl

@[simp] theorem regsClear_pwr (p : Nat → Bool) (s : State) : (regsClear p s).pwr = s.pwr := rfl

@[simp] theorem regsClear_ramPoison (p : Nat → Bool) (s : State) : (regsClear p s).ramPoison = s.ramPoison := rfl

@[simp] theorem regsClear_freeCount (p : Nat → Bool) (s : State) : (regsClear p s).freeCount = s.freeCount := rfl

@[simp] theorem regsClear_pending (p : Nat → Bool) (s : State) : (regsClear p s).pending = s.pending := rfl

/-! ### `setRamBad` -/

theorem setRamBad_ramPoison (s : State) (a n : Nat) (bad : Bool) :
    (setRamBad s a n bad).ramPoison = if bad then (upto (tagSpan a n).2).foldl (fun t i => tset false t ((tagSpan a n).1 + i) true) s.ramPoison else tclear (fun k => decide (a ≤ k ∧ k < a + n)) s.ramPoison := rfl

@[simp] theorem setRamBad_dev (s : State) (a n : Nat) (bad : Bool) : (setRamBad s a n bad).dev = s.dev := rfl

@[simp] theorem setRamBad_regs (s : State) (a n : Nat) (bad : Bool) : (setRamBad s a n bad).regs = s.regs := rfl

@[simp] theorem setRamBad_cnt (s : State) (a n : Nat) (bad : Bool) : (setRamBad s a n bad).cnt = s.cnt := rfl

@[simp] theorem setRamBad_ram (s : State) (a n : Nat) (bad : Bool) : (setRamBad s a n bad).ram = s.ram := rfl

@[simp] theorem setRamBad_time (s : State) (a n : Nat) (bad : Bool) : (setRamBad s a n bad).time = s.time := rfl

@[simp] theorem setRamBad_tow (s : State) (a n : Nat) (bad : Bool) : (setRamBad s a n bad).tow = s.tow := rfl

@[simp] theorem setRamBad_slu (s : State) (a n : Nat) (bad : Bool) : (setRamBad s a n bad).slu = s.slu := rfl

@[simp] theorem setRamBad_upIn (s : State) (a n : Nat) (bad : Bool) : (setRamBad s a n bad).upIn = s.upIn := rfl

@[simp] theorem setRamBad_brg (s : State) (a n : Nat) (bad : Bool) : (setRamBad s a n bad).brg = s.brg := rfl

@[simp] theorem setRamBad_apx (s : State) (a n : Nat) (bad : Bool) : (setRamBad s a n bad).apx = s.apx := rfl

@[simp] theorem setRamBad_inr (s : State) (a n : Nat) (bad : Bool) : (setRamBad s a n bad).inr = s.inr := rfl

@[simp] theorem setRamBad_srf (s : State) (a n : Nat) (bad : Bool) : (setRamBad s a n bad).srf = s.srf := rfl

@[simp] theorem setRamBad_ne (s : State) (a n : Nat) (bad : Bool) : (setRamBad s a n bad).ne = s.ne := rfl

@[simp] theorem setRamBad_fa (s : State) (a n : Nat) (bad : Bool) : (setRamBad s a n bad).fa = s.fa := rfl

@[simp] theorem setRamBad_ten (s : State) (a n : Nat) (bad : Bool) : (setRamBad s a n bad).ten = s.ten := rfl

@[simp] theorem setRamBad_fus (s : State) (a n : Nat) (bad : Bool) : (setRamBad s a n bad).fus = s.fus := rfl

@[simp] theorem setRamBad_canal (s : State) (a n : Nat) (bad : Bool) : (setRamBad s a n bad).canal = s.canal := rfl

@[simp] theorem setRamBad_res (s : State) (a n : Nat) (bad : Bool) : (setRamBad s a n bad).res = s.res := rfl

@[simp] theorem setRamBad_pass (s : State) (a n : Nat) (bad : Bool) : (setRamBad s a n bad).pass = s.pass := rfl

@[simp] theorem setRamBad_urg (s : State) (a n : Nat) (bad : Bool) : (setRamBad s a n bad).urg = s.urg := rfl

@[simp] theorem setRamBad_safe (s : State) (a n : Nat) (bad : Bool) : (setRamBad s a n bad).safe = s.safe := rfl

@[simp] theorem setRamBad_sec (s : State) (a n : Nat) (bad : Bool) : (setRamBad s a n bad).sec = s.sec := rfl

@[simp] theorem setRamBad_mem (s : State) (a n : Nat) (bad : Bool) : (setRamBad s a n bad).mem = s.mem := rfl

@[simp] theorem setRamBad_pwr (s : State) (a n : Nat) (bad : Bool) : (setRamBad s a n bad).pwr = s.pwr := rfl

@[simp] theorem setRamBad_freeCount (s : State) (a n : Nat) (bad : Bool) : (setRamBad s a n bad).freeCount = s.freeCount := rfl

@[simp] theorem setRamBad_pending (s : State) (a n : Nat) (bad : Bool) : (setRamBad s a n bad).pending = s.pending := rfl

/-! ### `setUnit` -/

theorem setUnit_dev (s : State) (u : Nat) (r : UnitRec) :
    (setUnit s u r).dev = { s.dev with units := tset {} s.dev.units u r } := rfl

@[simp] theorem setUnit_regs (s : State) (u : Nat) (r : UnitRec) : (setUnit s u r).regs = s.regs := rfl

@[simp] theorem setUnit_cnt (s : State) (u : Nat) (r : UnitRec) : (setUnit s u r).cnt = s.cnt := rfl

@[simp] theorem setUnit_ram (s : State) (u : Nat) (r : UnitRec) : (setUnit s u r).ram = s.ram := rfl

@[simp] theorem setUnit_time (s : State) (u : Nat) (r : UnitRec) : (setUnit s u r).time = s.time := rfl

@[simp] theorem setUnit_tow (s : State) (u : Nat) (r : UnitRec) : (setUnit s u r).tow = s.tow := rfl

@[simp] theorem setUnit_slu (s : State) (u : Nat) (r : UnitRec) : (setUnit s u r).slu = s.slu := rfl

@[simp] theorem setUnit_upIn (s : State) (u : Nat) (r : UnitRec) : (setUnit s u r).upIn = s.upIn := rfl

@[simp] theorem setUnit_brg (s : State) (u : Nat) (r : UnitRec) : (setUnit s u r).brg = s.brg := rfl

@[simp] theorem setUnit_apx (s : State) (u : Nat) (r : UnitRec) : (setUnit s u r).apx = s.apx := rfl

@[simp] theorem setUnit_inr (s : State) (u : Nat) (r : UnitRec) : (setUnit s u r).inr = s.inr := rfl

@[simp] theorem setUnit_srf (s : State) (u : Nat) (r : UnitRec) : (setUnit s u r).srf = s.srf := rfl

@[simp] theorem setUnit_ne (s : State) (u : Nat) (r : UnitRec) : (setUnit s u r).ne = s.ne := rfl

@[simp] theorem setUnit_fa (s : State) (u : Nat) (r : UnitRec) : (setUnit s u r).fa = s.fa := rfl

@[simp] theorem setUnit_ten (s : State) (u : Nat) (r : UnitRec) : (setUnit s u r).ten = s.ten := rfl

@[simp] theorem setUnit_fus (s : State) (u : Nat) (r : UnitRec) : (setUnit s u r).fus = s.fus := rfl

@[simp] theorem setUnit_canal (s : State) (u : Nat) (r : UnitRec) : (setUnit s u r).canal = s.canal := rfl

@[simp] theorem setUnit_res (s : State) (u : Nat) (r : UnitRec) : (setUnit s u r).res = s.res := rfl

@[simp] theorem setUnit_pass (s : State) (u : Nat) (r : UnitRec) : (setUnit s u r).pass = s.pass := rfl

@[simp] theorem setUnit_urg (s : State) (u : Nat) (r : UnitRec) : (setUnit s u r).urg = s.urg := rfl

@[simp] theorem setUnit_safe (s : State) (u : Nat) (r : UnitRec) : (setUnit s u r).safe = s.safe := rfl

@[simp] theorem setUnit_sec (s : State) (u : Nat) (r : UnitRec) : (setUnit s u r).sec = s.sec := rfl

@[simp] theorem setUnit_mem (s : State) (u : Nat) (r : UnitRec) : (setUnit s u r).mem = s.mem := rfl

@[simp] theorem setUnit_pwr (s : State) (u : Nat) (r : UnitRec) : (setUnit s u r).pwr = s.pwr := rfl

@[simp] theorem setUnit_ramPoison (s : State) (u : Nat) (r : UnitRec) : (setUnit s u r).ramPoison = s.ramPoison := rfl

@[simp] theorem setUnit_freeCount (s : State) (u : Nat) (r : UnitRec) : (setUnit s u r).freeCount = s.freeCount := rfl

@[simp] theorem setUnit_pending (s : State) (u : Nat) (r : UnitRec) : (setUnit s u r).pending = s.pending := rfl

/-! ### `setJob` -/

theorem setJob_dev (s : State) (j : Nat) (r : Job) :
    (setJob s j r).dev = { s.dev with jobs := tset {} s.dev.jobs j r } := rfl

@[simp] theorem setJob_regs (s : State) (j : Nat) (r : Job) : (setJob s j r).regs = s.regs := rfl

@[simp] theorem setJob_cnt (s : State) (j : Nat) (r : Job) : (setJob s j r).cnt = s.cnt := rfl

@[simp] theorem setJob_ram (s : State) (j : Nat) (r : Job) : (setJob s j r).ram = s.ram := rfl

@[simp] theorem setJob_time (s : State) (j : Nat) (r : Job) : (setJob s j r).time = s.time := rfl

@[simp] theorem setJob_tow (s : State) (j : Nat) (r : Job) : (setJob s j r).tow = s.tow := rfl

@[simp] theorem setJob_slu (s : State) (j : Nat) (r : Job) : (setJob s j r).slu = s.slu := rfl

@[simp] theorem setJob_upIn (s : State) (j : Nat) (r : Job) : (setJob s j r).upIn = s.upIn := rfl

@[simp] theorem setJob_brg (s : State) (j : Nat) (r : Job) : (setJob s j r).brg = s.brg := rfl

@[simp] theorem setJob_apx (s : State) (j : Nat) (r : Job) : (setJob s j r).apx = s.apx := rfl

@[simp] theorem setJob_inr (s : State) (j : Nat) (r : Job) : (setJob s j r).inr = s.inr := rfl

@[simp] theorem setJob_srf (s : State) (j : Nat) (r : Job) : (setJob s j r).srf = s.srf := rfl

@[simp] theorem setJob_ne (s : State) (j : Nat) (r : Job) : (setJob s j r).ne = s.ne := rfl

@[simp] theorem setJob_fa (s : State) (j : Nat) (r : Job) : (setJob s j r).fa = s.fa := rfl

@[simp] theorem setJob_ten (s : State) (j : Nat) (r : Job) : (setJob s j r).ten = s.ten := rfl

@[simp] theorem setJob_fus (s : State) (j : Nat) (r : Job) : (setJob s j r).fus = s.fus := rfl

@[simp] theorem setJob_canal (s : State) (j : Nat) (r : Job) : (setJob s j r).canal = s.canal := rfl

@[simp] theorem setJob_res (s : State) (j : Nat) (r : Job) : (setJob s j r).res = s.res := rfl

@[simp] theorem setJob_pass (s : State) (j : Nat) (r : Job) : (setJob s j r).pass = s.pass := rfl

@[simp] theorem setJob_urg (s : State) (j : Nat) (r : Job) : (setJob s j r).urg = s.urg := rfl

@[simp] theorem setJob_safe (s : State) (j : Nat) (r : Job) : (setJob s j r).safe = s.safe := rfl

@[simp] theorem setJob_sec (s : State) (j : Nat) (r : Job) : (setJob s j r).sec = s.sec := rfl

@[simp] theorem setJob_mem (s : State) (j : Nat) (r : Job) : (setJob s j r).mem = s.mem := rfl

@[simp] theorem setJob_pwr (s : State) (j : Nat) (r : Job) : (setJob s j r).pwr = s.pwr := rfl

@[simp] theorem setJob_ramPoison (s : State) (j : Nat) (r : Job) : (setJob s j r).ramPoison = s.ramPoison := rfl

@[simp] theorem setJob_freeCount (s : State) (j : Nat) (r : Job) : (setJob s j r).freeCount = s.freeCount := rfl

@[simp] theorem setJob_pending (s : State) (j : Nat) (r : Job) : (setJob s j r).pending = s.pending := rfl

/-! ### `setReady` -/

theorem setReady_dev (i : Nat) (v : Bool) (s : State) :
    (setReady i v s).dev = { s.dev with ready := setBits s.dev.ready i 1 (b2n v) } := rfl

@[simp] theorem setReady_regs (i : Nat) (v : Bool) (s : State) : (setReady i v s).regs = s.regs := rfl

@[simp] theorem setReady_cnt (i : Nat) (v : Bool) (s : State) : (setReady i v s).cnt = s.cnt := rfl

@[simp] theorem setReady_ram (i : Nat) (v : Bool) (s : State) : (setReady i v s).ram = s.ram := rfl

@[simp] theorem setReady_time (i : Nat) (v : Bool) (s : State) : (setReady i v s).time = s.time := rfl

@[simp] theorem setReady_tow (i : Nat) (v : Bool) (s : State) : (setReady i v s).tow = s.tow := rfl

@[simp] theorem setReady_slu (i : Nat) (v : Bool) (s : State) : (setReady i v s).slu = s.slu := rfl

@[simp] theorem setReady_upIn (i : Nat) (v : Bool) (s : State) : (setReady i v s).upIn = s.upIn := rfl

@[simp] theorem setReady_brg (i : Nat) (v : Bool) (s : State) : (setReady i v s).brg = s.brg := rfl

@[simp] theorem setReady_apx (i : Nat) (v : Bool) (s : State) : (setReady i v s).apx = s.apx := rfl

@[simp] theorem setReady_inr (i : Nat) (v : Bool) (s : State) : (setReady i v s).inr = s.inr := rfl

@[simp] theorem setReady_srf (i : Nat) (v : Bool) (s : State) : (setReady i v s).srf = s.srf := rfl

@[simp] theorem setReady_ne (i : Nat) (v : Bool) (s : State) : (setReady i v s).ne = s.ne := rfl

@[simp] theorem setReady_fa (i : Nat) (v : Bool) (s : State) : (setReady i v s).fa = s.fa := rfl

@[simp] theorem setReady_ten (i : Nat) (v : Bool) (s : State) : (setReady i v s).ten = s.ten := rfl

@[simp] theorem setReady_fus (i : Nat) (v : Bool) (s : State) : (setReady i v s).fus = s.fus := rfl

@[simp] theorem setReady_canal (i : Nat) (v : Bool) (s : State) : (setReady i v s).canal = s.canal := rfl

@[simp] theorem setReady_res (i : Nat) (v : Bool) (s : State) : (setReady i v s).res = s.res := rfl

@[simp] theorem setReady_pass (i : Nat) (v : Bool) (s : State) : (setReady i v s).pass = s.pass := rfl

@[simp] theorem setReady_urg (i : Nat) (v : Bool) (s : State) : (setReady i v s).urg = s.urg := rfl

@[simp] theorem setReady_safe (i : Nat) (v : Bool) (s : State) : (setReady i v s).safe = s.safe := rfl

@[simp] theorem setReady_sec (i : Nat) (v : Bool) (s : State) : (setReady i v s).sec = s.sec := rfl

@[simp] theorem setReady_mem (i : Nat) (v : Bool) (s : State) : (setReady i v s).mem = s.mem := rfl

@[simp] theorem setReady_pwr (i : Nat) (v : Bool) (s : State) : (setReady i v s).pwr = s.pwr := rfl

@[simp] theorem setReady_ramPoison (i : Nat) (v : Bool) (s : State) : (setReady i v s).ramPoison = s.ramPoison := rfl

@[simp] theorem setReady_freeCount (i : Nat) (v : Bool) (s : State) : (setReady i v s).freeCount = s.freeCount := rfl

@[simp] theorem setReady_pending (i : Nat) (v : Bool) (s : State) : (setReady i v s).pending = s.pending := rfl

/-! ### `setMem` -/

theorem setMem_mem (s : State) (m : MemSt) :
    (setMem s m).mem = m := rfl

@[simp] theorem setMem_dev (s : State) (m : MemSt) : (setMem s m).dev = s.dev := rfl

@[simp] theorem setMem_regs (s : State) (m : MemSt) : (setMem s m).regs = s.regs := rfl

@[simp] theorem setMem_cnt (s : State) (m : MemSt) : (setMem s m).cnt = s.cnt := rfl

@[simp] theorem setMem_ram (s : State) (m : MemSt) : (setMem s m).ram = s.ram := rfl

@[simp] theorem setMem_time (s : State) (m : MemSt) : (setMem s m).time = s.time := rfl

@[simp] theorem setMem_tow (s : State) (m : MemSt) : (setMem s m).tow = s.tow := rfl

@[simp] theorem setMem_slu (s : State) (m : MemSt) : (setMem s m).slu = s.slu := rfl

@[simp] theorem setMem_upIn (s : State) (m : MemSt) : (setMem s m).upIn = s.upIn := rfl

@[simp] theorem setMem_brg (s : State) (m : MemSt) : (setMem s m).brg = s.brg := rfl

@[simp] theorem setMem_apx (s : State) (m : MemSt) : (setMem s m).apx = s.apx := rfl

@[simp] theorem setMem_inr (s : State) (m : MemSt) : (setMem s m).inr = s.inr := rfl

@[simp] theorem setMem_srf (s : State) (m : MemSt) : (setMem s m).srf = s.srf := rfl

@[simp] theorem setMem_ne (s : State) (m : MemSt) : (setMem s m).ne = s.ne := rfl

@[simp] theorem setMem_fa (s : State) (m : MemSt) : (setMem s m).fa = s.fa := rfl

@[simp] theorem setMem_ten (s : State) (m : MemSt) : (setMem s m).ten = s.ten := rfl

@[simp] theorem setMem_fus (s : State) (m : MemSt) : (setMem s m).fus = s.fus := rfl

@[simp] theorem setMem_canal (s : State) (m : MemSt) : (setMem s m).canal = s.canal := rfl

@[simp] theorem setMem_res (s : State) (m : MemSt) : (setMem s m).res = s.res := rfl

@[simp] theorem setMem_pass (s : State) (m : MemSt) : (setMem s m).pass = s.pass := rfl

@[simp] theorem setMem_urg (s : State) (m : MemSt) : (setMem s m).urg = s.urg := rfl

@[simp] theorem setMem_safe (s : State) (m : MemSt) : (setMem s m).safe = s.safe := rfl

@[simp] theorem setMem_sec (s : State) (m : MemSt) : (setMem s m).sec = s.sec := rfl

@[simp] theorem setMem_pwr (s : State) (m : MemSt) : (setMem s m).pwr = s.pwr := rfl

@[simp] theorem setMem_ramPoison (s : State) (m : MemSt) : (setMem s m).ramPoison = s.ramPoison := rfl

@[simp] theorem setMem_freeCount (s : State) (m : MemSt) : (setMem s m).freeCount = s.freeCount := rfl

@[simp] theorem setMem_pending (s : State) (m : MemSt) : (setMem s m).pending = s.pending := rfl

/-! ### `setStr` -/

theorem setStr_res (s : State) (k : Nat) (v : Stream) :
    (setStr s k v).res = { s.res with streams := tset {} s.res.streams k v } := rfl

@[simp] theorem setStr_dev (s : State) (k : Nat) (v : Stream) : (setStr s k v).dev = s.dev := rfl

@[simp] theorem setStr_regs (s : State) (k : Nat) (v : Stream) : (setStr s k v).regs = s.regs := rfl

@[simp] theorem setStr_cnt (s : State) (k : Nat) (v : Stream) : (setStr s k v).cnt = s.cnt := rfl

@[simp] theorem setStr_ram (s : State) (k : Nat) (v : Stream) : (setStr s k v).ram = s.ram := rfl

@[simp] theorem setStr_time (s : State) (k : Nat) (v : Stream) : (setStr s k v).time = s.time := rfl

@[simp] theorem setStr_tow (s : State) (k : Nat) (v : Stream) : (setStr s k v).tow = s.tow := rfl

@[simp] theorem setStr_slu (s : State) (k : Nat) (v : Stream) : (setStr s k v).slu = s.slu := rfl

@[simp] theorem setStr_upIn (s : State) (k : Nat) (v : Stream) : (setStr s k v).upIn = s.upIn := rfl

@[simp] theorem setStr_brg (s : State) (k : Nat) (v : Stream) : (setStr s k v).brg = s.brg := rfl

@[simp] theorem setStr_apx (s : State) (k : Nat) (v : Stream) : (setStr s k v).apx = s.apx := rfl

@[simp] theorem setStr_inr (s : State) (k : Nat) (v : Stream) : (setStr s k v).inr = s.inr := rfl

@[simp] theorem setStr_srf (s : State) (k : Nat) (v : Stream) : (setStr s k v).srf = s.srf := rfl

@[simp] theorem setStr_ne (s : State) (k : Nat) (v : Stream) : (setStr s k v).ne = s.ne := rfl

@[simp] theorem setStr_fa (s : State) (k : Nat) (v : Stream) : (setStr s k v).fa = s.fa := rfl

@[simp] theorem setStr_ten (s : State) (k : Nat) (v : Stream) : (setStr s k v).ten = s.ten := rfl

@[simp] theorem setStr_fus (s : State) (k : Nat) (v : Stream) : (setStr s k v).fus = s.fus := rfl

@[simp] theorem setStr_canal (s : State) (k : Nat) (v : Stream) : (setStr s k v).canal = s.canal := rfl

@[simp] theorem setStr_pass (s : State) (k : Nat) (v : Stream) : (setStr s k v).pass = s.pass := rfl

@[simp] theorem setStr_urg (s : State) (k : Nat) (v : Stream) : (setStr s k v).urg = s.urg := rfl

@[simp] theorem setStr_safe (s : State) (k : Nat) (v : Stream) : (setStr s k v).safe = s.safe := rfl

@[simp] theorem setStr_sec (s : State) (k : Nat) (v : Stream) : (setStr s k v).sec = s.sec := rfl

@[simp] theorem setStr_mem (s : State) (k : Nat) (v : Stream) : (setStr s k v).mem = s.mem := rfl

@[simp] theorem setStr_pwr (s : State) (k : Nat) (v : Stream) : (setStr s k v).pwr = s.pwr := rfl

@[simp] theorem setStr_ramPoison (s : State) (k : Nat) (v : Stream) : (setStr s k v).ramPoison = s.ramPoison := rfl

@[simp] theorem setStr_freeCount (s : State) (k : Nat) (v : Stream) : (setStr s k v).freeCount = s.freeCount := rfl

@[simp] theorem setStr_pending (s : State) (k : Nat) (v : Stream) : (setStr s k v).pending = s.pending := rfl

/-! ### `setPush` -/

theorem setPush_res (s : State) (p : Nat) (v : Push) :
    (setPush s p v).res = { s.res with push := tset {} s.res.push p v } := rfl

@[simp] theorem setPush_dev (s : State) (p : Nat) (v : Push) : (setPush s p v).dev = s.dev := rfl

@[simp] theorem setPush_regs (s : State) (p : Nat) (v : Push) : (setPush s p v).regs = s.regs := rfl

@[simp] theorem setPush_cnt (s : State) (p : Nat) (v : Push) : (setPush s p v).cnt = s.cnt := rfl

@[simp] theorem setPush_ram (s : State) (p : Nat) (v : Push) : (setPush s p v).ram = s.ram := rfl

@[simp] theorem setPush_time (s : State) (p : Nat) (v : Push) : (setPush s p v).time = s.time := rfl

@[simp] theorem setPush_tow (s : State) (p : Nat) (v : Push) : (setPush s p v).tow = s.tow := rfl

@[simp] theorem setPush_slu (s : State) (p : Nat) (v : Push) : (setPush s p v).slu = s.slu := rfl

@[simp] theorem setPush_upIn (s : State) (p : Nat) (v : Push) : (setPush s p v).upIn = s.upIn := rfl

@[simp] theorem setPush_brg (s : State) (p : Nat) (v : Push) : (setPush s p v).brg = s.brg := rfl

@[simp] theorem setPush_apx (s : State) (p : Nat) (v : Push) : (setPush s p v).apx = s.apx := rfl

@[simp] theorem setPush_inr (s : State) (p : Nat) (v : Push) : (setPush s p v).inr = s.inr := rfl

@[simp] theorem setPush_srf (s : State) (p : Nat) (v : Push) : (setPush s p v).srf = s.srf := rfl

@[simp] theorem setPush_ne (s : State) (p : Nat) (v : Push) : (setPush s p v).ne = s.ne := rfl

@[simp] theorem setPush_fa (s : State) (p : Nat) (v : Push) : (setPush s p v).fa = s.fa := rfl

@[simp] theorem setPush_ten (s : State) (p : Nat) (v : Push) : (setPush s p v).ten = s.ten := rfl

@[simp] theorem setPush_fus (s : State) (p : Nat) (v : Push) : (setPush s p v).fus = s.fus := rfl

@[simp] theorem setPush_canal (s : State) (p : Nat) (v : Push) : (setPush s p v).canal = s.canal := rfl

@[simp] theorem setPush_pass (s : State) (p : Nat) (v : Push) : (setPush s p v).pass = s.pass := rfl

@[simp] theorem setPush_urg (s : State) (p : Nat) (v : Push) : (setPush s p v).urg = s.urg := rfl

@[simp] theorem setPush_safe (s : State) (p : Nat) (v : Push) : (setPush s p v).safe = s.safe := rfl

@[simp] theorem setPush_sec (s : State) (p : Nat) (v : Push) : (setPush s p v).sec = s.sec := rfl

@[simp] theorem setPush_mem (s : State) (p : Nat) (v : Push) : (setPush s p v).mem = s.mem := rfl

@[simp] theorem setPush_pwr (s : State) (p : Nat) (v : Push) : (setPush s p v).pwr = s.pwr := rfl

@[simp] theorem setPush_ramPoison (s : State) (p : Nat) (v : Push) : (setPush s p v).ramPoison = s.ramPoison := rfl

@[simp] theorem setPush_freeCount (s : State) (p : Nat) (v : Push) : (setPush s p v).freeCount = s.freeCount := rfl

@[simp] theorem setPush_pending (s : State) (p : Nat) (v : Push) : (setPush s p v).pending = s.pending := rfl

/-! ### `setSec` -/

theorem setSec_sec (s : State) (v : SecSt) :
    (setSec s v).sec = v := rfl

@[simp] theorem setSec_dev (s : State) (v : SecSt) : (setSec s v).dev = s.dev := rfl

@[simp] theorem setSec_regs (s : State) (v : SecSt) : (setSec s v).regs = s.regs := rfl

@[simp] theorem setSec_cnt (s : State) (v : SecSt) : (setSec s v).cnt = s.cnt := rfl

@[simp] theorem setSec_ram (s : State) (v : SecSt) : (setSec s v).ram = s.ram := rfl

@[simp] theorem setSec_time (s : State) (v : SecSt) : (setSec s v).time = s.time := rfl

@[simp] theorem setSec_tow (s : State) (v : SecSt) : (setSec s v).tow = s.tow := rfl

@[simp] theorem setSec_slu (s : State) (v : SecSt) : (setSec s v).slu = s.slu := rfl

@[simp] theorem setSec_upIn (s : State) (v : SecSt) : (setSec s v).upIn = s.upIn := rfl

@[simp] theorem setSec_brg (s : State) (v : SecSt) : (setSec s v).brg = s.brg := rfl

@[simp] theorem setSec_apx (s : State) (v : SecSt) : (setSec s v).apx = s.apx := rfl

@[simp] theorem setSec_inr (s : State) (v : SecSt) : (setSec s v).inr = s.inr := rfl

@[simp] theorem setSec_srf (s : State) (v : SecSt) : (setSec s v).srf = s.srf := rfl

@[simp] theorem setSec_ne (s : State) (v : SecSt) : (setSec s v).ne = s.ne := rfl

@[simp] theorem setSec_fa (s : State) (v : SecSt) : (setSec s v).fa = s.fa := rfl

@[simp] theorem setSec_ten (s : State) (v : SecSt) : (setSec s v).ten = s.ten := rfl

@[simp] theorem setSec_fus (s : State) (v : SecSt) : (setSec s v).fus = s.fus := rfl

@[simp] theorem setSec_canal (s : State) (v : SecSt) : (setSec s v).canal = s.canal := rfl

@[simp] theorem setSec_res (s : State) (v : SecSt) : (setSec s v).res = s.res := rfl

@[simp] theorem setSec_pass (s : State) (v : SecSt) : (setSec s v).pass = s.pass := rfl

@[simp] theorem setSec_urg (s : State) (v : SecSt) : (setSec s v).urg = s.urg := rfl

@[simp] theorem setSec_safe (s : State) (v : SecSt) : (setSec s v).safe = s.safe := rfl

@[simp] theorem setSec_mem (s : State) (v : SecSt) : (setSec s v).mem = s.mem := rfl

@[simp] theorem setSec_pwr (s : State) (v : SecSt) : (setSec s v).pwr = s.pwr := rfl

@[simp] theorem setSec_ramPoison (s : State) (v : SecSt) : (setSec s v).ramPoison = s.ramPoison := rfl

@[simp] theorem setSec_freeCount (s : State) (v : SecSt) : (setSec s v).freeCount = s.freeCount := rfl

@[simp] theorem setSec_pending (s : State) (v : SecSt) : (setSec s v).pending = s.pending := rfl

/-! ### `setStage` -/

theorem setStage_tow (s : State) (kind : Nat) (v : Stage) :
    (setStage s kind v).tow = { s.tow with stages := tset {} s.tow.stages kind v } := rfl

@[simp] theorem setStage_dev (s : State) (kind : Nat) (v : Stage) : (setStage s kind v).dev = s.dev := rfl

@[simp] theorem setStage_regs (s : State) (kind : Nat) (v : Stage) : (setStage s kind v).regs = s.regs := rfl

@[simp] theorem setStage_cnt (s : State) (kind : Nat) (v : Stage) : (setStage s kind v).cnt = s.cnt := rfl

@[simp] theorem setStage_ram (s : State) (kind : Nat) (v : Stage) : (setStage s kind v).ram = s.ram := rfl

@[simp] theorem setStage_time (s : State) (kind : Nat) (v : Stage) : (setStage s kind v).time = s.time := rfl

@[simp] theorem setStage_slu (s : State) (kind : Nat) (v : Stage) : (setStage s kind v).slu = s.slu := rfl

@[simp] theorem setStage_upIn (s : State) (kind : Nat) (v : Stage) : (setStage s kind v).upIn = s.upIn := rfl

@[simp] theorem setStage_brg (s : State) (kind : Nat) (v : Stage) : (setStage s kind v).brg = s.brg := rfl

@[simp] theorem setStage_apx (s : State) (kind : Nat) (v : Stage) : (setStage s kind v).apx = s.apx := rfl

@[simp] theorem setStage_inr (s : State) (kind : Nat) (v : Stage) : (setStage s kind v).inr = s.inr := rfl

@[simp] theorem setStage_srf (s : State) (kind : Nat) (v : Stage) : (setStage s kind v).srf = s.srf := rfl

@[simp] theorem setStage_ne (s : State) (kind : Nat) (v : Stage) : (setStage s kind v).ne = s.ne := rfl

@[simp] theorem setStage_fa (s : State) (kind : Nat) (v : Stage) : (setStage s kind v).fa = s.fa := rfl

@[simp] theorem setStage_ten (s : State) (kind : Nat) (v : Stage) : (setStage s kind v).ten = s.ten := rfl

@[simp] theorem setStage_fus (s : State) (kind : Nat) (v : Stage) : (setStage s kind v).fus = s.fus := rfl

@[simp] theorem setStage_canal (s : State) (kind : Nat) (v : Stage) : (setStage s kind v).canal = s.canal := rfl

@[simp] theorem setStage_res (s : State) (kind : Nat) (v : Stage) : (setStage s kind v).res = s.res := rfl

@[simp] theorem setStage_pass (s : State) (kind : Nat) (v : Stage) : (setStage s kind v).pass = s.pass := rfl

@[simp] theorem setStage_urg (s : State) (kind : Nat) (v : Stage) : (setStage s kind v).urg = s.urg := rfl

@[simp] theorem setStage_safe (s : State) (kind : Nat) (v : Stage) : (setStage s kind v).safe = s.safe := rfl

@[simp] theorem setStage_sec (s : State) (kind : Nat) (v : Stage) : (setStage s kind v).sec = s.sec := rfl

@[simp] theorem setStage_mem (s : State) (kind : Nat) (v : Stage) : (setStage s kind v).mem = s.mem := rfl

@[simp] theorem setStage_pwr (s : State) (kind : Nat) (v : Stage) : (setStage s kind v).pwr = s.pwr := rfl

@[simp] theorem setStage_ramPoison (s : State) (kind : Nat) (v : Stage) : (setStage s kind v).ramPoison = s.ramPoison := rfl

@[simp] theorem setStage_freeCount (s : State) (kind : Nat) (v : Stage) : (setStage s kind v).freeCount = s.freeCount := rfl

@[simp] theorem setStage_pending (s : State) (kind : Nat) (v : Stage) : (setStage s kind v).pending = s.pending := rfl

/-! ### `setPass` -/

theorem setPass_pass (s : State) (p : PassSt) :
    (setPass s p).pass = p := rfl

@[simp] theorem setPass_dev (s : State) (p : PassSt) : (setPass s p).dev = s.dev := rfl

@[simp] theorem setPass_regs (s : State) (p : PassSt) : (setPass s p).regs = s.regs := rfl

@[simp] theorem setPass_cnt (s : State) (p : PassSt) : (setPass s p).cnt = s.cnt := rfl

@[simp] theorem setPass_ram (s : State) (p : PassSt) : (setPass s p).ram = s.ram := rfl

@[simp] theorem setPass_time (s : State) (p : PassSt) : (setPass s p).time = s.time := rfl

@[simp] theorem setPass_tow (s : State) (p : PassSt) : (setPass s p).tow = s.tow := rfl

@[simp] theorem setPass_slu (s : State) (p : PassSt) : (setPass s p).slu = s.slu := rfl

@[simp] theorem setPass_upIn (s : State) (p : PassSt) : (setPass s p).upIn = s.upIn := rfl

@[simp] theorem setPass_brg (s : State) (p : PassSt) : (setPass s p).brg = s.brg := rfl

@[simp] theorem setPass_apx (s : State) (p : PassSt) : (setPass s p).apx = s.apx := rfl

@[simp] theorem setPass_inr (s : State) (p : PassSt) : (setPass s p).inr = s.inr := rfl

@[simp] theorem setPass_srf (s : State) (p : PassSt) : (setPass s p).srf = s.srf := rfl

@[simp] theorem setPass_ne (s : State) (p : PassSt) : (setPass s p).ne = s.ne := rfl

@[simp] theorem setPass_fa (s : State) (p : PassSt) : (setPass s p).fa = s.fa := rfl

@[simp] theorem setPass_ten (s : State) (p : PassSt) : (setPass s p).ten = s.ten := rfl

@[simp] theorem setPass_fus (s : State) (p : PassSt) : (setPass s p).fus = s.fus := rfl

@[simp] theorem setPass_canal (s : State) (p : PassSt) : (setPass s p).canal = s.canal := rfl

@[simp] theorem setPass_res (s : State) (p : PassSt) : (setPass s p).res = s.res := rfl

@[simp] theorem setPass_urg (s : State) (p : PassSt) : (setPass s p).urg = s.urg := rfl

@[simp] theorem setPass_safe (s : State) (p : PassSt) : (setPass s p).safe = s.safe := rfl

@[simp] theorem setPass_sec (s : State) (p : PassSt) : (setPass s p).sec = s.sec := rfl

@[simp] theorem setPass_mem (s : State) (p : PassSt) : (setPass s p).mem = s.mem := rfl

@[simp] theorem setPass_pwr (s : State) (p : PassSt) : (setPass s p).pwr = s.pwr := rfl

@[simp] theorem setPass_ramPoison (s : State) (p : PassSt) : (setPass s p).ramPoison = s.ramPoison := rfl

@[simp] theorem setPass_freeCount (s : State) (p : PassSt) : (setPass s p).freeCount = s.freeCount := rfl

@[simp] theorem setPass_pending (s : State) (p : PassSt) : (setPass s p).pending = s.pending := rfl

/-! ### `setLink` -/

theorem setLink_canal (s : State) (k : Nat) (v : CkLink) :
    (setLink s k v).canal = { s.canal with links := tset {} s.canal.links k v } := rfl

@[simp] theorem setLink_dev (s : State) (k : Nat) (v : CkLink) : (setLink s k v).dev = s.dev := rfl

@[simp] theorem setLink_regs (s : State) (k : Nat) (v : CkLink) : (setLink s k v).regs = s.regs := rfl

@[simp] theorem setLink_cnt (s : State) (k : Nat) (v : CkLink) : (setLink s k v).cnt = s.cnt := rfl

@[simp] theorem setLink_ram (s : State) (k : Nat) (v : CkLink) : (setLink s k v).ram = s.ram := rfl

@[simp] theorem setLink_time (s : State) (k : Nat) (v : CkLink) : (setLink s k v).time = s.time := rfl

@[simp] theorem setLink_tow (s : State) (k : Nat) (v : CkLink) : (setLink s k v).tow = s.tow := rfl

@[simp] theorem setLink_slu (s : State) (k : Nat) (v : CkLink) : (setLink s k v).slu = s.slu := rfl

@[simp] theorem setLink_upIn (s : State) (k : Nat) (v : CkLink) : (setLink s k v).upIn = s.upIn := rfl

@[simp] theorem setLink_brg (s : State) (k : Nat) (v : CkLink) : (setLink s k v).brg = s.brg := rfl

@[simp] theorem setLink_apx (s : State) (k : Nat) (v : CkLink) : (setLink s k v).apx = s.apx := rfl

@[simp] theorem setLink_inr (s : State) (k : Nat) (v : CkLink) : (setLink s k v).inr = s.inr := rfl

@[simp] theorem setLink_srf (s : State) (k : Nat) (v : CkLink) : (setLink s k v).srf = s.srf := rfl

@[simp] theorem setLink_ne (s : State) (k : Nat) (v : CkLink) : (setLink s k v).ne = s.ne := rfl

@[simp] theorem setLink_fa (s : State) (k : Nat) (v : CkLink) : (setLink s k v).fa = s.fa := rfl

@[simp] theorem setLink_ten (s : State) (k : Nat) (v : CkLink) : (setLink s k v).ten = s.ten := rfl

@[simp] theorem setLink_fus (s : State) (k : Nat) (v : CkLink) : (setLink s k v).fus = s.fus := rfl

@[simp] theorem setLink_res (s : State) (k : Nat) (v : CkLink) : (setLink s k v).res = s.res := rfl

@[simp] theorem setLink_pass (s : State) (k : Nat) (v : CkLink) : (setLink s k v).pass = s.pass := rfl

@[simp] theorem setLink_urg (s : State) (k : Nat) (v : CkLink) : (setLink s k v).urg = s.urg := rfl

@[simp] theorem setLink_safe (s : State) (k : Nat) (v : CkLink) : (setLink s k v).safe = s.safe := rfl

@[simp] theorem setLink_sec (s : State) (k : Nat) (v : CkLink) : (setLink s k v).sec = s.sec := rfl

@[simp] theorem setLink_mem (s : State) (k : Nat) (v : CkLink) : (setLink s k v).mem = s.mem := rfl

@[simp] theorem setLink_pwr (s : State) (k : Nat) (v : CkLink) : (setLink s k v).pwr = s.pwr := rfl

@[simp] theorem setLink_ramPoison (s : State) (k : Nat) (v : CkLink) : (setLink s k v).ramPoison = s.ramPoison := rfl

@[simp] theorem setLink_freeCount (s : State) (k : Nat) (v : CkLink) : (setLink s k v).freeCount = s.freeCount := rfl

@[simp] theorem setLink_pending (s : State) (k : Nat) (v : CkLink) : (setLink s k v).pending = s.pending := rfl

/-! ### `setAttempt` -/

theorem setAttempt_canal (j w a : Nat) (s : State) :
    (setAttempt j w a s).canal = { s.canal with attempts := tset 0 s.canal.attempts (w * 8 + j) a } := rfl

@[simp] theorem setAttempt_dev (j w a : Nat) (s : State) : (setAttempt j w a s).dev = s.dev := rfl

@[simp] theorem setAttempt_regs (j w a : Nat) (s : State) : (setAttempt j w a s).regs = s.regs := rfl

@[simp] theorem setAttempt_cnt (j w a : Nat) (s : State) : (setAttempt j w a s).cnt = s.cnt := rfl

@[simp] theorem setAttempt_ram (j w a : Nat) (s : State) : (setAttempt j w a s).ram = s.ram := rfl

@[simp] theorem setAttempt_time (j w a : Nat) (s : State) : (setAttempt j w a s).time = s.time := rfl

@[simp] theorem setAttempt_tow (j w a : Nat) (s : State) : (setAttempt j w a s).tow = s.tow := rfl

@[simp] theorem setAttempt_slu (j w a : Nat) (s : State) : (setAttempt j w a s).slu = s.slu := rfl

@[simp] theorem setAttempt_upIn (j w a : Nat) (s : State) : (setAttempt j w a s).upIn = s.upIn := rfl

@[simp] theorem setAttempt_brg (j w a : Nat) (s : State) : (setAttempt j w a s).brg = s.brg := rfl

@[simp] theorem setAttempt_apx (j w a : Nat) (s : State) : (setAttempt j w a s).apx = s.apx := rfl

@[simp] theorem setAttempt_inr (j w a : Nat) (s : State) : (setAttempt j w a s).inr = s.inr := rfl

@[simp] theorem setAttempt_srf (j w a : Nat) (s : State) : (setAttempt j w a s).srf = s.srf := rfl

@[simp] theorem setAttempt_ne (j w a : Nat) (s : State) : (setAttempt j w a s).ne = s.ne := rfl

@[simp] theorem setAttempt_fa (j w a : Nat) (s : State) : (setAttempt j w a s).fa = s.fa := rfl

@[simp] theorem setAttempt_ten (j w a : Nat) (s : State) : (setAttempt j w a s).ten = s.ten := rfl

@[simp] theorem setAttempt_fus (j w a : Nat) (s : State) : (setAttempt j w a s).fus = s.fus := rfl

@[simp] theorem setAttempt_res (j w a : Nat) (s : State) : (setAttempt j w a s).res = s.res := rfl

@[simp] theorem setAttempt_pass (j w a : Nat) (s : State) : (setAttempt j w a s).pass = s.pass := rfl

@[simp] theorem setAttempt_urg (j w a : Nat) (s : State) : (setAttempt j w a s).urg = s.urg := rfl

@[simp] theorem setAttempt_safe (j w a : Nat) (s : State) : (setAttempt j w a s).safe = s.safe := rfl

@[simp] theorem setAttempt_sec (j w a : Nat) (s : State) : (setAttempt j w a s).sec = s.sec := rfl

@[simp] theorem setAttempt_mem (j w a : Nat) (s : State) : (setAttempt j w a s).mem = s.mem := rfl

@[simp] theorem setAttempt_pwr (j w a : Nat) (s : State) : (setAttempt j w a s).pwr = s.pwr := rfl

@[simp] theorem setAttempt_ramPoison (j w a : Nat) (s : State) : (setAttempt j w a s).ramPoison = s.ramPoison := rfl

@[simp] theorem setAttempt_freeCount (j w a : Nat) (s : State) : (setAttempt j w a s).freeCount = s.freeCount := rfl

@[simp] theorem setAttempt_pending (j w a : Nat) (s : State) : (setAttempt j w a s).pending = s.pending := rfl

/-! ### `monitorStarts` -/

theorem monitorStarts_apx (s : State) :
    (monitorStarts s).apx = { s.apx with harts := (upto 8).foldl (fun t h => tmod {} t h (fun x => { x with mode := .hs, imsicP := [], imsicE := [] })) s.apx.harts, msi := [] } := rfl

@[simp] theorem monitorStarts_dev (s : State) : (monitorStarts s).dev = s.dev := rfl

@[simp] theorem monitorStarts_regs (s : State) : (monitorStarts s).regs = s.regs := rfl

@[simp] theorem monitorStarts_cnt (s : State) : (monitorStarts s).cnt = s.cnt := rfl

@[simp] theorem monitorStarts_ram (s : State) : (monitorStarts s).ram = s.ram := rfl

@[simp] theorem monitorStarts_time (s : State) : (monitorStarts s).time = s.time := rfl

@[simp] theorem monitorStarts_tow (s : State) : (monitorStarts s).tow = s.tow := rfl

@[simp] theorem monitorStarts_slu (s : State) : (monitorStarts s).slu = s.slu := rfl

@[simp] theorem monitorStarts_upIn (s : State) : (monitorStarts s).upIn = s.upIn := rfl

@[simp] theorem monitorStarts_brg (s : State) : (monitorStarts s).brg = s.brg := rfl

@[simp] theorem monitorStarts_inr (s : State) : (monitorStarts s).inr = s.inr := rfl

@[simp] theorem monitorStarts_srf (s : State) : (monitorStarts s).srf = s.srf := rfl

@[simp] theorem monitorStarts_ne (s : State) : (monitorStarts s).ne = s.ne := rfl

@[simp] theorem monitorStarts_fa (s : State) : (monitorStarts s).fa = s.fa := rfl

@[simp] theorem monitorStarts_ten (s : State) : (monitorStarts s).ten = s.ten := rfl

@[simp] theorem monitorStarts_fus (s : State) : (monitorStarts s).fus = s.fus := rfl

@[simp] theorem monitorStarts_canal (s : State) : (monitorStarts s).canal = s.canal := rfl

@[simp] theorem monitorStarts_res (s : State) : (monitorStarts s).res = s.res := rfl

@[simp] theorem monitorStarts_pass (s : State) : (monitorStarts s).pass = s.pass := rfl

@[simp] theorem monitorStarts_urg (s : State) : (monitorStarts s).urg = s.urg := rfl

@[simp] theorem monitorStarts_safe (s : State) : (monitorStarts s).safe = s.safe := rfl

@[simp] theorem monitorStarts_sec (s : State) : (monitorStarts s).sec = s.sec := rfl

@[simp] theorem monitorStarts_mem (s : State) : (monitorStarts s).mem = s.mem := rfl

@[simp] theorem monitorStarts_pwr (s : State) : (monitorStarts s).pwr = s.pwr := rfl

@[simp] theorem monitorStarts_ramPoison (s : State) : (monitorStarts s).ramPoison = s.ramPoison := rfl

@[simp] theorem monitorStarts_freeCount (s : State) : (monitorStarts s).freeCount = s.freeCount := rfl

@[simp] theorem monitorStarts_pending (s : State) : (monitorStarts s).pending = s.pending := rfl

/-! ### `setSrf` -/

theorem setSrf_srf (s : State) (c : Nat) (v : Srf) :
    (setSrf s c v).srf = tset {} s.srf c v := rfl

@[simp] theorem setSrf_dev (s : State) (c : Nat) (v : Srf) : (setSrf s c v).dev = s.dev := rfl

@[simp] theorem setSrf_regs (s : State) (c : Nat) (v : Srf) : (setSrf s c v).regs = s.regs := rfl

@[simp] theorem setSrf_cnt (s : State) (c : Nat) (v : Srf) : (setSrf s c v).cnt = s.cnt := rfl

@[simp] theorem setSrf_ram (s : State) (c : Nat) (v : Srf) : (setSrf s c v).ram = s.ram := rfl

@[simp] theorem setSrf_time (s : State) (c : Nat) (v : Srf) : (setSrf s c v).time = s.time := rfl

@[simp] theorem setSrf_tow (s : State) (c : Nat) (v : Srf) : (setSrf s c v).tow = s.tow := rfl

@[simp] theorem setSrf_slu (s : State) (c : Nat) (v : Srf) : (setSrf s c v).slu = s.slu := rfl

@[simp] theorem setSrf_upIn (s : State) (c : Nat) (v : Srf) : (setSrf s c v).upIn = s.upIn := rfl

@[simp] theorem setSrf_brg (s : State) (c : Nat) (v : Srf) : (setSrf s c v).brg = s.brg := rfl

@[simp] theorem setSrf_apx (s : State) (c : Nat) (v : Srf) : (setSrf s c v).apx = s.apx := rfl

@[simp] theorem setSrf_inr (s : State) (c : Nat) (v : Srf) : (setSrf s c v).inr = s.inr := rfl

@[simp] theorem setSrf_ne (s : State) (c : Nat) (v : Srf) : (setSrf s c v).ne = s.ne := rfl

@[simp] theorem setSrf_fa (s : State) (c : Nat) (v : Srf) : (setSrf s c v).fa = s.fa := rfl

@[simp] theorem setSrf_ten (s : State) (c : Nat) (v : Srf) : (setSrf s c v).ten = s.ten := rfl

@[simp] theorem setSrf_fus (s : State) (c : Nat) (v : Srf) : (setSrf s c v).fus = s.fus := rfl

@[simp] theorem setSrf_canal (s : State) (c : Nat) (v : Srf) : (setSrf s c v).canal = s.canal := rfl

@[simp] theorem setSrf_res (s : State) (c : Nat) (v : Srf) : (setSrf s c v).res = s.res := rfl

@[simp] theorem setSrf_pass (s : State) (c : Nat) (v : Srf) : (setSrf s c v).pass = s.pass := rfl

@[simp] theorem setSrf_urg (s : State) (c : Nat) (v : Srf) : (setSrf s c v).urg = s.urg := rfl

@[simp] theorem setSrf_safe (s : State) (c : Nat) (v : Srf) : (setSrf s c v).safe = s.safe := rfl

@[simp] theorem setSrf_sec (s : State) (c : Nat) (v : Srf) : (setSrf s c v).sec = s.sec := rfl

@[simp] theorem setSrf_mem (s : State) (c : Nat) (v : Srf) : (setSrf s c v).mem = s.mem := rfl

@[simp] theorem setSrf_pwr (s : State) (c : Nat) (v : Srf) : (setSrf s c v).pwr = s.pwr := rfl

@[simp] theorem setSrf_ramPoison (s : State) (c : Nat) (v : Srf) : (setSrf s c v).ramPoison = s.ramPoison := rfl

@[simp] theorem setSrf_freeCount (s : State) (c : Nat) (v : Srf) : (setSrf s c v).freeCount = s.freeCount := rfl

@[simp] theorem setSrf_pending (s : State) (c : Nat) (v : Srf) : (setSrf s c v).pending = s.pending := rfl

/-! ### `setTime` -/

theorem setTime_time (s : State) (t : TimeSt) :
    (setTime s t).time = t := rfl

@[simp] theorem setTime_dev (s : State) (t : TimeSt) : (setTime s t).dev = s.dev := rfl

@[simp] theorem setTime_regs (s : State) (t : TimeSt) : (setTime s t).regs = s.regs := rfl

@[simp] theorem setTime_cnt (s : State) (t : TimeSt) : (setTime s t).cnt = s.cnt := rfl

@[simp] theorem setTime_ram (s : State) (t : TimeSt) : (setTime s t).ram = s.ram := rfl

@[simp] theorem setTime_tow (s : State) (t : TimeSt) : (setTime s t).tow = s.tow := rfl

@[simp] theorem setTime_slu (s : State) (t : TimeSt) : (setTime s t).slu = s.slu := rfl

@[simp] theorem setTime_upIn (s : State) (t : TimeSt) : (setTime s t).upIn = s.upIn := rfl

@[simp] theorem setTime_brg (s : State) (t : TimeSt) : (setTime s t).brg = s.brg := rfl

@[simp] theorem setTime_apx (s : State) (t : TimeSt) : (setTime s t).apx = s.apx := rfl

@[simp] theorem setTime_inr (s : State) (t : TimeSt) : (setTime s t).inr = s.inr := rfl

@[simp] theorem setTime_srf (s : State) (t : TimeSt) : (setTime s t).srf = s.srf := rfl

@[simp] theorem setTime_ne (s : State) (t : TimeSt) : (setTime s t).ne = s.ne := rfl

@[simp] theorem setTime_fa (s : State) (t : TimeSt) : (setTime s t).fa = s.fa := rfl

@[simp] theorem setTime_ten (s : State) (t : TimeSt) : (setTime s t).ten = s.ten := rfl

@[simp] theorem setTime_fus (s : State) (t : TimeSt) : (setTime s t).fus = s.fus := rfl

@[simp] theorem setTime_canal (s : State) (t : TimeSt) : (setTime s t).canal = s.canal := rfl

@[simp] theorem setTime_res (s : State) (t : TimeSt) : (setTime s t).res = s.res := rfl

@[simp] theorem setTime_pass (s : State) (t : TimeSt) : (setTime s t).pass = s.pass := rfl

@[simp] theorem setTime_urg (s : State) (t : TimeSt) : (setTime s t).urg = s.urg := rfl

@[simp] theorem setTime_safe (s : State) (t : TimeSt) : (setTime s t).safe = s.safe := rfl

@[simp] theorem setTime_sec (s : State) (t : TimeSt) : (setTime s t).sec = s.sec := rfl

@[simp] theorem setTime_mem (s : State) (t : TimeSt) : (setTime s t).mem = s.mem := rfl

@[simp] theorem setTime_pwr (s : State) (t : TimeSt) : (setTime s t).pwr = s.pwr := rfl

@[simp] theorem setTime_ramPoison (s : State) (t : TimeSt) : (setTime s t).ramPoison = s.ramPoison := rfl

@[simp] theorem setTime_freeCount (s : State) (t : TimeSt) : (setTime s t).freeCount = s.freeCount := rfl

@[simp] theorem setTime_pending (s : State) (t : TimeSt) : (setTime s t).pending = s.pending := rfl

/-! ### `setBerth` -/

theorem setBerth_tow (s : State) (b : Nat) (v : Berth) :
    (setBerth s b v).tow = { s.tow with berths := tset {} s.tow.berths b v } := rfl

@[simp] theorem setBerth_dev (s : State) (b : Nat) (v : Berth) : (setBerth s b v).dev = s.dev := rfl

@[simp] theorem setBerth_regs (s : State) (b : Nat) (v : Berth) : (setBerth s b v).regs = s.regs := rfl

@[simp] theorem setBerth_cnt (s : State) (b : Nat) (v : Berth) : (setBerth s b v).cnt = s.cnt := rfl

@[simp] theorem setBerth_ram (s : State) (b : Nat) (v : Berth) : (setBerth s b v).ram = s.ram := rfl

@[simp] theorem setBerth_time (s : State) (b : Nat) (v : Berth) : (setBerth s b v).time = s.time := rfl

@[simp] theorem setBerth_slu (s : State) (b : Nat) (v : Berth) : (setBerth s b v).slu = s.slu := rfl

@[simp] theorem setBerth_upIn (s : State) (b : Nat) (v : Berth) : (setBerth s b v).upIn = s.upIn := rfl

@[simp] theorem setBerth_brg (s : State) (b : Nat) (v : Berth) : (setBerth s b v).brg = s.brg := rfl

@[simp] theorem setBerth_apx (s : State) (b : Nat) (v : Berth) : (setBerth s b v).apx = s.apx := rfl

@[simp] theorem setBerth_inr (s : State) (b : Nat) (v : Berth) : (setBerth s b v).inr = s.inr := rfl

@[simp] theorem setBerth_srf (s : State) (b : Nat) (v : Berth) : (setBerth s b v).srf = s.srf := rfl

@[simp] theorem setBerth_ne (s : State) (b : Nat) (v : Berth) : (setBerth s b v).ne = s.ne := rfl

@[simp] theorem setBerth_fa (s : State) (b : Nat) (v : Berth) : (setBerth s b v).fa = s.fa := rfl

@[simp] theorem setBerth_ten (s : State) (b : Nat) (v : Berth) : (setBerth s b v).ten = s.ten := rfl

@[simp] theorem setBerth_fus (s : State) (b : Nat) (v : Berth) : (setBerth s b v).fus = s.fus := rfl

@[simp] theorem setBerth_canal (s : State) (b : Nat) (v : Berth) : (setBerth s b v).canal = s.canal := rfl

@[simp] theorem setBerth_res (s : State) (b : Nat) (v : Berth) : (setBerth s b v).res = s.res := rfl

@[simp] theorem setBerth_pass (s : State) (b : Nat) (v : Berth) : (setBerth s b v).pass = s.pass := rfl

@[simp] theorem setBerth_urg (s : State) (b : Nat) (v : Berth) : (setBerth s b v).urg = s.urg := rfl

@[simp] theorem setBerth_safe (s : State) (b : Nat) (v : Berth) : (setBerth s b v).safe = s.safe := rfl

@[simp] theorem setBerth_sec (s : State) (b : Nat) (v : Berth) : (setBerth s b v).sec = s.sec := rfl

@[simp] theorem setBerth_mem (s : State) (b : Nat) (v : Berth) : (setBerth s b v).mem = s.mem := rfl

@[simp] theorem setBerth_pwr (s : State) (b : Nat) (v : Berth) : (setBerth s b v).pwr = s.pwr := rfl

@[simp] theorem setBerth_ramPoison (s : State) (b : Nat) (v : Berth) : (setBerth s b v).ramPoison = s.ramPoison := rfl

@[simp] theorem setBerth_freeCount (s : State) (b : Nat) (v : Berth) : (setBerth s b v).freeCount = s.freeCount := rfl

@[simp] theorem setBerth_pending (s : State) (b : Nat) (v : Berth) : (setBerth s b v).pending = s.pending := rfl

/-! ### `setBport` -/

theorem setBport_apx (s : State) (b : Nat) (v : BPort) :
    (setBport s b v).apx = { s.apx with bports := tset {} s.apx.bports b v } := rfl

@[simp] theorem setBport_dev (s : State) (b : Nat) (v : BPort) : (setBport s b v).dev = s.dev := rfl

@[simp] theorem setBport_regs (s : State) (b : Nat) (v : BPort) : (setBport s b v).regs = s.regs := rfl

@[simp] theorem setBport_cnt (s : State) (b : Nat) (v : BPort) : (setBport s b v).cnt = s.cnt := rfl

@[simp] theorem setBport_ram (s : State) (b : Nat) (v : BPort) : (setBport s b v).ram = s.ram := rfl

@[simp] theorem setBport_time (s : State) (b : Nat) (v : BPort) : (setBport s b v).time = s.time := rfl

@[simp] theorem setBport_tow (s : State) (b : Nat) (v : BPort) : (setBport s b v).tow = s.tow := rfl

@[simp] theorem setBport_slu (s : State) (b : Nat) (v : BPort) : (setBport s b v).slu = s.slu := rfl

@[simp] theorem setBport_upIn (s : State) (b : Nat) (v : BPort) : (setBport s b v).upIn = s.upIn := rfl

@[simp] theorem setBport_brg (s : State) (b : Nat) (v : BPort) : (setBport s b v).brg = s.brg := rfl

@[simp] theorem setBport_inr (s : State) (b : Nat) (v : BPort) : (setBport s b v).inr = s.inr := rfl

@[simp] theorem setBport_srf (s : State) (b : Nat) (v : BPort) : (setBport s b v).srf = s.srf := rfl

@[simp] theorem setBport_ne (s : State) (b : Nat) (v : BPort) : (setBport s b v).ne = s.ne := rfl

@[simp] theorem setBport_fa (s : State) (b : Nat) (v : BPort) : (setBport s b v).fa = s.fa := rfl

@[simp] theorem setBport_ten (s : State) (b : Nat) (v : BPort) : (setBport s b v).ten = s.ten := rfl

@[simp] theorem setBport_fus (s : State) (b : Nat) (v : BPort) : (setBport s b v).fus = s.fus := rfl

@[simp] theorem setBport_canal (s : State) (b : Nat) (v : BPort) : (setBport s b v).canal = s.canal := rfl

@[simp] theorem setBport_res (s : State) (b : Nat) (v : BPort) : (setBport s b v).res = s.res := rfl

@[simp] theorem setBport_pass (s : State) (b : Nat) (v : BPort) : (setBport s b v).pass = s.pass := rfl

@[simp] theorem setBport_urg (s : State) (b : Nat) (v : BPort) : (setBport s b v).urg = s.urg := rfl

@[simp] theorem setBport_safe (s : State) (b : Nat) (v : BPort) : (setBport s b v).safe = s.safe := rfl

@[simp] theorem setBport_sec (s : State) (b : Nat) (v : BPort) : (setBport s b v).sec = s.sec := rfl

@[simp] theorem setBport_mem (s : State) (b : Nat) (v : BPort) : (setBport s b v).mem = s.mem := rfl

@[simp] theorem setBport_pwr (s : State) (b : Nat) (v : BPort) : (setBport s b v).pwr = s.pwr := rfl

@[simp] theorem setBport_ramPoison (s : State) (b : Nat) (v : BPort) : (setBport s b v).ramPoison = s.ramPoison := rfl

@[simp] theorem setBport_freeCount (s : State) (b : Nat) (v : BPort) : (setBport s b v).freeCount = s.freeCount := rfl

@[simp] theorem setBport_pending (s : State) (b : Nat) (v : BPort) : (setBport s b v).pending = s.pending := rfl

/-! ### `servedBerth` -/

theorem servedBerth_tow (q : Req) (s : State) :
    (servedBerth q s).tow = { s.tow with lastServed := tset 15 s.tow.lastServed q.cls q.berth } := rfl

@[simp] theorem servedBerth_dev (q : Req) (s : State) : (servedBerth q s).dev = s.dev := rfl

@[simp] theorem servedBerth_regs (q : Req) (s : State) : (servedBerth q s).regs = s.regs := rfl

@[simp] theorem servedBerth_cnt (q : Req) (s : State) : (servedBerth q s).cnt = s.cnt := rfl

@[simp] theorem servedBerth_ram (q : Req) (s : State) : (servedBerth q s).ram = s.ram := rfl

@[simp] theorem servedBerth_time (q : Req) (s : State) : (servedBerth q s).time = s.time := rfl

@[simp] theorem servedBerth_slu (q : Req) (s : State) : (servedBerth q s).slu = s.slu := rfl

@[simp] theorem servedBerth_upIn (q : Req) (s : State) : (servedBerth q s).upIn = s.upIn := rfl

@[simp] theorem servedBerth_brg (q : Req) (s : State) : (servedBerth q s).brg = s.brg := rfl

@[simp] theorem servedBerth_apx (q : Req) (s : State) : (servedBerth q s).apx = s.apx := rfl

@[simp] theorem servedBerth_inr (q : Req) (s : State) : (servedBerth q s).inr = s.inr := rfl

@[simp] theorem servedBerth_srf (q : Req) (s : State) : (servedBerth q s).srf = s.srf := rfl

@[simp] theorem servedBerth_ne (q : Req) (s : State) : (servedBerth q s).ne = s.ne := rfl

@[simp] theorem servedBerth_fa (q : Req) (s : State) : (servedBerth q s).fa = s.fa := rfl

@[simp] theorem servedBerth_ten (q : Req) (s : State) : (servedBerth q s).ten = s.ten := rfl

@[simp] theorem servedBerth_fus (q : Req) (s : State) : (servedBerth q s).fus = s.fus := rfl

@[simp] theorem servedBerth_canal (q : Req) (s : State) : (servedBerth q s).canal = s.canal := rfl

@[simp] theorem servedBerth_res (q : Req) (s : State) : (servedBerth q s).res = s.res := rfl

@[simp] theorem servedBerth_pass (q : Req) (s : State) : (servedBerth q s).pass = s.pass := rfl

@[simp] theorem servedBerth_urg (q : Req) (s : State) : (servedBerth q s).urg = s.urg := rfl

@[simp] theorem servedBerth_safe (q : Req) (s : State) : (servedBerth q s).safe = s.safe := rfl

@[simp] theorem servedBerth_sec (q : Req) (s : State) : (servedBerth q s).sec = s.sec := rfl

@[simp] theorem servedBerth_mem (q : Req) (s : State) : (servedBerth q s).mem = s.mem := rfl

@[simp] theorem servedBerth_pwr (q : Req) (s : State) : (servedBerth q s).pwr = s.pwr := rfl

@[simp] theorem servedBerth_ramPoison (q : Req) (s : State) : (servedBerth q s).ramPoison = s.ramPoison := rfl

@[simp] theorem servedBerth_freeCount (q : Req) (s : State) : (servedBerth q s).freeCount = s.freeCount := rfl

@[simp] theorem servedBerth_pending (q : Req) (s : State) : (servedBerth q s).pending = s.pending := rfl

/-! ### `setUp` -/

theorem setUp_urg (s : State) (n : Nat) (v : Up) :
    (setUp s n v).urg = { s.urg with pairs := tset {} s.urg.pairs n v } := rfl

@[simp] theorem setUp_dev (s : State) (n : Nat) (v : Up) : (setUp s n v).dev = s.dev := rfl

@[simp] theorem setUp_regs (s : State) (n : Nat) (v : Up) : (setUp s n v).regs = s.regs := rfl

@[simp] theorem setUp_cnt (s : State) (n : Nat) (v : Up) : (setUp s n v).cnt = s.cnt := rfl

@[simp] theorem setUp_ram (s : State) (n : Nat) (v : Up) : (setUp s n v).ram = s.ram := rfl

@[simp] theorem setUp_time (s : State) (n : Nat) (v : Up) : (setUp s n v).time = s.time := rfl

@[simp] theorem setUp_tow (s : State) (n : Nat) (v : Up) : (setUp s n v).tow = s.tow := rfl

@[simp] theorem setUp_slu (s : State) (n : Nat) (v : Up) : (setUp s n v).slu = s.slu := rfl

@[simp] theorem setUp_upIn (s : State) (n : Nat) (v : Up) : (setUp s n v).upIn = s.upIn := rfl

@[simp] theorem setUp_brg (s : State) (n : Nat) (v : Up) : (setUp s n v).brg = s.brg := rfl

@[simp] theorem setUp_apx (s : State) (n : Nat) (v : Up) : (setUp s n v).apx = s.apx := rfl

@[simp] theorem setUp_inr (s : State) (n : Nat) (v : Up) : (setUp s n v).inr = s.inr := rfl

@[simp] theorem setUp_srf (s : State) (n : Nat) (v : Up) : (setUp s n v).srf = s.srf := rfl

@[simp] theorem setUp_ne (s : State) (n : Nat) (v : Up) : (setUp s n v).ne = s.ne := rfl

@[simp] theorem setUp_fa (s : State) (n : Nat) (v : Up) : (setUp s n v).fa = s.fa := rfl

@[simp] theorem setUp_ten (s : State) (n : Nat) (v : Up) : (setUp s n v).ten = s.ten := rfl

@[simp] theorem setUp_fus (s : State) (n : Nat) (v : Up) : (setUp s n v).fus = s.fus := rfl

@[simp] theorem setUp_canal (s : State) (n : Nat) (v : Up) : (setUp s n v).canal = s.canal := rfl

@[simp] theorem setUp_res (s : State) (n : Nat) (v : Up) : (setUp s n v).res = s.res := rfl

@[simp] theorem setUp_pass (s : State) (n : Nat) (v : Up) : (setUp s n v).pass = s.pass := rfl

@[simp] theorem setUp_safe (s : State) (n : Nat) (v : Up) : (setUp s n v).safe = s.safe := rfl

@[simp] theorem setUp_sec (s : State) (n : Nat) (v : Up) : (setUp s n v).sec = s.sec := rfl

@[simp] theorem setUp_mem (s : State) (n : Nat) (v : Up) : (setUp s n v).mem = s.mem := rfl

@[simp] theorem setUp_pwr (s : State) (n : Nat) (v : Up) : (setUp s n v).pwr = s.pwr := rfl

@[simp] theorem setUp_ramPoison (s : State) (n : Nat) (v : Up) : (setUp s n v).ramPoison = s.ramPoison := rfl

@[simp] theorem setUp_freeCount (s : State) (n : Nat) (v : Up) : (setUp s n v).freeCount = s.freeCount := rfl

@[simp] theorem setUp_pending (s : State) (n : Nat) (v : Up) : (setUp s n v).pending = s.pending := rfl

/-! ### `setPol` -/

theorem setPol_canal (s : State) (h : Nat) (v : Policer) :
    (setPol s h v).canal = { s.canal with pol := tset {} s.canal.pol h v } := rfl

@[simp] theorem setPol_dev (s : State) (h : Nat) (v : Policer) : (setPol s h v).dev = s.dev := rfl

@[simp] theorem setPol_regs (s : State) (h : Nat) (v : Policer) : (setPol s h v).regs = s.regs := rfl

@[simp] theorem setPol_cnt (s : State) (h : Nat) (v : Policer) : (setPol s h v).cnt = s.cnt := rfl

@[simp] theorem setPol_ram (s : State) (h : Nat) (v : Policer) : (setPol s h v).ram = s.ram := rfl

@[simp] theorem setPol_time (s : State) (h : Nat) (v : Policer) : (setPol s h v).time = s.time := rfl

@[simp] theorem setPol_tow (s : State) (h : Nat) (v : Policer) : (setPol s h v).tow = s.tow := rfl

@[simp] theorem setPol_slu (s : State) (h : Nat) (v : Policer) : (setPol s h v).slu = s.slu := rfl

@[simp] theorem setPol_upIn (s : State) (h : Nat) (v : Policer) : (setPol s h v).upIn = s.upIn := rfl

@[simp] theorem setPol_brg (s : State) (h : Nat) (v : Policer) : (setPol s h v).brg = s.brg := rfl

@[simp] theorem setPol_apx (s : State) (h : Nat) (v : Policer) : (setPol s h v).apx = s.apx := rfl

@[simp] theorem setPol_inr (s : State) (h : Nat) (v : Policer) : (setPol s h v).inr = s.inr := rfl

@[simp] theorem setPol_srf (s : State) (h : Nat) (v : Policer) : (setPol s h v).srf = s.srf := rfl

@[simp] theorem setPol_ne (s : State) (h : Nat) (v : Policer) : (setPol s h v).ne = s.ne := rfl

@[simp] theorem setPol_fa (s : State) (h : Nat) (v : Policer) : (setPol s h v).fa = s.fa := rfl

@[simp] theorem setPol_ten (s : State) (h : Nat) (v : Policer) : (setPol s h v).ten = s.ten := rfl

@[simp] theorem setPol_fus (s : State) (h : Nat) (v : Policer) : (setPol s h v).fus = s.fus := rfl

@[simp] theorem setPol_res (s : State) (h : Nat) (v : Policer) : (setPol s h v).res = s.res := rfl

@[simp] theorem setPol_pass (s : State) (h : Nat) (v : Policer) : (setPol s h v).pass = s.pass := rfl

@[simp] theorem setPol_urg (s : State) (h : Nat) (v : Policer) : (setPol s h v).urg = s.urg := rfl

@[simp] theorem setPol_safe (s : State) (h : Nat) (v : Policer) : (setPol s h v).safe = s.safe := rfl

@[simp] theorem setPol_sec (s : State) (h : Nat) (v : Policer) : (setPol s h v).sec = s.sec := rfl

@[simp] theorem setPol_mem (s : State) (h : Nat) (v : Policer) : (setPol s h v).mem = s.mem := rfl

@[simp] theorem setPol_pwr (s : State) (h : Nat) (v : Policer) : (setPol s h v).pwr = s.pwr := rfl

@[simp] theorem setPol_ramPoison (s : State) (h : Nat) (v : Policer) : (setPol s h v).ramPoison = s.ramPoison := rfl

@[simp] theorem setPol_freeCount (s : State) (h : Nat) (v : Policer) : (setPol s h v).freeCount = s.freeCount := rfl

@[simp] theorem setPol_pending (s : State) (h : Nat) (v : Policer) : (setPol s h v).pending = s.pending := rfl

/-! ### `setChk` -/

theorem setChk_urg (s : State) (p n : Nat) (v : Chk) :
    (setChk s p n v).urg = { s.urg with chk := tset {} s.urg.chk (p * 4 + n) v } := rfl

@[simp] theorem setChk_dev (s : State) (p n : Nat) (v : Chk) : (setChk s p n v).dev = s.dev := rfl

@[simp] theorem setChk_regs (s : State) (p n : Nat) (v : Chk) : (setChk s p n v).regs = s.regs := rfl

@[simp] theorem setChk_cnt (s : State) (p n : Nat) (v : Chk) : (setChk s p n v).cnt = s.cnt := rfl

@[simp] theorem setChk_ram (s : State) (p n : Nat) (v : Chk) : (setChk s p n v).ram = s.ram := rfl

@[simp] theorem setChk_time (s : State) (p n : Nat) (v : Chk) : (setChk s p n v).time = s.time := rfl

@[simp] theorem setChk_tow (s : State) (p n : Nat) (v : Chk) : (setChk s p n v).tow = s.tow := rfl

@[simp] theorem setChk_slu (s : State) (p n : Nat) (v : Chk) : (setChk s p n v).slu = s.slu := rfl

@[simp] theorem setChk_upIn (s : State) (p n : Nat) (v : Chk) : (setChk s p n v).upIn = s.upIn := rfl

@[simp] theorem setChk_brg (s : State) (p n : Nat) (v : Chk) : (setChk s p n v).brg = s.brg := rfl

@[simp] theorem setChk_apx (s : State) (p n : Nat) (v : Chk) : (setChk s p n v).apx = s.apx := rfl

@[simp] theorem setChk_inr (s : State) (p n : Nat) (v : Chk) : (setChk s p n v).inr = s.inr := rfl

@[simp] theorem setChk_srf (s : State) (p n : Nat) (v : Chk) : (setChk s p n v).srf = s.srf := rfl

@[simp] theorem setChk_ne (s : State) (p n : Nat) (v : Chk) : (setChk s p n v).ne = s.ne := rfl

@[simp] theorem setChk_fa (s : State) (p n : Nat) (v : Chk) : (setChk s p n v).fa = s.fa := rfl

@[simp] theorem setChk_ten (s : State) (p n : Nat) (v : Chk) : (setChk s p n v).ten = s.ten := rfl

@[simp] theorem setChk_fus (s : State) (p n : Nat) (v : Chk) : (setChk s p n v).fus = s.fus := rfl

@[simp] theorem setChk_canal (s : State) (p n : Nat) (v : Chk) : (setChk s p n v).canal = s.canal := rfl

@[simp] theorem setChk_res (s : State) (p n : Nat) (v : Chk) : (setChk s p n v).res = s.res := rfl

@[simp] theorem setChk_pass (s : State) (p n : Nat) (v : Chk) : (setChk s p n v).pass = s.pass := rfl

@[simp] theorem setChk_safe (s : State) (p n : Nat) (v : Chk) : (setChk s p n v).safe = s.safe := rfl

@[simp] theorem setChk_sec (s : State) (p n : Nat) (v : Chk) : (setChk s p n v).sec = s.sec := rfl

@[simp] theorem setChk_mem (s : State) (p n : Nat) (v : Chk) : (setChk s p n v).mem = s.mem := rfl

@[simp] theorem setChk_pwr (s : State) (p n : Nat) (v : Chk) : (setChk s p n v).pwr = s.pwr := rfl

@[simp] theorem setChk_ramPoison (s : State) (p n : Nat) (v : Chk) : (setChk s p n v).ramPoison = s.ramPoison := rfl

@[simp] theorem setChk_freeCount (s : State) (p n : Nat) (v : Chk) : (setChk s p n v).freeCount = s.freeCount := rfl

@[simp] theorem setChk_pending (s : State) (p n : Nat) (v : Chk) : (setChk s p n v).pending = s.pending := rfl

end Sys2Proof.Machine
end

