-- ==== Sys2Proof/Laws/Crossings.lean ====
section
/-! SUPPORT. What restarting an island (R624) and a parity check at a crossing (R30) change: the stopped islands, and the crossing's
counter, and nothing else. -/
namespace Sys2Proof.Machine

/-- An island that restarts changes the list of stopped islands alone. -/
theorem wakeIsland_eq (u : Nat) (s : State) : wakeIsland u s = { s with pwr := (wakeIsland u s).pwr } := by
  unfold wakeIsland
  split <;> rfl

@[simp] theorem wakeIsland_dev (u : Nat) (s : State) : (wakeIsland u s).dev = s.dev := by rw [wakeIsland_eq]
@[simp] theorem wakeIsland_regs (u : Nat) (s : State) : (wakeIsland u s).regs = s.regs := by rw [wakeIsland_eq]
@[simp] theorem wakeIsland_cnt (u : Nat) (s : State) : (wakeIsland u s).cnt = s.cnt := by rw [wakeIsland_eq]
@[simp] theorem wakeIsland_ram (u : Nat) (s : State) : (wakeIsland u s).ram = s.ram := by rw [wakeIsland_eq]
@[simp] theorem wakeIsland_time (u : Nat) (s : State) : (wakeIsland u s).time = s.time := by rw [wakeIsland_eq]
@[simp] theorem wakeIsland_tow (u : Nat) (s : State) : (wakeIsland u s).tow = s.tow := by rw [wakeIsland_eq]
@[simp] theorem wakeIsland_slu (u : Nat) (s : State) : (wakeIsland u s).slu = s.slu := by rw [wakeIsland_eq]
@[simp] theorem wakeIsland_upIn (u : Nat) (s : State) : (wakeIsland u s).upIn = s.upIn := by rw [wakeIsland_eq]
@[simp] theorem wakeIsland_brg (u : Nat) (s : State) : (wakeIsland u s).brg = s.brg := by rw [wakeIsland_eq]
@[simp] theorem wakeIsland_apx (u : Nat) (s : State) : (wakeIsland u s).apx = s.apx := by rw [wakeIsland_eq]
@[simp] theorem wakeIsland_inr (u : Nat) (s : State) : (wakeIsland u s).inr = s.inr := by rw [wakeIsland_eq]
@[simp] theorem wakeIsland_srf (u : Nat) (s : State) : (wakeIsland u s).srf = s.srf := by rw [wakeIsland_eq]
@[simp] theorem wakeIsland_ne (u : Nat) (s : State) : (wakeIsland u s).ne = s.ne := by rw [wakeIsland_eq]
@[simp] theorem wakeIsland_fa (u : Nat) (s : State) : (wakeIsland u s).fa = s.fa := by rw [wakeIsland_eq]
@[simp] theorem wakeIsland_ten (u : Nat) (s : State) : (wakeIsland u s).ten = s.ten := by rw [wakeIsland_eq]
@[simp] theorem wakeIsland_fus (u : Nat) (s : State) : (wakeIsland u s).fus = s.fus := by rw [wakeIsland_eq]
@[simp] theorem wakeIsland_canal (u : Nat) (s : State) : (wakeIsland u s).canal = s.canal := by rw [wakeIsland_eq]
@[simp] theorem wakeIsland_res (u : Nat) (s : State) : (wakeIsland u s).res = s.res := by rw [wakeIsland_eq]
@[simp] theorem wakeIsland_pass (u : Nat) (s : State) : (wakeIsland u s).pass = s.pass := by rw [wakeIsland_eq]
@[simp] theorem wakeIsland_urg (u : Nat) (s : State) : (wakeIsland u s).urg = s.urg := by rw [wakeIsland_eq]
@[simp] theorem wakeIsland_safe (u : Nat) (s : State) : (wakeIsland u s).safe = s.safe := by rw [wakeIsland_eq]
@[simp] theorem wakeIsland_sec (u : Nat) (s : State) : (wakeIsland u s).sec = s.sec := by rw [wakeIsland_eq]
@[simp] theorem wakeIsland_mem (u : Nat) (s : State) : (wakeIsland u s).mem = s.mem := by rw [wakeIsland_eq]
@[simp] theorem wakeIsland_ramPoison (u : Nat) (s : State) : (wakeIsland u s).ramPoison = s.ramPoison := by rw [wakeIsland_eq]
@[simp] theorem wakeIsland_freeCount (u : Nat) (s : State) : (wakeIsland u s).freeCount = s.freeCount := by rw [wakeIsland_eq]
@[simp] theorem wakeIsland_pending (u : Nat) (s : State) : (wakeIsland u s).pending = s.pending := by rw [wakeIsland_eq]

/-- A parity check at a crossing changes that crossing's counter alone. -/
theorem crossParity_eq (u : Nat) (b : Bool) (s : State) : crossParity u b s = { s with mem := (crossParity u b s).mem } := by
  unfold crossParity
  split <;> rfl

@[simp] theorem crossParity_dev (u : Nat) (b : Bool) (s : State) : (crossParity u b s).dev = s.dev := by rw [crossParity_eq]
@[simp] theorem crossParity_regs (u : Nat) (b : Bool) (s : State) : (crossParity u b s).regs = s.regs := by rw [crossParity_eq]
@[simp] theorem crossParity_cnt (u : Nat) (b : Bool) (s : State) : (crossParity u b s).cnt = s.cnt := by rw [crossParity_eq]
@[simp] theorem crossParity_ram (u : Nat) (b : Bool) (s : State) : (crossParity u b s).ram = s.ram := by rw [crossParity_eq]
@[simp] theorem crossParity_time (u : Nat) (b : Bool) (s : State) : (crossParity u b s).time = s.time := by rw [crossParity_eq]
@[simp] theorem crossParity_tow (u : Nat) (b : Bool) (s : State) : (crossParity u b s).tow = s.tow := by rw [crossParity_eq]
@[simp] theorem crossParity_slu (u : Nat) (b : Bool) (s : State) : (crossParity u b s).slu = s.slu := by rw [crossParity_eq]
@[simp] theorem crossParity_upIn (u : Nat) (b : Bool) (s : State) : (crossParity u b s).upIn = s.upIn := by rw [crossParity_eq]
@[simp] theorem crossParity_brg (u : Nat) (b : Bool) (s : State) : (crossParity u b s).brg = s.brg := by rw [crossParity_eq]
@[simp] theorem crossParity_apx (u : Nat) (b : Bool) (s : State) : (crossParity u b s).apx = s.apx := by rw [crossParity_eq]
@[simp] theorem crossParity_inr (u : Nat) (b : Bool) (s : State) : (crossParity u b s).inr = s.inr := by rw [crossParity_eq]
@[simp] theorem crossParity_srf (u : Nat) (b : Bool) (s : State) : (crossParity u b s).srf = s.srf := by rw [crossParity_eq]
@[simp] theorem crossParity_ne (u : Nat) (b : Bool) (s : State) : (crossParity u b s).ne = s.ne := by rw [crossParity_eq]
@[simp] theorem crossParity_fa (u : Nat) (b : Bool) (s : State) : (crossParity u b s).fa = s.fa := by rw [crossParity_eq]
@[simp] theorem crossParity_ten (u : Nat) (b : Bool) (s : State) : (crossParity u b s).ten = s.ten := by rw [crossParity_eq]
@[simp] theorem crossParity_fus (u : Nat) (b : Bool) (s : State) : (crossParity u b s).fus = s.fus := by rw [crossParity_eq]
@[simp] theorem crossParity_canal (u : Nat) (b : Bool) (s : State) : (crossParity u b s).canal = s.canal := by rw [crossParity_eq]
@[simp] theorem crossParity_res (u : Nat) (b : Bool) (s : State) : (crossParity u b s).res = s.res := by rw [crossParity_eq]
@[simp] theorem crossParity_pass (u : Nat) (b : Bool) (s : State) : (crossParity u b s).pass = s.pass := by rw [crossParity_eq]
@[simp] theorem crossParity_urg (u : Nat) (b : Bool) (s : State) : (crossParity u b s).urg = s.urg := by rw [crossParity_eq]
@[simp] theorem crossParity_safe (u : Nat) (b : Bool) (s : State) : (crossParity u b s).safe = s.safe := by rw [crossParity_eq]
@[simp] theorem crossParity_sec (u : Nat) (b : Bool) (s : State) : (crossParity u b s).sec = s.sec := by rw [crossParity_eq]
@[simp] theorem crossParity_pwr (u : Nat) (b : Bool) (s : State) : (crossParity u b s).pwr = s.pwr := by rw [crossParity_eq]
@[simp] theorem crossParity_ramPoison (u : Nat) (b : Bool) (s : State) : (crossParity u b s).ramPoison = s.ramPoison := by rw [crossParity_eq]
@[simp] theorem crossParity_freeCount (u : Nat) (b : Bool) (s : State) : (crossParity u b s).freeCount = s.freeCount := by rw [crossParity_eq]
@[simp] theorem crossParity_pending (u : Nat) (b : Bool) (s : State) : (crossParity u b s).pending = s.pending := by rw [crossParity_eq]

/-! ### The same through the accessors -/

@[simp] theorem wakeIsland_linkOf (u : Nat) (s : State) (k : Nat) : linkOf (wakeIsland u s) k = linkOf s k := by simp [linkOf]
@[simp] theorem crossParity_linkOf (u : Nat) (b : Bool) (s : State) (k : Nat) : linkOf (crossParity u b s) k = linkOf s k := by simp [linkOf]
@[simp] theorem wakeIsland_sluOf (u : Nat) (s : State) (n : Nat) : sluOf (wakeIsland u s) n = sluOf s n := by simp [sluOf]
@[simp] theorem crossParity_sluOf (u : Nat) (b : Bool) (s : State) (n : Nat) : sluOf (crossParity u b s) n = sluOf s n := by simp [sluOf]
@[simp] theorem wakeIsland_queueOf (u : Nat) (s : State) (q : Nat) : queueOf (wakeIsland u s) q = queueOf s q := by simp [queueOf]
@[simp] theorem crossParity_queueOf (u : Nat) (b : Bool) (s : State) (q : Nat) : queueOf (crossParity u b s) q = queueOf s q := by simp [queueOf]
@[simp] theorem wakeIsland_upOf (u : Nat) (s : State) (n : Nat) : upOf (wakeIsland u s) n = upOf s n := by simp [upOf]
@[simp] theorem crossParity_upOf (u : Nat) (b : Bool) (s : State) (n : Nat) : upOf (crossParity u b s) n = upOf s n := by simp [upOf]

@[simp] theorem wakeIsland_rd (u : Nat) (s : State) (v : Nat) (f : Fld) (i : Nat) : rd (wakeIsland u s) v f i = rd s v f i := by
  simp [rd, regWord]
@[simp] theorem wakeIsland_ingestSluice (u : Nat) (s : State) (q : Nat) : ingestSluice (wakeIsland u s) q = ingestSluice s q := by
  simp [ingestSluice]
@[simp] theorem wakeIsland_ownsQueue (u : Nat) (s : State) (j q : Nat) : ownsQueue (wakeIsland u s) j q = ownsQueue s j q := by
  simp [ownsQueue, jobOf]
@[simp] theorem wakeIsland_qCons (u : Nat) (s : State) (q : Nat) : qCons (wakeIsland u s) q = qCons s q := by simp [qCons]
@[simp] theorem wakeIsland_qProd (u : Nat) (s : State) (q : Nat) : qProd (wakeIsland u s) q = qProd s q := by simp [qProd]
@[simp] theorem wakeIsland_pushAllowed (u : Nat) (s : State) (q : Nat) : pushAllowed (wakeIsland u s) q = pushAllowed s q := by
  simp [pushAllowed, qEnable, rdB]

/-- A parity check that finds nothing changes nothing. -/
@[simp] theorem crossParity_false (u : Nat) (s : State) : crossParity u false s = s := rfl

end Sys2Proof.Machine
end

