-- ==== Sys2Proof/Laws/Tables.lean ====
section
/-! SUPPORT. What the operations on sparse tables do: read after write, the canonical form, and bounds on the values
a table lists. -/
namespace Sys2Proof.Machine

variable {α : Type}

theorem fget_fset_same [DecidableEq α] (d : Nat → α) (t : Tbl α) (k : Nat) (v : α) : ∀ lo, fwfFrom d lo t = true →
    fget d (fset d t k v) k = v := by
  induction t with
  | nil => intro lo _; simp only [fset]; split <;> simp_all [fget]
  | cons e r ih =>
    obtain ⟨k', v'⟩ := e
    intro lo h
    simp only [fwfFrom, Bool.and_eq_true, decide_eq_true_eq] at h
    simp only [fset]
    split
    · split
      · simp_all [fget]
      · simp [fget]
    · split
      · subst k'
        split
        · rename_i hv
          cases r with
          | nil => simp [fget, hv]
          | cons e2 r2 =>
            obtain ⟨k2, v2⟩ := e2
            have h2 := h.2
            simp only [fwfFrom, Bool.and_eq_true, decide_eq_true_eq] at h2
            have : k < k2 := by omega
            simp [fget, this, hv]
        · simp [fget]
      · rename_i h1 h2
        simp only [fget, if_neg h1, if_neg h2]
        exact ih _ h.2

theorem fget_below (d : Nat → α) [DecidableEq α] (t : Tbl α) (k : Nat) : ∀ lo, fwfFrom d lo t = true → k < lo → fget d t k = d k := by
  cases t with
  | nil => intros; rfl
  | cons e r =>
    obtain ⟨k', v'⟩ := e
    intro lo h hk
    simp only [fwfFrom, Bool.and_eq_true, decide_eq_true_eq] at h
    have : k < k' := by omega
    simp [fget, this]

theorem fget_fset_other [DecidableEq α] (d : Nat → α) (t : Tbl α) (k j : Nat) (v : α) (hj : j ≠ k) : ∀ lo, fwfFrom d lo t = true →
    fget d (fset d t k v) j = fget d t j := by
  induction t with
  | nil =>
    intro lo _
    simp only [fset]
    split
    · rfl
    · simp only [fget]; split <;> simp_all
  | cons e r ih =>
    obtain ⟨k', v'⟩ := e
    intro lo h
    simp only [fwfFrom, Bool.and_eq_true, decide_eq_true_eq] at h
    simp only [fset]
    split
    · split
      · rfl
      · rename_i hlt _
        simp only [fget]
        by_cases h1 : j < k
        · have : j < k' := by omega
          simp [h1, this]
        · simp [h1, hj]
    · split
      · subst k'
        split
        · by_cases h1 : j < k
          · rw [fget_below d r j _ h.2 (by omega)]
            simp [fget, h1]
          · simp [fget, h1, hj]
        · simp [fget, hj]
      · simp only [fget]
        split
        · rfl
        · split
          · rfl
          · exact ih _ h.2

theorem fset_wfFrom [DecidableEq α] (d : Nat → α) (t : Tbl α) (k : Nat) (v : α) : ∀ lo, lo ≤ k → fwfFrom d lo t = true →
    fwfFrom d lo (fset d t k v) = true := by
  induction t with
  | nil => intro lo hk _; simp only [fset]; split <;> simp_all [fwfFrom]
  | cons e r ih =>
    obtain ⟨k', v'⟩ := e
    intro lo hk h
    simp only [fwfFrom, Bool.and_eq_true, decide_eq_true_eq] at h
    have low : ∀ a b, a ≤ b → fwfFrom d b r = true → fwfFrom d a r = true := by
      intro a b hab hr
      cases r with
      | nil => rfl
      | cons e2 r2 =>
        obtain ⟨k2, v2⟩ := e2
        simp only [fwfFrom, Bool.and_eq_true, decide_eq_true_eq] at hr ⊢
        exact ⟨⟨by omega, hr.1.2⟩, hr.2⟩
    simp only [fset]
    split
    · split
      · simp only [fwfFrom, Bool.and_eq_true, decide_eq_true_eq]; exact ⟨⟨h.1.1, h.1.2⟩, h.2⟩
      · simp only [fwfFrom, Bool.and_eq_true, decide_eq_true_eq]
        exact ⟨⟨hk, by assumption⟩, ⟨⟨by omega, h.1.2⟩, h.2⟩⟩
    · split
      · subst k'
        split
        · exact low _ _ (by omega) h.2
        · simp only [fwfFrom, Bool.and_eq_true, decide_eq_true_eq]
          exact ⟨⟨hk, by assumption⟩, h.2⟩
      · simp only [fwfFrom, Bool.and_eq_true, decide_eq_true_eq]
        exact ⟨⟨h.1.1, h.1.2⟩, ih _ (by omega) h.2⟩

/-- Writing one key keeps the canonical form. -/
theorem fset_fwf [DecidableEq α] (d : Nat → α) (t : Tbl α) (k : Nat) (v : α) (h : fwf d t = true) :
    fwf d (fset d t k v) = true := fset_wfFrom d t k v 0 (Nat.zero_le _) h

/-- Reading the key that was written gives the value written. -/
theorem fget_fset [DecidableEq α] (d : Nat → α) (t : Tbl α) (k : Nat) (v : α) (h : fwf d t = true) :
    fget d (fset d t k v) k = v := fget_fset_same d t k v 0 h

/-- Writing one key leaves every other key as it was. -/
theorem fget_fset_ne [DecidableEq α] (d : Nat → α) (t : Tbl α) (k j : Nat) (v : α) (h : fwf d t = true) (hj : j ≠ k) :
    fget d (fset d t k v) j = fget d t j := fget_fset_other d t k j v hj 0 h

theorem tget_tset [DecidableEq α] (d : α) (t : Tbl α) (k : Nat) (v : α) (h : fwf (fun _ => d) t = true) :
    tget d (tset d t k v) k = v := fget_fset _ t k v h

theorem tget_tset_ne [DecidableEq α] (d : α) (t : Tbl α) (k j : Nat) (v : α) (h : fwf (fun _ => d) t = true) (hj : j ≠ k) :
    tget d (tset d t k v) j = tget d t j := fget_fset_ne _ t k j v h hj

theorem tput_fwf [DecidableEq α] (d : α) (l : List α) : ∀ (t : Tbl α) (k : Nat), fwf (fun _ => d) t = true →
    fwf (fun _ => d) (tput d t k l) = true := by
  induction l with
  | nil => intro t k h; exact h
  | cons v r ih => intro t k h; exact ih _ _ (fset_fwf _ _ _ _ h)

theorem filter_wfFrom [DecidableEq α] (d : Nat → α) (p : Nat × α → Bool) (t : Tbl α) : ∀ lo, fwfFrom d lo t = true →
    fwfFrom d lo (t.filter p) = true := by
  induction t with
  | nil => intros; rfl
  | cons e r ih =>
    obtain ⟨k, v⟩ := e
    intro lo h
    simp only [fwfFrom, Bool.and_eq_true, decide_eq_true_eq] at h
    have low : ∀ (t : Tbl α) a b, a ≤ b → fwfFrom d b t = true → fwfFrom d a t = true := by
      intro t a b hab hr
      cases t with
      | nil => rfl
      | cons e2 r2 =>
        obtain ⟨k2, v2⟩ := e2
        simp only [fwfFrom, Bool.and_eq_true, decide_eq_true_eq] at hr ⊢
        exact ⟨⟨by omega, hr.1.2⟩, hr.2⟩
    simp only [List.filter_cons]
    split
    · simp only [fwfFrom, Bool.and_eq_true, decide_eq_true_eq]
      exact ⟨h.1, ih _ h.2⟩
    · exact low _ _ _ (by omega) (ih _ h.2)

/-- Clearing keys keeps the canonical form. -/
theorem tclear_fwf [DecidableEq α] (d : Nat → α) (p : Nat → Bool) (t : Tbl α) (h : fwf d t = true) :
    fwf d (tclear p t) = true := filter_wfFrom d _ t 0 h

/-- Every listed value satisfies `P`. -/
def Tbl.all' (P : α → Prop) (t : Tbl α) : Prop := ∀ e ∈ t, P e.2

theorem fset_mem [DecidableEq α] (d : Nat → α) (t : Tbl α) (k : Nat) (v : α) : ∀ e ∈ fset d t k v, e ∈ t ∨ e = (k, v) := by
  induction t with
  | nil => intro e he; simp only [fset] at he; split at he <;> simp_all
  | cons e0 r ih =>
    obtain ⟨k', v'⟩ := e0
    intro e he
    simp only [fset] at he
    split at he
    · split at he
      · exact .inl he
      · rcases List.mem_cons.mp he with h | h
        · exact .inr h
        · exact .inl h
    · split at he
      · split at he
        · exact .inl (List.mem_cons_of_mem _ he)
        · rcases List.mem_cons.mp he with h | h
          · exact .inr h
          · exact .inl (List.mem_cons_of_mem _ h)
      · rcases List.mem_cons.mp he with h | h
        · exact .inl (by rw [h]; exact List.mem_cons_self ..)
        · rcases ih e h with h | h
          · exact .inl (List.mem_cons_of_mem _ h)
          · exact .inr h

theorem fset_all [DecidableEq α] (P : α → Prop) (d : Nat → α) (t : Tbl α) (k : Nat) (v : α) (h : Tbl.all' P t) (hv : P v) :
    Tbl.all' P (fset d t k v) := by
  intro e he
  rcases fset_mem d t k v e he with h1 | h1
  · exact h e h1
  · rw [h1]; exact hv

theorem tclear_all (P : α → Prop) (p : Nat → Bool) (t : Tbl α) (h : Tbl.all' P t) : Tbl.all' P (tclear p t) :=
  fun e he => h e (List.mem_of_mem_filter he)

end Sys2Proof.Machine
end

