-- ==== Sys2Proof/Laws/Keeps.lean ====
section
/-! SUPPORT. What every operation of the block keeps: the queue of commands, the canonical forms, the bound on counters,
and fuses that only burn forward. -/
namespace Sys2Proof.Machine

/-- From `s` to `t` the queue stays, canonical forms are kept, and fuses only burn forward. -/
structure Keeps (s t : State) : Prop where
  pending : t.pending = s.pending
  ram : Memory.wf s → Memory.wf t
  tags : Tags.wf s → Tags.wf t
  regs : Registers.wf s → Registers.wf t
  cnt : Counters.wf s → Counters.wf t
  bound : Counters.bounded s → Counters.bounded t
  fuses : FusesForward s.sec t.sec

theorem FusesForward.refl (a : SecSt) : FusesForward a a :=
  ⟨rfl, rfl, rfl, rfl, ⟨rfl, rfl, rfl, rfl⟩, fun _ h => h, fun _ h => h, id⟩

theorem FusesForward.trans {a b c : SecSt} (h : FusesForward a b) (g : FusesForward b c) : FusesForward a c :=
  ⟨g.uid.trans h.uid, g.mac.trans h.mac, g.variant.trans h.variant, g.ip.trans h.ip,
    ⟨g.hashes.1.trans h.hashes.1, g.hashes.2.1.trans h.hashes.2.1, g.hashes.2.2.1.trans h.hashes.2.2.1,
      g.hashes.2.2.2.trans h.hashes.2.2.2⟩,
    fun i x => g.revoked i (h.revoked i x), fun i x => g.svn i (h.svn i x), fun x => g.rma (h.rma x)⟩

/-- Security state whose fuses are those of another only burns forward from it. -/
theorem FusesForward.same {a b : SecSt} (h1 : b.uid = a.uid) (h2 : b.baseMac = a.baseMac) (h3 : b.variant = a.variant)
    (h4 : b.bootIp4 = a.bootIp4) (h5 : b.keyHash0 = a.keyHash0) (h6 : b.keyHash1 = a.keyHash1)
    (h7 : b.keyHash2 = a.keyHash2) (h8 : b.dbgKeyHash = a.dbgKeyHash) (h9 : b.revoked = a.revoked)
    (h10 : b.svnFuses = a.svnFuses) (h11 : b.lifecycle = a.lifecycle) : FusesForward a b :=
  ⟨h1, h2, h3, h4, ⟨h5, h6, h7, h8⟩, fun i h => by rw [h9]; exact h, fun i h => by rw [h10]; exact h, fun h => by rw [h11]; exact h⟩

theorem Keeps.refl (s : State) : Keeps s s := ⟨rfl, id, id, id, id, id, .refl _⟩

theorem Keeps.trans {r s t : State} (h : Keeps r s) (g : Keeps s t) : Keeps r t :=
  ⟨g.pending.trans h.pending, fun x => g.ram (h.ram x), fun x => g.tags (h.tags x), fun x => g.regs (h.regs x),
    fun x => g.cnt (h.cnt x), fun x => g.bound (h.bound x), h.fuses.trans g.fuses⟩

/-- An update of any other component keeps them all. -/
theorem Keeps.mk_upd {r₀ s : State} (h : Keeps r₀ s) {a1 a2 a3 a4 a5 a6 a7 a8 a9 a10 a11 a12 a13 a14 a15 a16 a17 a18 a19 a20 a21} :
    Keeps r₀ (State.mk a1 s.regs s.cnt s.ram a2 a3 a4 a5 a6 a7 a8 a9 a10 a11 a12 a13 a14 a15 a16 a17 a18 s.sec a19 a20 s.ramPoison a21 s.pending) :=
  ⟨h.pending, h.ram, h.tags, h.regs, h.cnt, h.bound, h.fuses⟩

/-- An update of the security state too, if it only burns fuses forward. -/
theorem Keeps.mk_sec {r₀ s : State} (h : Keeps r₀ s) {a1 a2 a3 a4 a5 a6 a7 a8 a9 a10 a11 a12 a13 a14 a15 a16 a17 a18 a19 a20 a21 v} (hv : FusesForward s.sec v) :
    Keeps r₀ (State.mk a1 s.regs s.cnt s.ram a2 a3 a4 a5 a6 a7 a8 a9 a10 a11 a12 a13 a14 a15 a16 a17 a18 v a19 a20 s.ramPoison a21 s.pending) :=
  ⟨h.pending, h.ram, h.tags, h.regs, h.cnt, h.bound, h.fuses.trans hv⟩

theorem Keeps.foldl {α : Type} {r₀ : State} (f : State → α → State) (l : List α) {s : State} (h : Keeps r₀ s)
    (hf : ∀ s x, Keeps r₀ s → Keeps r₀ (f s x)) : Keeps r₀ (l.foldl f s) := by
  induction l generalizing s with
  | nil => exact h
  | cons x r ih => exact ih (hf s x h)

theorem Keeps.elim {α : Type} {r₀ : State} (o : Option α) {a : State} {f : α → State} (ha : Keeps r₀ a) (hf : ∀ x, Keeps r₀ (f x)) :
    Keeps r₀ (o.elim a f) := by cases o with | none => exact ha | some x => exact hf x

theorem Keeps.foldl_fst {α β : Type} {r₀ : State} (f : State × β → α → State × β) (l : List α) {s : State × β} (h : Keeps r₀ s.1)
    (hf : ∀ s x, Keeps r₀ s.1 → Keeps r₀ (f s x).1) : Keeps r₀ (l.foldl f s).1 := by
  induction l generalizing s with
  | nil => exact h
  | cons x r ih => exact ih (hf s x h)

theorem Keeps.foldl_snd {α β : Type} {r₀ : State} (f : β × State → α → β × State) (l : List α) {s : β × State} (h : Keeps r₀ s.2)
    (hf : ∀ s x, Keeps r₀ s.2 → Keeps r₀ (f s x).2) : Keeps r₀ (l.foldl f s).2 := by
  induction l generalizing s with
  | nil => exact h
  | cons x r ih => exact ih (hf s x h)

theorem Keeps.of_snd {α : Type} {r₀ : State} {p : α × State} {a : α} {s : State} (e : p = (a, s)) (h : Keeps r₀ p.2) :
    Keeps r₀ s := by rw [e] at h; exact h

theorem Keeps.of_fst {α : Type} {r₀ : State} {p : State × α} {a : α} {s : State} (e : p = (s, a)) (h : Keeps r₀ p.1) :
    Keeps r₀ s := by rw [e] at h; exact h

theorem Keeps.ite {r₀ : State} {c : Prop} [Decidable c] {a b : State} (ha : Keeps r₀ a) (hb : Keeps r₀ b) :
    Keeps r₀ (if c then a else b) := by split <;> assumption

/-! ### The operations that write a table -/

theorem setRegWord_kept {r₀ s : State} (unit reg entry word v : Nat) (h : Keeps r₀ s) :
    Keeps r₀ (setRegWord s unit reg entry word v) :=
  h.trans ⟨rfl, id, id, fun x => fset_fwf _ _ _ _ x, id, id, .refl _⟩

theorem bumpN_kept {r₀ s : State} (n unit block word entry : Nat) (h : Keeps r₀ s) :
    Keeps r₀ (bumpN n unit block word s entry) :=
  h.trans ⟨rfl, id, id, id, fun x => fset_fwf _ _ _ _ x,
    fun x => fset_all (fun v => v < 2 ^ 32) _ _ _ _ x (by simp only [satU]; split <;> omega), .refl _⟩

theorem tagsOn_fwf (k : Nat) (l : List Nat) : ∀ t : Tbl Bool, fwf (fun _ => false) t = true →
    fwf (fun _ => false) (l.foldl (fun t i => tset false t (k + i) true) t) = true := by
  induction l with
  | nil => intro t h; exact h
  | cons i r ih => intro t h; exact ih _ (fset_fwf _ _ _ _ h)

theorem setRamBad_kept {r₀ s : State} (a n : Nat) (bad : Bool) (h : Keeps r₀ s) : Keeps r₀ (setRamBad s a n bad) := by
  refine h.trans ⟨rfl, id, fun x => ?_, id, id, id, .refl _⟩
  simp only [Tags.wf, setRamBad]
  split
  · exact tagsOn_fwf _ _ _ x
  · exact tclear_fwf _ _ _ x

theorem ramPut_kept {r₀ s : State} (a : Nat) (l : List Byte) (h : Keeps r₀ s) : Keeps r₀ (ramPut s a l) :=
  setRamBad_kept _ _ _ (h.trans ⟨rfl, fun x => tput_fwf _ _ _ _ x, id, id, id, id, .refl _⟩)

theorem ramClear_kept {r₀ s : State} (a n : Nat) (h : Keeps r₀ s) : Keeps r₀ (ramClear s a n) :=
  setRamBad_kept _ _ _ (h.trans ⟨rfl, fun x => by simp only [Memory.wf]; exact tclear_fwf _ _ _ x, id, id, id, id, .refl _⟩)

/-- Security state replaced by one whose fuses only burn forward. -/
theorem setSec_kept {r₀ s : State} {v : SecSt} (hv : FusesForward s.sec v) (h : Keeps r₀ s) : Keeps r₀ (setSec s v) :=
  h.mk_sec hv

/-- What a step with a status keeps: the state it answers. -/
def KeepsP {α : Type} (r : State) (p : α × State) : Prop := Keeps r p.2

theorem KeepsP.mk {α : Type} {r₀ s : State} (a : α) (h : Keeps r₀ s) : KeepsP r₀ (a, s) := h

theorem regsClear_kept {r₀ s : State} (p : Nat → Bool) (h : Keeps r₀ s) : Keeps r₀ (regsClear p s) :=
  h.trans ⟨rfl, id, id, fun x => by simp only [Registers.wf, regsClear]; exact tclear_fwf _ _ _ x, id, id, .refl _⟩

theorem regsOn_fwf (l : Tbl W64) : ∀ t : Tbl W64, fwf regDefault t = true →
    fwf regDefault (l.foldl (fun t e => fset regDefault t e.1 e.2) t) = true := by
  induction l with
  | nil => intro t h; exact h
  | cons e r ih => intro t h; exact ih _ (fset_fwf _ _ _ _ h)

end Sys2Proof.Machine
end

