-- ==== Sys2Proof/Laws/KeptOps.lean ====
section
/-! SUPPORT. What the operations of Machine/Ops.lean keep: the queue, canonical forms, burnt fuses. -/
namespace Sys2Proof.Machine

theorem wakeIsland_kept {r₀ : State} (u : Nat) {s : State} (h_s : Keeps r₀ s) : Keeps r₀ (wakeIsland u s) := by
  unfold wakeIsland
  repeat' first | (with_reducible assumption) | split | (with_reducible refine Keeps.mk_upd ?_; with_reducible assumption)

theorem crossParity_kept {r₀ : State} (u : Nat) (bad : Bool) {s : State} (h_s : Keeps r₀ s) : Keeps r₀ (crossParity u bad s) := by
  unfold crossParity
  repeat' first | (with_reducible assumption) | split | (with_reducible refine Keeps.mk_upd ?_; with_reducible assumption)

theorem wr_kept {r₀ : State} {s : State} (unit : Nat) (f : Fld) (v : Nat) (e : Nat) (h_s : Keeps r₀ s) : Keeps r₀ (wr s unit f v e) := by
  unfold wr
  repeat' with_reducible first | assumption | apply setRegWord_kept

theorem bump_kept {r₀ : State} (unit block word : Nat) {s : State} (entry : Nat) (h_s : Keeps r₀ s) : Keeps r₀ (bump unit block word s entry) := by
  unfold bump
  repeat' with_reducible first | assumption | apply bumpN_kept

theorem ramPutNat_kept {r₀ : State} {s : State} (a n v : Nat) (h_s : Keeps r₀ s) : Keeps r₀ (ramPutNat s a n v) := by
  unfold ramPutNat
  repeat' with_reducible first | assumption | apply ramPut_kept

theorem setUnit_kept {r₀ : State} {s : State} (u : Nat) (r : UnitRec) (h_s : Keeps r₀ s) : Keeps r₀ (setUnit s u r) := by
  unfold setUnit
  repeat' first | (with_reducible assumption) | split | (with_reducible refine Keeps.mk_upd ?_; with_reducible assumption)

theorem setJob_kept {r₀ : State} {s : State} (j : Nat) (r : Job) (h_s : Keeps r₀ s) : Keeps r₀ (setJob s j r) := by
  unfold setJob
  repeat' first | (with_reducible assumption) | split | (with_reducible refine Keeps.mk_upd ?_; with_reducible assumption)

theorem setReady_kept {r₀ : State} (i : Nat) (v : Bool) {s : State} (h_s : Keeps r₀ s) : Keeps r₀ (setReady i v s) := by
  unfold setReady
  repeat' first | (with_reducible assumption) | split | (with_reducible refine Keeps.mk_upd ?_; with_reducible assumption)

theorem drawFree_kept {r₀ : State} (w : Nat) {s : State} (h_s : Keeps r₀ s) : Keeps r₀ (drawFree w s).2 := by
  unfold drawFree
  repeat' first | (with_reducible assumption) | split | (with_reducible refine Keeps.mk_upd ?_; with_reducible assumption)

end Sys2Proof.Machine
end

