-- ==== Sys2Proof/Laws/KeptNotices.lean ====
section
/-! SUPPORT. What the operations of Machine/Notices.lean keep: the queue, canonical forms, burnt fuses. -/
namespace Sys2Proof.Machine

theorem setEth_kept {r₀ : State} {s : State} (p : Nat) (e : EthPort) (h_s : Keeps r₀ s) : Keeps r₀ (setEth s p e) := by
  unfold setEth
  repeat' first | (with_reducible assumption) | split | (with_reducible refine Keeps.mk_upd ?_; with_reducible assumption)

theorem enqueue_kept {r₀ : State} (p q : Nat) (m : TxMsg) {s : State} (h_s : Keeps r₀ s) : Keeps r₀ (enqueue p q m s) := by
  unfold enqueue
  repeat' with_reducible first | assumption | apply setEth_kept

theorem sendMgmt_kept {r₀ : State} (dst : Nat) (bytes : List Byte) {s : State} (h_s : Keeps r₀ s) : Keeps r₀ (sendMgmt dst bytes s) := by
  unfold sendMgmt
  repeat' first | (with_reducible first | assumption | apply bump_kept) | split | (with_reducible refine Keeps.mk_upd ?_; with_reducible first | assumption | apply bump_kept)

theorem sendTo_kept {r₀ : State} (l : Link) (kind : TxKind) (dst dstPort : Nat) (h : TowHdr) (payload : List Byte) {s : State} (h_s : Keeps r₀ s) : Keeps r₀ (sendTo l kind dst dstPort h payload s) := by
  unfold sendTo
  repeat' first
    | (with_reducible first | assumption | apply enqueue_kept | apply sendMgmt_kept)
    | split
    | (with_reducible refine Keeps.mk_upd ?_; with_reducible first | assumption | apply enqueue_kept | apply sendMgmt_kept)

theorem noticeOnPort_kept {r₀ : State} (code : Nat) (body : List Byte) (p : Nat) {s : State} (h_s : Keeps r₀ s) : Keeps r₀ (noticeOnPort code body p s) := by
  unfold noticeOnPort
  repeat' with_reducible first | assumption | apply setEth_kept | apply sendTo_kept

theorem noticeOnRelay_kept {r₀ : State} (code : Nat) (body : List Byte) (p : Nat) {s : State} (h_s : Keeps r₀ s) : Keeps r₀ (noticeOnRelay code body p s) := by
  unfold noticeOnRelay
  repeat' first | (with_reducible first | assumption | apply sendTo_kept) | split | (with_reducible refine Keeps.mk_upd ?_; with_reducible first | assumption | apply sendTo_kept)

theorem logNotice_kept {r₀ : State} (code ports status unit : Nat) (detail : List Byte) {s : State} (h_s : Keeps r₀ s) : Keeps r₀ (logNotice code ports status unit detail s) := by
  unfold logNotice
  repeat' first | (with_reducible assumption) | split | (with_reducible refine Keeps.mk_upd ?_; with_reducible assumption)

theorem notice_kept {r₀ : State} (code status unit : Nat) (detail : List Byte) {s : State} (h_s : Keeps r₀ s) : Keeps r₀ (notice code status unit detail s) := by
  unfold notice
  repeat' first
    | (with_reducible first | assumption | apply logNotice_kept | apply noticeOnPort_kept | apply noticeOnRelay_kept)
    | (with_reducible refine Keeps.of_snd ‹_› ?_)
    | (with_reducible refine Keeps.of_fst ‹_› ?_)
    | (with_reducible refine Keeps.foldl _ _ ?_ ?_)
    | (with_reducible refine Keeps.foldl_fst _ _ ?_ ?_)
    | (with_reducible refine Keeps.foldl_snd _ _ ?_ ?_)
    | (with_reducible refine Keeps.elim _ ?_ ?_)
    | intro _
    | split
    | (with_reducible refine Keeps.mk_upd ?_; first | (with_reducible first | assumption | apply logNotice_kept | apply noticeOnPort_kept | apply noticeOnRelay_kept) | split)

theorem noticeToHolder_kept {r₀ : State} (code unit : Nat) (detail : List Byte) {s : State} (h_s : Keeps r₀ s) : Keeps r₀ (noticeToHolder code unit detail s) := by
  unfold noticeToHolder
  repeat' first
    | (with_reducible first | assumption | apply logNotice_kept | apply noticeOnPort_kept | apply noticeOnRelay_kept)
    | (with_reducible refine Keeps.of_snd ‹_› ?_)
    | (with_reducible refine Keeps.of_fst ‹_› ?_)
    | (with_reducible refine Keeps.foldl _ _ ?_ ?_)
    | (with_reducible refine Keeps.foldl_fst _ _ ?_ ?_)
    | (with_reducible refine Keeps.foldl_snd _ _ ?_ ?_)
    | (with_reducible refine Keeps.elim _ ?_ ?_)
    | intro _
    | split
    | (with_reducible refine Keeps.mk_upd ?_; first | (with_reducible first | assumption | apply logNotice_kept | apply noticeOnPort_kept | apply noticeOnRelay_kept) | split)

theorem setState_kept {r₀ : State} (d : DevState) {s : State} (h_s : Keeps r₀ s) : Keeps r₀ (setState d s) := by
  unfold setState
  repeat' first | (with_reducible first | assumption | apply notice_kept) | split | (with_reducible refine Keeps.mk_upd ?_; with_reducible first | assumption | apply notice_kept)

theorem settleState_kept {r₀ : State} {s : State} (h_s : Keeps r₀ s) : Keeps r₀ (settleState s) := by
  unfold settleState
  repeat' first | (with_reducible first | assumption | apply setState_kept) | split | (with_reducible refine Keeps.mk_upd ?_; with_reducible first | assumption | apply setState_kept)

theorem unitNotice_kept {r₀ : State} (kind status u cause other : Nat) {s : State} (h_s : Keeps r₀ s) : Keeps r₀ (unitNotice kind status u cause other s) := by
  unfold unitNotice
  repeat' with_reducible first | assumption | apply notice_kept

theorem linkNotice_kept {r₀ : State} (kind index event lanes peer flags status : Nat) {s : State} (h_s : Keeps r₀ s) : Keeps r₀ (linkNotice kind index event lanes peer flags status s) := by
  unfold linkNotice
  repeat' with_reducible first | assumption | apply notice_kept

end Sys2Proof.Machine
end

