-- ==== Sys2Proof/Laws/KeptBarge.lean ====
section
/-! SUPPORT. What the operations of Machine/Barge.lean keep: the queue, canonical forms, burnt fuses. -/
namespace Sys2Proof.Machine

theorem brgBump_kept {r₀ : State} (q w : Nat) {s : State} (h_s : Keeps r₀ s) : Keeps r₀ (brgBump q w s) := by
  unfold brgBump
  repeat' with_reducible first | assumption | apply bump_kept

theorem setQueue_kept {r₀ : State} {s : State} (q : Nat) (v : Queue) (h_s : Keeps r₀ s) : Keeps r₀ (setQueue s q v) := by
  unfold setQueue
  repeat' first | (with_reducible assumption) | split | (with_reducible refine Keeps.mk_upd ?_; with_reducible assumption)

theorem moveLine_kept {r₀ : State} (q : Nat) {s : State} (h_s : Keeps r₀ s) : Keeps r₀ (moveLine q s) := by
  unfold moveLine
  repeat' first
    | (with_reducible first | assumption | apply ramPut_kept | apply brgBump_kept | apply setQueue_kept)
    | split
    | (with_reducible refine Keeps.mk_upd ?_; with_reducible first | assumption | apply ramPut_kept | apply brgBump_kept | apply setQueue_kept)

theorem rewind_kept {r₀ : State} (q cause : Nat) {s : State} (h_s : Keeps r₀ s) : Keeps r₀ (rewind q cause s) := by
  unfold rewind
  repeat' with_reducible first | assumption | apply brgBump_kept | apply setQueue_kept

theorem raiseMsi_kept {r₀ : State} (job hart ident : Nat) {s : State} (h_s : Keeps r₀ s) : Keeps r₀ (raiseMsi job hart ident s) := by
  unfold raiseMsi
  repeat' first | (with_reducible assumption) | split | (with_reducible refine Keeps.mk_upd ?_; with_reducible assumption)

theorem queueNotice_kept {r₀ : State} (q : Nat) {s : State} (h_s : Keeps r₀ s) : Keeps r₀ (queueNotice q s) := by
  unfold queueNotice
  repeat' first
    | (with_reducible first | assumption | apply brgBump_kept | apply raiseMsi_kept)
    | (with_reducible refine Keeps.of_snd ‹_› ?_)
    | (with_reducible refine Keeps.of_fst ‹_› ?_)
    | (with_reducible refine Keeps.foldl _ _ ?_ ?_)
    | (with_reducible refine Keeps.foldl_fst _ _ ?_ ?_)
    | (with_reducible refine Keeps.foldl_snd _ _ ?_ ?_)
    | (with_reducible refine Keeps.elim _ ?_ ?_)
    | intro _
    | split
    | (with_reducible refine Keeps.mk_upd ?_; first | (with_reducible first | assumption | apply brgBump_kept | apply raiseMsi_kept) | split)

theorem commitQ_kept {r₀ : State} (q : Nat) {s : State} (h_s : Keeps r₀ s) : Keeps r₀ (commitQ q s) := by
  unfold commitQ
  repeat' first
    | (with_reducible first | assumption | apply setQueue_kept | apply queueNotice_kept | apply bumpN_kept | apply brgBump_kept)
    | (with_reducible refine Keeps.of_snd ‹_› ?_)
    | (with_reducible refine Keeps.of_fst ‹_› ?_)
    | (with_reducible refine Keeps.foldl _ _ ?_ ?_)
    | (with_reducible refine Keeps.foldl_fst _ _ ?_ ?_)
    | (with_reducible refine Keeps.foldl_snd _ _ ?_ ?_)
    | (with_reducible refine Keeps.elim _ ?_ ?_)
    | intro _
    | split
    | (with_reducible refine Keeps.mk_upd ?_; first | (with_reducible first | assumption | apply setQueue_kept | apply queueNotice_kept | apply bumpN_kept | apply brgBump_kept) | split)

theorem appendQ_kept {r₀ : State} (q : Nat) (w : QWord) {s : State} (h_s : Keeps r₀ s) : Keeps r₀ (appendQ q w s) := by
  unfold appendQ
  repeat' first
    | (with_reducible first | assumption | apply setQueue_kept | apply moveLine_kept)
    | (with_reducible refine Keeps.of_snd ‹_› ?_)
    | (with_reducible refine Keeps.of_fst ‹_› ?_)
    | (with_reducible refine Keeps.foldl _ _ ?_ ?_)
    | (with_reducible refine Keeps.foldl_fst _ _ ?_ ?_)
    | (with_reducible refine Keeps.foldl_snd _ _ ?_ ?_)
    | (with_reducible refine Keeps.elim _ ?_ ?_)
    | intro _
    | split
    | (with_reducible refine Keeps.mk_upd ?_; first | (with_reducible first | assumption | apply setQueue_kept | apply moveLine_kept) | split)

theorem spoil_kept {r₀ : State} (q cause : Nat) (more : Bool) (n : Nat) {s : State} (h_s : Keeps r₀ s) : Keeps r₀ (spoil q cause more n s) := by
  unfold spoil
  repeat' with_reducible first | assumption | apply rewind_kept | apply setQueue_kept

theorem writeQ_kept {r₀ : State} (q : Nat) (w : QWord) (last : Bool) {s : State} (h_s : Keeps r₀ s) : Keeps r₀ (writeQ q w last s) := by
  unfold writeQ
  repeat' first
    | (with_reducible first | assumption | apply setQueue_kept | apply spoil_kept | apply brgBump_kept | apply appendQ_kept | apply commitQ_kept)
    | (with_reducible refine Keeps.of_snd ‹_› ?_)
    | (with_reducible refine Keeps.of_fst ‹_› ?_)
    | (with_reducible refine Keeps.foldl _ _ ?_ ?_)
    | (with_reducible refine Keeps.foldl_fst _ _ ?_ ?_)
    | (with_reducible refine Keeps.foldl_snd _ _ ?_ ?_)
    | (with_reducible refine Keeps.elim _ ?_ ?_)
    | intro _
    | split
    | (with_reducible refine Keeps.mk_upd ?_; first | (with_reducible first | assumption | apply setQueue_kept | apply spoil_kept | apply brgBump_kept | apply appendQ_kept | apply commitQ_kept) | split)

theorem markBad_kept {r₀ : State} (q cause : Nat) (more : Bool) {s : State} (h_s : Keeps r₀ s) : Keeps r₀ (markBad q cause more s) := by
  unfold markBad
  repeat' first
    | (with_reducible first | assumption | apply spoil_kept)
    | (with_reducible refine Keeps.of_snd ‹_› ?_)
    | (with_reducible refine Keeps.of_fst ‹_› ?_)
    | (with_reducible refine Keeps.foldl _ _ ?_ ?_)
    | (with_reducible refine Keeps.foldl_fst _ _ ?_ ?_)
    | (with_reducible refine Keeps.foldl_snd _ _ ?_ ?_)
    | (with_reducible refine Keeps.elim _ ?_ ?_)
    | intro _
    | split
    | (with_reducible refine Keeps.mk_upd ?_; first | (with_reducible first | assumption | apply spoil_kept) | split)

theorem reportResidue_kept {r₀ : State} (u j : Nat) {s : State} (h_s : Keeps r₀ s) : Keeps r₀ (reportResidue u j s) := by
  unfold reportResidue
  repeat' first | (with_reducible assumption) | split | (with_reducible refine Keeps.mk_upd ?_; with_reducible assumption)

theorem freeRetained_kept {r₀ : State} (q : Nat) (p : Nat → Bool) {s : State} (h_s : Keeps r₀ s) : Keeps r₀ (freeRetained q p s) := by
  unfold freeRetained
  repeat' with_reducible first | assumption | apply bumpN_kept | apply setQueue_kept

theorem popQ_kept {r₀ : State} (q : Nat) (parBad : Bool) {s : State} (h_s : Keeps r₀ s) : Keeps r₀ (popQ q parBad s).2 := by
  unfold popQ
  dsimp only
  repeat' first
    | (with_reducible first | assumption | apply setQueue_kept | apply brgBump_kept)
    | (with_reducible refine Keeps.of_snd ‹_› ?_)
    | (with_reducible refine Keeps.of_fst ‹_› ?_)
    | (with_reducible refine Keeps.foldl _ _ ?_ ?_)
    | (with_reducible refine Keeps.foldl_fst _ _ ?_ ?_)
    | (with_reducible refine Keeps.foldl_snd _ _ ?_ ?_)
    | (with_reducible refine Keeps.elim _ ?_ ?_)
    | intro _
    | split
    | (with_reducible refine Keeps.mk_upd ?_; first | (with_reducible first | assumption | apply setQueue_kept | apply brgBump_kept) | split)
    | (with_reducible refine Keeps.mk_sec ?_ (.same rfl rfl rfl rfl rfl rfl rfl rfl rfl rfl rfl); first | (with_reducible first | assumption | apply setQueue_kept | apply brgBump_kept) | split)

theorem takeQ_kept {r₀ : State} (q : Nat) {s : State} (h_s : Keeps r₀ s) : Keeps r₀ (takeQ q s).2 := by
  unfold takeQ
  repeat' first
    | (with_reducible first | assumption | apply setQueue_kept | apply popQ_kept)
    | (lift_lets
       intro x
       first
         | (have hx : Keeps r₀ x := by
               repeat' first
                 | (with_reducible first | assumption | apply setQueue_kept | apply popQ_kept)
                 | (with_reducible refine Keeps.of_snd ‹_› ?_)
                 | (with_reducible refine Keeps.of_fst ‹_› ?_)
                 | (with_reducible refine Keeps.foldl _ _ ?_ ?_)
                 | (with_reducible refine Keeps.foldl_fst _ _ ?_ ?_)
                 | (with_reducible refine Keeps.foldl_snd _ _ ?_ ?_)
                 | (with_reducible refine Keeps.elim _ ?_ ?_)
                 | intro _
                 | split
                 | (with_reducible refine Keeps.mk_upd ?_; first | (with_reducible first | assumption | apply setQueue_kept | apply popQ_kept) | split)
            clear_value x)
         | skip)
    | (with_reducible refine Keeps.of_snd ‹_› ?_)
    | (with_reducible refine Keeps.of_fst ‹_› ?_)
    | (with_reducible refine Keeps.foldl _ _ ?_ ?_)
    | (with_reducible refine Keeps.foldl_fst _ _ ?_ ?_)
    | (with_reducible refine Keeps.foldl_snd _ _ ?_ ?_)
    | (with_reducible refine Keeps.elim _ ?_ ?_)
    | intro _
    | split
    | (with_reducible refine Keeps.mk_upd ?_; first | (with_reducible first | assumption | apply setQueue_kept | apply popQ_kept) | split)

theorem readLine_kept {r₀ : State} (q : Nat) (parBad : Bool) {s : State} (h_s : Keeps r₀ s) : Keeps r₀ (readLine q parBad s) := by
  unfold readLine
  repeat' first
    | (with_reducible first | assumption | apply setQueue_kept | apply bumpN_kept | apply markBad_kept)
    | (with_reducible refine Keeps.of_snd ‹_› ?_)
    | (with_reducible refine Keeps.of_fst ‹_› ?_)
    | (with_reducible refine Keeps.foldl _ _ ?_ ?_)
    | (with_reducible refine Keeps.foldl_fst _ _ ?_ ?_)
    | (with_reducible refine Keeps.foldl_snd _ _ ?_ ?_)
    | (with_reducible refine Keeps.elim _ ?_ ?_)
    | intro _
    | split
    | (with_reducible refine Keeps.mk_upd ?_; first | (with_reducible first | assumption | apply setQueue_kept | apply bumpN_kept | apply markBad_kept) | split)

theorem middleLineWrite_kept {r₀ : State} (q : Nat) (parBad : Bool) {s : State} (h_s : Keeps r₀ s) : Keeps r₀ (middleLineWrite q parBad s) := by
  unfold middleLineWrite
  repeat' first
    | (with_reducible first | assumption | apply markBad_kept | apply moveLine_kept)
    | (with_reducible refine Keeps.of_snd ‹_› ?_)
    | (with_reducible refine Keeps.of_fst ‹_› ?_)
    | (with_reducible refine Keeps.foldl _ _ ?_ ?_)
    | (with_reducible refine Keeps.foldl_fst _ _ ?_ ?_)
    | (with_reducible refine Keeps.foldl_snd _ _ ?_ ?_)
    | (with_reducible refine Keeps.elim _ ?_ ?_)
    | intro _
    | split
    | (with_reducible refine Keeps.mk_upd ?_; first | (with_reducible first | assumption | apply markBad_kept | apply moveLine_kept) | split)

theorem middleLineRead_kept {r₀ : State} (q : Nat) (parBad : Bool) {s : State} (h_s : Keeps r₀ s) : Keeps r₀ (middleLineRead q parBad s) := by
  unfold middleLineRead
  repeat' with_reducible first | assumption | apply readLine_kept

theorem canalClose_kept {r₀ : State} (q : Nat) {s : State} (h_s : Keeps r₀ s) : Keeps r₀ (canalClose q s) := by
  unfold canalClose
  repeat' first
    | (with_reducible first | assumption | apply commitQ_kept)
    | (with_reducible refine Keeps.of_snd ‹_› ?_)
    | (with_reducible refine Keeps.of_fst ‹_› ?_)
    | (with_reducible refine Keeps.foldl _ _ ?_ ?_)
    | (with_reducible refine Keeps.foldl_fst _ _ ?_ ?_)
    | (with_reducible refine Keeps.foldl_snd _ _ ?_ ?_)
    | (with_reducible refine Keeps.elim _ ?_ ?_)
    | intro _
    | split
    | (with_reducible refine Keeps.mk_upd ?_; first | (with_reducible first | assumption | apply commitQ_kept) | split)

theorem closeFull_kept {r₀ : State} (q : Nat) {s : State} (h_s : Keeps r₀ s) : Keeps r₀ (closeFull q s) := by
  unfold closeFull
  repeat' first | (with_reducible first | assumption | apply commitQ_kept) | split | (with_reducible refine Keeps.mk_upd ?_; with_reducible first | assumption | apply commitQ_kept)

theorem canalToQueue_kept {r₀ : State} (q : Nat) (key payload : Nat) (poison : Bool) {s : State} (h_s : Keeps r₀ s) : Keeps r₀ (canalToQueue q key payload poison s).2 := by
  unfold canalToQueue
  repeat' first
    | (with_reducible first | assumption | apply closeFull_kept | apply setQueue_kept | apply appendQ_kept)
    | (lift_lets
       intro x
       first
         | (have hx : Keeps r₀ x := by
               repeat' first
                 | (with_reducible first | assumption | apply closeFull_kept | apply setQueue_kept | apply appendQ_kept)
                 | (with_reducible refine Keeps.of_snd ‹_› ?_)
                 | (with_reducible refine Keeps.of_fst ‹_› ?_)
                 | (with_reducible refine Keeps.foldl _ _ ?_ ?_)
                 | (with_reducible refine Keeps.foldl_fst _ _ ?_ ?_)
                 | (with_reducible refine Keeps.foldl_snd _ _ ?_ ?_)
                 | (with_reducible refine Keeps.elim _ ?_ ?_)
                 | intro _
                 | split
                 | (with_reducible refine Keeps.mk_upd ?_; first | (with_reducible first | assumption | apply closeFull_kept | apply setQueue_kept | apply appendQ_kept) | split)
            clear_value x)
         | skip)
    | (with_reducible refine Keeps.of_snd ‹_› ?_)
    | (with_reducible refine Keeps.of_fst ‹_› ?_)
    | (with_reducible refine Keeps.foldl _ _ ?_ ?_)
    | (with_reducible refine Keeps.foldl_fst _ _ ?_ ?_)
    | (with_reducible refine Keeps.foldl_snd _ _ ?_ ?_)
    | (with_reducible refine Keeps.elim _ ?_ ?_)
    | intro _
    | split
    | (with_reducible refine Keeps.mk_upd ?_; first | (with_reducible first | assumption | apply closeFull_kept | apply setQueue_kept | apply appendQ_kept) | split)

theorem queueDisable_kept {r₀ : State} (q : Nat) {s : State} (h_s : Keeps r₀ s) : Keeps r₀ (queueDisable q s) := by
  unfold queueDisable
  repeat' with_reducible first | assumption | apply markBad_kept

theorem portalWords_kept {r₀ : State} (q : Nat) (fin : Bool) (l : List Nat) : ∀ {s : State}, Keeps r₀ s → Keeps r₀ (portalWords q fin l s) := by
  induction l with
  | nil => intro s h; exact h
  | cons w r ih =>
    intro s h
    cases r with
    | nil => exact writeQ_kept _ _ _ h
    | cons w2 r => exact ih (writeQ_kept _ _ _ h)

theorem guestFault_kept {r₀ : State} {s : State} (h_s : Keeps r₀ s) : Keeps r₀ (guestFault s) := by
  unfold guestFault
  repeat' with_reducible first | assumption | apply bump_kept

theorem portalPush_kept {r₀ : State} (q job : Nat) (words : List Nat) (fin parBad : Bool) {s : State} (h_s : Keeps r₀ s) : Keeps r₀ (portalPush q job words fin parBad s) := by
  unfold portalPush
  repeat' first
    | (with_reducible first | assumption | apply wakeIsland_kept | apply guestFault_kept | apply brgBump_kept | apply markBad_kept | apply portalWords_kept)
    | (with_reducible refine Keeps.of_snd ‹_› ?_)
    | (with_reducible refine Keeps.of_fst ‹_› ?_)
    | (with_reducible refine Keeps.foldl _ _ ?_ ?_)
    | (with_reducible refine Keeps.foldl_fst _ _ ?_ ?_)
    | (with_reducible refine Keeps.foldl_snd _ _ ?_ ?_)
    | (with_reducible refine Keeps.elim _ ?_ ?_)
    | intro _
    | split
    | (with_reducible refine Keeps.mk_upd ?_; first | (with_reducible first | assumption | apply wakeIsland_kept | apply guestFault_kept | apply brgBump_kept | apply markBad_kept | apply portalWords_kept) | split)

theorem portalAbort_kept {r₀ : State} (q job : Nat) {s : State} (h_s : Keeps r₀ s) : Keeps r₀ (portalAbort q job s) := by
  unfold portalAbort
  repeat' first
    | (with_reducible first | assumption | apply guestFault_kept | apply brgBump_kept | apply markBad_kept)
    | split
    | (with_reducible refine Keeps.mk_upd ?_; with_reducible first | assumption | apply guestFault_kept | apply brgBump_kept | apply markBad_kept)

theorem portalPop_kept {r₀ : State} (q job : Nat) (parBad : Bool) {s : State} (h_s : Keeps r₀ s) : Keeps r₀ (portalPop q job parBad s) := by
  unfold portalPop
  repeat' first
    | (with_reducible first | assumption | apply guestFault_kept | apply brgBump_kept | apply popQ_kept | apply setQueue_kept)
    | (with_reducible refine Keeps.of_snd ‹_› ?_)
    | (with_reducible refine Keeps.of_fst ‹_› ?_)
    | (with_reducible refine Keeps.foldl _ _ ?_ ?_)
    | (with_reducible refine Keeps.foldl_fst _ _ ?_ ?_)
    | (with_reducible refine Keeps.foldl_snd _ _ ?_ ?_)
    | (with_reducible refine Keeps.elim _ ?_ ?_)
    | intro _
    | split
    | (with_reducible refine Keeps.mk_upd ?_; first | (with_reducible first | assumption | apply guestFault_kept | apply brgBump_kept | apply popQ_kept | apply setQueue_kept) | split)

theorem writeQstat_kept {r₀ : State} (q v : Nat) {s : State} (h_s : Keeps r₀ s) : Keeps r₀ (writeQstat q v s) := by
  unfold writeQstat
  repeat' with_reducible first | assumption | apply setQueue_kept

end Sys2Proof.Machine
end

