-- ==== Sys2Proof/Laws/KeptTowline.lean ====
section
/-! SUPPORT. What the operations of Machine/Towline.lean keep: the queue, canonical forms, burnt fuses. -/
namespace Sys2Proof.Machine

theorem towBump_kept {r₀ : State} (p w : Nat) {s : State} (h_s : Keeps r₀ s) : Keeps r₀ (towBump p w s) := by
  unfold towBump
  repeat' with_reducible first | assumption | apply bump_kept

theorem linkBump_kept {r₀ : State} (l : Link) (w : Nat) {s : State} (h_s : Keeps r₀ s) : Keeps r₀ (linkBump l w s) := by
  unfold linkBump
  repeat' first | (with_reducible first | assumption | apply towBump_kept) | split | (with_reducible refine Keeps.mk_upd ?_; with_reducible first | assumption | apply towBump_kept)

theorem setBerth_kept {r₀ : State} {s : State} (b : Nat) (v : Berth) (h_s : Keeps r₀ s) : Keeps r₀ (setBerth s b v) := by
  unfold setBerth
  repeat' first | (with_reducible assumption) | split | (with_reducible refine Keeps.mk_upd ?_; with_reducible assumption)

theorem setBport_kept {r₀ : State} {s : State} (b : Nat) (v : BPort) (h_s : Keeps r₀ s) : Keeps r₀ (setBport s b v) := by
  unfold setBport
  repeat' first | (with_reducible assumption) | split | (with_reducible refine Keeps.mk_upd ?_; with_reducible assumption)

theorem portalReply_kept {r₀ : State} (j b : Nat) (reply : List Byte) {s : State} (h_s : Keeps r₀ s) : Keeps r₀ (portalReply j b reply s) := by
  unfold portalReply
  repeat' first
    | (with_reducible first | assumption | apply setBport_kept | apply raiseMsi_kept)
    | (with_reducible refine Keeps.of_snd ‹_› ?_)
    | (with_reducible refine Keeps.of_fst ‹_› ?_)
    | (with_reducible refine Keeps.foldl _ _ ?_ ?_)
    | (with_reducible refine Keeps.foldl_fst _ _ ?_ ?_)
    | (with_reducible refine Keeps.foldl_snd _ _ ?_ ?_)
    | (with_reducible refine Keeps.elim _ ?_ ?_)
    | intro _
    | split
    | (with_reducible refine Keeps.mk_upd ?_; first | (with_reducible first | assumption | apply setBport_kept | apply raiseMsi_kept) | split)

theorem deliverReply_kept {r₀ : State} (q : Req) (src srcPort code st : Nat) (payload : List Byte) {s : State} (h_s : Keeps r₀ s) : Keeps r₀ (deliverReply q src srcPort code st payload s).2 := by
  unfold deliverReply
  repeat' first
    | (with_reducible first | assumption | apply portalReply_kept | apply sendTo_kept)
    | (with_reducible refine Keeps.of_snd ‹_› ?_)
    | (with_reducible refine Keeps.of_fst ‹_› ?_)
    | (with_reducible refine Keeps.foldl _ _ ?_ ?_)
    | (with_reducible refine Keeps.foldl_fst _ _ ?_ ?_)
    | (with_reducible refine Keeps.foldl_snd _ _ ?_ ?_)
    | (with_reducible refine Keeps.elim _ ?_ ?_)
    | intro _
    | split
    | (with_reducible refine Keeps.mk_upd ?_; first | (with_reducible first | assumption | apply portalReply_kept | apply sendTo_kept) | split)

theorem rejectReq_kept {r₀ : State} (q : Req) (src srcPort code st : Nat) {s : State} (h_s : Keeps r₀ s) : Keeps r₀ (rejectReq q src srcPort code st s) := by
  unfold rejectReq
  repeat' first
    | (with_reducible first | assumption | apply linkBump_kept | apply deliverReply_kept)
    | split
    | (with_reducible refine Keeps.mk_upd ?_; with_reducible first | assumption | apply linkBump_kept | apply deliverReply_kept)

theorem complete_kept {r₀ : State} (q : Req) (code st : Nat) (payload : List Byte) {s : State} (h_s : Keeps r₀ s) : Keeps r₀ (complete q code st payload s) := by
  unfold complete
  repeat' first
    | (with_reducible first | assumption | apply linkBump_kept | apply deliverReply_kept | apply setBerth_kept)
    | split
    | (with_reducible refine Keeps.mk_upd ?_; with_reducible first | assumption | apply linkBump_kept | apply deliverReply_kept | apply setBerth_kept)

/-- The state in an answer of the request checks keeps what `Keeps` names. -/
def Admit.Kept (r₀ : State) : Admit → Prop
  | .absorbed s => Keeps r₀ s
  | .rejected _ s => Keeps r₀ s
  | .accepted s => Keeps r₀ s

theorem checkBerth_kept {r₀ : State} (q : Req) (src srcPort : Nat) {s : State} (h_s : Keeps r₀ s) : (checkBerth q src srcPort s).Kept r₀ := by
  unfold checkBerth
  dsimp only
  repeat' first
    | with_reducible first | assumption | apply linkBump_kept | apply enqueue_kept | apply sendMgmt_kept | apply portalReply_kept
    | split
    | (simp only [Admit.Kept]; with_reducible first | assumption | apply linkBump_kept | apply portalReply_kept)

theorem checkRights_kept {r₀ : State} (q : Req) (i : Instr) (r : CmdRow) {s : State} (h_s : Keeps r₀ s) : (checkRights q i r s).Kept r₀ := by
  unfold checkRights
  dsimp only
  repeat' first
    | with_reducible first | assumption | apply bump_kept
    | split
    | (simp only [Admit.Kept]; with_reducible first | assumption | apply bump_kept)

theorem noteRequest_kept {r₀ : State} (l : Link) {s : State} (h_s : Keeps r₀ s) : Keeps r₀ (noteRequest l s) := by
  unfold noteRequest
  repeat' first | (with_reducible first | assumption | apply linkBump_kept) | split | (with_reducible refine Keeps.mk_upd ?_; with_reducible first | assumption | apply linkBump_kept)

theorem admitReq_kept {r₀ : State} (q : Req) (i : Instr) (code src srcPort : Nat) {s : State} (h_s : Keeps r₀ s) : (admitReq q i code src srcPort s).Kept r₀ := by
  have hb := checkBerth_kept q src srcPort h_s
  unfold admitReq
  generalize checkBerth q src srcPort s = a at hb
  cases a with
  | absorbed t => exact hb
  | rejected st t => exact hb
  | accepted t =>
    dsimp only
    repeat' first
      | exact hb
      | exact checkRights_kept _ _ _ hb
      | split

theorem occupy_kept {r₀ : State} (q : Req) (i : Instr) (code src srcPort : Nat) {s : State} (h_s : Keeps r₀ s) : Keeps r₀ (occupy q i code src srcPort s) := by
  unfold occupy
  repeat' with_reducible first | assumption | apply setBerth_kept

theorem ans_kept {r₀ : State} (st : Nat) (payload : List Byte) {s : State} (h_s : Keeps r₀ s) : Keeps r₀ (ans st payload s).st := by
  unfold ans
  repeat' with_reducible assumption

theorem waits_kept {r₀ : State} {s : State} (h_s : Keeps r₀ s) : Keeps r₀ (waits s).st := by
  unfold waits
  repeat' with_reducible assumption

theorem ansKeep_kept {r₀ : State} (st : Nat) (payload : List Byte) {s : State} (h_s : Keeps r₀ s) : Keeps r₀ (ansKeep st payload s).st := by
  unfold ansKeep
  repeat' with_reducible assumption

theorem servedBerth_kept {r₀ : State} (q : Req) {s : State} (h_s : Keeps r₀ s) : Keeps r₀ (servedBerth q s) := by
  unfold servedBerth
  repeat' first | (with_reducible assumption) | split | (with_reducible refine Keeps.mk_upd ?_; with_reducible assumption)

theorem runHeld_kept {r₀ : State} (q : Req) (i : Instr) (code : Nat) (eff : State → CmdRes) {s : State} (h_eff : ∀ x, Keeps r₀ x → Keeps r₀ (eff x).st) (h_s : Keeps r₀ s) : Keeps r₀ (runHeld q i code eff s) := by
  unfold runHeld
  repeat' first
    | (with_reducible first | assumption | apply servedBerth_kept | apply setBerth_kept | apply complete_kept | apply h_eff)
    | (with_reducible refine Keeps.of_snd ‹_› ?_)
    | (with_reducible refine Keeps.of_fst ‹_› ?_)
    | (with_reducible refine Keeps.foldl _ _ ?_ ?_)
    | (with_reducible refine Keeps.foldl_fst _ _ ?_ ?_)
    | (with_reducible refine Keeps.foldl_snd _ _ ?_ ?_)
    | (with_reducible refine Keeps.elim _ ?_ ?_)
    | intro _
    | split
    | (with_reducible refine Keeps.mk_upd ?_; first | (with_reducible first | assumption | apply servedBerth_kept | apply setBerth_kept | apply complete_kept | apply h_eff) | split)

theorem takeReq_kept {r₀ : State} (w : WaitReq) {s : State} (h_s : Keeps r₀ s) : Keeps r₀ (takeReq w s) := by
  unfold takeReq
  split
  · have hb := checkBerth_kept w.req w.src w.srcPort (noteRequest_kept w.req.link h_s)
    generalize checkBerth w.req w.src w.srcPort (noteRequest w.req.link s) = a at hb
    cases a with
    | absorbed t => exact hb
    | rejected st t => exact rejectReq_kept _ _ _ _ _ hb
    | accepted t => exact rejectReq_kept _ _ _ _ _ hb
  · rename_i i _
    have hb := admitReq_kept w.req i w.code w.src w.srcPort (noteRequest_kept w.req.link h_s)
    generalize admitReq w.req i w.code w.src w.srcPort (noteRequest w.req.link s) = a at hb
    cases a with
    | absorbed t => exact hb
    | rejected st t => exact rejectReq_kept _ _ _ _ _ hb
    | accepted t => exact occupy_kept _ _ _ _ _ hb

theorem holdReq_kept {r₀ : State} (w : WaitReq) {s : State} (h_s : Keeps r₀ s) : Keeps r₀ (holdReq w s) := by
  unfold holdReq
  repeat' first | (with_reducible first | assumption | apply linkBump_kept) | split | (with_reducible refine Keeps.mk_upd ?_; with_reducible first | assumption | apply linkBump_kept)

theorem resumeService_kept {r₀ : State} {s : State} (h_s : Keeps r₀ s) : Keeps r₀ (resumeService s) := by
  unfold resumeService
  repeat' first
    | (with_reducible first | assumption | apply takeReq_kept)
    | (with_reducible refine Keeps.of_snd ‹_› ?_)
    | (with_reducible refine Keeps.of_fst ‹_› ?_)
    | (with_reducible refine Keeps.foldl _ _ ?_ ?_)
    | (with_reducible refine Keeps.foldl_fst _ _ ?_ ?_)
    | (with_reducible refine Keeps.foldl_snd _ _ ?_ ?_)
    | (with_reducible refine Keeps.elim _ ?_ ?_)
    | intro _
    | split
    | (with_reducible refine Keeps.mk_upd ?_; first | (with_reducible first | assumption | apply takeReq_kept) | split)

theorem runInTurn_kept {r₀ : State} (q : Req) (i : Instr) (code : Nat) (eff : State → CmdRes) {s : State} (h_eff : ∀ x, Keeps r₀ x → Keeps r₀ (eff x).st) (h_s : Keeps r₀ s) : Keeps r₀ (runInTurn q i code eff s) := by
  unfold runInTurn
  repeat' first
    | (with_reducible first | assumption | apply runHeld_kept | apply h_eff)
    | split
    | (with_reducible refine Keeps.mk_upd ?_; with_reducible first | assumption | apply runHeld_kept | apply h_eff)

theorem serve_kept {r₀ : State} (q : Req) (i : Instr) (code : Nat) (eff : State → CmdRes) {s : State}
    (h_eff : ∀ x, Keeps r₀ x → Keeps r₀ (eff x).st) (h_s : Keeps r₀ s) : Keeps r₀ (serve q i code eff s) := by
  have hb := admitReq_kept q i code 0 0 (noteRequest_kept q.link h_s)
  unfold serve
  generalize admitReq q i code 0 0 (noteRequest q.link s) = a at hb
  dsimp only
  split
  · split
    · exact h_s
    · exact holdReq_kept _ h_s
  · split
    · exact h_s
    · split
      · exact runInTurn_kept _ _ _ _ h_eff h_s
      · cases a with
        | absorbed t => exact hb
        | rejected st t => exact rejectReq_kept _ _ _ _ _ hb
        | accepted t => exact runInTurn_kept _ _ _ _ h_eff (occupy_kept _ _ _ _ _ hb)

theorem endAborts_kept {r₀ : State} (b : Nat) {s : State} (h_s : Keeps r₀ s) : Keeps r₀ (endAborts b s) := by
  unfold endAborts
  repeat' first
    | (with_reducible first | assumption | apply complete_kept)
    | (with_reducible refine Keeps.of_snd ‹_› ?_)
    | (with_reducible refine Keeps.of_fst ‹_› ?_)
    | (with_reducible refine Keeps.foldl _ _ ?_ ?_)
    | (with_reducible refine Keeps.foldl_fst _ _ ?_ ?_)
    | (with_reducible refine Keeps.foldl_snd _ _ ?_ ?_)
    | (with_reducible refine Keeps.elim _ ?_ ?_)
    | intro _
    | split
    | (with_reducible refine Keeps.mk_upd ?_; first | (with_reducible first | assumption | apply complete_kept) | split)

theorem finishBerth_kept {r₀ : State} (b st : Nat) (payload : List Byte) {s : State} (h_s : Keeps r₀ s) : Keeps r₀ (finishBerth b st payload s) := by
  unfold finishBerth
  repeat' first
    | (with_reducible first | assumption | apply endAborts_kept | apply complete_kept)
    | (with_reducible refine Keeps.of_snd ‹_› ?_)
    | (with_reducible refine Keeps.of_fst ‹_› ?_)
    | (with_reducible refine Keeps.foldl _ _ ?_ ?_)
    | (with_reducible refine Keeps.foldl_fst _ _ ?_ ?_)
    | (with_reducible refine Keeps.foldl_snd _ _ ?_ ?_)
    | (with_reducible refine Keeps.elim _ ?_ ?_)
    | intro _
    | split
    | (with_reducible refine Keeps.mk_upd ?_; first | (with_reducible first | assumption | apply endAborts_kept | apply complete_kept) | split)

theorem unaskStop_kept {r₀ : State} (b : Nat) {s : State} (j : Nat) (h_s : Keeps r₀ s) : Keeps r₀ (unaskStop b s j) := by
  unfold unaskStop
  repeat' first
    | (with_reducible first | assumption | apply setJob_kept)
    | (with_reducible refine Keeps.of_snd ‹_› ?_)
    | (with_reducible refine Keeps.of_fst ‹_› ?_)
    | (with_reducible refine Keeps.foldl _ _ ?_ ?_)
    | (with_reducible refine Keeps.foldl_fst _ _ ?_ ?_)
    | (with_reducible refine Keeps.foldl_snd _ _ ?_ ?_)
    | (with_reducible refine Keeps.elim _ ?_ ?_)
    | intro _
    | split
    | (with_reducible refine Keeps.mk_upd ?_; first | (with_reducible first | assumption | apply setJob_kept) | split)

theorem unaskCkpt_kept {r₀ : State} (b : Nat) {s : State} (j : Nat) (h_s : Keeps r₀ s) : Keeps r₀ (unaskCkpt b s j) := by
  unfold unaskCkpt
  repeat' first
    | (with_reducible first | assumption | apply setJob_kept)
    | (with_reducible refine Keeps.of_snd ‹_› ?_)
    | (with_reducible refine Keeps.of_fst ‹_› ?_)
    | (with_reducible refine Keeps.foldl _ _ ?_ ?_)
    | (with_reducible refine Keeps.foldl_fst _ _ ?_ ?_)
    | (with_reducible refine Keeps.foldl_snd _ _ ?_ ?_)
    | (with_reducible refine Keeps.elim _ ?_ ?_)
    | intro _
    | split
    | (with_reducible refine Keeps.mk_upd ?_; first | (with_reducible first | assumption | apply setJob_kept) | split)

theorem undoLong_kept {r₀ : State} (b : Nat) {s : State} (h_s : Keeps r₀ s) : Keeps r₀ (undoLong b s) := by
  unfold undoLong
  repeat' first
    | (with_reducible first | assumption | apply unaskStop_kept | apply unaskCkpt_kept)
    | (with_reducible refine Keeps.of_snd ‹_› ?_)
    | (with_reducible refine Keeps.of_fst ‹_› ?_)
    | (with_reducible refine Keeps.foldl _ _ ?_ ?_)
    | (with_reducible refine Keeps.foldl_fst _ _ ?_ ?_)
    | (with_reducible refine Keeps.foldl_snd _ _ ?_ ?_)
    | (with_reducible refine Keeps.elim _ ?_ ?_)
    | intro _
    | split
    | (with_reducible refine Keeps.mk_upd ?_; first | (with_reducible first | assumption | apply unaskStop_kept | apply unaskCkpt_kept) | split)

theorem abortBerth_kept {r₀ : State} (b : Nat) {s : State} (h_s : Keeps r₀ s) : Keeps r₀ (abortBerth b s) := by
  unfold abortBerth
  repeat' with_reducible first | assumption | apply finishBerth_kept | apply undoLong_kept

theorem abortLong_kept {r₀ : State} {s : State} (h_s : Keeps r₀ s) : Keeps r₀ (abortLong s) := by
  unfold abortLong
  repeat' first
    | (with_reducible first | assumption | apply abortBerth_kept)
    | (with_reducible refine Keeps.of_snd ‹_› ?_)
    | (with_reducible refine Keeps.of_fst ‹_› ?_)
    | (with_reducible refine Keeps.foldl _ _ ?_ ?_)
    | (with_reducible refine Keeps.foldl_fst _ _ ?_ ?_)
    | (with_reducible refine Keeps.foldl_snd _ _ ?_ ?_)
    | (with_reducible refine Keeps.elim _ ?_ ?_)
    | intro _
    | split
    | (with_reducible refine Keeps.mk_upd ?_; first | (with_reducible first | assumption | apply abortBerth_kept) | split)

theorem setHelm_kept {r₀ : State} (h cause : Nat) {s : State} (h_s : Keeps r₀ s) : Keeps r₀ (setHelm h cause s) := by
  unfold setHelm
  repeat' first
    | (with_reducible first | assumption | apply notice_kept)
    | (with_reducible refine Keeps.of_snd ‹_› ?_)
    | (with_reducible refine Keeps.of_fst ‹_› ?_)
    | (with_reducible refine Keeps.foldl _ _ ?_ ?_)
    | (with_reducible refine Keeps.foldl_fst _ _ ?_ ?_)
    | (with_reducible refine Keeps.foldl_snd _ _ ?_ ?_)
    | (with_reducible refine Keeps.elim _ ?_ ?_)
    | intro _
    | split
    | (with_reducible refine Keeps.mk_upd ?_; first | (with_reducible first | assumption | apply notice_kept) | split)

theorem helmClaim_kept {r₀ : State} (q : Req) (force : Bool) {s : State} (h_s : Keeps r₀ s) : Keeps r₀ (helmClaim q force s).st := by
  unfold helmClaim
  repeat' first
    | (with_reducible first | assumption | apply ans_kept | apply setHelm_kept | apply waits_kept | apply noticeToHolder_kept)
    | split
    | (with_reducible refine Keeps.mk_upd ?_; with_reducible first | assumption | apply ans_kept | apply setHelm_kept | apply waits_kept | apply noticeToHolder_kept)

theorem helmKeep_kept {r₀ : State} {s : State} (h_s : Keeps r₀ s) : Keeps r₀ (helmKeep s).st := by
  unfold helmKeep
  repeat' first
    | (with_reducible first | assumption | apply ans_kept | apply finishBerth_kept)
    | split
    | (with_reducible refine Keeps.mk_upd ?_; with_reducible first | assumption | apply ans_kept | apply finishBerth_kept)

theorem helmObjectExpiry_kept {r₀ : State} {s : State} (h_s : Keeps r₀ s) : Keeps r₀ (helmObjectExpiry s) := by
  unfold helmObjectExpiry
  repeat' first
    | (with_reducible first | assumption | apply finishBerth_kept | apply setHelm_kept)
    | split
    | (with_reducible refine Keeps.mk_upd ?_; with_reducible first | assumption | apply finishBerth_kept | apply setHelm_kept)

theorem helmSilence_kept {r₀ : State} {s : State} (h_s : Keeps r₀ s) : Keeps r₀ (helmSilence s) := by
  unfold helmSilence
  repeat' first | (with_reducible assumption) | split | (with_reducible refine Keeps.mk_upd ?_; with_reducible assumption)

theorem helmHandover_kept {r₀ : State} (link : Nat) {s : State} (h_s : Keeps r₀ s) : Keeps r₀ (helmHandover link s).st := by
  unfold helmHandover
  repeat' first
    | (with_reducible first | assumption | apply ans_kept | apply setHelm_kept)
    | split
    | (with_reducible refine Keeps.mk_upd ?_; with_reducible first | assumption | apply ans_kept | apply setHelm_kept)

theorem commandAbort_kept {r₀ : State} (b : Nat) {s : State} (h_s : Keeps r₀ s) : Keeps r₀ (commandAbort b s).st := by
  unfold commandAbort
  repeat' first
    | (with_reducible first | assumption | apply ans_kept | apply waits_kept | apply abortBerth_kept)
    | (lift_lets
       intro x
       first
         | (have hx : Keeps r₀ x := by
               repeat' first
                 | (with_reducible first | assumption | apply ans_kept | apply waits_kept | apply abortBerth_kept)
                 | (with_reducible refine Keeps.of_snd ‹_› ?_)
                 | (with_reducible refine Keeps.of_fst ‹_› ?_)
                 | (with_reducible refine Keeps.foldl _ _ ?_ ?_)
                 | (with_reducible refine Keeps.foldl_fst _ _ ?_ ?_)
                 | (with_reducible refine Keeps.foldl_snd _ _ ?_ ?_)
                 | (with_reducible refine Keeps.elim _ ?_ ?_)
                 | intro _
                 | split
                 | (with_reducible refine Keeps.mk_upd ?_; first | (with_reducible first | assumption | apply ans_kept | apply waits_kept | apply abortBerth_kept) | split)
            clear_value x)
         | skip)
    | (with_reducible refine Keeps.of_snd ‹_› ?_)
    | (with_reducible refine Keeps.of_fst ‹_› ?_)
    | (with_reducible refine Keeps.foldl _ _ ?_ ?_)
    | (with_reducible refine Keeps.foldl_fst _ _ ?_ ?_)
    | (with_reducible refine Keeps.foldl_snd _ _ ?_ ?_)
    | (with_reducible refine Keeps.elim _ ?_ ?_)
    | intro _
    | split
    | (with_reducible refine Keeps.mk_upd ?_; first | (with_reducible first | assumption | apply ans_kept | apply waits_kept | apply abortBerth_kept) | split)

end Sys2Proof.Machine
end

