-- ==== Sys2Proof/Laws/KeptSteps.lean ====
section
/-! SUPPORT. What the operations of Machine/Steps.lean keep: the queue, canonical forms, burnt fuses. -/
namespace Sys2Proof.Machine

theorem setPass_kept {r₀ : State} {s : State} (p : PassSt) (h_s : Keeps r₀ s) : Keeps r₀ (setPass s p) := by
  unfold setPass
  repeat' first | (with_reducible assumption) | split | (with_reducible refine Keeps.mk_upd ?_; with_reducible assumption)

theorem setStep_kept {r₀ : State} (r : StepRec) {s : State} (h_s : Keeps r₀ s) : Keeps r₀ (setStep r s) := by
  unfold setStep
  repeat' with_reducible first | assumption | apply setPass_kept

theorem signStep_kept {r₀ : State} (job win unit : Nat) (l : List Byte) {s : State} (h_s : Keeps r₀ s) : Keeps r₀ (signStep job win unit l s) := by
  unfold signStep
  repeat' first | (with_reducible first | assumption | apply setStep_kept) | split | (with_reducible refine Keeps.mk_upd ?_; with_reducible first | assumption | apply setStep_kept)

theorem dropReplaysOn_kept {r₀ : State} (u : Nat) {s : State} (h_s : Keeps r₀ s) : Keeps r₀ (dropReplaysOn u s) := by
  unfold dropReplaysOn
  repeat' with_reducible first | assumption | apply setPass_kept

theorem markStep_kept {r₀ : State} (j u now_ : Nat) (w : Nat) {s : State} (h_s : Keeps r₀ s) : Keeps r₀ (markStep j u now_ w s) := by
  unfold markStep
  repeat' with_reducible first | assumption | apply setStep_kept

theorem suspectUnit_kept {r₀ : State} (u : Nat) {s : State} (h_s : Keeps r₀ s) : Keeps r₀ (suspectUnit u s) := by
  unfold suspectUnit
  repeat' first
    | (with_reducible first | assumption | apply dropReplaysOn_kept | apply markStep_kept)
    | (with_reducible refine Keeps.of_snd ‹_› ?_)
    | (with_reducible refine Keeps.of_fst ‹_› ?_)
    | (with_reducible refine Keeps.foldl _ _ ?_ ?_)
    | (with_reducible refine Keeps.foldl_fst _ _ ?_ ?_)
    | (with_reducible refine Keeps.foldl_snd _ _ ?_ ?_)
    | (with_reducible refine Keeps.elim _ ?_ ?_)
    | intro _
    | split
    | (with_reducible refine Keeps.mk_upd ?_; first | (with_reducible first | assumption | apply dropReplaysOn_kept | apply markStep_kept) | split)

theorem poisonNotice_kept {r₀ : State} (j : Nat) (r : Restart) {s : State} (h_s : Keeps r₀ s) : Keeps r₀ (poisonNotice j r s) := by
  unfold poisonNotice
  repeat' with_reducible first | assumption | apply notice_kept

theorem setLink_kept {r₀ : State} {s : State} (k : Nat) (v : CkLink) (h_s : Keeps r₀ s) : Keeps r₀ (setLink s k v) := by
  unfold setLink
  repeat' first | (with_reducible assumption) | split | (with_reducible refine Keeps.mk_upd ?_; with_reducible assumption)

theorem setAttempt_kept {r₀ : State} (j w a : Nat) {s : State} (h_s : Keeps r₀ s) : Keeps r₀ (setAttempt j w a s) := by
  unfold setAttempt
  repeat' first | (with_reducible assumption) | split | (with_reducible refine Keeps.mk_upd ?_; with_reducible assumption)

theorem windowNotices_kept {r₀ : State} (kind j w : Nat) {s : State} (h_s : Keeps r₀ s) : Keeps r₀ (windowNotices kind j w s) := by
  unfold windowNotices
  repeat' first
    | (with_reducible first | assumption | apply setLink_kept)
    | (with_reducible refine Keeps.of_snd ‹_› ?_)
    | (with_reducible refine Keeps.of_fst ‹_› ?_)
    | (with_reducible refine Keeps.foldl _ _ ?_ ?_)
    | (with_reducible refine Keeps.foldl_fst _ _ ?_ ?_)
    | (with_reducible refine Keeps.foldl_snd _ _ ?_ ?_)
    | (with_reducible refine Keeps.elim _ ?_ ?_)
    | intro _
    | split
    | (with_reducible refine Keeps.mk_upd ?_; first | (with_reducible first | assumption | apply setLink_kept) | split)

theorem logWindow_kept {r₀ : State} (j w flags : Nat) {s : State} (h_s : Keeps r₀ s) : Keeps r₀ (logWindow j w flags s) := by
  unfold logWindow
  repeat' with_reducible first | assumption | apply setPass_kept

theorem monitorStarts_kept {r₀ : State} {s : State} (h_s : Keeps r₀ s) : Keeps r₀ (monitorStarts s) := by
  unfold monitorStarts
  repeat' first | (with_reducible assumption) | split | (with_reducible refine Keeps.mk_upd ?_; with_reducible assumption)

theorem haltHarts_kept {r₀ : State} (j : Nat) {s : State} (h_s : Keeps r₀ s) : Keeps r₀ (haltHarts j s) := by
  unfold haltHarts
  repeat' first | (with_reducible assumption) | split | (with_reducible refine Keeps.mk_upd ?_; with_reducible assumption)

theorem rewindOpen_kept {r₀ : State} (j : Nat) {s : State} (h_s : Keeps r₀ s) : Keeps r₀ (rewindOpen j s) := by
  unfold rewindOpen
  repeat' first
    | (with_reducible first | assumption | apply markBad_kept)
    | (with_reducible refine Keeps.of_snd ‹_› ?_)
    | (with_reducible refine Keeps.of_fst ‹_› ?_)
    | (with_reducible refine Keeps.foldl _ _ ?_ ?_)
    | (with_reducible refine Keeps.foldl_fst _ _ ?_ ?_)
    | (with_reducible refine Keeps.foldl_snd _ _ ?_ ?_)
    | (with_reducible refine Keeps.elim _ ?_ ?_)
    | intro _
    | split
    | (with_reducible refine Keeps.mk_upd ?_; first | (with_reducible first | assumption | apply markBad_kept) | split)

theorem freeJobRetained_kept {r₀ : State} (j : Nat) {s : State} (h_s : Keeps r₀ s) : Keeps r₀ (freeJobRetained j s) := by
  unfold freeJobRetained
  repeat' first
    | (with_reducible first | assumption | apply setQueue_kept | apply freeRetained_kept | apply setPass_kept)
    | (with_reducible refine Keeps.of_snd ‹_› ?_)
    | (with_reducible refine Keeps.of_fst ‹_› ?_)
    | (with_reducible refine Keeps.foldl _ _ ?_ ?_)
    | (with_reducible refine Keeps.foldl_fst _ _ ?_ ?_)
    | (with_reducible refine Keeps.foldl_snd _ _ ?_ ?_)
    | (with_reducible refine Keeps.elim _ ?_ ?_)
    | intro _
    | split
    | (with_reducible refine Keeps.mk_upd ?_; first | (with_reducible first | assumption | apply setQueue_kept | apply freeRetained_kept | apply setPass_kept) | split)

theorem dropCkpt_kept {r₀ : State} (j : Nat) {s : State} (h_s : Keeps r₀ s) : Keeps r₀ (dropCkpt j s) := by
  unfold dropCkpt
  repeat' first
    | (with_reducible first | assumption | apply finishBerth_kept | apply setJob_kept | apply setPass_kept)
    | (with_reducible refine Keeps.of_snd ‹_› ?_)
    | (with_reducible refine Keeps.of_fst ‹_› ?_)
    | (with_reducible refine Keeps.foldl _ _ ?_ ?_)
    | (with_reducible refine Keeps.foldl_fst _ _ ?_ ?_)
    | (with_reducible refine Keeps.foldl_snd _ _ ?_ ?_)
    | (with_reducible refine Keeps.elim _ ?_ ?_)
    | intro _
    | split
    | (with_reducible refine Keeps.mk_upd ?_; first | (with_reducible first | assumption | apply finishBerth_kept | apply setJob_kept | apply setPass_kept) | split)

theorem dropUnconfirmed_kept {r₀ : State} (j : Nat) {s : State} (h_s : Keeps r₀ s) : Keeps r₀ (dropUnconfirmed j s) := by
  unfold dropUnconfirmed
  repeat' first | (with_reducible assumption) | split | (with_reducible refine Keeps.mk_upd ?_; with_reducible assumption)

theorem startRestart_kept {r₀ : State} (j cause unit taint : Nat) (berth : Option Nat) {s : State} (h_s : Keeps r₀ s) : Keeps r₀ (startRestart j cause unit taint berth s) := by
  unfold startRestart
  repeat' first
    | (with_reducible first | assumption | apply setPass_kept | apply windowNotices_kept | apply dropUnconfirmed_kept | apply logWindow_kept | apply haltHarts_kept | apply freeJobRetained_kept | apply rewindOpen_kept | apply dropCkpt_kept | apply setJob_kept)
    | (with_reducible refine Keeps.of_snd ‹_› ?_)
    | (with_reducible refine Keeps.of_fst ‹_› ?_)
    | (with_reducible refine Keeps.foldl _ _ ?_ ?_)
    | (with_reducible refine Keeps.foldl_fst _ _ ?_ ?_)
    | (with_reducible refine Keeps.foldl_snd _ _ ?_ ?_)
    | (with_reducible refine Keeps.elim _ ?_ ?_)
    | intro _
    | split
    | (with_reducible refine Keeps.mk_upd ?_; first | (with_reducible first | assumption | apply setPass_kept | apply windowNotices_kept | apply dropUnconfirmed_kept | apply logWindow_kept | apply haltHarts_kept | apply freeJobRetained_kept | apply rewindOpen_kept | apply dropCkpt_kept | apply setJob_kept) | split)

theorem beginRestart_kept {r₀ : State} (j cause unit taint : Nat) (berth : Option Nat) {s : State} (h_s : Keeps r₀ s) : Keeps r₀ (beginRestart j cause unit taint berth s) := by
  unfold beginRestart
  repeat' first
    | (with_reducible first | assumption | apply startRestart_kept)
    | (with_reducible refine Keeps.of_snd ‹_› ?_)
    | (with_reducible refine Keeps.of_fst ‹_› ?_)
    | (with_reducible refine Keeps.foldl _ _ ?_ ?_)
    | (with_reducible refine Keeps.foldl_fst _ _ ?_ ?_)
    | (with_reducible refine Keeps.foldl_snd _ _ ?_ ?_)
    | (with_reducible refine Keeps.elim _ ?_ ?_)
    | intro _
    | split
    | (with_reducible refine Keeps.mk_upd ?_; first | (with_reducible first | assumption | apply startRestart_kept) | split)

theorem consumePoison_kept {r₀ : State} (j unit : Nat) {s : State} (h_s : Keeps r₀ s) : Keeps r₀ (consumePoison j unit s) := by
  unfold consumePoison
  repeat' first
    | (with_reducible first | assumption | apply beginRestart_kept | apply setPass_kept)
    | (with_reducible refine Keeps.of_snd ‹_› ?_)
    | (with_reducible refine Keeps.of_fst ‹_› ?_)
    | (with_reducible refine Keeps.foldl _ _ ?_ ?_)
    | (with_reducible refine Keeps.foldl_fst _ _ ?_ ?_)
    | (with_reducible refine Keeps.foldl_snd _ _ ?_ ?_)
    | (with_reducible refine Keeps.elim _ ?_ ?_)
    | intro _
    | split
    | (with_reducible refine Keeps.mk_upd ?_; first | (with_reducible first | assumption | apply beginRestart_kept | apply setPass_kept) | split)

end Sys2Proof.Machine
end

