-- ==== Sys2Proof/Laws/KeptResults.lean ====
section
/-! SUPPORT. What the operations of Machine/Results.lean keep: the queue, canonical forms, burnt fuses. -/
namespace Sys2Proof.Machine

theorem resBump_kept {r₀ : State} (k w : Nat) {s : State} (h_s : Keeps r₀ s) : Keeps r₀ (resBump k w s) := by
  unfold resBump
  repeat' with_reducible first | assumption | apply bump_kept

theorem setStr_kept {r₀ : State} {s : State} (k : Nat) (v : Stream) (h_s : Keeps r₀ s) : Keeps r₀ (setStr s k v) := by
  unfold setStr
  repeat' first | (with_reducible assumption) | split | (with_reducible refine Keeps.mk_upd ?_; with_reducible assumption)

theorem takeSlot_kept {r₀ : State} (k : Nat) {s : State} (h_s : Keeps r₀ s) : Keeps r₀ (takeSlot k s).2 := by
  unfold takeSlot
  repeat' first
    | (with_reducible first | assumption | apply resBump_kept | apply ramPutNat_kept | apply setStr_kept)
    | split
    | (with_reducible refine Keeps.mk_upd ?_; with_reducible first | assumption | apply resBump_kept | apply ramPutNat_kept | apply setStr_kept)

theorem openRec_kept {r₀ : State} (k : Nat) (e : Entry) {s : State} (h_s : Keeps r₀ s) : Keeps r₀ (openRec k e s) := by
  unfold openRec
  repeat' with_reducible first | assumption | apply takeSlot_kept | apply setStr_kept

theorem writeEntry_kept {r₀ : State} (k : Nat) (e : Entry) {s : State} (h_s : Keeps r₀ s) : Keeps r₀ (writeEntry k e s) := by
  unfold writeEntry
  repeat' first
    | (with_reducible first | assumption | apply ramPut_kept | apply setRamBad_kept | apply setStr_kept)
    | split
    | (with_reducible refine Keeps.mk_upd ?_; with_reducible first | assumption | apply ramPut_kept | apply setRamBad_kept | apply setStr_kept)

theorem shutRec_kept {r₀ : State} (k : Nat) {s : State} (h_s : Keeps r₀ s) : Keeps r₀ (shutRec k s) := by
  unfold shutRec
  repeat' first
    | (with_reducible first | assumption | apply setStr_kept)
    | (with_reducible refine Keeps.of_snd ‹_› ?_)
    | (with_reducible refine Keeps.of_fst ‹_› ?_)
    | (with_reducible refine Keeps.foldl _ _ ?_ ?_)
    | (with_reducible refine Keeps.foldl_fst _ _ ?_ ?_)
    | (with_reducible refine Keeps.foldl_snd _ _ ?_ ?_)
    | (with_reducible refine Keeps.elim _ ?_ ?_)
    | intro _
    | split
    | (with_reducible refine Keeps.mk_upd ?_; first | (with_reducible first | assumption | apply setStr_kept) | split)

theorem closeRec_kept {r₀ : State} (k : Nat) {s : State} (h_s : Keeps r₀ s) : Keeps r₀ (closeRec k s) := by
  unfold closeRec
  repeat' first
    | (with_reducible first | assumption | apply shutRec_kept | apply setStr_kept | apply writeEntry_kept | apply openRec_kept)
    | (with_reducible refine Keeps.of_snd ‹_› ?_)
    | (with_reducible refine Keeps.of_fst ‹_› ?_)
    | (with_reducible refine Keeps.foldl _ _ ?_ ?_)
    | (with_reducible refine Keeps.foldl_fst _ _ ?_ ?_)
    | (with_reducible refine Keeps.foldl_snd _ _ ?_ ?_)
    | (with_reducible refine Keeps.elim _ ?_ ?_)
    | intro _
    | split
    | (with_reducible refine Keeps.mk_upd ?_; first | (with_reducible first | assumption | apply shutRec_kept | apply setStr_kept | apply writeEntry_kept | apply openRec_kept) | split)

theorem addEntry_kept {r₀ : State} (k : Nat) (e : Entry) {s : State} (h_s : Keeps r₀ s) : Keeps r₀ (addEntry k e s) := by
  unfold addEntry
  repeat' first
    | (with_reducible first | assumption | apply openRec_kept | apply writeEntry_kept | apply shutRec_kept | apply closeRec_kept)
    | (with_reducible refine Keeps.of_snd ‹_› ?_)
    | (with_reducible refine Keeps.of_fst ‹_› ?_)
    | (with_reducible refine Keeps.foldl _ _ ?_ ?_)
    | (with_reducible refine Keeps.foldl_fst _ _ ?_ ?_)
    | (with_reducible refine Keeps.foldl_snd _ _ ?_ ?_)
    | (with_reducible refine Keeps.elim _ ?_ ?_)
    | intro _
    | split
    | (with_reducible refine Keeps.mk_upd ?_; first | (with_reducible first | assumption | apply openRec_kept | apply writeEntry_kept | apply shutRec_kept | apply closeRec_kept) | split)

theorem takeEntry_kept {r₀ : State} (k kind : Nat) (e : Entry) {s : State} (h_s : Keeps r₀ s) : Keeps r₀ (takeEntry k kind e s) := by
  unfold takeEntry
  repeat' first
    | (with_reducible first | assumption | apply addEntry_kept | apply resBump_kept)
    | split
    | (with_reducible refine Keeps.mk_upd ?_; with_reducible first | assumption | apply addEntry_kept | apply resBump_kept)

theorem offerEntry_kept {r₀ : State} (k : Nat) (e : Entry) {s : State} (h_s : Keeps r₀ s) : Keeps r₀ (offerEntry k e s) := by
  unfold offerEntry
  repeat' first | (with_reducible assumption) | split | (with_reducible refine Keeps.mk_upd ?_; with_reducible assumption)

theorem putRecord_kept {r₀ : State} (k kind tov : Nat) (body : List Byte) (poison : Bool) (steps : List (Nat × Nat)) {s : State} (h_s : Keeps r₀ s) : Keeps r₀ (putRecord k kind tov body poison steps s) := by
  unfold putRecord
  repeat' first
    | (with_reducible first | assumption | apply takeSlot_kept | apply ramPut_kept | apply setRamBad_kept | apply setStr_kept)
    | split
    | (with_reducible refine Keeps.mk_upd ?_; with_reducible first | assumption | apply takeSlot_kept | apply ramPut_kept | apply setRamBad_kept | apply setStr_kept)

theorem selectFor_kept {r₀ : State} (i k seq slot : Nat) {s : State} (h_s : Keeps r₀ s) : Keeps r₀ (selectFor i k seq slot s) := by
  unfold selectFor
  dsimp only
  repeat' first
    | (with_reducible assumption)
    | (with_reducible refine Keeps.of_snd ‹_› ?_)
    | (with_reducible refine Keeps.of_fst ‹_› ?_)
    | (with_reducible refine Keeps.foldl _ _ ?_ ?_)
    | (with_reducible refine Keeps.foldl_fst _ _ ?_ ?_)
    | (with_reducible refine Keeps.foldl_snd _ _ ?_ ?_)
    | (with_reducible refine Keeps.elim _ ?_ ?_)
    | intro _
    | split
    | (with_reducible refine Keeps.mk_upd ?_; first | (with_reducible assumption) | split)
    | (with_reducible refine Keeps.mk_sec ?_ (.same rfl rfl rfl rfl rfl rfl rfl rfl rfl rfl rfl); first | (with_reducible assumption) | split)

theorem noteRange_kept {r₀ : State} (j w k seq : Nat) {s : State} (h_s : Keeps r₀ s) : Keeps r₀ (noteRange j w k seq s) := by
  unfold noteRange
  repeat' with_reducible first | assumption | apply setPass_kept

theorem commitRec_kept {r₀ : State} (k : Nat) (r : Rec) {s : State} (h_s : Keeps r₀ s) : Keeps r₀ (commitRec k r s) := by
  unfold commitRec
  repeat' first
    | (with_reducible first | assumption | apply ramPut_kept | apply setStr_kept | apply resBump_kept | apply noteRange_kept | apply raiseMsi_kept | apply selectFor_kept)
    | (with_reducible refine Keeps.of_snd ‹_› ?_)
    | (with_reducible refine Keeps.of_fst ‹_› ?_)
    | (with_reducible refine Keeps.foldl _ _ ?_ ?_)
    | (with_reducible refine Keeps.foldl_fst _ _ ?_ ?_)
    | (with_reducible refine Keeps.foldl_snd _ _ ?_ ?_)
    | (with_reducible refine Keeps.elim _ ?_ ?_)
    | intro _
    | split
    | (with_reducible refine Keeps.mk_upd ?_; first | (with_reducible first | assumption | apply ramPut_kept | apply setStr_kept | apply resBump_kept | apply noteRange_kept | apply raiseMsi_kept | apply selectFor_kept) | split)

theorem recordCommit_kept {r₀ : State} (k : Nat) {s : State} (h_s : Keeps r₀ s) : Keeps r₀ (recordCommit k s) := by
  unfold recordCommit
  repeat' first
    | (with_reducible first | assumption | apply setStr_kept | apply commitRec_kept)
    | (with_reducible refine Keeps.of_snd ‹_› ?_)
    | (with_reducible refine Keeps.of_fst ‹_› ?_)
    | (with_reducible refine Keeps.foldl _ _ ?_ ?_)
    | (with_reducible refine Keeps.foldl_fst _ _ ?_ ?_)
    | (with_reducible refine Keeps.foldl_snd _ _ ?_ ?_)
    | (with_reducible refine Keeps.elim _ ?_ ?_)
    | intro _
    | split
    | (with_reducible refine Keeps.mk_upd ?_; first | (with_reducible first | assumption | apply setStr_kept | apply commitRec_kept) | split)

theorem recordFlush_kept {r₀ : State} (k : Nat) {s : State} (h_s : Keeps r₀ s) : Keeps r₀ (recordFlush k s) := by
  unfold recordFlush
  repeat' first | (with_reducible first | assumption | apply closeRec_kept) | split | (with_reducible refine Keeps.mk_upd ?_; with_reducible first | assumption | apply closeRec_kept)

theorem streamEnable_kept {r₀ : State} (k : Nat) {s : State} (h_s : Keeps r₀ s) : Keeps r₀ (streamEnable k s) := by
  unfold streamEnable
  repeat' first
    | (with_reducible first | assumption | apply ramPutNat_kept | apply setStr_kept)
    | (with_reducible refine Keeps.of_snd ‹_› ?_)
    | (with_reducible refine Keeps.of_fst ‹_› ?_)
    | (with_reducible refine Keeps.foldl _ _ ?_ ?_)
    | (with_reducible refine Keeps.foldl_fst _ _ ?_ ?_)
    | (with_reducible refine Keeps.foldl_snd _ _ ?_ ?_)
    | (with_reducible refine Keeps.elim _ ?_ ?_)
    | intro _
    | split
    | (with_reducible refine Keeps.mk_upd ?_; first | (with_reducible first | assumption | apply ramPutNat_kept | apply setStr_kept) | split)

theorem commitAll_kept {r₀ : State} (k : Nat) (l : List Rec) : ∀ s : State, Keeps r₀ s → Keeps r₀ (commitAll k l s) := by
  induction l with
  | nil => intro s h; exact h
  | cons r l ih => intro s h; exact ih _ (recordCommit_kept _ h)

theorem streamDisable_kept {r₀ : State} (k : Nat) {s : State} (h_s : Keeps r₀ s) : Keeps r₀ (streamDisable k s) := by
  unfold streamDisable
  repeat' with_reducible first | assumption | apply shutRec_kept | apply commitAll_kept

theorem resultRelease_kept {r₀ : State} (k seq : Nat) {s : State} (h_s : Keeps r₀ s) : Keeps r₀ (resultRelease k seq s).2 := by
  rcases h : resultRelease k seq s with ⟨a, t⟩
  show Keeps r₀ t
  unfold resultRelease at h
  dsimp only at h
  split at h
  · cases h; exact h_s
  · split at h
    · cases h; exact h_s
    · cases h; exact setStr_kept _ _ h_s

theorem markRead_kept {r₀ : State} (k i b : Nat) {s : State} (h_s : Keeps r₀ s) : Keeps r₀ (markRead k i b s) := by
  unfold markRead
  repeat' with_reducible first | assumption | apply setStr_kept

theorem setPush_kept {r₀ : State} {s : State} (p : Nat) (v : Push) (h_s : Keeps r₀ s) : Keeps r₀ (setPush s p v) := by
  unfold setPush
  repeat' first | (with_reducible assumption) | split | (with_reducible refine Keeps.mk_upd ?_; with_reducible assumption)

theorem pushCopy_kept {r₀ : State} (p : Nat) {s : State} (h_s : Keeps r₀ s) : Keeps r₀ (pushCopy p s) := by
  unfold pushCopy
  repeat' first
    | (with_reducible first | assumption | apply setPush_kept | apply bump_kept)
    | (with_reducible refine Keeps.of_snd ‹_› ?_)
    | (with_reducible refine Keeps.of_fst ‹_› ?_)
    | (with_reducible refine Keeps.foldl _ _ ?_ ?_)
    | (with_reducible refine Keeps.foldl_fst _ _ ?_ ?_)
    | (with_reducible refine Keeps.foldl_snd _ _ ?_ ?_)
    | (with_reducible refine Keeps.elim _ ?_ ?_)
    | intro _
    | split
    | (with_reducible refine Keeps.mk_upd ?_; first | (with_reducible first | assumption | apply setPush_kept | apply bump_kept) | split)

theorem pushFragment_kept {r₀ : State} (p : Nat) {s : State} (h_s : Keeps r₀ s) : Keeps r₀ (pushFragment p s) := by
  unfold pushFragment
  repeat' first
    | (with_reducible first | assumption | apply sendTo_kept | apply setPush_kept | apply markRead_kept | apply bump_kept)
    | (with_reducible refine Keeps.of_snd ‹_› ?_)
    | (with_reducible refine Keeps.of_fst ‹_› ?_)
    | (with_reducible refine Keeps.foldl _ _ ?_ ?_)
    | (with_reducible refine Keeps.foldl_fst _ _ ?_ ?_)
    | (with_reducible refine Keeps.foldl_snd _ _ ?_ ?_)
    | (with_reducible refine Keeps.elim _ ?_ ?_)
    | intro _
    | split
    | (with_reducible refine Keeps.mk_upd ?_; first | (with_reducible first | assumption | apply sendTo_kept | apply setPush_kept | apply markRead_kept | apply bump_kept) | split)

end Sys2Proof.Machine
end

