-- ==== Sys2Proof/Laws/KeptFabric.lean ====
section
/-! SUPPORT. What the operations of Machine/Fabric.lean keep: the queue, canonical forms, burnt fuses. -/
namespace Sys2Proof.Machine

theorem setCq_kept {r₀ : State} {s : State} (port cls : Nat) (l : List Pkt) (h_s : Keeps r₀ s) : Keeps r₀ (setCq s port cls l) := by
  unfold setCq
  repeat' first | (with_reducible assumption) | split | (with_reducible refine Keeps.mk_upd ?_; with_reducible assumption)

theorem putCq_kept {r₀ : State} (port : Nat) (p : Pkt) {s : State} (h_s : Keeps r₀ s) : Keeps r₀ (putCq port p s) := by
  unfold putCq
  repeat' with_reducible first | assumption | apply setCq_kept

theorem dropCq_kept {r₀ : State} (port : Nat) {s : State} (h_s : Keeps r₀ s) : Keeps r₀ (dropCq port s) := by
  unfold dropCq
  repeat' first | (with_reducible first | assumption | apply setCq_kept) | split | (with_reducible refine Keeps.mk_upd ?_; with_reducible first | assumption | apply setCq_kept)

theorem checkParity_kept {r₀ : State} (unit : Nat) (p : Pkt) {s : State} (h_s : Keeps r₀ s) : Keeps r₀ (checkParity unit p s).2 := by
  unfold checkParity
  repeat' first | (with_reducible first | assumption | apply bump_kept) | split | (with_reducible refine Keeps.mk_upd ?_; with_reducible first | assumption | apply bump_kept)

theorem crossCheck_kept {r₀ : State} (unit : Nat) (p : Pkt) {s : State} (h_s : Keeps r₀ s) : Keeps r₀ (crossCheck unit p s).2 := by
  unfold crossCheck
  repeat' first | (with_reducible first | assumption | apply crossParity_kept) | split | (with_reducible refine Keeps.mk_upd ?_; with_reducible first | assumption | apply crossParity_kept)

end Sys2Proof.Machine
end

