-- ==== Sys2Proof/Laws/KeptLadder.lean ====
section
/-! SUPPORT. What the operations of Machine/Ladder.lean keep: the queue, canonical forms, burnt fuses. -/
namespace Sys2Proof.Machine

theorem setPwr_kept {r₀ : State} {s : State} (p : PwrSt) (h_s : Keeps r₀ s) : Keeps r₀ (setPwr s p) := by
  unfold setPwr
  repeat' first | (with_reducible assumption) | split | (with_reducible refine Keeps.mk_upd ?_; with_reducible assumption)

theorem powerNotice_kept {r₀ : State} (kind from_ dest wake rkind rdetail : Nat) {s : State} (h_s : Keeps r₀ s) : Keeps r₀ (powerNotice kind from_ dest wake rkind rdetail s) := by
  unfold powerNotice
  repeat' with_reducible first | assumption | apply notice_kept

theorem sendTc10_kept {r₀ : State} (what : Nat) {s : State} (p : Nat) (h_s : Keeps r₀ s) : Keeps r₀ (sendTc10 what s p) := by
  unfold sendTc10
  repeat' with_reducible first | assumption | apply setEth_kept

theorem abortEntry_kept {r₀ : State} (rkind rdetail : Nat) {s : State} (h_s : Keeps r₀ s) : Keeps r₀ (abortEntry rkind rdetail s) := by
  unfold abortEntry
  repeat' first
    | (with_reducible first | assumption | apply setPwr_kept | apply powerNotice_kept | apply sendTc10_kept | apply finishBerth_kept)
    | (with_reducible refine Keeps.of_snd ‹_› ?_)
    | (with_reducible refine Keeps.of_fst ‹_› ?_)
    | (with_reducible refine Keeps.foldl _ _ ?_ ?_)
    | (with_reducible refine Keeps.foldl_fst _ _ ?_ ?_)
    | (with_reducible refine Keeps.foldl_snd _ _ ?_ ?_)
    | (with_reducible refine Keeps.elim _ ?_ ?_)
    | intro _
    | split
    | (with_reducible refine Keeps.mk_upd ?_; first | (with_reducible first | assumption | apply setPwr_kept | apply powerNotice_kept | apply sendTc10_kept | apply finishBerth_kept) | split)

theorem powerWake_kept {r₀ : State} (src : Nat) (port : Option Nat) {s : State} (h_s : Keeps r₀ s) : Keeps r₀ (powerWake src port s) := by
  unfold powerWake
  repeat' first
    | (with_reducible first | assumption | apply setPwr_kept | apply abortEntry_kept)
    | split
    | (with_reducible refine Keeps.mk_upd ?_; with_reducible first | assumption | apply setPwr_kept | apply abortEntry_kept)

end Sys2Proof.Machine
end

