-- ==== Sys2Proof/Laws/KeptTime.lean ====
section
/-! SUPPORT. What the operations of Machine/Time.lean keep: the queue, canonical forms, burnt fuses. -/
namespace Sys2Proof.Machine

theorem setTime_kept {r₀ : State} {s : State} (t : TimeSt) (h_s : Keeps r₀ s) : Keeps r₀ (setTime s t) := by
  unfold setTime
  repeat' first | (with_reducible assumption) | split | (with_reducible refine Keeps.mk_upd ?_; with_reducible assumption)

theorem tickBy_kept {r₀ : State} (n k : Nat) {s : State} (h_s : Keeps r₀ s) : Keeps r₀ (tickBy n k s) := by
  unfold tickBy
  repeat' first | (with_reducible first | assumption | apply setTime_kept) | split | (with_reducible refine Keeps.mk_upd ?_; with_reducible first | assumption | apply setTime_kept)

theorem timeNotice_kept {r₀ : State} (kind index flags value : Nat) {s : State} (h_s : Keeps r₀ s) : Keeps r₀ (timeNotice kind index flags value s) := by
  unfold timeNotice
  repeat' with_reducible first | assumption | apply notice_kept

theorem armCmp_kept {r₀ : State} (i : Nat) {s : State} (h_s : Keeps r₀ s) : Keeps r₀ (armCmp i s) := by
  unfold armCmp
  repeat' with_reducible first | assumption | apply setTime_kept

theorem fireCmp_kept {r₀ : State} (i : Nat) {s : State} (h_s : Keeps r₀ s) : Keeps r₀ (fireCmp i s) := by
  unfold fireCmp
  repeat' first
    | (with_reducible first | assumption | apply bump_kept | apply wr_kept | apply setTime_kept | apply bumpN_kept | apply timeNotice_kept | apply powerWake_kept)
    | split
    | (with_reducible refine Keeps.mk_upd ?_; with_reducible first | assumption | apply bump_kept | apply wr_kept | apply setTime_kept | apply bumpN_kept | apply timeNotice_kept | apply powerWake_kept)

theorem comparatorFire_kept {r₀ : State} (i : Nat) {s : State} (h_s : Keeps r₀ s) : Keeps r₀ (comparatorFire i s) := by
  unfold comparatorFire
  repeat' first | (with_reducible first | assumption | apply fireCmp_kept) | split | (with_reducible refine Keeps.mk_upd ?_; with_reducible first | assumption | apply fireCmp_kept)

theorem setSyncOut_kept {r₀ : State} {s : State} (n : Nat) (o : SyncOut) (h_s : Keeps r₀ s) : Keeps r₀ (setSyncOut s n o) := by
  unfold setSyncOut
  repeat' with_reducible first | assumption | apply setTime_kept

theorem syncOutEnable_kept {r₀ : State} (n : Nat) {s : State} (h_s : Keeps r₀ s) : Keeps r₀ (syncOutEnable n s) := by
  unfold syncOutEnable
  repeat' with_reducible first | assumption | apply setSyncOut_kept

theorem syncOutFire_kept {r₀ : State} (n : Nat) {s : State} (h_s : Keeps r₀ s) : Keeps r₀ (syncOutFire n s) := by
  unfold syncOutFire
  repeat' first
    | (with_reducible first | assumption | apply bump_kept | apply wr_kept | apply bumpN_kept | apply setSyncOut_kept)
    | split
    | (with_reducible refine Keeps.mk_upd ?_; with_reducible first | assumption | apply bump_kept | apply wr_kept | apply bumpN_kept | apply setSyncOut_kept)

theorem syncOutEdge_kept {r₀ : State} (n : Nat) {s : State} (h_s : Keeps r₀ s) : Keeps r₀ (syncOutEdge n s) := by
  unfold syncOutEdge
  repeat' first
    | (with_reducible first | assumption | apply syncOutFire_kept)
    | (with_reducible refine Keeps.of_snd ‹_› ?_)
    | (with_reducible refine Keeps.of_fst ‹_› ?_)
    | (with_reducible refine Keeps.foldl _ _ ?_ ?_)
    | (with_reducible refine Keeps.foldl_fst _ _ ?_ ?_)
    | (with_reducible refine Keeps.foldl_snd _ _ ?_ ?_)
    | (with_reducible refine Keeps.elim _ ?_ ?_)
    | intro _
    | split
    | (with_reducible refine Keeps.mk_upd ?_; first | (with_reducible first | assumption | apply syncOutFire_kept) | split)

theorem syncOutPulseEnd_kept {r₀ : State} (n : Nat) {s : State} (h_s : Keeps r₀ s) : Keeps r₀ (syncOutPulseEnd n s) := by
  unfold syncOutPulseEnd
  repeat' first
    | (with_reducible first | assumption | apply setSyncOut_kept)
    | (with_reducible refine Keeps.of_snd ‹_› ?_)
    | (with_reducible refine Keeps.of_fst ‹_› ?_)
    | (with_reducible refine Keeps.foldl _ _ ?_ ?_)
    | (with_reducible refine Keeps.foldl_fst _ _ ?_ ?_)
    | (with_reducible refine Keeps.foldl_snd _ _ ?_ ?_)
    | (with_reducible refine Keeps.elim _ ?_ ?_)
    | intro _
    | split
    | (with_reducible refine Keeps.mk_upd ?_; first | (with_reducible first | assumption | apply setSyncOut_kept) | split)

theorem ppsRestart_kept {r₀ : State} {s : State} (h_s : Keeps r₀ s) : Keeps r₀ (ppsRestart s) := by
  unfold ppsRestart
  repeat' with_reducible first | assumption | apply setTime_kept

theorem ppsEdge_kept {r₀ : State} {s : State} (h_s : Keeps r₀ s) : Keeps r₀ (ppsEdge s) := by
  unfold ppsEdge
  repeat' first | (with_reducible first | assumption | apply setTime_kept) | split | (with_reducible refine Keeps.mk_upd ?_; with_reducible first | assumption | apply setTime_kept)

theorem ppsPulseEnd_kept {r₀ : State} {s : State} (h_s : Keeps r₀ s) : Keeps r₀ (ppsPulseEnd s) := by
  unfold ppsPulseEnd
  repeat' first | (with_reducible first | assumption | apply setTime_kept) | split | (with_reducible refine Keeps.mk_upd ?_; with_reducible first | assumption | apply setTime_kept)

theorem pushSyncIn_kept {r₀ : State} (n t : Nat) {s : State} (h_s : Keeps r₀ s) : Keeps r₀ (pushSyncIn n t s) := by
  unfold pushSyncIn
  repeat' first
    | (with_reducible first | assumption | apply setTime_kept | apply bump_kept)
    | (with_reducible refine Keeps.of_snd ‹_› ?_)
    | (with_reducible refine Keeps.of_fst ‹_› ?_)
    | (with_reducible refine Keeps.foldl _ _ ?_ ?_)
    | (with_reducible refine Keeps.foldl_fst _ _ ?_ ?_)
    | (with_reducible refine Keeps.foldl_snd _ _ ?_ ?_)
    | (with_reducible refine Keeps.elim _ ?_ ?_)
    | intro _
    | split
    | (with_reducible refine Keeps.mk_upd ?_; first | (with_reducible first | assumption | apply setTime_kept | apply bump_kept) | split)

theorem syncInEdge_kept {r₀ : State} (n : Nat) {s : State} (h_s : Keeps r₀ s) : Keeps r₀ (syncInEdge n s) := by
  unfold syncInEdge
  repeat' with_reducible first | assumption | apply pushSyncIn_kept

theorem setPtp_kept {r₀ : State} {s : State} (p : Nat) (v : PtpPort) (h_s : Keeps r₀ s) : Keeps r₀ (setPtp s p v) := by
  unfold setPtp
  repeat' with_reducible first | assumption | apply setTime_kept

theorem ptpEventTx_kept {r₀ : State} (p kind seq : Nat) {s : State} (h_s : Keeps r₀ s) : Keeps r₀ (ptpEventTx p kind seq s) := by
  unfold ptpEventTx
  repeat' first
    | (with_reducible first | assumption | apply setPtp_kept | apply bump_kept | apply wr_kept)
    | (with_reducible refine Keeps.of_snd ‹_› ?_)
    | (with_reducible refine Keeps.of_fst ‹_› ?_)
    | (with_reducible refine Keeps.foldl _ _ ?_ ?_)
    | (with_reducible refine Keeps.foldl_fst _ _ ?_ ?_)
    | (with_reducible refine Keeps.foldl_snd _ _ ?_ ?_)
    | (with_reducible refine Keeps.elim _ ?_ ?_)
    | intro _
    | split
    | (with_reducible refine Keeps.mk_upd ?_; first | (with_reducible first | assumption | apply setPtp_kept | apply bump_kept | apply wr_kept) | split)

theorem txqLookup_kept {r₀ : State} (p key : Nat) {s : State} (h_s : Keeps r₀ s) : Keeps r₀ (txqLookup p key s) := by
  unfold txqLookup
  repeat' first
    | (with_reducible first | assumption | apply setPtp_kept | apply bump_kept)
    | (with_reducible refine Keeps.of_snd ‹_› ?_)
    | (with_reducible refine Keeps.of_fst ‹_› ?_)
    | (with_reducible refine Keeps.foldl _ _ ?_ ?_)
    | (with_reducible refine Keeps.foldl_fst _ _ ?_ ?_)
    | (with_reducible refine Keeps.foldl_snd _ _ ?_ ?_)
    | (with_reducible refine Keeps.elim _ ?_ ?_)
    | intro _
    | split
    | (with_reducible refine Keeps.mk_upd ?_; first | (with_reducible first | assumption | apply setPtp_kept | apply bump_kept) | split)

end Sys2Proof.Machine
end

