-- ==== Sys2Proof/Laws/KeptSluice.lean ====
section
/-! SUPPORT. What the operations of Machine/Sluice.lean keep: the queue, canonical forms, burnt fuses. -/
namespace Sys2Proof.Machine

theorem sluBump_kept {r₀ : State} (n w : Nat) {s : State} (h_s : Keeps r₀ s) : Keeps r₀ (sluBump n w s) := by
  unfold sluBump
  repeat' with_reducible first | assumption | apply bump_kept

theorem sluBumpN_kept {r₀ : State} (k n w : Nat) {s : State} (h_s : Keeps r₀ s) : Keeps r₀ (sluBumpN k n w s) := by
  unfold sluBumpN
  repeat' with_reducible first | assumption | apply bumpN_kept

theorem setSlu_kept {r₀ : State} {s : State} (n : Nat) (v : Sluice) (h_s : Keeps r₀ s) : Keeps r₀ (setSlu s n v) := by
  unfold setSlu
  repeat' first | (with_reducible assumption) | split | (with_reducible refine Keeps.mk_upd ?_; with_reducible assumption)

theorem setEpoch_kept {r₀ : State} (n : Nat) (second : Bool) (e : Option Nat) {s : State} (h_s : Keeps r₀ s) : Keeps r₀ (setEpoch n second e s) := by
  unfold setEpoch
  repeat' with_reducible first | assumption | apply setSlu_kept

theorem closeHome_kept {r₀ : State} (n : Nat) (second : Bool) {s : State} (h_s : Keeps r₀ s) : Keeps r₀ (closeHome n second s) := by
  unfold closeHome
  repeat' with_reducible first | assumption | apply setEpoch_kept | apply commitQ_kept

theorem putHome_kept {r₀ : State} (n : Nat) (second : Bool) (e w : Nat) {s : State} (h_s : Keeps r₀ s) : Keeps r₀ (putHome n second e w s) := by
  unfold putHome
  repeat' first
    | (with_reducible first | assumption | apply closeHome_kept | apply setEpoch_kept | apply writeQ_kept)
    | (with_reducible refine Keeps.of_snd ‹_› ?_)
    | (with_reducible refine Keeps.of_fst ‹_› ?_)
    | (with_reducible refine Keeps.foldl _ _ ?_ ?_)
    | (with_reducible refine Keeps.foldl_fst _ _ ?_ ?_)
    | (with_reducible refine Keeps.foldl_snd _ _ ?_ ?_)
    | (with_reducible refine Keeps.elim _ ?_ ?_)
    | intro _
    | split
    | (with_reducible refine Keeps.mk_upd ?_; first | (with_reducible first | assumption | apply closeHome_kept | apply setEpoch_kept | apply writeQ_kept) | split)

theorem queueEvent_kept {r₀ : State} (n : Nat) (second : Bool) (t w : Nat) {s : State} (h_s : Keeps r₀ s) : Keeps r₀ (queueEvent n second t w s) := by
  unfold queueEvent
  repeat' first
    | (with_reducible first | assumption | apply setQueue_kept | apply sluBump_kept | apply setSlu_kept | apply putHome_kept)
    | (with_reducible refine Keeps.of_snd ‹_› ?_)
    | (with_reducible refine Keeps.of_fst ‹_› ?_)
    | (with_reducible refine Keeps.foldl _ _ ?_ ?_)
    | (with_reducible refine Keeps.foldl_fst _ _ ?_ ?_)
    | (with_reducible refine Keeps.foldl_snd _ _ ?_ ?_)
    | (with_reducible refine Keeps.elim _ ?_ ?_)
    | intro _
    | split
    | (with_reducible refine Keeps.mk_upd ?_; first | (with_reducible first | assumption | apply setQueue_kept | apply sluBump_kept | apply setSlu_kept | apply putHome_kept) | split)

theorem queueService_kept {r₀ : State} (n t w : Nat) {s : State} (h_s : Keeps r₀ s) : Keeps r₀ (queueService n t w s) := by
  unfold queueService
  repeat' first
    | (with_reducible first | assumption | apply sluBump_kept | apply putHome_kept)
    | (with_reducible refine Keeps.of_snd ‹_› ?_)
    | (with_reducible refine Keeps.of_fst ‹_› ?_)
    | (with_reducible refine Keeps.foldl _ _ ?_ ?_)
    | (with_reducible refine Keeps.foldl_fst _ _ ?_ ?_)
    | (with_reducible refine Keeps.foldl_snd _ _ ?_ ?_)
    | (with_reducible refine Keeps.elim _ ?_ ?_)
    | intro _
    | split
    | (with_reducible refine Keeps.mk_upd ?_; first | (with_reducible first | assumption | apply sluBump_kept | apply putHome_kept) | split)

theorem homeEvent_kept {r₀ : State} (n x y : Nat) (pol : Bool) (t : Nat) {s : State} (h_s : Keeps r₀ s) : Keeps r₀ (homeEvent n x y pol t s) := by
  unfold homeEvent
  repeat' first
    | (with_reducible first | assumption | apply queueEvent_kept)
    | (with_reducible refine Keeps.of_snd ‹_› ?_)
    | (with_reducible refine Keeps.of_fst ‹_› ?_)
    | (with_reducible refine Keeps.foldl _ _ ?_ ?_)
    | (with_reducible refine Keeps.foldl_fst _ _ ?_ ?_)
    | (with_reducible refine Keeps.foldl_snd _ _ ?_ ?_)
    | (with_reducible refine Keeps.elim _ ?_ ?_)
    | intro _
    | split
    | (with_reducible refine Keeps.mk_upd ?_; first | (with_reducible first | assumption | apply queueEvent_kept) | split)

theorem limiter_kept {r₀ : State} (n : Nat) {s : State} (h_s : Keeps r₀ s) : Keeps r₀ (limiter n s).2 := by
  unfold limiter
  repeat' first
    | (with_reducible first | assumption | apply setSlu_kept | apply sluBump_kept)
    | (lift_lets
       intro x
       first
         | (have hx : Keeps r₀ x := by
               repeat' first
                 | (with_reducible first | assumption | apply setSlu_kept | apply sluBump_kept)
                 | (with_reducible refine Keeps.of_snd ‹_› ?_)
                 | (with_reducible refine Keeps.of_fst ‹_› ?_)
                 | (with_reducible refine Keeps.foldl _ _ ?_ ?_)
                 | (with_reducible refine Keeps.foldl_fst _ _ ?_ ?_)
                 | (with_reducible refine Keeps.foldl_snd _ _ ?_ ?_)
                 | (with_reducible refine Keeps.elim _ ?_ ?_)
                 | intro _
                 | split
                 | (with_reducible refine Keeps.mk_upd ?_; first | (with_reducible first | assumption | apply setSlu_kept | apply sluBump_kept) | split)
            clear_value x)
         | skip)
    | (with_reducible refine Keeps.of_snd ‹_› ?_)
    | (with_reducible refine Keeps.of_fst ‹_› ?_)
    | (with_reducible refine Keeps.foldl _ _ ?_ ?_)
    | (with_reducible refine Keeps.foldl_fst _ _ ?_ ?_)
    | (with_reducible refine Keeps.foldl_snd _ _ ?_ ?_)
    | (with_reducible refine Keeps.elim _ ?_ ?_)
    | intro _
    | split
    | (with_reducible refine Keeps.mk_upd ?_; first | (with_reducible first | assumption | apply setSlu_kept | apply sluBump_kept) | split)

theorem rateTokenAdd_kept {r₀ : State} (n : Nat) {s : State} (h_s : Keeps r₀ s) : Keeps r₀ (rateTokenAdd n s) := by
  unfold rateTokenAdd
  repeat' first
    | (with_reducible first | assumption | apply setSlu_kept)
    | (with_reducible refine Keeps.of_snd ‹_› ?_)
    | (with_reducible refine Keeps.of_fst ‹_› ?_)
    | (with_reducible refine Keeps.foldl _ _ ?_ ?_)
    | (with_reducible refine Keeps.foldl_fst _ _ ?_ ?_)
    | (with_reducible refine Keeps.foldl_snd _ _ ?_ ?_)
    | (with_reducible refine Keeps.elim _ ?_ ?_)
    | intro _
    | split
    | (with_reducible refine Keeps.mk_upd ?_; first | (with_reducible first | assumption | apply setSlu_kept) | split)

theorem rateInterval_kept {r₀ : State} (n : Nat) {s : State} (h_s : Keeps r₀ s) : Keeps r₀ (rateInterval n s) := by
  unfold rateInterval
  repeat' first
    | (with_reducible first | assumption | apply queueService_kept | apply closeHome_kept | apply setSlu_kept)
    | (lift_lets
       intro x
       first
         | (have hx : Keeps r₀ x := by
               repeat' first
                 | (with_reducible first | assumption | apply queueService_kept | apply closeHome_kept | apply setSlu_kept)
                 | (with_reducible refine Keeps.of_snd ‹_› ?_)
                 | (with_reducible refine Keeps.of_fst ‹_› ?_)
                 | (with_reducible refine Keeps.foldl _ _ ?_ ?_)
                 | (with_reducible refine Keeps.foldl_fst _ _ ?_ ?_)
                 | (with_reducible refine Keeps.foldl_snd _ _ ?_ ?_)
                 | (with_reducible refine Keeps.elim _ ?_ ?_)
                 | intro _
                 | split
                 | (with_reducible refine Keeps.mk_upd ?_; first | (with_reducible first | assumption | apply queueService_kept | apply closeHome_kept | apply setSlu_kept) | split)
            clear_value x)
         | skip)
    | (with_reducible refine Keeps.of_snd ‹_› ?_)
    | (with_reducible refine Keeps.of_fst ‹_› ?_)
    | (with_reducible refine Keeps.foldl _ _ ?_ ?_)
    | (with_reducible refine Keeps.foldl_fst _ _ ?_ ?_)
    | (with_reducible refine Keeps.foldl_snd _ _ ?_ ?_)
    | (with_reducible refine Keeps.elim _ ?_ ?_)
    | intro _
    | split
    | (with_reducible refine Keeps.mk_upd ?_; first | (with_reducible first | assumption | apply queueService_kept | apply closeHome_kept | apply setSlu_kept) | split)

theorem refractory_kept {r₀ : State} (n x y tUs : Nat) {s : State} (h_s : Keeps r₀ s) : Keeps r₀ (refractory n x y tUs s).2 := by
  unfold refractory
  repeat' first
    | (with_reducible first | assumption | apply setSlu_kept | apply sluBump_kept)
    | (lift_lets
       intro x
       first
         | (have hx : Keeps r₀ x := by
               repeat' first
                 | (with_reducible first | assumption | apply setSlu_kept | apply sluBump_kept)
                 | (with_reducible refine Keeps.of_snd ‹_› ?_)
                 | (with_reducible refine Keeps.of_fst ‹_› ?_)
                 | (with_reducible refine Keeps.foldl _ _ ?_ ?_)
                 | (with_reducible refine Keeps.foldl_fst _ _ ?_ ?_)
                 | (with_reducible refine Keeps.foldl_snd _ _ ?_ ?_)
                 | (with_reducible refine Keeps.elim _ ?_ ?_)
                 | intro _
                 | split
                 | (with_reducible refine Keeps.mk_upd ?_; first | (with_reducible first | assumption | apply setSlu_kept | apply sluBump_kept) | split)
            clear_value x)
         | skip)
    | (with_reducible refine Keeps.of_snd ‹_› ?_)
    | (with_reducible refine Keeps.of_fst ‹_› ?_)
    | (with_reducible refine Keeps.foldl _ _ ?_ ?_)
    | (with_reducible refine Keeps.foldl_fst _ _ ?_ ?_)
    | (with_reducible refine Keeps.foldl_snd _ _ ?_ ?_)
    | (with_reducible refine Keeps.elim _ ?_ ?_)
    | intro _
    | split
    | (with_reducible refine Keeps.mk_upd ?_; first | (with_reducible first | assumption | apply setSlu_kept | apply sluBump_kept) | split)

theorem flicker_kept {r₀ : State} (n x y tUs : Nat) (pol : Bool) {s : State} (h_s : Keeps r₀ s) : Keeps r₀ (flicker n x y tUs pol s).2 := by
  unfold flicker
  repeat' first
    | (with_reducible first | assumption | apply setSlu_kept | apply sluBump_kept)
    | (lift_lets
       intro x
       first
         | (have hx : Keeps r₀ x := by
               repeat' first
                 | (with_reducible first | assumption | apply setSlu_kept | apply sluBump_kept)
                 | (with_reducible refine Keeps.of_snd ‹_› ?_)
                 | (with_reducible refine Keeps.of_fst ‹_› ?_)
                 | (with_reducible refine Keeps.foldl _ _ ?_ ?_)
                 | (with_reducible refine Keeps.foldl_fst _ _ ?_ ?_)
                 | (with_reducible refine Keeps.foldl_snd _ _ ?_ ?_)
                 | (with_reducible refine Keeps.elim _ ?_ ?_)
                 | intro _
                 | split
                 | (with_reducible refine Keeps.mk_upd ?_; first | (with_reducible first | assumption | apply setSlu_kept | apply sluBump_kept) | split)
            clear_value x)
         | skip)
    | (with_reducible refine Keeps.of_snd ‹_› ?_)
    | (with_reducible refine Keeps.of_fst ‹_› ?_)
    | (with_reducible refine Keeps.foldl _ _ ?_ ?_)
    | (with_reducible refine Keeps.foldl_fst _ _ ?_ ?_)
    | (with_reducible refine Keeps.foldl_snd _ _ ?_ ?_)
    | (with_reducible refine Keeps.elim _ ?_ ?_)
    | intro _
    | split
    | (with_reducible refine Keeps.mk_upd ?_; first | (with_reducible first | assumption | apply setSlu_kept | apply sluBump_kept) | split)

theorem offerBin_kept {r₀ : State} (n x y : Nat) (pol : Bool) (t : Nat) {s : State} (h_s : Keeps r₀ s) : Keeps r₀ (offerBin n x y pol t s) := by
  unfold offerBin
  repeat' first | (with_reducible assumption) | split | (with_reducible refine Keeps.mk_upd ?_; with_reducible assumption)

theorem deliver_kept {r₀ : State} (n x y : Nat) (pol : Bool) (t : Nat) {s : State} (h_s : Keeps r₀ s) : Keeps r₀ (deliver n x y pol t s) := by
  unfold deliver
  repeat' first
    | (with_reducible first | assumption | apply sluBump_kept | apply limiter_kept | apply homeEvent_kept)
    | (with_reducible refine Keeps.of_snd ‹_› ?_)
    | (with_reducible refine Keeps.of_fst ‹_› ?_)
    | (with_reducible refine Keeps.foldl _ _ ?_ ?_)
    | (with_reducible refine Keeps.foldl_fst _ _ ?_ ?_)
    | (with_reducible refine Keeps.foldl_snd _ _ ?_ ?_)
    | (with_reducible refine Keeps.elim _ ?_ ?_)
    | intro _
    | split
    | (with_reducible refine Keeps.mk_upd ?_; first | (with_reducible first | assumption | apply sluBump_kept | apply limiter_kept | apply homeEvent_kept) | split)

theorem filterEvent_kept {r₀ : State} (n x y : Nat) (pol : Bool) (t : Nat) {s : State} (h_s : Keeps r₀ s) : Keeps r₀ (filterEvent n x y pol t s) := by
  unfold filterEvent
  repeat' first
    | (with_reducible first | assumption | apply sluBump_kept | apply refractory_kept | apply flicker_kept | apply deliver_kept | apply offerBin_kept | apply setSlu_kept)
    | (with_reducible refine Keeps.of_snd ‹_› ?_)
    | (with_reducible refine Keeps.of_fst ‹_› ?_)
    | (with_reducible refine Keeps.foldl _ _ ?_ ?_)
    | (with_reducible refine Keeps.foldl_fst _ _ ?_ ?_)
    | (with_reducible refine Keeps.foldl_snd _ _ ?_ ?_)
    | (with_reducible refine Keeps.elim _ ?_ ?_)
    | intro _
    | split
    | (with_reducible refine Keeps.mk_upd ?_; first | (with_reducible first | assumption | apply sluBump_kept | apply refractory_kept | apply flicker_kept | apply deliver_kept | apply offerBin_kept | apply setSlu_kept) | split)

theorem enterSuspect_kept {r₀ : State} (n : Nat) {s : State} (h_s : Keeps r₀ s) : Keeps r₀ (enterSuspect n s) := by
  unfold enterSuspect
  repeat' first
    | (with_reducible first | assumption | apply setSlu_kept | apply sluBump_kept)
    | (with_reducible refine Keeps.of_snd ‹_› ?_)
    | (with_reducible refine Keeps.of_fst ‹_› ?_)
    | (with_reducible refine Keeps.foldl _ _ ?_ ?_)
    | (with_reducible refine Keeps.foldl_fst _ _ ?_ ?_)
    | (with_reducible refine Keeps.foldl_snd _ _ ?_ ?_)
    | (with_reducible refine Keeps.elim _ ?_ ?_)
    | intro _
    | split
    | (with_reducible refine Keeps.mk_upd ?_; first | (with_reducible first | assumption | apply setSlu_kept | apply sluBump_kept) | split)

theorem pairUpdate_kept {r₀ : State} (n : Nat) (sk dk : Int) {s : State} (h_s : Keeps r₀ s) : Keeps r₀ (pairUpdate n sk dk s) := by
  unfold pairUpdate
  repeat' first
    | (with_reducible first | assumption | apply enterSuspect_kept | apply setSlu_kept)
    | (with_reducible refine Keeps.of_snd ‹_› ?_)
    | (with_reducible refine Keeps.of_fst ‹_› ?_)
    | (with_reducible refine Keeps.foldl _ _ ?_ ?_)
    | (with_reducible refine Keeps.foldl_fst _ _ ?_ ?_)
    | (with_reducible refine Keeps.foldl_snd _ _ ?_ ?_)
    | (with_reducible refine Keeps.elim _ ?_ ?_)
    | intro _
    | split
    | (with_reducible refine Keeps.mk_upd ?_; first | (with_reducible first | assumption | apply enterSuspect_kept | apply setSlu_kept) | split)

theorem driftMarker_kept {r₀ : State} (n : Nat) (tUs : Int) (q : Nat) {s : State} (h_s : Keeps r₀ s) : Keeps r₀ (driftMarker n tUs q s) := by
  unfold driftMarker
  repeat' first
    | (with_reducible first | assumption | apply setTime_kept | apply sluBump_kept | apply pairUpdate_kept)
    | (with_reducible refine Keeps.of_snd ‹_› ?_)
    | (with_reducible refine Keeps.of_fst ‹_› ?_)
    | (with_reducible refine Keeps.foldl _ _ ?_ ?_)
    | (with_reducible refine Keeps.foldl_fst _ _ ?_ ?_)
    | (with_reducible refine Keeps.foldl_snd _ _ ?_ ?_)
    | (with_reducible refine Keeps.elim _ ?_ ?_)
    | intro _
    | split
    | (with_reducible refine Keeps.mk_upd ?_; first | (with_reducible first | assumption | apply setTime_kept | apply sluBump_kept | apply pairUpdate_kept) | split)

theorem sensorEvent_kept {r₀ : State} (n x y : Nat) (pol : Bool) (tUs : Option Int) (sc : State × PktCtx) (h_sc : Keeps r₀ sc.1) : Keeps r₀ (sensorEvent n x y pol tUs sc).1 := by
  unfold sensorEvent
  repeat' first
    | (with_reducible first | assumption | apply sluBump_kept | apply filterEvent_kept)
    | split
    | (with_reducible refine Keeps.mk_upd ?_; with_reducible first | assumption | apply sluBump_kept | apply filterEvent_kept)

theorem newBase_kept {r₀ : State} (n width shift v : Nat) {s : State} (h_s : Keeps r₀ s) : Keeps r₀ (newBase n width shift v s) := by
  unfold newBase
  repeat' first
    | (with_reducible first | assumption | apply setSlu_kept | apply sluBump_kept | apply enterSuspect_kept)
    | (with_reducible refine Keeps.of_snd ‹_› ?_)
    | (with_reducible refine Keeps.of_fst ‹_› ?_)
    | (with_reducible refine Keeps.foldl _ _ ?_ ?_)
    | (with_reducible refine Keeps.foldl_fst _ _ ?_ ?_)
    | (with_reducible refine Keeps.foldl_snd _ _ ?_ ?_)
    | (with_reducible refine Keeps.elim _ ?_ ?_)
    | intro _
    | split
    | (with_reducible refine Keeps.mk_upd ?_; first | (with_reducible first | assumption | apply setSlu_kept | apply sluBump_kept | apply enterSuspect_kept) | split)

theorem sensorStatusNotice_kept {r₀ : State} (n w : Nat) {s : State} (h_s : Keeps r₀ s) : Keeps r₀ (sensorStatusNotice n w s) := by
  unfold sensorStatusNotice
  repeat' with_reducible first | assumption | apply notice_kept

theorem serviceWord_kept {r₀ : State} (n w : Nat) (sc : State × PktCtx) (h_sc : Keeps r₀ sc.1) : Keeps r₀ (serviceWord n w sc).1 := by
  unfold serviceWord
  repeat' first
    | (with_reducible first | assumption | apply sluBump_kept | apply driftMarker_kept | apply queueService_kept | apply sensorStatusNotice_kept)
    | (lift_lets
       intro x
       first
         | (have hx : Keeps r₀ x := by
               repeat' first
                 | (with_reducible first | assumption | apply sluBump_kept | apply driftMarker_kept | apply queueService_kept | apply sensorStatusNotice_kept)
                 | (with_reducible refine Keeps.of_snd ‹_› ?_)
                 | (with_reducible refine Keeps.of_fst ‹_› ?_)
                 | (with_reducible refine Keeps.foldl _ _ ?_ ?_)
                 | (with_reducible refine Keeps.foldl_fst _ _ ?_ ?_)
                 | (with_reducible refine Keeps.foldl_snd _ _ ?_ ?_)
                 | (with_reducible refine Keeps.elim _ ?_ ?_)
                 | intro _
                 | split
                 | (with_reducible refine Keeps.mk_upd ?_; first | (with_reducible first | assumption | apply sluBump_kept | apply driftMarker_kept | apply queueService_kept | apply sensorStatusNotice_kept) | split)
            clear_value x)
         | skip)
    | (with_reducible refine Keeps.of_snd ‹_› ?_)
    | (with_reducible refine Keeps.of_fst ‹_› ?_)
    | (with_reducible refine Keeps.foldl _ _ ?_ ?_)
    | (with_reducible refine Keeps.foldl_fst _ _ ?_ ?_)
    | (with_reducible refine Keeps.foldl_snd _ _ ?_ ?_)
    | (with_reducible refine Keeps.elim _ ?_ ?_)
    | intro _
    | split
    | (with_reducible refine Keeps.mk_upd ?_; first | (with_reducible first | assumption | apply sluBump_kept | apply driftMarker_kept | apply queueService_kept | apply sensorStatusNotice_kept) | split)

theorem runEvents_kept {r₀ : State} (n : Nat) (x : Int) (y : Nat) (pol : Bool) (t : Option Int) (mask k : Nat) :
    ∀ (i : Nat) (sc : State × PktCtx), Keeps r₀ sc.1 → Keeps r₀ (runEvents n x y pol t mask k i sc).1 := by
  induction k with
  | zero => intro i sc h; exact h
  | succ k ih =>
    intro i sc h
    unfold runEvents
    refine ih _ _ ?_
    split
    · exact sensorEvent_kept _ _ _ _ _ _ h
    · exact h

theorem evwWord_kept {r₀ : State} (n : Nat) (sc : State × PktCtx) (w : Nat) (h_sc : Keeps r₀ sc.1) : Keeps r₀ (evwWord n sc w).1 := by
  obtain ⟨s, c⟩ := sc
  rcases e : evwWord n (s, c) w with ⟨t, d⟩
  show Keeps r₀ t
  rw [show t = (evwWord n (s, c) w).1 by rw [e]]
  clear e
  unfold evwWord
  dsimp only
  cases c.run with
  | some h =>
    dsimp only
    exact runEvents_kept _ _ _ _ _ _ _ _ _ h_sc
  | none =>
    dsimp only
    split
    · exact sensorEvent_kept _ _ _ _ _ _ h_sc
    · split
      · exact newBase_kept _ _ _ _ h_sc
      · split
        · exact h_sc
        · split
          · exact serviceWord_kept _ _ _ h_sc
          · exact sluBump_kept _ _ h_sc

theorem formatWord_kept {r₀ : State} (n : Nat) (sc : State × PktCtx) (w : Nat) (h_sc : Keeps r₀ sc.1) : Keeps r₀ (formatWord n sc w).1 := by
  obtain ⟨s, c⟩ := sc
  unfold formatWord
  dsimp only
  cases findLayout s n w with
  | none => exact sluBump_kept _ _ h_sc
  | some i =>
    dsimp only
    split
    · exact sensorEvent_kept _ _ _ _ _ _ h_sc
    · exact newBase_kept _ _ _ _ h_sc
    · exact runEvents_kept _ _ _ _ _ _ _ _ _ h_sc
    · split
      · exact sluBump_kept _ _ h_sc
      · exact queueService_kept _ _ _ h_sc
    · exact h_sc

theorem taintedWord_kept {r₀ : State} (n k : Nat) (bad flawed : List Nat) (step : State × PktCtx → Nat → State × PktCtx) (sc : State × PktCtx) (e : Nat × Nat) (h_step : ∀ x k, Keeps r₀ x.1 → Keeps r₀ (step x k).1) (h_sc : Keeps r₀ sc.1) : Keeps r₀ (taintedWord n k bad flawed step sc e).1 := by
  unfold taintedWord
  repeat' first
    | (with_reducible first | assumption | apply reportResidue_kept | apply setSlu_kept | apply h_step)
    | split
    | (with_reducible refine Keeps.mk_upd ?_; with_reducible first | assumption | apply reportResidue_kept | apply setSlu_kept | apply h_step)

theorem decodePacket_kept {r₀ : State} (n sot : Nat) (data : List Byte) {s : State} (bad flawed : List Nat) (h_s : Keeps r₀ s) : Keeps r₀ (decodePacket n sot data s bad flawed) := by
  unfold decodePacket
  repeat' first
    | (with_reducible first | assumption | apply formatWord_kept | apply evwWord_kept | apply taintedWord_kept | apply sluBump_kept | apply closeHome_kept)
    | (with_reducible refine Keeps.of_snd ‹_› ?_)
    | (with_reducible refine Keeps.of_fst ‹_› ?_)
    | (with_reducible refine Keeps.foldl _ _ ?_ ?_)
    | (with_reducible refine Keeps.foldl_fst _ _ ?_ ?_)
    | (with_reducible refine Keeps.foldl_snd _ _ ?_ ?_)
    | (with_reducible refine Keeps.elim _ ?_ ?_)
    | intro _
    | split
    | (with_reducible refine Keeps.mk_upd ?_; first | (with_reducible first | assumption | apply formatWord_kept | apply evwWord_kept | apply taintedWord_kept | apply sluBump_kept | apply closeHome_kept) | split)

theorem fltWritten_kept {r₀ : State} (n oldMode : Nat) {s : State} (h_s : Keeps r₀ s) : Keeps r₀ (fltWritten n oldMode s) := by
  unfold fltWritten
  repeat' first
    | (with_reducible first | assumption | apply setSlu_kept)
    | (with_reducible refine Keeps.of_snd ‹_› ?_)
    | (with_reducible refine Keeps.of_fst ‹_› ?_)
    | (with_reducible refine Keeps.foldl _ _ ?_ ?_)
    | (with_reducible refine Keeps.foldl_fst _ _ ?_ ?_)
    | (with_reducible refine Keeps.foldl_snd _ _ ?_ ?_)
    | (with_reducible refine Keeps.elim _ ?_ ?_)
    | intro _
    | split
    | (with_reducible refine Keeps.mk_upd ?_; first | (with_reducible first | assumption | apply setSlu_kept) | split)

theorem limitsChanged_kept {r₀ : State} (n : Nat) {s : State} (h_s : Keeps r₀ s) : Keeps r₀ (limitsChanged n s) := by
  unfold limitsChanged
  repeat' with_reducible first | assumption | apply setQueue_kept

theorem sourceChange_kept {r₀ : State} (n : Nat) {s : State} (h_s : Keeps r₀ s) : Keeps r₀ (sourceChange n s) := by
  unfold sourceChange
  repeat' first
    | (with_reducible first | assumption | apply setSlu_kept | apply setTime_kept)
    | (with_reducible refine Keeps.of_snd ‹_› ?_)
    | (with_reducible refine Keeps.of_fst ‹_› ?_)
    | (with_reducible refine Keeps.foldl _ _ ?_ ?_)
    | (with_reducible refine Keeps.foldl_fst _ _ ?_ ?_)
    | (with_reducible refine Keeps.foldl_snd _ _ ?_ ?_)
    | (with_reducible refine Keeps.elim _ ?_ ?_)
    | intro _
    | split
    | (with_reducible refine Keeps.mk_upd ?_; first | (with_reducible first | assumption | apply setSlu_kept | apply setTime_kept) | split)

theorem packetBoundary_kept {r₀ : State} (n : Nat) {s : State} (h_s : Keeps r₀ s) : Keeps r₀ (packetBoundary n s) := by
  unfold packetBoundary
  repeat' with_reducible first | assumption | apply setSlu_kept | apply sourceChange_kept | apply fltWritten_kept | apply limitsChanged_kept

theorem waitPacket_kept {r₀ : State} (n : Nat) (w : Waiting) {s : State} (h_s : Keeps r₀ s) : Keeps r₀ (waitPacket n w s) := by
  unfold waitPacket
  repeat' with_reducible first | assumption | apply setSlu_kept

theorem goodHeader_kept {r₀ : State} (n : Nat) (ecc : EccResult) {s : State} (h_s : Keeps r₀ s) : Keeps r₀ (goodHeader n ecc s) := by
  unfold goodHeader
  repeat' first
    | (with_reducible first | assumption | apply setSlu_kept | apply sluBump_kept)
    | split
    | (with_reducible refine Keeps.mk_upd ?_; with_reducible first | assumption | apply setSlu_kept | apply sluBump_kept)

theorem eventPacket_kept {r₀ : State} (n sot : Nat) (crcOk : Bool) (data : List Byte) (flawed : List Nat) {s : State} (h_s : Keeps r₀ s) : Keeps r₀ (eventPacket n sot crcOk data flawed s) := by
  unfold eventPacket
  repeat' first
    | (with_reducible first | assumption | apply sluBump_kept | apply waitPacket_kept | apply decodePacket_kept)
    | (with_reducible refine Keeps.of_snd ‹_› ?_)
    | (with_reducible refine Keeps.of_fst ‹_› ?_)
    | (with_reducible refine Keeps.foldl _ _ ?_ ?_)
    | (with_reducible refine Keeps.foldl_fst _ _ ?_ ?_)
    | (with_reducible refine Keeps.foldl_snd _ _ ?_ ?_)
    | (with_reducible refine Keeps.elim _ ?_ ?_)
    | intro _
    | split
    | (with_reducible refine Keeps.mk_upd ?_; first | (with_reducible first | assumption | apply sluBump_kept | apply waitPacket_kept | apply decodePacket_kept) | split)

theorem pairTimeout_kept {r₀ : State} (n : Nat) {s : State} (h_s : Keeps r₀ s) : Keeps r₀ (pairTimeout n s) := by
  unfold pairTimeout
  repeat' first
    | (with_reducible first | assumption | apply enterSuspect_kept)
    | (with_reducible refine Keeps.of_snd ‹_› ?_)
    | (with_reducible refine Keeps.of_fst ‹_› ?_)
    | (with_reducible refine Keeps.foldl _ _ ?_ ?_)
    | (with_reducible refine Keeps.foldl_fst _ _ ?_ ?_)
    | (with_reducible refine Keeps.foldl_snd _ _ ?_ ?_)
    | (with_reducible refine Keeps.elim _ ?_ ?_)
    | intro _
    | split
    | (with_reducible refine Keeps.mk_upd ?_; first | (with_reducible first | assumption | apply enterSuspect_kept) | split)

theorem refractSweep_kept {r₀ : State} (n cell : Nat) {s : State} (h_s : Keeps r₀ s) : Keeps r₀ (refractSweep n cell s) := by
  unfold refractSweep
  repeat' first
    | (with_reducible first | assumption | apply setSlu_kept)
    | (with_reducible refine Keeps.of_snd ‹_› ?_)
    | (with_reducible refine Keeps.of_fst ‹_› ?_)
    | (with_reducible refine Keeps.foldl _ _ ?_ ?_)
    | (with_reducible refine Keeps.foldl_fst _ _ ?_ ?_)
    | (with_reducible refine Keeps.foldl_snd _ _ ?_ ?_)
    | (with_reducible refine Keeps.elim _ ?_ ?_)
    | intro _
    | split
    | (with_reducible refine Keeps.mk_upd ?_; first | (with_reducible first | assumption | apply setSlu_kept) | split)

theorem linkUpTimeout_kept {r₀ : State} (n : Nat) {s : State} (h_s : Keeps r₀ s) : Keeps r₀ (linkUpTimeout n s) := by
  unfold linkUpTimeout
  repeat' first
    | (with_reducible first | assumption | apply setSlu_kept)
    | (with_reducible refine Keeps.of_snd ‹_› ?_)
    | (with_reducible refine Keeps.of_fst ‹_› ?_)
    | (with_reducible refine Keeps.foldl _ _ ?_ ?_)
    | (with_reducible refine Keeps.foldl_fst _ _ ?_ ?_)
    | (with_reducible refine Keeps.foldl_snd _ _ ?_ ?_)
    | (with_reducible refine Keeps.elim _ ?_ ?_)
    | intro _
    | split
    | (with_reducible refine Keeps.mk_upd ?_; first | (with_reducible first | assumption | apply setSlu_kept) | split)

theorem portEnable_kept {r₀ : State} (n : Nat) {s : State} (h_s : Keeps r₀ s) : Keeps r₀ (portEnable n s) := by
  unfold portEnable
  repeat' with_reducible first | assumption | apply setQueue_kept | apply setSlu_kept | apply setTime_kept

theorem dropFrame_kept {r₀ : State} (n : Nat) {s : State} (h_s : Keeps r₀ s) : Keeps r₀ (dropFrame n s) := by
  unfold dropFrame
  repeat' first
    | (with_reducible first | assumption | apply sluBump_kept | apply setSlu_kept)
    | split
    | (with_reducible refine Keeps.mk_upd ?_; with_reducible first | assumption | apply sluBump_kept | apply setSlu_kept)

theorem portDisable_kept {r₀ : State} (n : Nat) {s : State} (h_s : Keeps r₀ s) : Keeps r₀ (portDisable n s) := by
  unfold portDisable
  repeat' with_reducible first | assumption | apply dropFrame_kept | apply closeHome_kept | apply setSlu_kept

theorem i3cIbi_kept {r₀ : State} (n target : Nat) (data : List Byte) {s : State} (h_s : Keeps r₀ s) : Keeps r₀ (i3cIbi n target data s) := by
  unfold i3cIbi
  repeat' with_reducible first | assumption | apply notice_kept

end Sys2Proof.Machine
end

