-- ==== Sys2Proof/Laws/KeptInertial.lean ====
section
/-! SUPPORT. What the operations of Machine/Inertial.lean keep: the queue, canonical forms, burnt fuses. -/
namespace Sys2Proof.Machine

theorem inrBump_kept {r₀ : State} (ch w : Nat) {s : State} (h_s : Keeps r₀ s) : Keeps r₀ (inrBump ch w s) := by
  unfold inrBump
  repeat' with_reducible first | assumption | apply bump_kept

theorem setInr_kept {r₀ : State} {s : State} (ch : Nat) (v : InrCh) (h_s : Keeps r₀ s) : Keeps r₀ (setInr s ch v) := by
  unfold setInr
  repeat' first | (with_reducible assumption) | split | (with_reducible refine Keeps.mk_upd ?_; with_reducible assumption)

theorem inertialNotice_kept {r₀ : State} (ch path : Nat) {s : State} (h_s : Keeps r₀ s) : Keeps r₀ (inertialNotice ch path s) := by
  unfold inertialNotice
  repeat' with_reducible first | assumption | apply notice_kept

theorem failPath_kept {r₀ : State} (ch path : Nat) {s : State} (h_s : Keeps r₀ s) : Keeps r₀ (failPath ch path s) := by
  unfold failPath
  repeat' first
    | (with_reducible first | assumption | apply inertialNotice_kept | apply inrBump_kept | apply setInr_kept)
    | (with_reducible refine Keeps.of_snd ‹_› ?_)
    | (with_reducible refine Keeps.of_fst ‹_› ?_)
    | (with_reducible refine Keeps.foldl _ _ ?_ ?_)
    | (with_reducible refine Keeps.foldl_fst _ _ ?_ ?_)
    | (with_reducible refine Keeps.foldl_snd _ _ ?_ ?_)
    | (with_reducible refine Keeps.elim _ ?_ ?_)
    | intro _
    | split
    | (with_reducible refine Keeps.mk_upd ?_; first | (with_reducible first | assumption | apply inertialNotice_kept | apply inrBump_kept | apply setInr_kept) | split)

theorem inputPeriod_kept {r₀ : State} (e : Nat) (balls : List Nat) (bad : List (Nat × Nat)) {s : State} (h_s : Keeps r₀ s) : Keeps r₀ (inputPeriod e balls bad s) := by
  unfold inputPeriod
  repeat' first
    | (with_reducible first | assumption | apply setInr_kept | apply failPath_kept)
    | (with_reducible refine Keeps.of_snd ‹_› ?_)
    | (with_reducible refine Keeps.of_fst ‹_› ?_)
    | (with_reducible refine Keeps.foldl _ _ ?_ ?_)
    | (with_reducible refine Keeps.foldl_fst _ _ ?_ ?_)
    | (with_reducible refine Keeps.foldl_snd _ _ ?_ ?_)
    | (with_reducible refine Keeps.elim _ ?_ ?_)
    | intro _
    | split
    | (with_reducible refine Keeps.mk_upd ?_; first | (with_reducible first | assumption | apply setInr_kept | apply failPath_kept) | split)

theorem resetChan_kept {r₀ : State} (ch : Nat) (stillBad : List Nat) {s : State} (h_s : Keeps r₀ s) : Keeps r₀ (resetChan ch stillBad s) := by
  unfold resetChan
  repeat' with_reducible first | assumption | apply inrBump_kept | apply setInr_kept

theorem inrOutput_kept {r₀ : State} (ch : Nat) {s : State} (h_s : Keeps r₀ s) : Keeps r₀ (inrOutput ch s) := by
  unfold inrOutput
  repeat' first
    | (with_reducible first | assumption | apply setInr_kept | apply inrBump_kept | apply offerEntry_kept)
    | (with_reducible refine Keeps.of_snd ‹_› ?_)
    | (with_reducible refine Keeps.of_fst ‹_› ?_)
    | (with_reducible refine Keeps.foldl _ _ ?_ ?_)
    | (with_reducible refine Keeps.foldl_fst _ _ ?_ ?_)
    | (with_reducible refine Keeps.foldl_snd _ _ ?_ ?_)
    | (with_reducible refine Keeps.elim _ ?_ ?_)
    | intro _
    | split
    | (with_reducible refine Keeps.mk_upd ?_; first | (with_reducible first | assumption | apply setInr_kept | apply inrBump_kept | apply offerEntry_kept) | split)

theorem scheduleReset_kept {r₀ : State} (e : Nat) {s : State} (h_s : Keeps r₀ s) : Keeps r₀ (scheduleReset e s) := by
  unfold scheduleReset
  repeat' first | (with_reducible assumption) | split | (with_reducible refine Keeps.mk_upd ?_; with_reducible assumption)

theorem syncInertEdge_kept {r₀ : State} {s : State} (h_s : Keeps r₀ s) : Keeps r₀ (syncInertEdge s) := by
  unfold syncInertEdge
  repeat' first
    | (with_reducible first | assumption | apply setTime_kept | apply scheduleReset_kept)
    | (with_reducible refine Keeps.of_snd ‹_› ?_)
    | (with_reducible refine Keeps.of_fst ‹_› ?_)
    | (with_reducible refine Keeps.foldl _ _ ?_ ?_)
    | (with_reducible refine Keeps.foldl_fst _ _ ?_ ?_)
    | (with_reducible refine Keeps.foldl_snd _ _ ?_ ?_)
    | (with_reducible refine Keeps.elim _ ?_ ?_)
    | intro _
    | split
    | (with_reducible refine Keeps.mk_upd ?_; first | (with_reducible first | assumption | apply setTime_kept | apply scheduleReset_kept) | split)

theorem synchronisingReset_kept {r₀ : State} (e : Nat) (stillBad : List (Nat × Nat)) {s : State} (h_s : Keeps r₀ s) : Keeps r₀ (synchronisingReset e stillBad s) := by
  unfold synchronisingReset
  repeat' first
    | (with_reducible first | assumption | apply resetChan_kept)
    | (with_reducible refine Keeps.of_snd ‹_› ?_)
    | (with_reducible refine Keeps.of_fst ‹_› ?_)
    | (with_reducible refine Keeps.foldl _ _ ?_ ?_)
    | (with_reducible refine Keeps.foldl_fst _ _ ?_ ?_)
    | (with_reducible refine Keeps.foldl_snd _ _ ?_ ?_)
    | (with_reducible refine Keeps.elim _ ?_ ?_)
    | intro _
    | split
    | (with_reducible refine Keeps.mk_upd ?_; first | (with_reducible first | assumption | apply resetChan_kept) | split)

theorem inrChWritten_kept {r₀ : State} (ch old : Nat) {s : State} (h_s : Keeps r₀ s) : Keeps r₀ (inrChWritten ch old s) := by
  unfold inrChWritten
  repeat' first | (with_reducible first | assumption | apply setInr_kept) | split | (with_reducible refine Keeps.mk_upd ?_; with_reducible first | assumption | apply setInr_kept)

end Sys2Proof.Machine
end

