-- ==== Sys2Proof/Laws/KeptSurface.lean ====
section
/-! SUPPORT. What the operations of Machine/Surface.lean keep: the queue, canonical forms, burnt fuses. -/
namespace Sys2Proof.Machine

theorem srfBump_kept {r₀ : State} (c w : Nat) {s : State} (h_s : Keeps r₀ s) : Keeps r₀ (srfBump c w s) := by
  unfold srfBump
  repeat' with_reducible first | assumption | apply bump_kept

theorem srfBumpN_kept {r₀ : State} (n c w : Nat) {s : State} (h_s : Keeps r₀ s) : Keeps r₀ (srfBumpN n c w s) := by
  unfold srfBumpN
  repeat' with_reducible first | assumption | apply bumpN_kept

theorem setSrf_kept {r₀ : State} {s : State} (c : Nat) (v : Srf) (h_s : Keeps r₀ s) : Keeps r₀ (setSrf s c v) := by
  unfold setSrf
  repeat' first | (with_reducible assumption) | split | (with_reducible refine Keeps.mk_upd ?_; with_reducible assumption)

theorem setSp_kept {r₀ : State} {s : State} (c p : Nat) (v : SrfPort) (h_s : Keeps r₀ s) : Keeps r₀ (setSp s c p v) := by
  unfold setSp
  repeat' with_reducible first | assumption | apply setSrf_kept

theorem srfEmit_kept {r₀ : State} (c prefix_ cls job kind : Nat) (pol : Bool) (x y pay : Nat) (poison : Bool) {s : State} (h_s : Keeps r₀ s) : Keeps r₀ (srfEmit c prefix_ cls job kind pol x y pay poison s) := by
  unfold srfEmit
  repeat' first
    | (with_reducible first | assumption | apply srfBump_kept | apply putCq_kept)
    | split
    | (with_reducible refine Keeps.mk_upd ?_; with_reducible first | assumption | apply srfBump_kept | apply putCq_kept)

theorem srfFlow_kept {r₀ : State} (c prefix_ cls job : Nat) (pol : Bool) (x y t : Nat) (vx vy : Int) (full conf : Nat) (poison : Bool) {s : State} (h_s : Keeps r₀ s) : Keeps r₀ (srfFlow c prefix_ cls job pol x y t vx vy full conf poison s) := by
  unfold srfFlow
  repeat' with_reducible first | assumption | apply srfEmit_kept

theorem gyroRecord_kept {r₀ : State} (c ch : Nat) (parBad : Bool) {s : State} (h_s : Keeps r₀ s) : Keeps r₀ (gyroRecord c ch parBad s) := by
  unfold gyroRecord
  repeat' first
    | (with_reducible first | assumption | apply crossParity_kept | apply srfBump_kept | apply setSrf_kept)
    | (with_reducible refine Keeps.of_snd ‹_› ?_)
    | (with_reducible refine Keeps.of_fst ‹_› ?_)
    | (with_reducible refine Keeps.foldl _ _ ?_ ?_)
    | (with_reducible refine Keeps.foldl_fst _ _ ?_ ?_)
    | (with_reducible refine Keeps.foldl_snd _ _ ?_ ?_)
    | (with_reducible refine Keeps.elim _ ?_ ?_)
    | intro _
    | split
    | (with_reducible refine Keeps.mk_upd ?_; first | (with_reducible first | assumption | apply crossParity_kept | apply srfBump_kept | apply setSrf_kept) | split)

theorem derotate_kept {r₀ : State} (c e x y tFull : Nat) {s : State} (h_s : Keeps r₀ s) : Keeps r₀ (derotate c e x y tFull s).2 := by
  unfold derotate
  repeat' first
    | (with_reducible first | assumption | apply srfBump_kept | apply setSrf_kept)
    | (lift_lets
       intro x
       first
         | (have hx : Keeps r₀ x := by
               repeat' first
                 | (with_reducible first | assumption | apply srfBump_kept | apply setSrf_kept)
                 | (with_reducible refine Keeps.of_snd ‹_› ?_)
                 | (with_reducible refine Keeps.of_fst ‹_› ?_)
                 | (with_reducible refine Keeps.foldl _ _ ?_ ?_)
                 | (with_reducible refine Keeps.foldl_fst _ _ ?_ ?_)
                 | (with_reducible refine Keeps.foldl_snd _ _ ?_ ?_)
                 | (with_reducible refine Keeps.elim _ ?_ ?_)
                 | intro _
                 | split
                 | (with_reducible refine Keeps.mk_upd ?_; first | (with_reducible first | assumption | apply srfBump_kept | apply setSrf_kept) | split)
            clear_value x)
         | skip)
    | (with_reducible refine Keeps.of_snd ‹_› ?_)
    | (with_reducible refine Keeps.of_fst ‹_› ?_)
    | (with_reducible refine Keeps.foldl _ _ ?_ ?_)
    | (with_reducible refine Keeps.foldl_fst _ _ ?_ ?_)
    | (with_reducible refine Keeps.foldl_snd _ _ ?_ ?_)
    | (with_reducible refine Keeps.elim _ ?_ ?_)
    | intro _
    | split
    | (with_reducible refine Keeps.mk_upd ?_; first | (with_reducible first | assumption | apply srfBump_kept | apply setSrf_kept) | split)

theorem seWindow_kept {r₀ : State} (c : Nat) (w : Nat) (g : Geo) (ev : SeEv) (x y : Nat) {s : State} (h_s : Keeps r₀ s) : Keeps r₀ (seWindow c w g ev x y s) := by
  unfold seWindow
  repeat' first
    | (with_reducible first | assumption | apply srfBumpN_kept | apply setSrf_kept | apply srfBump_kept | apply srfEmit_kept | apply srfFlow_kept)
    | (with_reducible refine Keeps.of_snd ‹_› ?_)
    | (with_reducible refine Keeps.of_fst ‹_› ?_)
    | (with_reducible refine Keeps.foldl _ _ ?_ ?_)
    | (with_reducible refine Keeps.foldl_fst _ _ ?_ ?_)
    | (with_reducible refine Keeps.foldl_snd _ _ ?_ ?_)
    | (with_reducible refine Keeps.elim _ ?_ ?_)
    | intro _
    | split
    | (with_reducible refine Keeps.mk_upd ?_; first | (with_reducible first | assumption | apply srfBumpN_kept | apply setSrf_kept | apply srfBump_kept | apply srfEmit_kept | apply srfFlow_kept) | split)

theorem seHandle_kept {r₀ : State} (c : Nat) (w : Nat) (g : Geo) (ev : SeEv) {s : State} (h_s : Keeps r₀ s) : Keeps r₀ (seHandle c w g ev s) := by
  unfold seHandle
  repeat' first
    | (with_reducible first | assumption | apply srfBump_kept | apply derotate_kept | apply srfEmit_kept | apply seWindow_kept)
    | (with_reducible refine Keeps.of_snd ‹_› ?_)
    | (with_reducible refine Keeps.of_fst ‹_› ?_)
    | (with_reducible refine Keeps.foldl _ _ ?_ ?_)
    | (with_reducible refine Keeps.foldl_fst _ _ ?_ ?_)
    | (with_reducible refine Keeps.foldl_snd _ _ ?_ ?_)
    | (with_reducible refine Keeps.elim _ ?_ ?_)
    | intro _
    | split
    | (with_reducible refine Keeps.mk_upd ?_; first | (with_reducible first | assumption | apply srfBump_kept | apply derotate_kept | apply srfEmit_kept | apply seWindow_kept) | split)

theorem seStart_kept {r₀ : State} (c p : Nat) {s : State} (h_s : Keeps r₀ s) : Keeps r₀ (seStart c p s) := by
  unfold seStart
  repeat' first
    | (with_reducible first | assumption | apply setSrf_kept | apply setSp_kept)
    | split
    | (with_reducible refine Keeps.mk_upd ?_; with_reducible first | assumption | apply setSrf_kept | apply setSp_kept)

theorem seTaken_kept {r₀ : State} (c : Nat) (w : QWord) {s : State} (h_s : Keeps r₀ s) : Keeps r₀ (seTaken c w s) := by
  unfold seTaken
  repeat' first
    | (with_reducible first | assumption | apply setSrf_kept | apply consumePoison_kept)
    | split
    | (with_reducible refine Keeps.mk_upd ?_; with_reducible first | assumption | apply setSrf_kept | apply consumePoison_kept)

theorem seEvent_kept {r₀ : State} (c p : Nat) (flaw : Bool) {s : State} (h_s : Keeps r₀ s) : Keeps r₀ (seEvent c p flaw s) := by
  unfold seEvent
  repeat' first
    | (with_reducible first | assumption | apply srfBump_kept | apply seStart_kept | apply takeQ_kept | apply reportResidue_kept | apply seTaken_kept | apply seHandle_kept)
    | (with_reducible refine Keeps.of_snd ‹_› ?_)
    | (with_reducible refine Keeps.of_fst ‹_› ?_)
    | (with_reducible refine Keeps.foldl _ _ ?_ ?_)
    | (with_reducible refine Keeps.foldl_fst _ _ ?_ ?_)
    | (with_reducible refine Keeps.foldl_snd _ _ ?_ ?_)
    | (with_reducible refine Keeps.elim _ ?_ ?_)
    | intro _
    | split
    | (with_reducible refine Keeps.mk_upd ?_; first | (with_reducible first | assumption | apply srfBump_kept | apply seStart_kept | apply takeQ_kept | apply reportResidue_kept | apply seTaken_kept | apply seHandle_kept) | split)

theorem seServiceWord_kept {r₀ : State} (c p : Nat) {s : State} (h_s : Keeps r₀ s) : Keeps r₀ (seServiceWord c p s) := by
  unfold seServiceWord
  repeat' first
    | (with_reducible first | assumption | apply srfBump_kept | apply seStart_kept | apply takeQ_kept | apply setSp_kept | apply offerEntry_kept | apply seTaken_kept)
    | (with_reducible refine Keeps.of_snd ‹_› ?_)
    | (with_reducible refine Keeps.of_fst ‹_› ?_)
    | (with_reducible refine Keeps.foldl _ _ ?_ ?_)
    | (with_reducible refine Keeps.foldl_fst _ _ ?_ ?_)
    | (with_reducible refine Keeps.foldl_snd _ _ ?_ ?_)
    | (with_reducible refine Keeps.elim _ ?_ ?_)
    | intro _
    | split
    | (with_reducible refine Keeps.mk_upd ?_; first | (with_reducible first | assumption | apply srfBump_kept | apply seStart_kept | apply takeQ_kept | apply setSp_kept | apply offerEntry_kept | apply seTaken_kept) | split)

theorem apertureMerge_kept {r₀ : State} (c : Nat) (flaw : Bool) {s : State} (h_s : Keeps r₀ s) : Keeps r₀ (apertureMerge c flaw s) := by
  unfold apertureMerge
  dsimp only
  repeat' first
    | (with_reducible first | assumption | apply setSrf_kept | apply srfBumpN_kept | apply reportResidue_kept | apply srfBump_kept | apply srfFlow_kept)
    | (with_reducible refine Keeps.of_snd ‹_› ?_)
    | (with_reducible refine Keeps.of_fst ‹_› ?_)
    | (with_reducible refine Keeps.foldl _ _ ?_ ?_)
    | (with_reducible refine Keeps.foldl_fst _ _ ?_ ?_)
    | (with_reducible refine Keeps.foldl_snd _ _ ?_ ?_)
    | (with_reducible refine Keeps.elim _ ?_ ?_)
    | intro _
    | split
    | (with_reducible refine Keeps.mk_upd ?_; first | (with_reducible first | assumption | apply setSrf_kept | apply srfBumpN_kept | apply reportResidue_kept | apply srfBump_kept | apply srfFlow_kept) | split)
    | (with_reducible refine Keeps.mk_sec ?_ (.same rfl rfl rfl rfl rfl rfl rfl rfl rfl rfl rfl); first | (with_reducible first | assumption | apply setSrf_kept | apply srfBumpN_kept | apply reportResidue_kept | apply srfBump_kept | apply srfFlow_kept) | split)

theorem surfaceSweep_kept {r₀ : State} (c : Nat) {s : State} (h_s : Keeps r₀ s) : Keeps r₀ (surfaceSweep c s) := by
  unfold surfaceSweep
  repeat' first
    | (with_reducible first | assumption | apply setSrf_kept | apply srfBump_kept)
    | (with_reducible refine Keeps.of_snd ‹_› ?_)
    | (with_reducible refine Keeps.of_fst ‹_› ?_)
    | (with_reducible refine Keeps.foldl _ _ ?_ ?_)
    | (with_reducible refine Keeps.foldl_fst _ _ ?_ ?_)
    | (with_reducible refine Keeps.foldl_snd _ _ ?_ ?_)
    | (with_reducible refine Keeps.elim _ ?_ ?_)
    | intro _
    | split
    | (with_reducible refine Keeps.mk_upd ?_; first | (with_reducible first | assumption | apply setSrf_kept | apply srfBump_kept) | split)

theorem srfPortEnable_kept {r₀ : State} (c p : Nat) {s : State} (h_s : Keeps r₀ s) : Keeps r₀ (srfPortEnable c p s) := by
  unfold srfPortEnable
  repeat' with_reducible first | assumption | apply setSp_kept

theorem surfaceClearDone_kept {r₀ : State} (c p : Nat) {s : State} (h_s : Keeps r₀ s) : Keeps r₀ (surfaceClearDone c p s) := by
  unfold surfaceClearDone
  repeat' first
    | (with_reducible first | assumption | apply setSp_kept | apply setSrf_kept)
    | split
    | (with_reducible refine Keeps.mk_upd ?_; with_reducible first | assumption | apply setSp_kept | apply setSrf_kept)

theorem clearSurfaces_kept {r₀ : State} (c : Nat) {s : State} (h_s : Keeps r₀ s) : Keeps r₀ (clearSurfaces c s) := by
  unfold clearSurfaces
  repeat' with_reducible first | assumption | apply setSrf_kept

theorem emptyGyro_kept {r₀ : State} {s : State} (h_s : Keeps r₀ s) : Keeps r₀ (emptyGyro s) := by
  unfold emptyGyro
  repeat' first
    | (with_reducible first | assumption | apply setSrf_kept)
    | (with_reducible refine Keeps.of_snd ‹_› ?_)
    | (with_reducible refine Keeps.of_fst ‹_› ?_)
    | (with_reducible refine Keeps.foldl _ _ ?_ ?_)
    | (with_reducible refine Keeps.foldl_fst _ _ ?_ ?_)
    | (with_reducible refine Keeps.foldl_snd _ _ ?_ ?_)
    | (with_reducible refine Keeps.elim _ ?_ ?_)
    | intro _
    | split
    | (with_reducible refine Keeps.mk_upd ?_; first | (with_reducible first | assumption | apply setSrf_kept) | split)

end Sys2Proof.Machine
end

