-- ==== Sys2Proof/Laws/KeptNeuron.lean ====
section
/-! SUPPORT. What the operations of Machine/Neuron.lean keep: the queue, canonical forms, burnt fuses. -/
namespace Sys2Proof.Machine

theorem neBump_kept {r₀ : State} (c w : Nat) {s : State} (h_s : Keeps r₀ s) : Keeps r₀ (neBump c w s) := by
  unfold neBump
  repeat' with_reducible first | assumption | apply bump_kept

theorem neBumpN_kept {r₀ : State} (n c w : Nat) {s : State} (h_s : Keeps r₀ s) : Keeps r₀ (neBumpN n c w s) := by
  unfold neBumpN
  repeat' with_reducible first | assumption | apply bumpN_kept

theorem setNe_kept {r₀ : State} {s : State} (c : Nat) (v : Ne) (h_s : Keeps r₀ s) : Keeps r₀ (setNe s c v) := by
  unfold setNe
  repeat' first | (with_reducible assumption) | split | (with_reducible refine Keeps.mk_upd ?_; with_reducible assumption)

theorem takeMarker_kept {r₀ : State} (c k : Nat) {s : State} (h_s : Keeps r₀ s) : Keeps r₀ (takeMarker c k s) := by
  unfold takeMarker
  repeat' first
    | (with_reducible first | assumption | apply neBump_kept | apply setNe_kept)
    | (lift_lets
       intro x
       first
         | (have hx : Keeps r₀ x := by
               repeat' first
                 | (with_reducible first | assumption | apply neBump_kept | apply setNe_kept)
                 | (with_reducible refine Keeps.of_snd ‹_› ?_)
                 | (with_reducible refine Keeps.of_fst ‹_› ?_)
                 | (with_reducible refine Keeps.foldl _ _ ?_ ?_)
                 | (with_reducible refine Keeps.foldl_fst _ _ ?_ ?_)
                 | (with_reducible refine Keeps.foldl_snd _ _ ?_ ?_)
                 | (with_reducible refine Keeps.elim _ ?_ ?_)
                 | intro _
                 | split
                 | (with_reducible refine Keeps.mk_upd ?_; first | (with_reducible first | assumption | apply neBump_kept | apply setNe_kept) | split)
            clear_value x)
         | skip)
    | (with_reducible refine Keeps.of_snd ‹_› ?_)
    | (with_reducible refine Keeps.of_fst ‹_› ?_)
    | (with_reducible refine Keeps.foldl _ _ ?_ ?_)
    | (with_reducible refine Keeps.foldl_fst _ _ ?_ ?_)
    | (with_reducible refine Keeps.foldl_snd _ _ ?_ ?_)
    | (with_reducible refine Keeps.elim _ ?_ ?_)
    | intro _
    | split
    | (with_reducible refine Keeps.mk_upd ?_; first | (with_reducible first | assumption | apply neBump_kept | apply setNe_kept) | split)

theorem acceptInput_kept {r₀ : State} (c i row : Nat) (p : Pkt) {s : State} (h_s : Keeps r₀ s) : Keeps r₀ (acceptInput c i row p s) := by
  unfold acceptInput
  repeat' first
    | (with_reducible first | assumption | apply neBump_kept | apply setNe_kept)
    | (with_reducible refine Keeps.of_snd ‹_› ?_)
    | (with_reducible refine Keeps.of_fst ‹_› ?_)
    | (with_reducible refine Keeps.foldl _ _ ?_ ?_)
    | (with_reducible refine Keeps.foldl_fst _ _ ?_ ?_)
    | (with_reducible refine Keeps.foldl_snd _ _ ?_ ?_)
    | (with_reducible refine Keeps.elim _ ?_ ?_)
    | intro _
    | split
    | (with_reducible refine Keeps.mk_upd ?_; first | (with_reducible first | assumption | apply neBump_kept | apply setNe_kept) | split)

theorem takePacket_kept {r₀ : State} (c : Nat) (p : Pkt) {s : State} (h_s : Keeps r₀ s) : Keeps r₀ (takePacket c p s) := by
  unfold takePacket
  repeat' first
    | (with_reducible first | assumption | apply neBump_kept | apply takeMarker_kept | apply acceptInput_kept)
    | (with_reducible refine Keeps.of_snd ‹_› ?_)
    | (with_reducible refine Keeps.of_fst ‹_› ?_)
    | (with_reducible refine Keeps.foldl _ _ ?_ ?_)
    | (with_reducible refine Keeps.foldl_fst _ _ ?_ ?_)
    | (with_reducible refine Keeps.foldl_snd _ _ ?_ ?_)
    | (with_reducible refine Keeps.elim _ ?_ ?_)
    | intro _
    | split
    | (with_reducible refine Keeps.mk_upd ?_; first | (with_reducible first | assumption | apply neBump_kept | apply takeMarker_kept | apply acceptInput_kept) | split)

theorem synapse_kept {r₀ : State} (c stamp : Nat) (ins : List NeIn) (groups : List Nat) {s : State} (h_s : Keeps r₀ s) : Keeps r₀ (synapse c stamp ins groups s).2 := by
  unfold synapse
  repeat' with_reducible first | assumption | apply neBumpN_kept

theorem releaseBatch_kept {r₀ : State} (c t : Nat) {s : State} (h_s : Keeps r₀ s) : Keeps r₀ (releaseBatch c t s) := by
  unfold releaseBatch
  repeat' with_reducible first | assumption | apply synapse_kept | apply setNe_kept

theorem batchRelease_kept {r₀ : State} (c : Nat) {s : State} (h_s : Keeps r₀ s) : Keeps r₀ (batchRelease c s) := by
  unfold batchRelease
  repeat' first | (with_reducible first | assumption | apply releaseBatch_kept) | split | (with_reducible refine Keeps.mk_upd ?_; with_reducible first | assumption | apply releaseBatch_kept)

theorem keepCkpt_kept {r₀ : State} (c win n : Nat) {s : State} (h_s : Keeps r₀ s) : Keeps r₀ (keepCkpt c win n s) := by
  unfold keepCkpt
  repeat' first
    | (with_reducible first | assumption | apply setPass_kept)
    | (with_reducible refine Keeps.of_snd ‹_› ?_)
    | (with_reducible refine Keeps.of_fst ‹_› ?_)
    | (with_reducible refine Keeps.foldl _ _ ?_ ?_)
    | (with_reducible refine Keeps.foldl_fst _ _ ?_ ?_)
    | (with_reducible refine Keeps.foldl_snd _ _ ?_ ?_)
    | (with_reducible refine Keeps.elim _ ?_ ?_)
    | intro _
    | split
    | (with_reducible refine Keeps.mk_upd ?_; first | (with_reducible first | assumption | apply setPass_kept) | split)

theorem keepStep_kept {r₀ : State} (c win : Nat) {s : State} (h_s : Keeps r₀ s) : Keeps r₀ (keepStep c win s) := by
  unfold keepStep
  repeat' first | (with_reducible first | assumption | apply setPass_kept) | split | (with_reducible refine Keeps.mk_upd ?_; with_reducible first | assumption | apply setPass_kept)

theorem keepUndo_kept {r₀ : State} (c win n : Nat) {s : State} (h_s : Keeps r₀ s) : Keeps r₀ (keepUndo c win n s) := by
  unfold keepUndo
  repeat' first
    | (with_reducible first | assumption | apply keepCkpt_kept | apply setPass_kept | apply ramPut_kept)
    | (with_reducible refine Keeps.of_snd ‹_› ?_)
    | (with_reducible refine Keeps.of_fst ‹_› ?_)
    | (with_reducible refine Keeps.foldl _ _ ?_ ?_)
    | (with_reducible refine Keeps.foldl_fst _ _ ?_ ?_)
    | (with_reducible refine Keeps.foldl_snd _ _ ?_ ?_)
    | (with_reducible refine Keeps.elim _ ?_ ?_)
    | intro _
    | split
    | (with_reducible refine Keeps.mk_upd ?_; first | (with_reducible first | assumption | apply keepCkpt_kept | apply setPass_kept | apply ramPut_kept) | split)

theorem makeRoom_kept {r₀ : State} (c k : Nat) : ∀ s : State, Keeps r₀ s → Keeps r₀ (makeRoom c k s) := by
  induction k with
  | zero => intro s h; exact h
  | succ k ih =>
    intro s h
    unfold makeRoom
    split
    · exact h
    · exact ih _ (releaseBatch_kept _ _ (neBump_kept _ _ h))

theorem neInput_kept {r₀ : State} (c : Nat) {s : State} (h_s : Keeps r₀ s) : Keeps r₀ (neInput c s) := by
  unfold neInput
  repeat' first
    | (with_reducible first | assumption | apply neBump_kept | apply makeRoom_kept | apply takePacket_kept | apply dropCq_kept)
    | (with_reducible refine Keeps.of_snd ‹_› ?_)
    | (with_reducible refine Keeps.of_fst ‹_› ?_)
    | (with_reducible refine Keeps.foldl _ _ ?_ ?_)
    | (with_reducible refine Keeps.foldl_fst _ _ ?_ ?_)
    | (with_reducible refine Keeps.foldl_snd _ _ ?_ ?_)
    | (with_reducible refine Keeps.elim _ ?_ ?_)
    | intro _
    | split
    | (with_reducible refine Keeps.mk_upd ?_; first | (with_reducible first | assumption | apply neBump_kept | apply makeRoom_kept | apply takePacket_kept | apply dropCq_kept) | split)

theorem emitSpike_kept {r₀ : State} (c g n : Nat) (u : UpdAt) (poison : Bool) {s : State} (h_s : Keeps r₀ s) : Keeps r₀ (emitSpike c g n u poison s) := by
  unfold emitSpike
  repeat' first
    | (with_reducible first | assumption | apply neBump_kept | apply putCq_kept | apply signStep_kept | apply setNe_kept)
    | (with_reducible refine Keeps.of_snd ‹_› ?_)
    | (with_reducible refine Keeps.of_fst ‹_› ?_)
    | (with_reducible refine Keeps.foldl _ _ ?_ ?_)
    | (with_reducible refine Keeps.foldl_fst _ _ ?_ ?_)
    | (with_reducible refine Keeps.foldl_snd _ _ ?_ ?_)
    | (with_reducible refine Keeps.elim _ ?_ ?_)
    | intro _
    | split
    | (with_reducible refine Keeps.mk_upd ?_; first | (with_reducible first | assumption | apply neBump_kept | apply putCq_kept | apply signStep_kept | apply setNe_kept) | split)

theorem updateNeuron_kept {r₀ : State} (c g n : Nat) (u : UpdAt) (first : Bool) (inp : Int) (poison : Bool) {s : State} (h_s : Keeps r₀ s) : Keeps r₀ (updateNeuron c g n u first inp poison s) := by
  unfold updateNeuron
  repeat' first
    | (with_reducible first | assumption | apply keepUndo_kept | apply setNe_kept | apply neBump_kept | apply emitSpike_kept)
    | (with_reducible refine Keeps.of_snd ‹_› ?_)
    | (with_reducible refine Keeps.of_fst ‹_› ?_)
    | (with_reducible refine Keeps.foldl _ _ ?_ ?_)
    | (with_reducible refine Keeps.foldl_fst _ _ ?_ ?_)
    | (with_reducible refine Keeps.foldl_snd _ _ ?_ ?_)
    | (with_reducible refine Keeps.elim _ ?_ ?_)
    | intro _
    | split
    | (with_reducible refine Keeps.mk_upd ?_; first | (with_reducible first | assumption | apply keepUndo_kept | apply setNe_kept | apply neBump_kept | apply emitSpike_kept) | split)

theorem updateTouched_kept {r₀ : State} (c : Nat) (u : UpdAt) (n : Nat) (a : NeAcc) {s : State} (h_s : Keeps r₀ s) : Keeps r₀ (updateTouched c u n a s) := by
  unfold updateTouched
  repeat' first
    | (with_reducible first | assumption | apply updateNeuron_kept | apply neBump_kept)
    | (with_reducible refine Keeps.of_snd ‹_› ?_)
    | (with_reducible refine Keeps.of_fst ‹_› ?_)
    | (with_reducible refine Keeps.foldl _ _ ?_ ?_)
    | (with_reducible refine Keeps.foldl_fst _ _ ?_ ?_)
    | (with_reducible refine Keeps.foldl_snd _ _ ?_ ?_)
    | (with_reducible refine Keeps.elim _ ?_ ?_)
    | intro _
    | split
    | (with_reducible refine Keeps.mk_upd ?_; first | (with_reducible first | assumption | apply updateNeuron_kept | apply neBump_kept) | split)

theorem updateAll_kept {r₀ : State} (c : Nat) (u : UpdAt) (b : NeBatch) {s : State} (h_s : Keeps r₀ s) : Keeps r₀ (updateAll c u b s) := by
  unfold updateAll
  repeat' first
    | (with_reducible first | assumption | apply updateTouched_kept)
    | (with_reducible refine Keeps.of_snd ‹_› ?_)
    | (with_reducible refine Keeps.of_fst ‹_› ?_)
    | (with_reducible refine Keeps.foldl _ _ ?_ ?_)
    | (with_reducible refine Keeps.foldl_fst _ _ ?_ ?_)
    | (with_reducible refine Keeps.foldl_snd _ _ ?_ ?_)
    | (with_reducible refine Keeps.elim _ ?_ ?_)
    | intro _
    | split
    | (with_reducible refine Keeps.mk_upd ?_; first | (with_reducible first | assumption | apply updateTouched_kept) | split)

theorem batchUpdate_kept {r₀ : State} (c : Nat) {s : State} (h_s : Keeps r₀ s) : Keeps r₀ (batchUpdate c s) := by
  unfold batchUpdate
  repeat' first
    | (with_reducible first | assumption | apply setNe_kept | apply updateAll_kept | apply consumePoison_kept)
    | (with_reducible refine Keeps.of_snd ‹_› ?_)
    | (with_reducible refine Keeps.of_fst ‹_› ?_)
    | (with_reducible refine Keeps.foldl _ _ ?_ ?_)
    | (with_reducible refine Keeps.foldl_fst _ _ ?_ ?_)
    | (with_reducible refine Keeps.foldl_snd _ _ ?_ ?_)
    | (with_reducible refine Keeps.elim _ ?_ ?_)
    | intro _
    | split
    | (with_reducible refine Keeps.mk_upd ?_; first | (with_reducible first | assumption | apply setNe_kept | apply updateAll_kept | apply consumePoison_kept) | split)

theorem tickBatch_kept {r₀ : State} (c g : Nat) {s : State} (h_s : Keeps r₀ s) : Keeps r₀ (tickBatch c g s) := by
  unfold tickBatch
  repeat' first
    | (with_reducible first | assumption | apply setNe_kept)
    | (lift_lets
       intro x
       first
         | (have hx : Keeps r₀ x := by
               repeat' first
                 | (with_reducible first | assumption | apply setNe_kept)
                 | (with_reducible refine Keeps.of_snd ‹_› ?_)
                 | (with_reducible refine Keeps.of_fst ‹_› ?_)
                 | (with_reducible refine Keeps.foldl _ _ ?_ ?_)
                 | (with_reducible refine Keeps.foldl_fst _ _ ?_ ?_)
                 | (with_reducible refine Keeps.foldl_snd _ _ ?_ ?_)
                 | (with_reducible refine Keeps.elim _ ?_ ?_)
                 | intro _
                 | split
                 | (with_reducible refine Keeps.mk_upd ?_; first | (with_reducible first | assumption | apply setNe_kept) | split)
            clear_value x)
         | skip)
    | (with_reducible refine Keeps.of_snd ‹_› ?_)
    | (with_reducible refine Keeps.of_fst ‹_› ?_)
    | (with_reducible refine Keeps.foldl _ _ ?_ ?_)
    | (with_reducible refine Keeps.foldl_fst _ _ ?_ ?_)
    | (with_reducible refine Keeps.foldl_snd _ _ ?_ ?_)
    | (with_reducible refine Keeps.elim _ ?_ ?_)
    | intro _
    | split
    | (with_reducible refine Keeps.mk_upd ?_; first | (with_reducible first | assumption | apply setNe_kept) | split)

theorem stampSweep_kept {r₀ : State} (c n : Nat) {s : State} (h_s : Keeps r₀ s) : Keeps r₀ (stampSweep c n s) := by
  unfold stampSweep
  repeat' first
    | (with_reducible first | assumption | apply setNe_kept)
    | (with_reducible refine Keeps.of_snd ‹_› ?_)
    | (with_reducible refine Keeps.of_fst ‹_› ?_)
    | (with_reducible refine Keeps.foldl _ _ ?_ ?_)
    | (with_reducible refine Keeps.foldl_fst _ _ ?_ ?_)
    | (with_reducible refine Keeps.foldl_snd _ _ ?_ ?_)
    | (with_reducible refine Keeps.elim _ ?_ ?_)
    | intro _
    | split
    | (with_reducible refine Keeps.mk_upd ?_; first | (with_reducible first | assumption | apply setNe_kept) | split)

theorem closeStep_kept {r₀ : State} (c : Nat) {s : State} (h_s : Keeps r₀ s) : Keeps r₀ (closeStep c s) := by
  unfold closeStep
  repeat' first
    | (with_reducible first | assumption | apply setNe_kept | apply synapse_kept | apply updateAll_kept | apply keepStep_kept | apply putCq_kept | apply signStep_kept | apply consumePoison_kept)
    | (with_reducible refine Keeps.of_snd ‹_› ?_)
    | (with_reducible refine Keeps.of_fst ‹_› ?_)
    | (with_reducible refine Keeps.foldl _ _ ?_ ?_)
    | (with_reducible refine Keeps.foldl_fst _ _ ?_ ?_)
    | (with_reducible refine Keeps.foldl_snd _ _ ?_ ?_)
    | (with_reducible refine Keeps.elim _ ?_ ?_)
    | intro _
    | split
    | (with_reducible refine Keeps.mk_upd ?_; first | (with_reducible first | assumption | apply setNe_kept | apply synapse_kept | apply updateAll_kept | apply keepStep_kept | apply putCq_kept | apply signStep_kept | apply consumePoison_kept) | split)

theorem stepClose_kept {r₀ : State} (c : Nat) {s : State} (h_s : Keeps r₀ s) : Keeps r₀ (stepClose c s) := by
  unfold stepClose
  repeat' first | (with_reducible first | assumption | apply closeStep_kept) | split | (with_reducible refine Keeps.mk_upd ?_; with_reducible first | assumption | apply closeStep_kept)

theorem stepOverrun_kept {r₀ : State} (c : Nat) {s : State} (h_s : Keeps r₀ s) : Keeps r₀ (stepOverrun c s) := by
  unfold stepOverrun
  repeat' first
    | (with_reducible first | assumption | apply notice_kept | apply neBump_kept | apply closeStep_kept)
    | split
    | (with_reducible refine Keeps.mk_upd ?_; with_reducible first | assumption | apply notice_kept | apply neBump_kept | apply closeStep_kept)

theorem swapCounts_kept {r₀ : State} (c g more : Nat) (deferred : Bool) {s : State} (h_s : Keeps r₀ s) : Keeps r₀ (swapCounts c g more deferred s) := by
  unfold swapCounts
  repeat' with_reducible first | assumption | apply setNe_kept

theorem countClose_kept {r₀ : State} (c g : Nat) {s : State} (h_s : Keeps r₀ s) : Keeps r₀ (countClose c g s) := by
  unfold countClose
  repeat' first
    | (with_reducible first | assumption | apply neBump_kept | apply setNe_kept | apply swapCounts_kept)
    | (with_reducible refine Keeps.of_snd ‹_› ?_)
    | (with_reducible refine Keeps.of_fst ‹_› ?_)
    | (with_reducible refine Keeps.foldl _ _ ?_ ?_)
    | (with_reducible refine Keeps.foldl_fst _ _ ?_ ?_)
    | (with_reducible refine Keeps.foldl_snd _ _ ?_ ?_)
    | (with_reducible refine Keeps.elim _ ?_ ?_)
    | intro _
    | split
    | (with_reducible refine Keeps.mk_upd ?_; first | (with_reducible first | assumption | apply neBump_kept | apply setNe_kept | apply swapCounts_kept) | split)

theorem countCopyDone_kept {r₀ : State} (c : Nat) {s : State} (h_s : Keeps r₀ s) : Keeps r₀ (countCopyDone c s) := by
  unfold countCopyDone
  repeat' first
    | (with_reducible first | assumption | apply setNe_kept | apply putRecord_kept | apply swapCounts_kept)
    | (with_reducible refine Keeps.of_snd ‹_› ?_)
    | (with_reducible refine Keeps.of_fst ‹_› ?_)
    | (with_reducible refine Keeps.foldl _ _ ?_ ?_)
    | (with_reducible refine Keeps.foldl_fst _ _ ?_ ?_)
    | (with_reducible refine Keeps.foldl_snd _ _ ?_ ?_)
    | (with_reducible refine Keeps.elim _ ?_ ?_)
    | intro _
    | split
    | (with_reducible refine Keeps.mk_upd ?_; first | (with_reducible first | assumption | apply setNe_kept | apply putRecord_kept | apply swapCounts_kept) | split)

theorem neStart_kept {r₀ : State} (c step : Nat) {s : State} (h_s : Keeps r₀ s) : Keeps r₀ (neStart c step s) := by
  unfold neStart
  repeat' with_reducible first | assumption | apply setNe_kept

end Sys2Proof.Machine
end

