-- ==== Sys2Proof/Laws/KeptCanal.lean ====
section
/-! SUPPORT. What the operations of Machine/Canal.lean keep: the queue, canonical forms, burnt fuses. -/
namespace Sys2Proof.Machine

theorem cnlBump_kept {r₀ : State} (u w : Nat) {s : State} (h_s : Keeps r₀ s) : Keeps r₀ (cnlBump u w s) := by
  unfold cnlBump
  repeat' with_reducible first | assumption | apply bump_kept

theorem cnlBumpN_kept {r₀ : State} (n u w : Nat) {s : State} (h_s : Keeps r₀ s) : Keeps r₀ (cnlBumpN n u w s) := by
  unfold cnlBumpN
  repeat' with_reducible first | assumption | apply bumpN_kept

theorem setHead_kept {r₀ : State} {s : State} (p cls : Nat) (x : Pkt) (h_s : Keeps r₀ s) : Keeps r₀ (setHead s p cls x) := by
  unfold setHead
  repeat' with_reducible first | assumption | apply setCq_kept

theorem returnCredit_kept {r₀ : State} (k cls : Nat) {s : State} (h_s : Keeps r₀ s) : Keeps r₀ (returnCredit k cls s) := by
  unfold returnCredit
  repeat' first
    | (with_reducible first | assumption | apply setLink_kept)
    | (with_reducible refine Keeps.of_snd ‹_› ?_)
    | (with_reducible refine Keeps.of_fst ‹_› ?_)
    | (with_reducible refine Keeps.foldl _ _ ?_ ?_)
    | (with_reducible refine Keeps.foldl_fst _ _ ?_ ?_)
    | (with_reducible refine Keeps.foldl_snd _ _ ?_ ?_)
    | (with_reducible refine Keeps.elim _ ?_ ?_)
    | intro _
    | split
    | (with_reducible refine Keeps.mk_upd ?_; first | (with_reducible first | assumption | apply setLink_kept) | split)

theorem leaveReceiver_kept {r₀ : State} (port : Nat) (p : Pkt) {s : State} (h_s : Keeps r₀ s) : Keeps r₀ (leaveReceiver port p s) := by
  unfold leaveReceiver
  repeat' first | (with_reducible first | assumption | apply returnCredit_kept) | split | (with_reducible refine Keeps.mk_upd ?_; with_reducible first | assumption | apply returnCredit_kept)

theorem lookupHead_kept {r₀ : State} (node : LockNode) (p cls : Nat) {s : State} (h_s : Keeps r₀ s) : Keeps r₀ (lookupHead node p cls s) := by
  unfold lookupHead
  repeat' first
    | (with_reducible first | assumption | apply checkParity_kept | apply leaveReceiver_kept | apply cnlBump_kept | apply setCq_kept | apply setHead_kept)
    | (with_reducible refine Keeps.of_snd ‹_› ?_)
    | (with_reducible refine Keeps.of_fst ‹_› ?_)
    | (with_reducible refine Keeps.foldl _ _ ?_ ?_)
    | (with_reducible refine Keeps.foldl_fst _ _ ?_ ?_)
    | (with_reducible refine Keeps.foldl_snd _ _ ?_ ?_)
    | (with_reducible refine Keeps.elim _ ?_ ?_)
    | intro _
    | split
    | (with_reducible refine Keeps.mk_upd ?_; first | (with_reducible first | assumption | apply checkParity_kept | apply leaveReceiver_kept | apply cnlBump_kept | apply setCq_kept | apply setHead_kept) | split)

theorem lookupNode_kept {r₀ : State} (node : LockNode) {s : State} (h_s : Keeps r₀ s) : Keeps r₀ (lookupNode node s) := by
  unfold lookupNode
  repeat' first | (with_reducible first | assumption | apply lookupHead_kept) | split | (with_reducible refine Keeps.mk_upd ?_; with_reducible first | assumption | apply lookupHead_kept)

theorem capture_kept {r₀ : State} (c : Nat) (p : Pkt) {s : State} (h_s : Keeps r₀ s) : Keeps r₀ (capture c p s) := by
  unfold capture
  repeat' first | (with_reducible first | assumption | apply setQueue_kept) | split | (with_reducible refine Keeps.mk_upd ?_; with_reducible first | assumption | apply setQueue_kept)

theorem joinStop_kept {r₀ : State} (o f : Nat) (p : Pkt) {s : State} (h_s : Keeps r₀ s) : Keeps r₀ (joinStop o f p s) := by
  unfold joinStop
  repeat' first
    | (with_reducible first | assumption | apply putCq_kept | apply capture_kept)
    | split
    | (with_reducible refine Keeps.mk_upd ?_; with_reducible first | assumption | apply putCq_kept | apply capture_kept)

theorem servedPort_kept {r₀ : State} (port cls o : Nat) {s : State} (h_s : Keeps r₀ s) : Keeps r₀ (servedPort port cls o s) := by
  unfold servedPort
  repeat' first | (with_reducible assumption) | split | (with_reducible refine Keeps.mk_upd ?_; with_reducible assumption)

theorem issueLeg_kept {r₀ : State} (port cls : Nat) {s : State} (l : Leg) (h_s : Keeps r₀ s) : Keeps r₀ (issueLeg port cls s l) := by
  unfold issueLeg
  repeat' first
    | (with_reducible first | assumption | apply setHead_kept | apply crossCheck_kept | apply joinStop_kept | apply servedPort_kept | apply cnlBump_kept)
    | (with_reducible refine Keeps.of_snd ‹_› ?_)
    | (with_reducible refine Keeps.of_fst ‹_› ?_)
    | (with_reducible refine Keeps.foldl _ _ ?_ ?_)
    | (with_reducible refine Keeps.foldl_fst _ _ ?_ ?_)
    | (with_reducible refine Keeps.foldl_snd _ _ ?_ ?_)
    | (with_reducible refine Keeps.elim _ ?_ ?_)
    | intro _
    | split
    | (with_reducible refine Keeps.mk_upd ?_; first | (with_reducible first | assumption | apply setHead_kept | apply crossCheck_kept | apply joinStop_kept | apply servedPort_kept | apply cnlBump_kept) | split)

theorem leaveIfDone_kept {r₀ : State} (port cls : Nat) {s : State} (h_s : Keeps r₀ s) : Keeps r₀ (leaveIfDone port cls s) := by
  unfold leaveIfDone
  repeat' first
    | (with_reducible first | assumption | apply leaveReceiver_kept | apply setCq_kept)
    | split
    | (with_reducible refine Keeps.mk_upd ?_; with_reducible first | assumption | apply leaveReceiver_kept | apply setCq_kept)

theorem issueHead_kept {r₀ : State} (port cls : Nat) {s : State} (h_s : Keeps r₀ s) : Keeps r₀ (issueHead port cls s) := by
  unfold issueHead
  repeat' first
    | (with_reducible first | assumption | apply cnlBump_kept | apply leaveIfDone_kept | apply issueLeg_kept)
    | (with_reducible refine Keeps.of_snd ‹_› ?_)
    | (with_reducible refine Keeps.of_fst ‹_› ?_)
    | (with_reducible refine Keeps.foldl _ _ ?_ ?_)
    | (with_reducible refine Keeps.foldl_fst _ _ ?_ ?_)
    | (with_reducible refine Keeps.foldl_snd _ _ ?_ ?_)
    | (with_reducible refine Keeps.elim _ ?_ ?_)
    | intro _
    | split
    | (with_reducible refine Keeps.mk_upd ?_; first | (with_reducible first | assumption | apply cnlBump_kept | apply leaveIfDone_kept | apply issueLeg_kept) | split)

theorem passHub_kept {r₀ : State} (port cls : Nat) {s : State} (h_s : Keeps r₀ s) : Keeps r₀ (passHub port cls s) := by
  unfold passHub
  repeat' first
    | (with_reducible first | assumption | apply cnlBump_kept | apply crossCheck_kept | apply setCq_kept | apply joinStop_kept | apply servedPort_kept)
    | (with_reducible refine Keeps.of_snd ‹_› ?_)
    | (with_reducible refine Keeps.of_fst ‹_› ?_)
    | (with_reducible refine Keeps.foldl _ _ ?_ ?_)
    | (with_reducible refine Keeps.foldl_fst _ _ ?_ ?_)
    | (with_reducible refine Keeps.foldl_snd _ _ ?_ ?_)
    | (with_reducible refine Keeps.elim _ ?_ ?_)
    | intro _
    | split
    | (with_reducible refine Keeps.mk_upd ?_; first | (with_reducible first | assumption | apply cnlBump_kept | apply crossCheck_kept | apply setCq_kept | apply joinStop_kept | apply servedPort_kept) | split)

theorem packetDispatch_kept {r₀ : State} (port : Nat) {s : State} (h_s : Keeps r₀ s) : Keeps r₀ (packetDispatch port s) := by
  unfold packetDispatch
  repeat' first
    | (with_reducible first | assumption | apply issueHead_kept | apply passHub_kept)
    | (with_reducible refine Keeps.of_snd ‹_› ?_)
    | (with_reducible refine Keeps.of_fst ‹_› ?_)
    | (with_reducible refine Keeps.foldl _ _ ?_ ?_)
    | (with_reducible refine Keeps.foldl_fst _ _ ?_ ?_)
    | (with_reducible refine Keeps.foldl_snd _ _ ?_ ?_)
    | (with_reducible refine Keeps.elim _ ?_ ?_)
    | intro _
    | split
    | (with_reducible refine Keeps.mk_upd ?_; first | (with_reducible first | assumption | apply issueHead_kept | apply passHub_kept) | split)

end Sys2Proof.Machine
end

