-- ==== Sys2Proof/Laws/KeptArrays.lean ====
section
/-! SUPPORT. What the operations of Machine/Arrays.lean keep: the queue, canonical forms, burnt fuses. -/
namespace Sys2Proof.Machine

theorem faBump_kept {r₀ : State} (n w : Nat) {s : State} (h_s : Keeps r₀ s) : Keeps r₀ (faBump n w s) := by
  unfold faBump
  repeat' with_reducible first | assumption | apply bump_kept

theorem faBumpN_kept {r₀ : State} (k n w : Nat) {s : State} (h_s : Keeps r₀ s) : Keeps r₀ (faBumpN k n w s) := by
  unfold faBumpN
  repeat' with_reducible first | assumption | apply bumpN_kept

theorem setFa_kept {r₀ : State} {s : State} (n : Nat) (v : Fa) (h_s : Keeps r₀ s) : Keeps r₀ (setFa s n v) := by
  unfold setFa
  repeat' first | (with_reducible assumption) | split | (with_reducible refine Keeps.mk_upd ?_; with_reducible assumption)

theorem setTen_kept {r₀ : State} {s : State} (k e : Nat) (v : TenEnt) (h_s : Keeps r₀ s) : Keeps r₀ (setTen s k e v) := by
  unfold setTen
  repeat' first | (with_reducible assumption) | split | (with_reducible refine Keeps.mk_upd ?_; with_reducible assumption)

theorem freeBuf_kept {r₀ : State} (n : Nat) (b : ArrBuf) {s : State} (h_s : Keeps r₀ s) : Keeps r₀ (freeBuf n b s) := by
  unfold freeBuf
  repeat' first
    | (with_reducible first | assumption | apply setTen_kept | apply setSlu_kept)
    | split
    | (with_reducible refine Keeps.mk_upd ?_; with_reducible first | assumption | apply setTen_kept | apply setSlu_kept)

theorem holdBuf_kept {r₀ : State} (n : Nat) (b : ArrBuf) {s : State} (h_s : Keeps r₀ s) : Keeps r₀ (holdBuf n b s) := by
  unfold holdBuf
  repeat' first
    | (with_reducible first | assumption | apply setTen_kept | apply setSlu_kept)
    | split
    | (with_reducible refine Keeps.mk_upd ?_; with_reducible first | assumption | apply setTen_kept | apply setSlu_kept)

theorem arrTrigger_kept {r₀ : State} (n : Nat) (x : ArrPend) {s : State} (h_s : Keeps r₀ s) : Keeps r₀ (arrTrigger n x s) := by
  unfold arrTrigger
  repeat' first
    | (with_reducible first | assumption | apply faBump_kept | apply setFa_kept | apply holdBuf_kept)
    | split
    | (with_reducible refine Keeps.mk_upd ?_; with_reducible first | assumption | apply faBump_kept | apply setFa_kept | apply holdBuf_kept)

theorem arrRunWrite_kept {r₀ : State} (n p job : Nat) {s : State} (h_s : Keeps r₀ s) : Keeps r₀ (arrRunWrite n p job s) := by
  unfold arrRunWrite
  repeat' first
    | (with_reducible first | assumption | apply arrTrigger_kept | apply bump_kept)
    | split
    | (with_reducible refine Keeps.mk_upd ?_; with_reducible first | assumption | apply arrTrigger_kept | apply bump_kept)

theorem countHold_kept {r₀ : State} (n p : Nat) {s : State} (h_s : Keeps r₀ s) : Keeps r₀ (countHold n p s) := by
  unfold countHold
  repeat' first
    | (with_reducible first | assumption | apply bump_kept)
    | (with_reducible refine Keeps.of_snd ‹_› ?_)
    | (with_reducible refine Keeps.of_fst ‹_› ?_)
    | (with_reducible refine Keeps.foldl _ _ ?_ ?_)
    | (with_reducible refine Keeps.foldl_fst _ _ ?_ ?_)
    | (with_reducible refine Keeps.foldl_snd _ _ ?_ ?_)
    | (with_reducible refine Keeps.elim _ ?_ ?_)
    | intro _
    | split
    | (with_reducible refine Keeps.mk_upd ?_; first | (with_reducible first | assumption | apply bump_kept) | split)

theorem instanceStart_kept {r₀ : State} (n : Nat) {s : State} (h_s : Keeps r₀ s) : Keeps r₀ (instanceStart n s) := by
  unfold instanceStart
  repeat' first
    | (with_reducible first | assumption | apply countHold_kept | apply setFa_kept)
    | (with_reducible refine Keeps.of_snd ‹_› ?_)
    | (with_reducible refine Keeps.of_fst ‹_› ?_)
    | (with_reducible refine Keeps.foldl _ _ ?_ ?_)
    | (with_reducible refine Keeps.foldl_fst _ _ ?_ ?_)
    | (with_reducible refine Keeps.foldl_snd _ _ ?_ ?_)
    | (with_reducible refine Keeps.elim _ ?_ ?_)
    | intro _
    | split
    | (with_reducible refine Keeps.mk_upd ?_; first | (with_reducible first | assumption | apply countHold_kept | apply setFa_kept) | split)

theorem semSignal_kept {r₀ : State} (n en sem : Nat) {s : State} (h_s : Keeps r₀ s) : Keeps r₀ (semSignal n en sem s) := by
  unfold semSignal
  repeat' first
    | (with_reducible first | assumption | apply faBump_kept | apply setFa_kept)
    | (with_reducible refine Keeps.of_snd ‹_› ?_)
    | (with_reducible refine Keeps.of_fst ‹_› ?_)
    | (with_reducible refine Keeps.foldl _ _ ?_ ?_)
    | (with_reducible refine Keeps.foldl_fst _ _ ?_ ?_)
    | (with_reducible refine Keeps.foldl_snd _ _ ?_ ?_)
    | (with_reducible refine Keeps.elim _ ?_ ?_)
    | intro _
    | split
    | (with_reducible refine Keeps.mk_upd ?_; first | (with_reducible first | assumption | apply faBump_kept | apply setFa_kept) | split)

theorem setRun_kept {r₀ : State} (n : Nat) (f : ArrInst → ArrInst) {s : State} (h_s : Keeps r₀ s) : Keeps r₀ (setRun n f s) := by
  unfold setRun
  repeat' with_reducible first | assumption | apply setFa_kept

theorem loadDone_kept {r₀ : State} (n : Nat) (d : List Nat) {s : State} (h_s : Keeps r₀ s) : Keeps r₀ (loadDone n d s) := by
  unfold loadDone
  repeat' with_reducible first | assumption | apply semSignal_kept | apply setRun_kept

theorem loadTile_kept {r₀ : State} (n : Nat) (r : ArrInst) (d : List Nat) {s : State} (h_s : Keeps r₀ s) : Keeps r₀ (loadTile n r d s) := by
  unfold loadTile
  repeat' first
    | (with_reducible first | assumption | apply faBumpN_kept | apply setFa_kept | apply loadDone_kept | apply setRun_kept)
    | (lift_lets
       intro x
       first
         | (have hx : Keeps r₀ x := by
               repeat' first
                 | (with_reducible first | assumption | apply faBumpN_kept | apply setFa_kept | apply loadDone_kept | apply setRun_kept)
                 | (with_reducible refine Keeps.of_snd ‹_› ?_)
                 | (with_reducible refine Keeps.of_fst ‹_› ?_)
                 | (with_reducible refine Keeps.foldl _ _ ?_ ?_)
                 | (with_reducible refine Keeps.foldl_fst _ _ ?_ ?_)
                 | (with_reducible refine Keeps.foldl_snd _ _ ?_ ?_)
                 | (with_reducible refine Keeps.elim _ ?_ ?_)
                 | intro _
                 | split
                 | (with_reducible refine Keeps.mk_upd ?_; first | (with_reducible first | assumption | apply faBumpN_kept | apply setFa_kept | apply loadDone_kept | apply setRun_kept) | split)
            clear_value x)
         | skip)
    | (with_reducible refine Keeps.of_snd ‹_› ?_)
    | (with_reducible refine Keeps.of_fst ‹_› ?_)
    | (with_reducible refine Keeps.foldl _ _ ?_ ?_)
    | (with_reducible refine Keeps.foldl_fst _ _ ?_ ?_)
    | (with_reducible refine Keeps.foldl_snd _ _ ?_ ?_)
    | (with_reducible refine Keeps.elim _ ?_ ?_)
    | intro _
    | split
    | (with_reducible refine Keeps.mk_upd ?_; first | (with_reducible first | assumption | apply faBumpN_kept | apply setFa_kept | apply loadDone_kept | apply setRun_kept) | split)

theorem loadWeights_kept {r₀ : State} (n : Nat) (r : ArrInst) (d : List Nat) {s : State} (h_s : Keeps r₀ s) : Keeps r₀ (loadWeights n r d s) := by
  unfold loadWeights
  repeat' first
    | (with_reducible first | assumption | apply faBumpN_kept | apply loadDone_kept | apply setFa_kept)
    | (with_reducible refine Keeps.of_snd ‹_› ?_)
    | (with_reducible refine Keeps.of_fst ‹_› ?_)
    | (with_reducible refine Keeps.foldl _ _ ?_ ?_)
    | (with_reducible refine Keeps.foldl_fst _ _ ?_ ?_)
    | (with_reducible refine Keeps.foldl_snd _ _ ?_ ?_)
    | (with_reducible refine Keeps.elim _ ?_ ?_)
    | intro _
    | split
    | (with_reducible refine Keeps.mk_upd ?_; first | (with_reducible first | assumption | apply faBumpN_kept | apply loadDone_kept | apply setFa_kept) | split)

theorem loadRequant_kept {r₀ : State} (n : Nat) (r : ArrInst) (d : List Nat) {s : State} (h_s : Keeps r₀ s) : Keeps r₀ (loadRequant n r d s) := by
  unfold loadRequant
  repeat' with_reducible first | assumption | apply loadDone_kept | apply setFa_kept

theorem loadDescriptor_kept {r₀ : State} (n : Nat) {s : State} (h_s : Keeps r₀ s) : Keeps r₀ (loadDescriptor n s) := by
  unfold loadDescriptor
  repeat' first
    | (with_reducible first | assumption | apply setRun_kept | apply setFa_kept | apply loadTile_kept | apply loadWeights_kept | apply loadRequant_kept | apply loadDone_kept)
    | (with_reducible refine Keeps.of_snd ‹_› ?_)
    | (with_reducible refine Keeps.of_fst ‹_› ?_)
    | (with_reducible refine Keeps.foldl _ _ ?_ ?_)
    | (with_reducible refine Keeps.foldl_fst _ _ ?_ ?_)
    | (with_reducible refine Keeps.foldl_snd _ _ ?_ ?_)
    | (with_reducible refine Keeps.elim _ ?_ ?_)
    | intro _
    | split
    | (with_reducible refine Keeps.mk_upd ?_; first | (with_reducible first | assumption | apply setRun_kept | apply setFa_kept | apply loadTile_kept | apply loadWeights_kept | apply loadRequant_kept | apply loadDone_kept) | split)

theorem computePass_kept {r₀ : State} (n : Nat) {s : State} (h_s : Keeps r₀ s) : Keeps r₀ (computePass n s) := by
  unfold computePass
  dsimp only
  repeat' first
    | (with_reducible first | assumption | apply faBump_kept | apply setRun_kept | apply setFa_kept | apply faBumpN_kept | apply semSignal_kept)
    | (with_reducible refine Keeps.of_snd ‹_› ?_)
    | (with_reducible refine Keeps.of_fst ‹_› ?_)
    | (with_reducible refine Keeps.foldl _ _ ?_ ?_)
    | (with_reducible refine Keeps.foldl_fst _ _ ?_ ?_)
    | (with_reducible refine Keeps.foldl_snd _ _ ?_ ?_)
    | (with_reducible refine Keeps.elim _ ?_ ?_)
    | intro _
    | split
    | (with_reducible refine Keeps.mk_upd ?_; first | (with_reducible first | assumption | apply faBump_kept | apply setRun_kept | apply setFa_kept | apply faBumpN_kept | apply semSignal_kept) | split)
    | (with_reducible refine Keeps.mk_sec ?_ (.same rfl rfl rfl rfl rfl rfl rfl rfl rfl rfl rfl); first | (with_reducible first | assumption | apply faBump_kept | apply setRun_kept | apply setFa_kept | apply faBumpN_kept | apply semSignal_kept) | split)

theorem putRow_kept {r₀ : State} (f row x0 : Nat) (es : List OutEl) {s : State} (h_s : Keeps r₀ s) : Keeps r₀ (putRow f row x0 es s) := by
  unfold putRow
  repeat' first
    | (with_reducible first | assumption | apply ramPut_kept | apply setRamBad_kept)
    | (with_reducible refine Keeps.of_snd ‹_› ?_)
    | (with_reducible refine Keeps.of_fst ‹_› ?_)
    | (with_reducible refine Keeps.foldl _ _ ?_ ?_)
    | (with_reducible refine Keeps.foldl_fst _ _ ?_ ?_)
    | (with_reducible refine Keeps.foldl_snd _ _ ?_ ?_)
    | (with_reducible refine Keeps.elim _ ?_ ?_)
    | intro _
    | split
    | (with_reducible refine Keeps.mk_upd ?_; first | (with_reducible first | assumption | apply ramPut_kept | apply setRamBad_kept) | split)

theorem putScales_kept {r₀ : State} (x : StCtx) (a : AccTile) (i y xx j : Nat) {s : State} (h_s : Keeps r₀ s) : Keeps r₀ (putScales x a i y xx j s) := by
  unfold putScales
  repeat' first
    | (with_reducible first | assumption | apply ramPut_kept | apply setRamBad_kept)
    | split
    | (with_reducible refine Keeps.mk_upd ?_; with_reducible first | assumption | apply ramPut_kept | apply setRamBad_kept)

theorem storeChw_kept {r₀ : State} (x : StCtx) (a : AccTile) (j : Nat) {s : State} (h_s : Keeps r₀ s) : Keeps r₀ (storeChw x a j s) := by
  unfold storeChw
  repeat' first
    | (with_reducible first | assumption | apply putScales_kept | apply putRow_kept)
    | (with_reducible refine Keeps.of_snd ‹_› ?_)
    | (with_reducible refine Keeps.of_fst ‹_› ?_)
    | (with_reducible refine Keeps.foldl _ _ ?_ ?_)
    | (with_reducible refine Keeps.foldl_fst _ _ ?_ ?_)
    | (with_reducible refine Keeps.foldl_snd _ _ ?_ ?_)
    | (with_reducible refine Keeps.elim _ ?_ ?_)
    | intro _
    | split
    | (with_reducible refine Keeps.mk_upd ?_; first | (with_reducible first | assumption | apply putScales_kept | apply putRow_kept) | split)

theorem storeZrc_kept {r₀ : State} (x : StCtx) (a : AccTile) (j : Nat) {s : State} (h_s : Keeps r₀ s) : Keeps r₀ (storeZrc x a j s) := by
  unfold storeZrc
  repeat' first
    | (with_reducible first | assumption | apply ramPut_kept | apply setRamBad_kept)
    | (with_reducible refine Keeps.of_snd ‹_› ?_)
    | (with_reducible refine Keeps.of_fst ‹_› ?_)
    | (with_reducible refine Keeps.foldl _ _ ?_ ?_)
    | (with_reducible refine Keeps.foldl_fst _ _ ?_ ?_)
    | (with_reducible refine Keeps.foldl_snd _ _ ?_ ?_)
    | (with_reducible refine Keeps.elim _ ?_ ?_)
    | intro _
    | split
    | (with_reducible refine Keeps.mk_upd ?_; first | (with_reducible first | assumption | apply ramPut_kept | apply setRamBad_kept) | split)

theorem storeTile_kept {r₀ : State} (x : StCtx) (a : AccTile) {s : State} (h_s : Keeps r₀ s) : Keeps r₀ (storeTile x a s) := by
  unfold storeTile
  repeat' first
    | (with_reducible first | assumption | apply storeZrc_kept | apply storeChw_kept)
    | (with_reducible refine Keeps.of_snd ‹_› ?_)
    | (with_reducible refine Keeps.of_fst ‹_› ?_)
    | (with_reducible refine Keeps.foldl _ _ ?_ ?_)
    | (with_reducible refine Keeps.foldl_fst _ _ ?_ ?_)
    | (with_reducible refine Keeps.foldl_snd _ _ ?_ ?_)
    | (with_reducible refine Keeps.elim _ ?_ ?_)
    | intro _
    | split
    | (with_reducible refine Keeps.mk_upd ?_; first | (with_reducible first | assumption | apply storeZrc_kept | apply storeChw_kept) | split)

theorem featureDone_kept {r₀ : State} (n : Nat) (r : ArrInst) {s : State} (h_s : Keeps r₀ s) : Keeps r₀ (featureDone n r s) := by
  unfold featureDone
  repeat' first
    | (with_reducible assumption)
    | (with_reducible refine Keeps.of_snd ‹_› ?_)
    | (with_reducible refine Keeps.of_fst ‹_› ?_)
    | (with_reducible refine Keeps.foldl _ _ ?_ ?_)
    | (with_reducible refine Keeps.foldl_fst _ _ ?_ ?_)
    | (with_reducible refine Keeps.foldl_snd _ _ ?_ ?_)
    | (with_reducible refine Keeps.elim _ ?_ ?_)
    | intro _
    | split
    | (with_reducible refine Keeps.mk_upd ?_; first | (with_reducible assumption) | split)

theorem instanceDone_kept {r₀ : State} (n : Nat) (r : ArrInst) {s : State} (h_s : Keeps r₀ s) : Keeps r₀ (instanceDone n r s) := by
  unfold instanceDone
  dsimp only
  repeat' first
    | (with_reducible first | assumption | apply setFa_kept | apply freeBuf_kept | apply putRecord_kept | apply raiseMsi_kept | apply featureDone_kept)
    | (with_reducible refine Keeps.of_snd ‹_› ?_)
    | (with_reducible refine Keeps.of_fst ‹_› ?_)
    | (with_reducible refine Keeps.foldl _ _ ?_ ?_)
    | (with_reducible refine Keeps.foldl_fst _ _ ?_ ?_)
    | (with_reducible refine Keeps.foldl_snd _ _ ?_ ?_)
    | (with_reducible refine Keeps.elim _ ?_ ?_)
    | intro _
    | split
    | (with_reducible refine Keeps.mk_upd ?_; first | (with_reducible first | assumption | apply setFa_kept | apply freeBuf_kept | apply putRecord_kept | apply raiseMsi_kept | apply featureDone_kept) | split)
    | (with_reducible refine Keeps.mk_sec ?_ (.same rfl rfl rfl rfl rfl rfl rfl rfl rfl rfl rfl); first | (with_reducible first | assumption | apply setFa_kept | apply freeBuf_kept | apply putRecord_kept | apply raiseMsi_kept | apply featureDone_kept) | split)

theorem storeDescriptor_kept {r₀ : State} (n : Nat) {s : State} (h_s : Keeps r₀ s) : Keeps r₀ (storeDescriptor n s) := by
  unfold storeDescriptor
  dsimp only
  repeat' first
    | (with_reducible first | assumption | apply setFa_kept | apply storeTile_kept | apply faBumpN_kept | apply signStep_kept | apply setRun_kept | apply semSignal_kept | apply instanceDone_kept | apply consumePoison_kept)
    | (with_reducible refine Keeps.of_snd ‹_› ?_)
    | (with_reducible refine Keeps.of_fst ‹_› ?_)
    | (with_reducible refine Keeps.foldl _ _ ?_ ?_)
    | (with_reducible refine Keeps.foldl_fst _ _ ?_ ?_)
    | (with_reducible refine Keeps.foldl_snd _ _ ?_ ?_)
    | (with_reducible refine Keeps.elim _ ?_ ?_)
    | intro _
    | split
    | (with_reducible refine Keeps.mk_upd ?_; first | (with_reducible first | assumption | apply setFa_kept | apply storeTile_kept | apply faBumpN_kept | apply signStep_kept | apply setRun_kept | apply semSignal_kept | apply instanceDone_kept | apply consumePoison_kept) | split)
    | (with_reducible refine Keeps.mk_sec ?_ (.same rfl rfl rfl rfl rfl rfl rfl rfl rfl rfl rfl); first | (with_reducible first | assumption | apply setFa_kept | apply storeTile_kept | apply faBumpN_kept | apply signStep_kept | apply setRun_kept | apply semSignal_kept | apply instanceDone_kept | apply consumePoison_kept) | split)

end Sys2Proof.Machine
end

