-- ==== Sys2Proof/Laws/KeptFrames.lean ====
section
/-! SUPPORT. What the operations of Machine/Frames.lean keep: the queue, canonical forms, burnt fuses. -/
namespace Sys2Proof.Machine

theorem frameStart_kept {r₀ : State} (n at_ : Nat) {s : State} (h_s : Keeps r₀ s) : Keeps r₀ (frameStart n at_ s) := by
  unfold frameStart
  repeat' first
    | (with_reducible first | assumption | apply dropFrame_kept | apply sluBump_kept | apply ramPutNat_kept | apply setSlu_kept)
    | (with_reducible refine Keeps.of_snd ‹_› ?_)
    | (with_reducible refine Keeps.of_fst ‹_› ?_)
    | (with_reducible refine Keeps.foldl _ _ ?_ ?_)
    | (with_reducible refine Keeps.foldl_fst _ _ ?_ ?_)
    | (with_reducible refine Keeps.foldl_snd _ _ ?_ ?_)
    | (with_reducible refine Keeps.elim _ ?_ ?_)
    | intro _
    | split
    | (with_reducible refine Keeps.mk_upd ?_; first | (with_reducible first | assumption | apply dropFrame_kept | apply sluBump_kept | apply ramPutNat_kept | apply setSlu_kept) | split)

theorem putLine_kept {r₀ : State} {s : State} (n a y : Nat) (data : List Byte) (h_s : Keeps r₀ s) : Keeps r₀ (putLine s n a y data) := by
  unfold putLine
  repeat' first | (with_reducible first | assumption | apply ramPut_kept) | split | (with_reducible refine Keeps.mk_upd ?_; with_reducible first | assumption | apply ramPut_kept)

theorem lineLost_kept {r₀ : State} (n : Nat) {s : State} (h_s : Keeps r₀ s) : Keeps r₀ (lineLost n s) := by
  unfold lineLost
  repeat' with_reducible first | assumption | apply setSlu_kept

theorem frameLine_kept {r₀ : State} (n : Nat) (data : List Byte) (bad : Bool) {s : State} (h_s : Keeps r₀ s) : Keeps r₀ (frameLine n data bad s) := by
  unfold frameLine
  repeat' first
    | (with_reducible first | assumption | apply setSlu_kept | apply putLine_kept | apply setRamBad_kept)
    | (with_reducible refine Keeps.of_snd ‹_› ?_)
    | (with_reducible refine Keeps.of_fst ‹_› ?_)
    | (with_reducible refine Keeps.foldl _ _ ?_ ?_)
    | (with_reducible refine Keeps.foldl_fst _ _ ?_ ?_)
    | (with_reducible refine Keeps.foldl_snd _ _ ?_ ?_)
    | (with_reducible refine Keeps.elim _ ?_ ?_)
    | intro _
    | split
    | (with_reducible refine Keeps.mk_upd ?_; first | (with_reducible first | assumption | apply setSlu_kept | apply putLine_kept | apply setRamBad_kept) | split)

theorem linePacket_kept {r₀ : State} (n : Nat) (crcOk : Bool) (data : List Byte) {s : State} (h_s : Keeps r₀ s) : Keeps r₀ (linePacket n crcOk data s) := by
  unfold linePacket
  repeat' first
    | (with_reducible first | assumption | apply waitPacket_kept | apply lineLost_kept | apply sluBump_kept | apply frameLine_kept)
    | (with_reducible refine Keeps.of_snd ‹_› ?_)
    | (with_reducible refine Keeps.of_fst ‹_› ?_)
    | (with_reducible refine Keeps.foldl _ _ ?_ ?_)
    | (with_reducible refine Keeps.foldl_fst _ _ ?_ ?_)
    | (with_reducible refine Keeps.foldl_snd _ _ ?_ ?_)
    | (with_reducible refine Keeps.elim _ ?_ ?_)
    | intro _
    | split
    | (with_reducible refine Keeps.mk_upd ?_; first | (with_reducible first | assumption | apply waitPacket_kept | apply lineLost_kept | apply sluBump_kept | apply frameLine_kept) | split)

theorem frameTrigger_kept {r₀ : State} (n i stamp : Nat) {s : State} (h_s : Keeps r₀ s) : Keeps r₀ (frameTrigger n i stamp s) := by
  unfold frameTrigger
  repeat' first
    | (with_reducible first | assumption | apply arrTrigger_kept)
    | (with_reducible refine Keeps.of_snd ‹_› ?_)
    | (with_reducible refine Keeps.of_fst ‹_› ?_)
    | (with_reducible refine Keeps.foldl _ _ ?_ ?_)
    | (with_reducible refine Keeps.foldl_fst _ _ ?_ ?_)
    | (with_reducible refine Keeps.foldl_snd _ _ ?_ ?_)
    | (with_reducible refine Keeps.elim _ ?_ ?_)
    | intro _
    | split
    | (with_reducible refine Keeps.mk_upd ?_; first | (with_reducible first | assumption | apply arrTrigger_kept) | split)

theorem frameEnd_kept {r₀ : State} (n : Nat) {s : State} (h_s : Keeps r₀ s) : Keeps r₀ (frameEnd n s) := by
  unfold frameEnd
  repeat' first
    | (with_reducible first | assumption | apply dropFrame_kept | apply ramPut_kept | apply setSlu_kept | apply frameTrigger_kept)
    | split
    | (with_reducible refine Keeps.mk_upd ?_; with_reducible first | assumption | apply dropFrame_kept | apply ramPut_kept | apply setSlu_kept | apply frameTrigger_kept)

theorem packetHeader_kept {r₀ : State} (n vc : Nat) (ecc : EccResult) {s : State} (h_s : Keeps r₀ s) : Keeps r₀ (packetHeader n vc ecc s).2 := by
  unfold packetHeader
  repeat' first
    | (with_reducible first | assumption | apply wakeIsland_kept | apply packetBoundary_kept | apply sluBump_kept | apply goodHeader_kept)
    | (lift_lets
       intro x
       first
         | (have hx : Keeps r₀ x := by
               repeat' first
                 | (with_reducible first | assumption | apply wakeIsland_kept | apply packetBoundary_kept | apply sluBump_kept | apply goodHeader_kept)
                 | (with_reducible refine Keeps.of_snd ‹_› ?_)
                 | (with_reducible refine Keeps.of_fst ‹_› ?_)
                 | (with_reducible refine Keeps.foldl _ _ ?_ ?_)
                 | (with_reducible refine Keeps.foldl_fst _ _ ?_ ?_)
                 | (with_reducible refine Keeps.foldl_snd _ _ ?_ ?_)
                 | (with_reducible refine Keeps.elim _ ?_ ?_)
                 | intro _
                 | split
                 | (with_reducible refine Keeps.mk_upd ?_; first | (with_reducible first | assumption | apply wakeIsland_kept | apply packetBoundary_kept | apply sluBump_kept | apply goodHeader_kept) | split)
            clear_value x)
         | skip)
    | (with_reducible refine Keeps.of_snd ‹_› ?_)
    | (with_reducible refine Keeps.of_fst ‹_› ?_)
    | (with_reducible refine Keeps.foldl _ _ ?_ ?_)
    | (with_reducible refine Keeps.foldl_fst _ _ ?_ ?_)
    | (with_reducible refine Keeps.foldl_snd _ _ ?_ ?_)
    | (with_reducible refine Keeps.elim _ ?_ ?_)
    | intro _
    | split
    | (with_reducible refine Keeps.mk_upd ?_; first | (with_reducible first | assumption | apply wakeIsland_kept | apply packetBoundary_kept | apply sluBump_kept | apply goodHeader_kept) | split)

theorem csi2Packet_kept {r₀ : State} (n vc dt : Nat) (ecc : EccResult) (crcOk : Bool) (sot : Nat) (data : List Byte) (flawed : List Nat) {s : State} (h_s : Keeps r₀ s) : Keeps r₀ (csi2Packet n vc dt ecc crcOk sot data flawed s) := by
  unfold csi2Packet
  repeat' first
    | (with_reducible first | assumption | apply sluBump_kept | apply packetHeader_kept | apply linePacket_kept | apply eventPacket_kept)
    | (with_reducible refine Keeps.of_snd ‹_› ?_)
    | (with_reducible refine Keeps.of_fst ‹_› ?_)
    | (with_reducible refine Keeps.foldl _ _ ?_ ?_)
    | (with_reducible refine Keeps.foldl_fst _ _ ?_ ?_)
    | (with_reducible refine Keeps.foldl_snd _ _ ?_ ?_)
    | (with_reducible refine Keeps.elim _ ?_ ?_)
    | intro _
    | split
    | (with_reducible refine Keeps.mk_upd ?_; first | (with_reducible first | assumption | apply sluBump_kept | apply packetHeader_kept | apply linePacket_kept | apply eventPacket_kept) | split)

theorem framePacket_kept {r₀ : State} (n vc : Nat) (ecc : EccResult) (w : Waiting) (act : State → State) {s : State} (h_act : ∀ x, Keeps r₀ x → Keeps r₀ (act x)) (h_s : Keeps r₀ s) : Keeps r₀ (framePacket n vc ecc w act s) := by
  unfold framePacket
  repeat' first
    | (with_reducible first | assumption | apply packetHeader_kept | apply waitPacket_kept | apply h_act)
    | (with_reducible refine Keeps.of_snd ‹_› ?_)
    | (with_reducible refine Keeps.of_fst ‹_› ?_)
    | (with_reducible refine Keeps.foldl _ _ ?_ ?_)
    | (with_reducible refine Keeps.foldl_fst _ _ ?_ ?_)
    | (with_reducible refine Keeps.foldl_snd _ _ ?_ ?_)
    | (with_reducible refine Keeps.elim _ ?_ ?_)
    | intro _
    | split
    | (with_reducible refine Keeps.mk_upd ?_; first | (with_reducible first | assumption | apply packetHeader_kept | apply waitPacket_kept | apply h_act) | split)

theorem waitedPacket_kept {r₀ : State} (n : Nat) (bad : List Nat) (w : Waiting) {s : State} (h_s : Keeps r₀ s) : Keeps r₀ (waitedPacket n bad w s) := by
  unfold waitedPacket
  repeat' first
    | (with_reducible first | assumption | apply packetBoundary_kept | apply decodePacket_kept | apply frameLine_kept | apply lineLost_kept | apply frameStart_kept | apply frameEnd_kept)
    | split
    | (with_reducible refine Keeps.mk_upd ?_; with_reducible first | assumption | apply packetBoundary_kept | apply decodePacket_kept | apply frameLine_kept | apply lineLost_kept | apply frameStart_kept | apply frameEnd_kept)

theorem portClearDone_kept {r₀ : State} (n : Nat) {s : State} (h_s : Keeps r₀ s) : Keeps r₀ (portClearDone n s) := by
  unfold portClearDone
  repeat' first
    | (with_reducible first | assumption | apply setSlu_kept | apply waitedPacket_kept)
    | (with_reducible refine Keeps.of_snd ‹_› ?_)
    | (with_reducible refine Keeps.of_fst ‹_› ?_)
    | (with_reducible refine Keeps.foldl _ _ ?_ ?_)
    | (with_reducible refine Keeps.foldl_fst _ _ ?_ ?_)
    | (with_reducible refine Keeps.foldl_snd _ _ ?_ ?_)
    | (with_reducible refine Keeps.elim _ ?_ ?_)
    | intro _
    | split
    | (with_reducible refine Keeps.mk_upd ?_; first | (with_reducible first | assumption | apply setSlu_kept | apply waitedPacket_kept) | split)

end Sys2Proof.Machine
end

