-- ==== Sys2Proof/Laws/KeptWriters.lean ====
section
/-! SUPPORT. What the operations of Machine/Writers.lean keep: the queue, canonical forms, burnt fuses. -/
namespace Sys2Proof.Machine

theorem streamEntry_kept {r₀ : State} (k : Nat) {s : State} (h_s : Keeps r₀ s) : Keeps r₀ (streamEntry k s) := by
  unfold streamEntry
  repeat' first
    | (with_reducible first | assumption | apply crossCheck_kept | apply dropCq_kept | apply takeEntry_kept)
    | split
    | (with_reducible refine Keeps.mk_upd ?_; with_reducible first | assumption | apply crossCheck_kept | apply dropCq_kept | apply takeEntry_kept)

theorem queueCopyWrite_kept {r₀ : State} (q : Nat) {s : State} (h_s : Keeps r₀ s) : Keeps r₀ (queueCopyWrite q s) := by
  unfold queueCopyWrite
  repeat' first
    | (with_reducible first | assumption | apply dropCq_kept | apply crossCheck_kept | apply canalToQueue_kept)
    | (with_reducible refine Keeps.of_snd ‹_› ?_)
    | (with_reducible refine Keeps.of_fst ‹_› ?_)
    | (with_reducible refine Keeps.foldl _ _ ?_ ?_)
    | (with_reducible refine Keeps.foldl_fst _ _ ?_ ?_)
    | (with_reducible refine Keeps.foldl_snd _ _ ?_ ?_)
    | (with_reducible refine Keeps.elim _ ?_ ?_)
    | intro _
    | split
    | (with_reducible refine Keeps.mk_upd ?_; first | (with_reducible first | assumption | apply dropCq_kept | apply crossCheck_kept | apply canalToQueue_kept) | split)

theorem lockPop_kept {r₀ : State} (q : Nat) (parBad : Bool) {s : State} (h_s : Keeps r₀ s) : Keeps r₀ (lockPop q parBad s) := by
  unfold lockPop
  repeat' first
    | (with_reducible first | assumption | apply popQ_kept | apply consumePoison_kept | apply brgBump_kept | apply setQueue_kept | apply putCq_kept)
    | (with_reducible refine Keeps.of_snd ‹_› ?_)
    | (with_reducible refine Keeps.of_fst ‹_› ?_)
    | (with_reducible refine Keeps.foldl _ _ ?_ ?_)
    | (with_reducible refine Keeps.foldl_fst _ _ ?_ ?_)
    | (with_reducible refine Keeps.foldl_snd _ _ ?_ ?_)
    | (with_reducible refine Keeps.elim _ ?_ ?_)
    | intro _
    | split
    | (with_reducible refine Keeps.mk_upd ?_; first | (with_reducible first | assumption | apply popQ_kept | apply consumePoison_kept | apply brgBump_kept | apply setQueue_kept | apply putCq_kept) | split)

theorem enginePop_kept {r₀ : State} (q : Nat) (parBad : Bool) {s : State} (h_s : Keeps r₀ s) : Keeps r₀ (enginePop q parBad s) := by
  unfold enginePop
  repeat' first
    | (with_reducible first | assumption | apply popQ_kept | apply setQueue_kept)
    | (with_reducible refine Keeps.of_snd ‹_› ?_)
    | (with_reducible refine Keeps.of_fst ‹_› ?_)
    | (with_reducible refine Keeps.foldl _ _ ?_ ?_)
    | (with_reducible refine Keeps.foldl_fst _ _ ?_ ?_)
    | (with_reducible refine Keeps.foldl_snd _ _ ?_ ?_)
    | (with_reducible refine Keeps.elim _ ?_ ?_)
    | intro _
    | split
    | (with_reducible refine Keeps.mk_upd ?_; first | (with_reducible first | assumption | apply popQ_kept | apply setQueue_kept) | split)

theorem queuePop_kept {r₀ : State} (q : Nat) (parBad : Bool) {s : State} (h_s : Keeps r₀ s) : Keeps r₀ (queuePop q parBad s) := by
  unfold queuePop
  repeat' first
    | (with_reducible first | assumption | apply enginePop_kept | apply lockPop_kept)
    | split
    | (with_reducible refine Keeps.mk_upd ?_; with_reducible first | assumption | apply enginePop_kept | apply lockPop_kept)

theorem portalPopTaken_kept {r₀ : State} (q job : Nat) (parBad : Bool) {s : State} (h_s : Keeps r₀ s) : Keeps r₀ (portalPopTaken q job parBad s) := by
  unfold portalPopTaken
  repeat' first
    | (with_reducible first | assumption | apply portalPop_kept | apply wakeIsland_kept | apply consumePoison_kept)
    | (with_reducible refine Keeps.of_snd ‹_› ?_)
    | (with_reducible refine Keeps.of_fst ‹_› ?_)
    | (with_reducible refine Keeps.foldl _ _ ?_ ?_)
    | (with_reducible refine Keeps.foldl_fst _ _ ?_ ?_)
    | (with_reducible refine Keeps.foldl_snd _ _ ?_ ?_)
    | (with_reducible refine Keeps.elim _ ?_ ?_)
    | intro _
    | split
    | (with_reducible refine Keeps.mk_upd ?_; first | (with_reducible first | assumption | apply portalPop_kept | apply wakeIsland_kept | apply consumePoison_kept) | split)

end Sys2Proof.Machine
end

