-- ==== Sys2Proof/Laws/KeptUrgent.lean ====
section
/-! SUPPORT. What the operations of Machine/Urgent.lean keep: the queue, canonical forms, burnt fuses. -/
namespace Sys2Proof.Machine

theorem setUp_kept {r₀ : State} {s : State} (n : Nat) (v : Up) (h_s : Keeps r₀ s) : Keeps r₀ (setUp s n v) := by
  unfold setUp
  repeat' first | (with_reducible assumption) | split | (with_reducible refine Keeps.mk_upd ?_; with_reducible assumption)

theorem safeNotice_kept {r₀ : State} {s : State} (h_s : Keeps r₀ s) : Keeps r₀ (safeNotice s) := by
  unfold safeNotice
  repeat' with_reducible first | assumption | apply notice_kept

theorem endJob_kept {r₀ : State} (j : Nat) {s : State} (h_s : Keeps r₀ s) : Keeps r₀ (endJob j s) := by
  unfold endJob
  repeat' with_reducible first | assumption | apply haltHarts_kept | apply freeJobRetained_kept | apply dropCkpt_kept | apply setJob_kept | apply setPass_kept

theorem dropRecords_kept {r₀ : State} {s : State} (h_s : Keeps r₀ s) : Keeps r₀ (dropRecords s) := by
  unfold dropRecords
  repeat' first | (with_reducible assumption) | split | (with_reducible refine Keeps.mk_upd ?_; with_reducible assumption)

theorem dropClass0_kept {r₀ : State} {s : State} (h_s : Keeps r₀ s) : Keeps r₀ (dropClass0 s) := by
  unfold dropClass0
  repeat' first
    | (with_reducible first | assumption | apply setEth_kept)
    | (lift_lets
       intro x
       first
         | (have hx : Keeps r₀ x := by
               repeat' first
                 | (with_reducible first | assumption | apply setEth_kept)
                 | (with_reducible refine Keeps.of_snd ‹_› ?_)
                 | (with_reducible refine Keeps.of_fst ‹_› ?_)
                 | (with_reducible refine Keeps.foldl _ _ ?_ ?_)
                 | (with_reducible refine Keeps.foldl_fst _ _ ?_ ?_)
                 | (with_reducible refine Keeps.foldl_snd _ _ ?_ ?_)
                 | (with_reducible refine Keeps.elim _ ?_ ?_)
                 | intro _
                 | split
                 | (with_reducible refine Keeps.mk_upd ?_; first | (with_reducible first | assumption | apply setEth_kept) | split)
            clear_value x)
         | skip)
    | (with_reducible refine Keeps.of_snd ‹_› ?_)
    | (with_reducible refine Keeps.of_fst ‹_› ?_)
    | (with_reducible refine Keeps.foldl _ _ ?_ ?_)
    | (with_reducible refine Keeps.foldl_fst _ _ ?_ ?_)
    | (with_reducible refine Keeps.foldl_snd _ _ ?_ ?_)
    | (with_reducible refine Keeps.elim _ ?_ ?_)
    | intro _
    | split
    | (with_reducible refine Keeps.mk_upd ?_; first | (with_reducible first | assumption | apply setEth_kept) | split)

theorem enterSafe_kept {r₀ : State} (c unit : Nat) {s : State} (h_s : Keeps r₀ s) : Keeps r₀ (enterSafe c unit s) := by
  unfold enterSafe
  repeat' first
    | (with_reducible first | assumption | apply dropClass0_kept | apply dropRecords_kept | apply endJob_kept | apply safeNotice_kept | apply abortLong_kept)
    | (with_reducible refine Keeps.of_snd ‹_› ?_)
    | (with_reducible refine Keeps.of_fst ‹_› ?_)
    | (with_reducible refine Keeps.foldl _ _ ?_ ?_)
    | (with_reducible refine Keeps.foldl_fst _ _ ?_ ?_)
    | (with_reducible refine Keeps.foldl_snd _ _ ?_ ?_)
    | (with_reducible refine Keeps.elim _ ?_ ?_)
    | intro _
    | split
    | (with_reducible refine Keeps.mk_upd ?_; first | (with_reducible first | assumption | apply dropClass0_kept | apply dropRecords_kept | apply endJob_kept | apply safeNotice_kept | apply abortLong_kept) | split)

theorem sameCycle_kept {r₀ : State} (c unit : Nat) {s : State} (h_s : Keeps r₀ s) : Keeps r₀ (sameCycle c unit s) := by
  unfold sameCycle
  split
  · exact Keeps.mk_upd h_s
  · exact h_s

theorem raiseCause_kept {r₀ : State} (c unit : Nat) {s : State} (h_s : Keeps r₀ s) : Keeps r₀ (raiseCause c unit s) := by
  unfold raiseCause
  repeat' first
    | (with_reducible first | assumption | apply powerWake_kept | apply safeNotice_kept | apply sameCycle_kept | apply enterSafe_kept)
    | (with_reducible refine Keeps.of_snd ‹_› ?_)
    | (with_reducible refine Keeps.of_fst ‹_› ?_)
    | (with_reducible refine Keeps.foldl _ _ ?_ ?_)
    | (with_reducible refine Keeps.foldl_fst _ _ ?_ ?_)
    | (with_reducible refine Keeps.foldl_snd _ _ ?_ ?_)
    | (with_reducible refine Keeps.elim _ ?_ ?_)
    | intro _
    | split
    | (with_reducible refine Keeps.mk_upd ?_; first | (with_reducible first | assumption | apply powerWake_kept | apply safeNotice_kept | apply sameCycle_kept | apply enterSafe_kept) | split)

theorem clearCause_kept {r₀ : State} (c : Nat) {s : State} (h_s : Keeps r₀ s) : Keeps r₀ (clearCause c s) := by
  unfold clearCause
  repeat' first
    | (with_reducible first | assumption | apply safeNotice_kept)
    | (with_reducible refine Keeps.of_snd ‹_› ?_)
    | (with_reducible refine Keeps.of_fst ‹_› ?_)
    | (with_reducible refine Keeps.foldl _ _ ?_ ?_)
    | (with_reducible refine Keeps.foldl_fst _ _ ?_ ?_)
    | (with_reducible refine Keeps.foldl_snd _ _ ?_ ?_)
    | (with_reducible refine Keeps.elim _ ?_ ?_)
    | intro _
    | split
    | (with_reducible refine Keeps.mk_upd ?_; first | (with_reducible first | assumption | apply safeNotice_kept) | split)

theorem resetPair_kept {r₀ : State} (n : Nat) {s : State} (h_s : Keeps r₀ s) : Keeps r₀ (resetPair n s) := by
  unfold resetPair
  repeat' with_reducible first | assumption | apply setReady_kept | apply setUp_kept

theorem upBinnedCopy_kept {r₀ : State} (n : Nat) (mismatch parBad : Bool) {s : State} (h_s : Keeps r₀ s) : Keeps r₀ (upBinnedCopy n mismatch parBad s) := by
  unfold upBinnedCopy
  repeat' first
    | (with_reducible first | assumption | apply crossParity_kept | apply raiseCause_kept | apply resetPair_kept | apply setUp_kept)
    | (with_reducible refine Keeps.of_snd ‹_› ?_)
    | (with_reducible refine Keeps.of_fst ‹_› ?_)
    | (with_reducible refine Keeps.foldl _ _ ?_ ?_)
    | (with_reducible refine Keeps.foldl_fst _ _ ?_ ?_)
    | (with_reducible refine Keeps.foldl_snd _ _ ?_ ?_)
    | (with_reducible refine Keeps.elim _ ?_ ?_)
    | intro _
    | split
    | (with_reducible refine Keeps.mk_upd ?_; first | (with_reducible first | assumption | apply crossParity_kept | apply raiseCause_kept | apply resetPair_kept | apply setUp_kept) | split)

theorem setPol_kept {r₀ : State} {s : State} (h : Nat) (v : Policer) (h_s : Keeps r₀ s) : Keeps r₀ (setPol s h v) := by
  unfold setPol
  repeat' first | (with_reducible assumption) | split | (with_reducible refine Keeps.mk_upd ?_; with_reducible assumption)

theorem toFramer_kept {r₀ : State} (p : Nat) (x : Cl0) {s : State} (h_s : Keeps r₀ s) : Keeps r₀ (toFramer p x s) := by
  unfold toFramer
  repeat' first | (with_reducible assumption) | split | (with_reducible refine Keeps.mk_upd ?_; with_reducible assumption)

theorem passAlarm_kept {r₀ : State} (a : Alarm) {s : State} (h_s : Keeps r₀ s) : Keeps r₀ (passAlarm a s) := by
  unfold passAlarm
  repeat' first
    | (with_reducible first | assumption | apply toFramer_kept | apply putRecord_kept)
    | (with_reducible refine Keeps.of_snd ‹_› ?_)
    | (with_reducible refine Keeps.of_fst ‹_› ?_)
    | (with_reducible refine Keeps.foldl _ _ ?_ ?_)
    | (with_reducible refine Keeps.foldl_fst _ _ ?_ ?_)
    | (with_reducible refine Keeps.foldl_snd _ _ ?_ ?_)
    | (with_reducible refine Keeps.elim _ ?_ ?_)
    | intro _
    | split
    | (with_reducible refine Keeps.mk_upd ?_; first | (with_reducible first | assumption | apply toFramer_kept | apply putRecord_kept) | split)

theorem drainHold_kept {r₀ : State} (h k : Nat) : ∀ {s : State}, Keeps r₀ s → Keeps r₀ (drainHold h k s) := by
  induction k with
  | zero => intro s hs; exact hs
  | succ k ih =>
    intro s hs
    unfold drainHold
    dsimp only
    split
    · exact hs
    · split
      · exact hs
      · exact ih (passAlarm_kept _ (setPol_kept _ _ hs))

theorem cl0Police_kept {r₀ : State} (h : Nat) {s : State} (h_s : Keeps r₀ s) : Keeps r₀ (cl0Police h s) := by
  unfold cl0Police
  repeat' first
    | (with_reducible first | assumption | apply setUp_kept | apply passAlarm_kept | apply setPol_kept | apply cnlBump_kept)
    | (with_reducible refine Keeps.of_snd ‹_› ?_)
    | (with_reducible refine Keeps.of_fst ‹_› ?_)
    | (with_reducible refine Keeps.foldl _ _ ?_ ?_)
    | (with_reducible refine Keeps.foldl_fst _ _ ?_ ?_)
    | (with_reducible refine Keeps.foldl_snd _ _ ?_ ?_)
    | (with_reducible refine Keeps.elim _ ?_ ?_)
    | intro _
    | split
    | (with_reducible refine Keeps.mk_upd ?_; first | (with_reducible first | assumption | apply setUp_kept | apply passAlarm_kept | apply setPol_kept | apply cnlBump_kept) | split)

theorem cl0TokenAdd_kept {r₀ : State} (h : Nat) {s : State} (h_s : Keeps r₀ s) : Keeps r₀ (cl0TokenAdd h s) := by
  unfold cl0TokenAdd
  repeat' first
    | (with_reducible first | assumption | apply drainHold_kept | apply setPol_kept)
    | (lift_lets
       intro x
       first
         | (have hx : Keeps r₀ x := by
               repeat' first
                 | (with_reducible first | assumption | apply drainHold_kept | apply setPol_kept)
                 | (with_reducible refine Keeps.of_snd ‹_› ?_)
                 | (with_reducible refine Keeps.of_fst ‹_› ?_)
                 | (with_reducible refine Keeps.foldl _ _ ?_ ?_)
                 | (with_reducible refine Keeps.foldl_fst _ _ ?_ ?_)
                 | (with_reducible refine Keeps.foldl_snd _ _ ?_ ?_)
                 | (with_reducible refine Keeps.elim _ ?_ ?_)
                 | intro _
                 | split
                 | (with_reducible refine Keeps.mk_upd ?_; first | (with_reducible first | assumption | apply drainHold_kept | apply setPol_kept) | split)
            clear_value x)
         | skip)
    | (with_reducible refine Keeps.of_snd ‹_› ?_)
    | (with_reducible refine Keeps.of_fst ‹_› ?_)
    | (with_reducible refine Keeps.foldl _ _ ?_ ?_)
    | (with_reducible refine Keeps.foldl_fst _ _ ?_ ?_)
    | (with_reducible refine Keeps.foldl_snd _ _ ?_ ?_)
    | (with_reducible refine Keeps.elim _ ?_ ?_)
    | intro _
    | split
    | (with_reducible refine Keeps.mk_upd ?_; first | (with_reducible first | assumption | apply drainHold_kept | apply setPol_kept) | split)

theorem fillPolicer_kept {r₀ : State} (h : Nat) {s : State} (h_s : Keeps r₀ s) : Keeps r₀ (fillPolicer h s) := by
  unfold fillPolicer
  repeat' with_reducible first | assumption | apply drainHold_kept | apply setPol_kept

theorem policersAfterStep_kept {r₀ : State} {s : State} (h_s : Keeps r₀ s) : Keeps r₀ (policersAfterStep s) := by
  unfold policersAfterStep
  repeat' first
    | (with_reducible first | assumption | apply setPol_kept)
    | (with_reducible refine Keeps.of_snd ‹_› ?_)
    | (with_reducible refine Keeps.of_fst ‹_› ?_)
    | (with_reducible refine Keeps.foldl _ _ ?_ ?_)
    | (with_reducible refine Keeps.foldl_fst _ _ ?_ ?_)
    | (with_reducible refine Keeps.foldl_snd _ _ ?_ ?_)
    | (with_reducible refine Keeps.elim _ ?_ ?_)
    | intro _
    | split
    | (with_reducible refine Keeps.mk_upd ?_; first | (with_reducible first | assumption | apply setPol_kept) | split)

theorem setChk_kept {r₀ : State} {s : State} (p n : Nat) (v : Chk) (h_s : Keeps r₀ s) : Keeps r₀ (setChk s p n v) := by
  unfold setChk
  repeat' first | (with_reducible assumption) | split | (with_reducible refine Keeps.mk_upd ?_; with_reducible assumption)

theorem armProbes_kept {r₀ : State} (j : Nat) {s : State} (h_s : Keeps r₀ s) : Keeps r₀ (armProbes j s) := by
  unfold armProbes
  repeat' first
    | (with_reducible first | assumption | apply setChk_kept)
    | (with_reducible refine Keeps.of_snd ‹_› ?_)
    | (with_reducible refine Keeps.of_fst ‹_› ?_)
    | (with_reducible refine Keeps.foldl _ _ ?_ ?_)
    | (with_reducible refine Keeps.foldl_fst _ _ ?_ ?_)
    | (with_reducible refine Keeps.foldl_snd _ _ ?_ ?_)
    | (with_reducible refine Keeps.elim _ ?_ ?_)
    | intro _
    | split
    | (with_reducible refine Keeps.mk_upd ?_; first | (with_reducible first | assumption | apply setChk_kept) | split)

theorem probeEmit_kept {r₀ : State} (n : Nat) {s : State} (h_s : Keeps r₀ s) : Keeps r₀ (probeEmit n s) := by
  unfold probeEmit
  repeat' first
    | (with_reducible first | assumption | apply setUp_kept | apply toFramer_kept)
    | (with_reducible refine Keeps.of_snd ‹_› ?_)
    | (with_reducible refine Keeps.of_fst ‹_› ?_)
    | (with_reducible refine Keeps.foldl _ _ ?_ ?_)
    | (with_reducible refine Keeps.foldl_fst _ _ ?_ ?_)
    | (with_reducible refine Keeps.foldl_snd _ _ ?_ ?_)
    | (with_reducible refine Keeps.elim _ ?_ ?_)
    | intro _
    | split
    | (with_reducible refine Keeps.mk_upd ?_; first | (with_reducible first | assumption | apply setUp_kept | apply toFramer_kept) | split)

theorem pathProbe_kept {r₀ : State} (p n : Nat) {s : State} (h_s : Keeps r₀ s) : Keeps r₀ (pathProbe p n s) := by
  unfold pathProbe
  repeat' first
    | (with_reducible first | assumption | apply raiseCause_kept | apply setChk_kept)
    | split
    | (with_reducible refine Keeps.mk_upd ?_; with_reducible first | assumption | apply raiseCause_kept | apply setChk_kept)

theorem alarmFrame_kept {r₀ : State} (p code : Nat) (body : List Byte) {s : State} (h_s : Keeps r₀ s) : Keeps r₀ (alarmFrame p code body s) := by
  unfold alarmFrame
  repeat' with_reducible first | assumption | apply enqueue_kept

theorem alarmFramerRx_kept {r₀ : State} (p : Nat) (parBad : Bool) {s : State} (h_s : Keeps r₀ s) : Keeps r₀ (alarmFramerRx p parBad s) := by
  unfold alarmFramerRx
  repeat' first
    | (with_reducible first | assumption | apply crossParity_kept | apply setChk_kept | apply alarmFrame_kept)
    | (with_reducible refine Keeps.of_snd ‹_› ?_)
    | (with_reducible refine Keeps.of_fst ‹_› ?_)
    | (with_reducible refine Keeps.foldl _ _ ?_ ?_)
    | (with_reducible refine Keeps.foldl_fst _ _ ?_ ?_)
    | (with_reducible refine Keeps.foldl_snd _ _ ?_ ?_)
    | (with_reducible refine Keeps.elim _ ?_ ?_)
    | intro _
    | split
    | (with_reducible refine Keeps.mk_upd ?_; first | (with_reducible first | assumption | apply crossParity_kept | apply setChk_kept | apply alarmFrame_kept) | split)

theorem safeStopFrame_kept {r₀ : State} (p : Nat) {s : State} (h_s : Keeps r₀ s) : Keeps r₀ (safeStopFrame p s) := by
  unfold safeStopFrame
  repeat' first
    | (with_reducible first | assumption | apply alarmFrame_kept)
    | (with_reducible refine Keeps.of_snd ‹_› ?_)
    | (with_reducible refine Keeps.of_fst ‹_› ?_)
    | (with_reducible refine Keeps.foldl _ _ ?_ ?_)
    | (with_reducible refine Keeps.foldl_fst _ _ ?_ ?_)
    | (with_reducible refine Keeps.foldl_snd _ _ ?_ ?_)
    | (with_reducible refine Keeps.elim _ ?_ ?_)
    | intro _
    | split
    | (with_reducible refine Keeps.mk_upd ?_; first | (with_reducible first | assumption | apply alarmFrame_kept) | split)

end Sys2Proof.Machine
end

