-- ==== Sys2Proof/Laws/KeptTensor.lean ====
section
/-! SUPPORT. What the operations of Machine/Tensor.lean keep: the queue, canonical forms, burnt fuses. -/
namespace Sys2Proof.Machine

theorem tenBump_kept {r₀ : State} (k w : Nat) {s : State} (h_s : Keeps r₀ s) : Keeps r₀ (tenBump k w s) := by
  unfold tenBump
  repeat' with_reducible first | assumption | apply bump_kept

theorem clearBuf_kept {r₀ : State} (k e b : Nat) {s : State} (h_s : Keeps r₀ s) : Keeps r₀ (clearBuf k e b s) := by
  unfold clearBuf
  repeat' with_reducible first | assumption | apply ramClear_kept

theorem tenBegin_kept {r₀ : State} (k e : Nat) {s : State} (h_s : Keeps r₀ s) : Keeps r₀ (tenBegin k e s) := by
  unfold tenBegin
  repeat' first
    | (with_reducible first | assumption | apply clearBuf_kept | apply setTen_kept)
    | split
    | (with_reducible refine Keeps.mk_upd ?_; with_reducible first | assumption | apply clearBuf_kept | apply setTen_kept)

theorem tenStart_kept {r₀ : State} (k : Nat) {s : State} (h_s : Keeps r₀ s) : Keeps r₀ (tenStart k s) := by
  unfold tenStart
  repeat' first
    | (with_reducible first | assumption | apply tenBegin_kept)
    | (with_reducible refine Keeps.of_snd ‹_› ?_)
    | (with_reducible refine Keeps.of_fst ‹_› ?_)
    | (with_reducible refine Keeps.foldl _ _ ?_ ?_)
    | (with_reducible refine Keeps.foldl_fst _ _ ?_ ?_)
    | (with_reducible refine Keeps.foldl_snd _ _ ?_ ?_)
    | (with_reducible refine Keeps.elim _ ?_ ?_)
    | intro _
    | split
    | (with_reducible refine Keeps.mk_upd ?_; first | (with_reducible first | assumption | apply tenBegin_kept) | split)

theorem tenStop_kept {r₀ : State} (k : Nat) {s : State} (h_s : Keeps r₀ s) : Keeps r₀ (tenStop k s) := by
  unfold tenStop
  repeat' first | (with_reducible assumption) | split | (with_reducible refine Keeps.mk_upd ?_; with_reducible assumption)

theorem tvPacket_kept {r₀ : State} (k e : Nat) (p : Pkt) (residueBad : Bool) {s : State} (h_s : Keeps r₀ s) : Keeps r₀ (tvPacket k e p residueBad s) := by
  unfold tvPacket
  repeat' first
    | (with_reducible first | assumption | apply tenBump_kept | apply ramPutNat_kept | apply reportResidue_kept | apply consumePoison_kept | apply setRamBad_kept)
    | (lift_lets
       intro x
       first
         | (have hx : Keeps r₀ x := by
               repeat' first
                 | (with_reducible first | assumption | apply tenBump_kept | apply ramPutNat_kept | apply reportResidue_kept | apply consumePoison_kept | apply setRamBad_kept)
                 | (with_reducible refine Keeps.of_snd ‹_› ?_)
                 | (with_reducible refine Keeps.of_fst ‹_› ?_)
                 | (with_reducible refine Keeps.foldl _ _ ?_ ?_)
                 | (with_reducible refine Keeps.foldl_fst _ _ ?_ ?_)
                 | (with_reducible refine Keeps.foldl_snd _ _ ?_ ?_)
                 | (with_reducible refine Keeps.elim _ ?_ ?_)
                 | intro _
                 | split
                 | (with_reducible refine Keeps.mk_upd ?_; first | (with_reducible first | assumption | apply tenBump_kept | apply ramPutNat_kept | apply reportResidue_kept | apply consumePoison_kept | apply setRamBad_kept) | split)
            clear_value x)
         | skip)
    | (with_reducible refine Keeps.of_snd ‹_› ?_)
    | (with_reducible refine Keeps.of_fst ‹_› ?_)
    | (with_reducible refine Keeps.foldl _ _ ?_ ?_)
    | (with_reducible refine Keeps.foldl_fst _ _ ?_ ?_)
    | (with_reducible refine Keeps.foldl_snd _ _ ?_ ?_)
    | (with_reducible refine Keeps.elim _ ?_ ?_)
    | intro _
    | split
    | (with_reducible refine Keeps.mk_upd ?_; first | (with_reducible first | assumption | apply tenBump_kept | apply ramPutNat_kept | apply reportResidue_kept | apply consumePoison_kept | apply setRamBad_kept) | split)

theorem tenPacket_kept {r₀ : State} (k : Nat) (residueBad : Bool) {s : State} (h_s : Keeps r₀ s) : Keeps r₀ (tenPacket k residueBad s) := by
  unfold tenPacket
  repeat' first
    | (with_reducible first | assumption | apply crossCheck_kept | apply dropCq_kept | apply tenBump_kept | apply tvPacket_kept)
    | (with_reducible refine Keeps.of_snd ‹_› ?_)
    | (with_reducible refine Keeps.of_fst ‹_› ?_)
    | (with_reducible refine Keeps.foldl _ _ ?_ ?_)
    | (with_reducible refine Keeps.foldl_fst _ _ ?_ ?_)
    | (with_reducible refine Keeps.foldl_snd _ _ ?_ ?_)
    | (with_reducible refine Keeps.elim _ ?_ ?_)
    | intro _
    | split
    | (with_reducible refine Keeps.mk_upd ?_; first | (with_reducible first | assumption | apply crossCheck_kept | apply dropCq_kept | apply tenBump_kept | apply tvPacket_kept) | split)

theorem tvFree_kept {r₀ : State} (k e b : Nat) {s : State} (h_s : Keeps r₀ s) : Keeps r₀ (tvFree k e b s) := by
  unfold tvFree
  repeat' with_reducible first | assumption | apply setTen_kept

theorem tenClose_kept {r₀ : State} (k e : Nat) {s : State} (h_s : Keeps r₀ s) : Keeps r₀ (tenClose k e s) := by
  unfold tenClose
  repeat' first
    | (with_reducible first | assumption | apply setTen_kept | apply tvFree_kept | apply tenBump_kept | apply arrTrigger_kept)
    | (with_reducible refine Keeps.of_snd ‹_› ?_)
    | (with_reducible refine Keeps.of_fst ‹_› ?_)
    | (with_reducible refine Keeps.foldl _ _ ?_ ?_)
    | (with_reducible refine Keeps.foldl_fst _ _ ?_ ?_)
    | (with_reducible refine Keeps.foldl_snd _ _ ?_ ?_)
    | (with_reducible refine Keeps.elim _ ?_ ?_)
    | intro _
    | split
    | (with_reducible refine Keeps.mk_upd ?_; first | (with_reducible first | assumption | apply setTen_kept | apply tvFree_kept | apply tenBump_kept | apply arrTrigger_kept) | split)

theorem tvOpen_kept {r₀ : State} (k e w : Nat) {s : State} (h_s : Keeps r₀ s) : Keeps r₀ (tvOpen k e w s) := by
  unfold tvOpen
  repeat' first
    | (with_reducible first | assumption | apply setTen_kept)
    | (with_reducible refine Keeps.of_snd ‹_› ?_)
    | (with_reducible refine Keeps.of_fst ‹_› ?_)
    | (with_reducible refine Keeps.foldl _ _ ?_ ?_)
    | (with_reducible refine Keeps.foldl_fst _ _ ?_ ?_)
    | (with_reducible refine Keeps.foldl_snd _ _ ?_ ?_)
    | (with_reducible refine Keeps.elim _ ?_ ?_)
    | intro _
    | split
    | (with_reducible refine Keeps.mk_upd ?_; first | (with_reducible first | assumption | apply setTen_kept) | split)

theorem tenWindowEnd_kept {r₀ : State} (k e : Nat) {s : State} (h_s : Keeps r₀ s) : Keeps r₀ (tenWindowEnd k e s) := by
  unfold tenWindowEnd
  repeat' first
    | (with_reducible first | assumption | apply tenClose_kept | apply tvOpen_kept | apply setTen_kept)
    | split
    | (with_reducible refine Keeps.mk_upd ?_; with_reducible first | assumption | apply tenClose_kept | apply tvOpen_kept | apply setTen_kept)

theorem tenCleared_kept {r₀ : State} (k e b : Nat) {s : State} (h_s : Keeps r₀ s) : Keeps r₀ (tenCleared k e b s) := by
  unfold tenCleared
  repeat' first
    | (with_reducible first | assumption | apply clearBuf_kept | apply setTen_kept | apply tvOpen_kept)
    | (with_reducible refine Keeps.of_snd ‹_› ?_)
    | (with_reducible refine Keeps.of_fst ‹_› ?_)
    | (with_reducible refine Keeps.foldl _ _ ?_ ?_)
    | (with_reducible refine Keeps.foldl_fst _ _ ?_ ?_)
    | (with_reducible refine Keeps.foldl_snd _ _ ?_ ?_)
    | (with_reducible refine Keeps.elim _ ?_ ?_)
    | intro _
    | split
    | (with_reducible refine Keeps.mk_upd ?_; first | (with_reducible first | assumption | apply clearBuf_kept | apply setTen_kept | apply tvOpen_kept) | split)

end Sys2Proof.Machine
end

