-- ==== Sys2Proof/Laws/KeptGuest.lean ====
section
/-! SUPPORT. What the operations of Machine/Guest.lean keep: the queue, canonical forms, burnt fuses. -/
namespace Sys2Proof.Machine

theorem apxBump_kept {r₀ : State} (w : Nat) {s : State} (h_s : Keeps r₀ s) : Keeps r₀ (apxBump w s) := by
  unfold apxBump
  repeat' with_reducible first | assumption | apply bump_kept

theorem setJobctl_kept {r₀ : State} {s : State} (j : Nat) (v : JobCtl) (h_s : Keeps r₀ s) : Keeps r₀ (setJobctl s j v) := by
  unfold setJobctl
  repeat' first | (with_reducible assumption) | split | (with_reducible refine Keeps.mk_upd ?_; with_reducible assumption)

theorem enterHarts_kept {r₀ : State} (j a1 a2 a3 : Nat) {s : State} (h_s : Keeps r₀ s) : Keeps r₀ (enterHarts j a1 a2 a3 s) := by
  unfold enterHarts
  repeat' first
    | (with_reducible assumption)
    | (with_reducible refine Keeps.of_snd ‹_› ?_)
    | (with_reducible refine Keeps.of_fst ‹_› ?_)
    | (with_reducible refine Keeps.foldl _ _ ?_ ?_)
    | (with_reducible refine Keeps.foldl_fst _ _ ?_ ?_)
    | (with_reducible refine Keeps.foldl_snd _ _ ?_ ?_)
    | (with_reducible refine Keeps.elim _ ?_ ?_)
    | intro _
    | split
    | (with_reducible refine Keeps.mk_upd ?_; first | (with_reducible assumption) | split)

theorem ckptBegin_kept {r₀ : State} (j win : Nat) (berths : List Nat) {s : State} (h_s : Keeps r₀ s) : Keeps r₀ (ckptBegin j win berths s) := by
  unfold ckptBegin
  repeat' first
    | (with_reducible first | assumption | apply setJob_kept | apply raiseMsi_kept | apply setJobctl_kept)
    | (with_reducible refine Keeps.of_snd ‹_› ?_)
    | (with_reducible refine Keeps.of_fst ‹_› ?_)
    | (with_reducible refine Keeps.foldl _ _ ?_ ?_)
    | (with_reducible refine Keeps.foldl_fst _ _ ?_ ?_)
    | (with_reducible refine Keeps.foldl_snd _ _ ?_ ?_)
    | (with_reducible refine Keeps.elim _ ?_ ?_)
    | intro _
    | split
    | (with_reducible refine Keeps.mk_upd ?_; first | (with_reducible first | assumption | apply setJob_kept | apply raiseMsi_kept | apply setJobctl_kept) | split)

theorem ckptTry_kept {r₀ : State} (j : Nat) {s : State} (h_s : Keeps r₀ s) : Keeps r₀ (ckptTry j s) := by
  unfold ckptTry
  repeat' first
    | (with_reducible first | assumption | apply setJob_kept | apply finishBerth_kept)
    | (with_reducible refine Keeps.of_snd ‹_› ?_)
    | (with_reducible refine Keeps.of_fst ‹_› ?_)
    | (with_reducible refine Keeps.foldl _ _ ?_ ?_)
    | (with_reducible refine Keeps.foldl_fst _ _ ?_ ?_)
    | (with_reducible refine Keeps.foldl_snd _ _ ?_ ?_)
    | (with_reducible refine Keeps.elim _ ?_ ?_)
    | intro _
    | split
    | (with_reducible refine Keeps.mk_upd ?_; first | (with_reducible first | assumption | apply setJob_kept | apply finishBerth_kept) | split)

theorem ckptWindow_kept {r₀ : State} (j w : Nat) {s : State} (h_s : Keeps r₀ s) : Keeps r₀ (ckptWindow j w s) := by
  unfold ckptWindow
  repeat' first
    | (with_reducible first | assumption | apply setJob_kept | apply ckptTry_kept | apply setPass_kept)
    | (with_reducible refine Keeps.of_snd ‹_› ?_)
    | (with_reducible refine Keeps.of_fst ‹_› ?_)
    | (with_reducible refine Keeps.foldl _ _ ?_ ?_)
    | (with_reducible refine Keeps.foldl_fst _ _ ?_ ?_)
    | (with_reducible refine Keeps.foldl_snd _ _ ?_ ?_)
    | (with_reducible refine Keeps.elim _ ?_ ?_)
    | intro _
    | split
    | (with_reducible refine Keeps.mk_upd ?_; first | (with_reducible first | assumption | apply setJob_kept | apply ckptTry_kept | apply setPass_kept) | split)

theorem ckptAck_kept {r₀ : State} (j gen : Nat) {s : State} (h_s : Keeps r₀ s) : Keeps r₀ (ckptAck j gen s) := by
  unfold ckptAck
  repeat' first
    | (with_reducible first | assumption | apply setJobctl_kept | apply ckptTry_kept | apply setJob_kept)
    | (with_reducible refine Keeps.of_snd ‹_› ?_)
    | (with_reducible refine Keeps.of_fst ‹_› ?_)
    | (with_reducible refine Keeps.foldl _ _ ?_ ?_)
    | (with_reducible refine Keeps.foldl_fst _ _ ?_ ?_)
    | (with_reducible refine Keeps.foldl_snd _ _ ?_ ?_)
    | (with_reducible refine Keeps.elim _ ?_ ?_)
    | intro _
    | split
    | (with_reducible refine Keeps.mk_upd ?_; first | (with_reducible first | assumption | apply setJobctl_kept | apply ckptTry_kept | apply setJob_kept) | split)

theorem ckptExpiry_kept {r₀ : State} (j : Nat) {s : State} (h_s : Keeps r₀ s) : Keeps r₀ (ckptExpiry j s) := by
  unfold ckptExpiry
  repeat' first
    | (with_reducible first | assumption | apply apxBump_kept | apply dropCkpt_kept)
    | split
    | (with_reducible refine Keeps.mk_upd ?_; with_reducible first | assumption | apply apxBump_kept | apply dropCkpt_kept)

theorem ckptPeriod_kept {r₀ : State} (j : Nat) {s : State} (h_s : Keeps r₀ s) : Keeps r₀ (ckptPeriod j s) := by
  unfold ckptPeriod
  repeat' first
    | (with_reducible first | assumption | apply ckptBegin_kept)
    | (with_reducible refine Keeps.of_snd ‹_› ?_)
    | (with_reducible refine Keeps.of_fst ‹_› ?_)
    | (with_reducible refine Keeps.foldl _ _ ?_ ?_)
    | (with_reducible refine Keeps.foldl_fst _ _ ?_ ?_)
    | (with_reducible refine Keeps.foldl_snd _ _ ?_ ?_)
    | (with_reducible refine Keeps.elim _ ?_ ?_)
    | intro _
    | split
    | (with_reducible refine Keeps.mk_upd ?_; first | (with_reducible first | assumption | apply ckptBegin_kept) | split)

theorem cycleEnds_kept {r₀ : State} (tick : Nat) {s : State} (h_s : Keeps r₀ s) : Keeps r₀ (cycleEnds tick s) := by
  unfold cycleEnds
  repeat' first
    | (with_reducible first | assumption | apply ckptBegin_kept | apply setJob_kept)
    | (with_reducible refine Keeps.of_snd ‹_› ?_)
    | (with_reducible refine Keeps.of_fst ‹_› ?_)
    | (with_reducible refine Keeps.foldl _ _ ?_ ?_)
    | (with_reducible refine Keeps.foldl_fst _ _ ?_ ?_)
    | (with_reducible refine Keeps.foldl_snd _ _ ?_ ?_)
    | (with_reducible refine Keeps.elim _ ?_ ?_)
    | intro _
    | split
    | (with_reducible refine Keeps.mk_upd ?_; first | (with_reducible first | assumption | apply ckptBegin_kept | apply setJob_kept) | split)

theorem cycleTick_kept {r₀ : State} (tick : Nat) {s : State} (h_s : Keeps r₀ s) : Keeps r₀ (cycleTick tick s) := by
  unfold cycleTick
  repeat' first
    | (with_reducible first | assumption | apply setJob_kept)
    | (with_reducible refine Keeps.of_snd ‹_› ?_)
    | (with_reducible refine Keeps.of_fst ‹_› ?_)
    | (with_reducible refine Keeps.foldl _ _ ?_ ?_)
    | (with_reducible refine Keeps.foldl_fst _ _ ?_ ?_)
    | (with_reducible refine Keeps.foldl_snd _ _ ?_ ?_)
    | (with_reducible refine Keeps.elim _ ?_ ?_)
    | intro _
    | split
    | (with_reducible refine Keeps.mk_upd ?_; first | (with_reducible first | assumption | apply setJob_kept) | split)

end Sys2Proof.Machine
end

