-- ==== Sys2Proof/Laws/KeptFusion.lean ====
section
/-! SUPPORT. What the operations of Machine/Fusion.lean keep: the queue, canonical forms, burnt fuses. -/
namespace Sys2Proof.Machine

theorem fusBump_kept {r₀ : State} (w : Nat) {s : State} (h_s : Keeps r₀ s) : Keeps r₀ (fusBump w s) := by
  unfold fusBump
  repeat' with_reducible first | assumption | apply bump_kept

theorem fusBumpN_kept {r₀ : State} (n w : Nat) {s : State} (h_s : Keeps r₀ s) : Keeps r₀ (fusBumpN n w s) := by
  unfold fusBumpN
  repeat' with_reducible first | assumption | apply bumpN_kept

theorem srcBump_kept {r₀ : State} (k w : Nat) {s : State} (h_s : Keeps r₀ s) : Keeps r₀ (srcBump k w s) := by
  unfold srcBump
  repeat' with_reducible first | assumption | apply bump_kept

theorem setSrc_kept {r₀ : State} {s : State} (k : Nat) (v : FusSrc) (h_s : Keeps r₀ s) : Keeps r₀ (setSrc s k v) := by
  unfold setSrc
  repeat' first | (with_reducible assumption) | split | (with_reducible refine Keeps.mk_upd ?_; with_reducible assumption)

theorem withFusRegs_kept {r₀ : State} (cfg : Tbl W64) {s : State} (h_s : Keeps r₀ s) : Keeps r₀ (withFusRegs cfg s) :=
  h_s.trans ⟨rfl, id, id, fun x => regsOn_fwf cfg _ (tclear_fwf _ _ _ x), id, id, .refl _⟩

theorem heldAt_kept {r₀ : State} (cfg : Tbl W64) (f : State → State) (hf : ∀ t, Keeps r₀ t → Keeps r₀ (f t)) {s : State} (h_s : Keeps r₀ s) :
    Keeps r₀ (heldAt cfg f s) := withFusRegs_kept _ (hf _ (withFusRegs_kept _ h_s))

theorem heldAtTick_kept {r₀ : State} (f : State → State) {s : State} (h_f : ∀ x, Keeps r₀ x → Keeps r₀ (f x)) (h_s : Keeps r₀ s) : Keeps r₀ (heldAtTick f s) := by
  unfold heldAtTick
  repeat' first
    | (with_reducible first | assumption | apply heldAt_kept | apply h_f)
    | split
    | (with_reducible refine Keeps.mk_upd ?_; with_reducible first | assumption | apply heldAt_kept | apply h_f)

theorem copyRam_kept {r₀ : State} (src dst n : Nat) {s : State} (h_s : Keeps r₀ s) : Keeps r₀ (copyRam src dst n s) := by
  unfold copyRam
  repeat' first
    | (with_reducible first | assumption | apply setRamBad_kept | apply ramPut_kept)
    | (with_reducible refine Keeps.of_snd ‹_› ?_)
    | (with_reducible refine Keeps.of_fst ‹_› ?_)
    | (with_reducible refine Keeps.foldl _ _ ?_ ?_)
    | (with_reducible refine Keeps.foldl_fst _ _ ?_ ?_)
    | (with_reducible refine Keeps.foldl_snd _ _ ?_ ?_)
    | (with_reducible refine Keeps.elim _ ?_ ?_)
    | intro _
    | split
    | (with_reducible refine Keeps.mk_upd ?_; first | (with_reducible first | assumption | apply setRamBad_kept | apply ramPut_kept) | split)

theorem contribDone_kept {r₀ : State} (k : Nat) (c : Contrib) {s : State} (h_s : Keeps r₀ s) : Keeps r₀ (contribDone k c s) := by
  unfold contribDone
  repeat' first
    | (with_reducible first | assumption | apply srcBump_kept | apply setSrc_kept)
    | (with_reducible refine Keeps.of_snd ‹_› ?_)
    | (with_reducible refine Keeps.of_fst ‹_› ?_)
    | (with_reducible refine Keeps.foldl _ _ ?_ ?_)
    | (with_reducible refine Keeps.foldl_fst _ _ ?_ ?_)
    | (with_reducible refine Keeps.foldl_snd _ _ ?_ ?_)
    | (with_reducible refine Keeps.elim _ ?_ ?_)
    | intro _
    | split
    | (with_reducible refine Keeps.mk_upd ?_; first | (with_reducible first | assumption | apply srcBump_kept | apply setSrc_kept) | split)

theorem snapshotDone_kept {r₀ : State} (k : Nat) {s : State} (h_s : Keeps r₀ s) : Keeps r₀ (snapshotDone k s) := by
  unfold snapshotDone
  repeat' first
    | (with_reducible first | assumption | apply copyRam_kept | apply contribDone_kept)
    | (with_reducible refine Keeps.of_snd ‹_› ?_)
    | (with_reducible refine Keeps.of_fst ‹_› ?_)
    | (with_reducible refine Keeps.foldl _ _ ?_ ?_)
    | (with_reducible refine Keeps.foldl_fst _ _ ?_ ?_)
    | (with_reducible refine Keeps.foldl_snd _ _ ?_ ?_)
    | (with_reducible refine Keeps.elim _ ?_ ?_)
    | intro _
    | split
    | (with_reducible refine Keeps.mk_upd ?_; first | (with_reducible first | assumption | apply copyRam_kept | apply contribDone_kept) | split)

theorem countPoint_kept {r₀ : State} (k slot x y z : Nat) (bad : Bool) {s : State} (h_s : Keeps r₀ s) : Keeps r₀ (countPoint k slot x y z bad s) := by
  unfold countPoint
  repeat' first
    | (with_reducible first | assumption | apply srcBump_kept | apply ramPut_kept | apply setRamBad_kept)
    | (with_reducible refine Keeps.of_snd ‹_› ?_)
    | (with_reducible refine Keeps.of_fst ‹_› ?_)
    | (with_reducible refine Keeps.foldl _ _ ?_ ?_)
    | (with_reducible refine Keeps.foldl_fst _ _ ?_ ?_)
    | (with_reducible refine Keeps.foldl_snd _ _ ?_ ?_)
    | (with_reducible refine Keeps.elim _ ?_ ?_)
    | intro _
    | split
    | (with_reducible refine Keeps.mk_upd ?_; first | (with_reducible first | assumption | apply srcBump_kept | apply ramPut_kept | apply setRamBad_kept) | split)

theorem sweepEnd_kept {r₀ : State} (k : Nat) (c : Contrib) {s : State} (h_s : Keeps r₀ s) : Keeps r₀ (sweepEnd k c s) := by
  unfold sweepEnd
  repeat' first | (with_reducible first | assumption | apply contribDone_kept) | split | (with_reducible refine Keeps.mk_upd ?_; with_reducible first | assumption | apply contribDone_kept)

theorem takeRecord_kept {r₀ : State} (k : Nat) (residueBad : Bool) {s : State} (h_s : Keeps r₀ s) : Keeps r₀ (takeRecord k residueBad s) := by
  unfold takeRecord
  repeat' first
    | (with_reducible first | assumption | apply setQueue_kept | apply reportResidue_kept | apply consumePoison_kept | apply setSrc_kept | apply ramClear_kept | apply sweepEnd_kept | apply srcBump_kept | apply countPoint_kept)
    | (with_reducible refine Keeps.of_snd ‹_› ?_)
    | (with_reducible refine Keeps.of_fst ‹_› ?_)
    | (with_reducible refine Keeps.foldl _ _ ?_ ?_)
    | (with_reducible refine Keeps.foldl_fst _ _ ?_ ?_)
    | (with_reducible refine Keeps.foldl_snd _ _ ?_ ?_)
    | (with_reducible refine Keeps.elim _ ?_ ?_)
    | intro _
    | split
    | (with_reducible refine Keeps.mk_upd ?_; first | (with_reducible first | assumption | apply setQueue_kept | apply reportResidue_kept | apply consumePoison_kept | apply setSrc_kept | apply ramClear_kept | apply sweepEnd_kept | apply srcBump_kept | apply countPoint_kept) | split)

theorem lidarRecord_kept {r₀ : State} (k : Nat) (residueBad : Bool) {s : State} (h_s : Keeps r₀ s) : Keeps r₀ (lidarRecord k residueBad s) := by
  unfold lidarRecord
  repeat' first
    | (with_reducible first | assumption | apply heldAtTick_kept | apply takeRecord_kept)
    | (with_reducible refine Keeps.of_snd ‹_› ?_)
    | (with_reducible refine Keeps.of_fst ‹_› ?_)
    | (with_reducible refine Keeps.foldl _ _ ?_ ?_)
    | (with_reducible refine Keeps.foldl_fst _ _ ?_ ?_)
    | (with_reducible refine Keeps.foldl_snd _ _ ?_ ?_)
    | (with_reducible refine Keeps.elim _ ?_ ?_)
    | intro _
    | split
    | (with_reducible refine Keeps.mk_upd ?_; first | (with_reducible first | assumption | apply heldAtTick_kept | apply takeRecord_kept) | split)

theorem tickSource_kept {r₀ : State} (t k : Nat) {s : State} (h_s : Keeps r₀ s) : Keeps r₀ (tickSource t k s) := by
  unfold tickSource
  repeat' first
    | (with_reducible first | assumption | apply setSrc_kept | apply srcBump_kept)
    | (with_reducible refine Keeps.of_snd ‹_› ?_)
    | (with_reducible refine Keeps.of_fst ‹_› ?_)
    | (with_reducible refine Keeps.foldl _ _ ?_ ?_)
    | (with_reducible refine Keeps.foldl_fst _ _ ?_ ?_)
    | (with_reducible refine Keeps.foldl_snd _ _ ?_ ?_)
    | (with_reducible refine Keeps.elim _ ?_ ?_)
    | intro _
    | split
    | (with_reducible refine Keeps.mk_upd ?_; first | (with_reducible first | assumption | apply setSrc_kept | apply srcBump_kept) | split)

theorem startCycle_kept {r₀ : State} (t k b : Nat) {s : State} (h_s : Keeps r₀ s) : Keeps r₀ (startCycle t k b s) := by
  unfold startCycle
  apply cycleTick_kept
  refine Keeps.mk_upd (s := (upto 32).foldl (fun s i => tickSource t i s) s) ?_
  exact Keeps.foldl _ _ h_s (fun _ x h => tickSource_kept t x h)

theorem tickCycle_kept {r₀ : State} (k : Nat) {s : State} (h_s : Keeps r₀ s) : Keeps r₀ (tickCycle k s) := by
  unfold tickCycle
  repeat' first
    | (with_reducible first | assumption | apply fusBump_kept | apply startCycle_kept)
    | split
    | (with_reducible refine Keeps.mk_upd ?_; with_reducible first | assumption | apply fusBump_kept | apply startCycle_kept)

theorem tickMsi_kept {r₀ : State} {s : State} (h_s : Keeps r₀ s) : Keeps r₀ (tickMsi s) := by
  unfold tickMsi
  repeat' first
    | (with_reducible first | assumption | apply raiseMsi_kept)
    | (with_reducible refine Keeps.of_snd ‹_› ?_)
    | (with_reducible refine Keeps.of_fst ‹_› ?_)
    | (with_reducible refine Keeps.foldl _ _ ?_ ?_)
    | (with_reducible refine Keeps.foldl_fst _ _ ?_ ?_)
    | (with_reducible refine Keeps.foldl_snd _ _ ?_ ?_)
    | (with_reducible refine Keeps.elim _ ?_ ?_)
    | intro _
    | split
    | (with_reducible refine Keeps.mk_upd ?_; first | (with_reducible first | assumption | apply raiseMsi_kept) | split)

theorem tickAt_kept {r₀ : State} (k : Nat) {s : State} (h_s : Keeps r₀ s) : Keeps r₀ (tickAt k s) := by
  unfold tickAt
  repeat' first
    | (with_reducible first | assumption | apply tickCycle_kept | apply tickMsi_kept)
    | split
    | (with_reducible refine Keeps.mk_upd ?_; with_reducible first | assumption | apply tickCycle_kept | apply tickMsi_kept)

theorem fusionTick_kept {r₀ : State} {s : State} (h_s : Keeps r₀ s) : Keeps r₀ (fusionTick s) := by
  unfold fusionTick
  repeat' first
    | (with_reducible first | assumption | apply tickAt_kept)
    | (with_reducible refine Keeps.of_snd ‹_› ?_)
    | (with_reducible refine Keeps.of_fst ‹_› ?_)
    | (with_reducible refine Keeps.foldl _ _ ?_ ?_)
    | (with_reducible refine Keeps.foldl_fst _ _ ?_ ?_)
    | (with_reducible refine Keeps.foldl_snd _ _ ?_ ?_)
    | (with_reducible refine Keeps.elim _ ?_ ?_)
    | intro _
    | split
    | (with_reducible refine Keeps.mk_upd ?_; first | (with_reducible first | assumption | apply tickAt_kept) | split)

theorem scoreSource_kept {r₀ : State} (k compared agree : Nat) {s : State} (h_s : Keeps r₀ s) : Keeps r₀ (scoreSource k compared agree s) := by
  unfold scoreSource
  repeat' first
    | (with_reducible first | assumption | apply drawFree_kept | apply setSrc_kept)
    | split
    | (with_reducible refine Keeps.mk_upd ?_; with_reducible first | assumption | apply drawFree_kept | apply setSrc_kept)

theorem gridRecord_kept {r₀ : State} (c : FusCycle) (g : Nat) (bad : Bool) {s : State} (h_s : Keeps r₀ s) : Keeps r₀ (gridRecord c g bad s) := by
  unfold gridRecord
  repeat' with_reducible first | assumption | apply putRecord_kept

theorem objectsRecord_kept {r₀ : State} (c : FusCycle) (missed : Bool) (bodies : List (List Byte)) (bad : Bool) {s : State} (h_s : Keeps r₀ s) : Keeps r₀ (objectsRecord c missed bodies bad s) := by
  unfold objectsRecord
  repeat' with_reducible first | assumption | apply putRecord_kept

theorem writeTile_kept {r₀ : State} (c : FusCycle) (hit : List Nat) (used : List Nat) (g : Nat) {s : State} (h_s : Keeps r₀ s) : Keeps r₀ (writeTile c hit used g s).1 := by
  unfold writeTile
  repeat' first
    | (with_reducible first | assumption | apply putRow_kept | apply ramPut_kept)
    | (with_reducible refine Keeps.of_snd ‹_› ?_)
    | (with_reducible refine Keeps.of_fst ‹_› ?_)
    | (with_reducible refine Keeps.foldl _ _ ?_ ?_)
    | (with_reducible refine Keeps.foldl_fst _ _ ?_ ?_)
    | (with_reducible refine Keeps.foldl_snd _ _ ?_ ?_)
    | (with_reducible refine Keeps.elim _ ?_ ?_)
    | intro _
    | split
    | (with_reducible refine Keeps.mk_upd ?_; first | (with_reducible first | assumption | apply putRow_kept | apply ramPut_kept) | split)

theorem writeTiles_kept {r₀ : State} (c : FusCycle) (hit : List Nat) (used : List Nat) {s : State} (h_s : Keeps r₀ s) : Keeps r₀ (writeTiles c hit used s).1 := by
  unfold writeTiles
  repeat' first
    | (with_reducible first | assumption | apply writeTile_kept | apply fusBumpN_kept)
    | (with_reducible refine Keeps.of_snd ‹_› ?_)
    | (with_reducible refine Keeps.of_fst ‹_› ?_)
    | (with_reducible refine Keeps.foldl _ _ ?_ ?_)
    | (with_reducible refine Keeps.foldl_fst _ _ ?_ ?_)
    | (with_reducible refine Keeps.foldl_snd _ _ ?_ ?_)
    | (with_reducible refine Keeps.elim _ ?_ ?_)
    | intro _
    | split
    | (with_reducible refine Keeps.mk_upd ?_; first | (with_reducible first | assumption | apply writeTile_kept | apply fusBumpN_kept) | split)

theorem scoreSources_kept {r₀ : State} {s : State} (h_s : Keeps r₀ s) : Keeps r₀ (scoreSources s) := by
  unfold scoreSources
  repeat' first
    | (with_reducible first | assumption | apply scoreSource_kept)
    | (with_reducible refine Keeps.of_snd ‹_› ?_)
    | (with_reducible refine Keeps.of_fst ‹_› ?_)
    | (with_reducible refine Keeps.foldl _ _ ?_ ?_)
    | (with_reducible refine Keeps.foldl_fst _ _ ?_ ?_)
    | (with_reducible refine Keeps.foldl_snd _ _ ?_ ?_)
    | (with_reducible refine Keeps.elim _ ?_ ?_)
    | intro _
    | split
    | (with_reducible refine Keeps.mk_upd ?_; first | (with_reducible first | assumption | apply scoreSource_kept) | split)

theorem fusionTriggers_kept {r₀ : State} (c : FusCycle) {s : State} (h_s : Keeps r₀ s) : Keeps r₀ (fusionTriggers c s) := by
  unfold fusionTriggers
  repeat' first
    | (with_reducible first | assumption | apply arrTrigger_kept)
    | (with_reducible refine Keeps.of_snd ‹_› ?_)
    | (with_reducible refine Keeps.of_fst ‹_› ?_)
    | (with_reducible refine Keeps.foldl _ _ ?_ ?_)
    | (with_reducible refine Keeps.foldl_fst _ _ ?_ ?_)
    | (with_reducible refine Keeps.foldl_snd _ _ ?_ ?_)
    | (with_reducible refine Keeps.elim _ ?_ ?_)
    | intro _
    | split
    | (with_reducible refine Keeps.mk_upd ?_; first | (with_reducible first | assumption | apply arrTrigger_kept) | split)

theorem dropGrid_kept {r₀ : State} (b : Nat) {s : State} (h_s : Keeps r₀ s) : Keeps r₀ (dropGrid b s) := by
  unfold dropGrid
  repeat' first | (with_reducible assumption) | split | (with_reducible refine Keeps.mk_upd ?_; with_reducible assumption)

theorem headMissed_kept {r₀ : State} (c : FusCycle) {s : State} (h_s : Keeps r₀ s) : Keeps r₀ (headMissed c s) := by
  unfold headMissed
  repeat' first
    | (with_reducible first | assumption | apply heldAt_kept | apply cycleEnds_kept | apply dropGrid_kept | apply fusBump_kept | apply objectsRecord_kept)
    | (with_reducible refine Keeps.of_snd ‹_› ?_)
    | (with_reducible refine Keeps.of_fst ‹_› ?_)
    | (with_reducible refine Keeps.foldl _ _ ?_ ?_)
    | (with_reducible refine Keeps.foldl_fst _ _ ?_ ?_)
    | (with_reducible refine Keeps.foldl_snd _ _ ?_ ?_)
    | (with_reducible refine Keeps.elim _ ?_ ?_)
    | intro _
    | split
    | (with_reducible refine Keeps.mk_upd ?_; first | (with_reducible first | assumption | apply heldAt_kept | apply cycleEnds_kept | apply dropGrid_kept | apply fusBump_kept | apply objectsRecord_kept) | split)

theorem missHeads_kept {r₀ : State} {s : State} (h_s : Keeps r₀ s) : Keeps r₀ (missHeads s) := by
  unfold missHeads
  repeat' first
    | (with_reducible first | assumption | apply headMissed_kept)
    | (with_reducible refine Keeps.of_snd ‹_› ?_)
    | (with_reducible refine Keeps.of_fst ‹_› ?_)
    | (with_reducible refine Keeps.foldl _ _ ?_ ?_)
    | (with_reducible refine Keeps.foldl_fst _ _ ?_ ?_)
    | (with_reducible refine Keeps.foldl_snd _ _ ?_ ?_)
    | (with_reducible refine Keeps.elim _ ?_ ?_)
    | intro _
    | split
    | (with_reducible refine Keeps.mk_upd ?_; first | (with_reducible first | assumption | apply headMissed_kept) | split)

theorem gridStage_kept {r₀ : State} (c : FusCycle) (residueBad : List Nat) {s : State} (h_s : Keeps r₀ s) : Keeps r₀ (gridStage c residueBad s) := by
  unfold gridStage
  have h1 := writeTiles_kept c (c.tileBad ++ residueBad) (srcList s (fun v => v.state == 1)) h_s
  dsimp -zeta only
  lift_lets
  intro used c s1
  have h2 : Keeps r₀ s1 := scoreSources_kept h1
  clear_value s1
  intro s2
  have h3 : Keeps r₀ s2 := Keeps.ite (Keeps.foldl _ _ h2 (fun _ e h => gridRecord_kept c e.2 e.1 h)) h2
  clear_value s2
  intro s3
  have h4 : Keeps r₀ s3 := Keeps.foldl _ _ h3 (fun _ k h => setSrc_kept k _ h)
  clear_value s3
  intro _ s4
  have h5 : Keeps r₀ s4 := fusBump_kept _ (Keeps.mk_upd h4)
  clear_value s4
  intro s5'
  have h5' : Keeps r₀ s5' := Keeps.ite (reportResidue_kept _ _ h5) h5
  clear_value s5'
  intro s5
  have h6 : Keeps r₀ s5 := Keeps.ite (consumePoison_kept _ _ h5') h5'
  clear_value s5
  intro head s6
  have h7 : Keeps r₀ s6 := Keeps.ite (missHeads_kept h6) h6
  clear_value s6
  intro drop s7
  have h8 : Keeps r₀ s7 := fusionTriggers_kept _ h7
  clear_value s7
  intro _
  exact Keeps.ite (headMissed_kept _ h8) (Keeps.mk_upd h8)

theorem gridStageEnd_kept {r₀ : State} (residueBad : List Nat) {s : State} (h_s : Keeps r₀ s) : Keeps r₀ (gridStageEnd residueBad s) := by
  unfold gridStageEnd
  split
  · exact h_s
  · split
    · exact h_s
    · exact heldAt_kept _ _ (fun t h => gridStage_kept _ _ h) h_s

theorem flowPair_kept {r₀ : State} (k : Nat) (p : Pkt) {s : State} (h_s : Keeps r₀ s) : Keeps r₀ (flowPair k p s) := by
  unfold flowPair
  dsimp only
  repeat' first
    | (with_reducible first | assumption | apply fusBump_kept)
    | (with_reducible refine Keeps.of_snd ‹_› ?_)
    | (with_reducible refine Keeps.of_fst ‹_› ?_)
    | (with_reducible refine Keeps.foldl _ _ ?_ ?_)
    | (with_reducible refine Keeps.foldl_fst _ _ ?_ ?_)
    | (with_reducible refine Keeps.foldl_snd _ _ ?_ ?_)
    | (with_reducible refine Keeps.elim _ ?_ ?_)
    | intro _
    | split
    | (with_reducible refine Keeps.mk_upd ?_; first | (with_reducible first | assumption | apply fusBump_kept) | split)
    | (with_reducible refine Keeps.mk_sec ?_ (.same rfl rfl rfl rfl rfl rfl rfl rfl rfl rfl rfl); first | (with_reducible first | assumption | apply fusBump_kept) | split)

theorem takeFlow_kept {r₀ : State} {s : State} (h_s : Keeps r₀ s) : Keeps r₀ (takeFlow s) := by
  unfold takeFlow
  repeat' first
    | (with_reducible first | assumption | apply crossCheck_kept | apply dropCq_kept | apply consumePoison_kept | apply flowPair_kept)
    | (lift_lets
       intro x
       first
         | (have hx : Keeps r₀ x := by
               repeat' first
                 | (with_reducible first | assumption | apply crossCheck_kept | apply dropCq_kept | apply consumePoison_kept | apply flowPair_kept)
                 | (with_reducible refine Keeps.of_snd ‹_› ?_)
                 | (with_reducible refine Keeps.of_fst ‹_› ?_)
                 | (with_reducible refine Keeps.foldl _ _ ?_ ?_)
                 | (with_reducible refine Keeps.foldl_fst _ _ ?_ ?_)
                 | (with_reducible refine Keeps.foldl_snd _ _ ?_ ?_)
                 | (with_reducible refine Keeps.elim _ ?_ ?_)
                 | intro _
                 | split
                 | (with_reducible refine Keeps.mk_upd ?_; first | (with_reducible first | assumption | apply crossCheck_kept | apply dropCq_kept | apply consumePoison_kept | apply flowPair_kept) | split)
            clear_value x)
         | skip)
    | (with_reducible refine Keeps.of_snd ‹_› ?_)
    | (with_reducible refine Keeps.of_fst ‹_› ?_)
    | (with_reducible refine Keeps.foldl _ _ ?_ ?_)
    | (with_reducible refine Keeps.foldl_fst _ _ ?_ ?_)
    | (with_reducible refine Keeps.foldl_snd _ _ ?_ ?_)
    | (with_reducible refine Keeps.elim _ ?_ ?_)
    | intro _
    | split
    | (with_reducible refine Keeps.mk_upd ?_; first | (with_reducible first | assumption | apply crossCheck_kept | apply dropCq_kept | apply consumePoison_kept | apply flowPair_kept) | split)

theorem flowPacket_kept {r₀ : State} {s : State} (h_s : Keeps r₀ s) : Keeps r₀ (flowPacket s) := by
  unfold flowPacket
  repeat' first
    | (with_reducible first | assumption | apply heldAtTick_kept | apply takeFlow_kept)
    | (lift_lets
       intro x
       first
         | (have hx : Keeps r₀ x := by
               repeat' first
                 | (with_reducible first | assumption | apply heldAtTick_kept | apply takeFlow_kept)
                 | (with_reducible refine Keeps.of_snd ‹_› ?_)
                 | (with_reducible refine Keeps.of_fst ‹_› ?_)
                 | (with_reducible refine Keeps.foldl _ _ ?_ ?_)
                 | (with_reducible refine Keeps.foldl_fst _ _ ?_ ?_)
                 | (with_reducible refine Keeps.foldl_snd _ _ ?_ ?_)
                 | (with_reducible refine Keeps.elim _ ?_ ?_)
                 | intro _
                 | split
                 | (with_reducible refine Keeps.mk_upd ?_; first | (with_reducible first | assumption | apply heldAtTick_kept | apply takeFlow_kept) | split)
            clear_value x)
         | skip)
    | (with_reducible refine Keeps.of_snd ‹_› ?_)
    | (with_reducible refine Keeps.of_fst ‹_› ?_)
    | (with_reducible refine Keeps.foldl _ _ ?_ ?_)
    | (with_reducible refine Keeps.foldl_fst _ _ ?_ ?_)
    | (with_reducible refine Keeps.foldl_snd _ _ ?_ ?_)
    | (with_reducible refine Keeps.elim _ ?_ ?_)
    | intro _
    | split
    | (with_reducible refine Keeps.mk_upd ?_; first | (with_reducible first | assumption | apply heldAtTick_kept | apply takeFlow_kept) | split)

theorem fusGyro_kept {r₀ : State} (ch : Nat) {s : State} (h_s : Keeps r₀ s) : Keeps r₀ (fusGyro ch s) := by
  unfold fusGyro
  repeat' first
    | (with_reducible assumption)
    | (with_reducible refine Keeps.of_snd ‹_› ?_)
    | (with_reducible refine Keeps.of_fst ‹_› ?_)
    | (with_reducible refine Keeps.foldl _ _ ?_ ?_)
    | (with_reducible refine Keeps.foldl_fst _ _ ?_ ?_)
    | (with_reducible refine Keeps.foldl_snd _ _ ?_ ?_)
    | (with_reducible refine Keeps.elim _ ?_ ?_)
    | intro _
    | split
    | (with_reducible refine Keeps.mk_upd ?_; first | (with_reducible assumption) | split)

theorem inrToFusion_kept {r₀ : State} (ch : Nat) {s : State} (h_s : Keeps r₀ s) : Keeps r₀ (inrToFusion ch s) := by
  unfold inrToFusion
  repeat' first
    | (with_reducible first | assumption | apply fusGyro_kept | apply inrOutput_kept)
    | split
    | (with_reducible refine Keeps.mk_upd ?_; with_reducible first | assumption | apply fusGyro_kept | apply inrOutput_kept)

theorem fusStart_kept {r₀ : State} {s : State} (h_s : Keeps r₀ s) : Keeps r₀ (fusStart s) := by
  unfold fusStart
  repeat' first | (with_reducible assumption) | split | (with_reducible refine Keeps.mk_upd ?_; with_reducible assumption)

theorem fusRestore_kept {r₀ : State} {s : State} (h_s : Keeps r₀ s) : Keeps r₀ (fusRestore s) := by
  unfold fusRestore
  repeat' first
    | (with_reducible first | assumption | apply fusStart_kept | apply setSrc_kept)
    | (with_reducible refine Keeps.of_snd ‹_› ?_)
    | (with_reducible refine Keeps.of_fst ‹_› ?_)
    | (with_reducible refine Keeps.foldl _ _ ?_ ?_)
    | (with_reducible refine Keeps.foldl_fst _ _ ?_ ?_)
    | (with_reducible refine Keeps.foldl_snd _ _ ?_ ?_)
    | (with_reducible refine Keeps.elim _ ?_ ?_)
    | intro _
    | split
    | (with_reducible refine Keeps.mk_upd ?_; first | (with_reducible first | assumption | apply fusStart_kept | apply setSrc_kept) | split)

end Sys2Proof.Machine
end

