-- ==== Sys2Proof/Laws/KeptMotion.lean ====
section
/-! SUPPORT. What the operations of Machine/Motion.lean keep: the queue, canonical forms, burnt fuses. -/
namespace Sys2Proof.Machine

theorem egoStage_kept {r₀ : State} (c : FusCycle) (residueBad : Bool) {s : State} (h_s : Keeps r₀ s) : Keeps r₀ (egoStage c residueBad s) := by
  unfold egoStage
  repeat' first
    | (with_reducible first | assumption | apply fusBump_kept | apply fusBumpN_kept | apply putRecord_kept | apply reportResidue_kept | apply consumePoison_kept)
    | (with_reducible refine Keeps.of_snd ‹_› ?_)
    | (with_reducible refine Keeps.of_fst ‹_› ?_)
    | (with_reducible refine Keeps.foldl _ _ ?_ ?_)
    | (with_reducible refine Keeps.foldl_fst _ _ ?_ ?_)
    | (with_reducible refine Keeps.foldl_snd _ _ ?_ ?_)
    | (with_reducible refine Keeps.elim _ ?_ ?_)
    | intro _
    | split
    | (with_reducible refine Keeps.mk_upd ?_; first | (with_reducible first | assumption | apply fusBump_kept | apply fusBumpN_kept | apply putRecord_kept | apply reportResidue_kept | apply consumePoison_kept) | split)

theorem egoDone_kept {r₀ : State} (residueBad : Bool) {s : State} (h_s : Keeps r₀ s) : Keeps r₀ (egoDone residueBad s) := by
  unfold egoDone
  repeat' first
    | (with_reducible first | assumption | apply heldAt_kept | apply egoStage_kept)
    | split
    | (with_reducible refine Keeps.mk_upd ?_; with_reducible first | assumption | apply heldAt_kept | apply egoStage_kept)

theorem objects_kept {r₀ : State} (c : FusCycle) (inc : List Nat) (incBad : Bool) (hit : List Nat) {s : State} (h_s : Keeps r₀ s) : Keeps r₀ (objects c inc incBad hit s) := by
  unfold objects
  repeat' first
    | (with_reducible first | assumption | apply fusBumpN_kept | apply objectsRecord_kept | apply reportResidue_kept | apply consumePoison_kept | apply cycleEnds_kept | apply dropGrid_kept)
    | split
    | (with_reducible refine Keeps.mk_upd ?_; with_reducible first | assumption | apply fusBumpN_kept | apply objectsRecord_kept | apply reportResidue_kept | apply consumePoison_kept | apply cycleEnds_kept | apply dropGrid_kept)

theorem objectStage_kept {r₀ : State} (residueBad : List Nat) {s : State} (h_s : Keeps r₀ s) : Keeps r₀ (objectStage residueBad s) := by
  unfold objectStage
  repeat' first
    | (with_reducible first | assumption | apply heldAt_kept | apply objects_kept)
    | split
    | (with_reducible refine Keeps.mk_upd ?_; with_reducible first | assumption | apply heldAt_kept | apply objects_kept)

end Sys2Proof.Machine
end

