-- ==== Sys2Proof/Laws/KeptServo.lean ====
section
/-! SUPPORT. What the operations of Machine/Servo.lean keep: the queue, canonical forms, burnt fuses. -/
namespace Sys2Proof.Machine

theorem syncTo_kept {r₀ : State} (d : SyncState) {s : State} (h_s : Keeps r₀ s) : Keeps r₀ (syncTo d s) := by
  unfold syncTo
  repeat' first
    | (with_reducible first | assumption | apply bump_kept | apply setTime_kept | apply timeNotice_kept)
    | split
    | (with_reducible refine Keeps.mk_upd ?_; with_reducible first | assumption | apply bump_kept | apply setTime_kept | apply timeNotice_kept)

theorem gapRule_kept {r₀ : State} {s : State} (h_s : Keeps r₀ s) : Keeps r₀ (gapRule s) := by
  unfold gapRule
  repeat' first | (with_reducible first | assumption | apply syncTo_kept) | split | (with_reducible refine Keeps.mk_upd ?_; with_reducible first | assumption | apply syncTo_kept)

theorem servoUpdate_kept {r₀ : State} (theta : Int) {s : State} (h_s : Keeps r₀ s) : Keeps r₀ (servoUpdate theta s) := by
  unfold servoUpdate
  repeat' with_reducible first | assumption | apply setTime_kept

theorem afterStep_kept {r₀ : State} {s : State} (h_s : Keeps r₀ s) : Keeps r₀ (afterStep s) := by
  unfold afterStep
  repeat' first
    | (with_reducible first | assumption | apply setSlu_kept | apply ppsRestart_kept | apply policersAfterStep_kept | apply emptyGyro_kept | apply fireCmp_kept | apply setTime_kept | apply syncOutFire_kept | apply setSyncOut_kept)
    | (with_reducible refine Keeps.of_snd ‹_› ?_)
    | (with_reducible refine Keeps.of_fst ‹_› ?_)
    | (with_reducible refine Keeps.foldl _ _ ?_ ?_)
    | (with_reducible refine Keeps.foldl_fst _ _ ?_ ?_)
    | (with_reducible refine Keeps.foldl_snd _ _ ?_ ?_)
    | (with_reducible refine Keeps.elim _ ?_ ?_)
    | intro _
    | split
    | (with_reducible refine Keeps.mk_upd ?_; first | (with_reducible first | assumption | apply setSlu_kept | apply ppsRestart_kept | apply policersAfterStep_kept | apply emptyGyro_kept | apply fireCmp_kept | apply setTime_kept | apply syncOutFire_kept | apply setSyncOut_kept) | split)

theorem stepTime_kept {r₀ : State} (d : Nat) {s : State} (h_s : Keeps r₀ s) : Keeps r₀ (stepTime d s) := by
  unfold stepTime
  repeat' with_reducible first | assumption | apply setTime_kept | apply afterStep_kept | apply syncTo_kept | apply bump_kept

theorem pendStep_kept {r₀ : State} {s : State} (h_s : Keeps r₀ s) : Keeps r₀ (pendStep s) := by
  unfold pendStep
  repeat' first
    | (with_reducible first | assumption | apply timeNotice_kept | apply setTime_kept)
    | split
    | (with_reducible refine Keeps.mk_upd ?_; with_reducible first | assumption | apply timeNotice_kept | apply setTime_kept)

theorem countLock_kept {r₀ : State} (mag : Int) {s : State} (h_s : Keeps r₀ s) : Keeps r₀ (countLock mag s) := by
  unfold countLock
  repeat' first
    | (with_reducible first | assumption | apply setTime_kept | apply syncTo_kept)
    | (with_reducible refine Keeps.of_snd ‹_› ?_)
    | (with_reducible refine Keeps.of_fst ‹_› ?_)
    | (with_reducible refine Keeps.foldl _ _ ?_ ?_)
    | (with_reducible refine Keeps.foldl_fst _ _ ?_ ?_)
    | (with_reducible refine Keeps.foldl_snd _ _ ?_ ?_)
    | (with_reducible refine Keeps.elim _ ?_ ?_)
    | intro _
    | split
    | (with_reducible refine Keeps.mk_upd ?_; first | (with_reducible first | assumption | apply setTime_kept | apply syncTo_kept) | split)

theorem acceptSample_kept {r₀ : State} (theta : Int) {s : State} (h_s : Keeps r₀ s) : Keeps r₀ (acceptSample theta s) := by
  unfold acceptSample
  repeat' first
    | (with_reducible first | assumption | apply bump_kept | apply setTime_kept | apply syncTo_kept | apply stepTime_kept | apply servoUpdate_kept | apply pendStep_kept | apply countLock_kept)
    | (with_reducible refine Keeps.of_snd ‹_› ?_)
    | (with_reducible refine Keeps.of_fst ‹_› ?_)
    | (with_reducible refine Keeps.foldl _ _ ?_ ?_)
    | (with_reducible refine Keeps.foldl_fst _ _ ?_ ?_)
    | (with_reducible refine Keeps.foldl_snd _ _ ?_ ?_)
    | (with_reducible refine Keeps.elim _ ?_ ?_)
    | intro _
    | split
    | (with_reducible refine Keeps.mk_upd ?_; first | (with_reducible first | assumption | apply bump_kept | apply setTime_kept | apply syncTo_kept | apply stepTime_kept | apply servoUpdate_kept | apply pendStep_kept | apply countLock_kept) | split)

theorem offerSample_kept {r₀ : State} (theta : Int) {s : State} (h_s : Keeps r₀ s) : Keeps r₀ (offerSample theta s) := by
  unfold offerSample
  repeat' first
    | (with_reducible first | assumption | apply bump_kept | apply setTime_kept | apply gapRule_kept | apply timeNotice_kept | apply acceptSample_kept)
    | (with_reducible refine Keeps.of_snd ‹_› ?_)
    | (with_reducible refine Keeps.of_fst ‹_› ?_)
    | (with_reducible refine Keeps.foldl _ _ ?_ ?_)
    | (with_reducible refine Keeps.foldl_fst _ _ ?_ ?_)
    | (with_reducible refine Keeps.foldl_snd _ _ ?_ ?_)
    | (with_reducible refine Keeps.elim _ ?_ ?_)
    | intro _
    | split
    | (with_reducible refine Keeps.mk_upd ?_; first | (with_reducible first | assumption | apply bump_kept | apply setTime_kept | apply gapRule_kept | apply timeNotice_kept | apply acceptSample_kept) | split)

theorem syncTimeout_kept {r₀ : State} {s : State} (h_s : Keeps r₀ s) : Keeps r₀ (syncTimeout s) := by
  unfold syncTimeout
  repeat' first | (with_reducible first | assumption | apply gapRule_kept) | split | (with_reducible refine Keeps.mk_upd ?_; with_reducible first | assumption | apply gapRule_kept)

theorem holdLimit_kept {r₀ : State} {s : State} (h_s : Keeps r₀ s) : Keeps r₀ (holdLimit s) := by
  unfold holdLimit
  repeat' first
    | (with_reducible first | assumption | apply timeNotice_kept | apply setTime_kept)
    | split
    | (with_reducible refine Keeps.mk_upd ?_; with_reducible first | assumption | apply timeNotice_kept | apply setTime_kept)

theorem newMaster_kept {r₀ : State} {s : State} (h_s : Keeps r₀ s) : Keeps r₀ (newMaster s) := by
  unfold newMaster
  repeat' with_reducible first | assumption | apply setTime_kept

theorem gmChange_kept {r₀ : State} {s : State} (h_s : Keeps r₀ s) : Keeps r₀ (gmChange s) := by
  unfold gmChange
  repeat' with_reducible first | assumption | apply newMaster_kept | apply gapRule_kept

theorem servoWritten_kept {r₀ : State} (old : Nat) {s : State} (h_s : Keeps r₀ s) : Keeps r₀ (servoWritten old s) := by
  unfold servoWritten
  repeat' first
    | (with_reducible first | assumption | apply newMaster_kept | apply syncTo_kept)
    | (with_reducible refine Keeps.of_snd ‹_› ?_)
    | (with_reducible refine Keeps.of_fst ‹_› ?_)
    | (with_reducible refine Keeps.foldl _ _ ?_ ?_)
    | (with_reducible refine Keeps.foldl_fst _ _ ?_ ?_)
    | (with_reducible refine Keeps.foldl_snd _ _ ?_ ?_)
    | (with_reducible refine Keeps.elim _ ?_ ?_)
    | intro _
    | split
    | (with_reducible refine Keeps.mk_upd ?_; first | (with_reducible first | assumption | apply newMaster_kept | apply syncTo_kept) | split)

theorem portSample_kept {r₀ : State} (p : Nat) (theta : Int) {s : State} (h_s : Keeps r₀ s) : Keeps r₀ (portSample p theta s) := by
  unfold portSample
  repeat' first | (with_reducible first | assumption | apply offerSample_kept) | split | (with_reducible refine Keeps.mk_upd ?_; with_reducible first | assumption | apply offerSample_kept)

theorem ptpFrame_kept {r₀ : State} (p : Nat) (secured : Bool) (eff : State → State) {s : State} (h_eff : ∀ x, Keeps r₀ x → Keeps r₀ (eff x)) (h_s : Keeps r₀ s) : Keeps r₀ (ptpFrame p secured eff s) := by
  unfold ptpFrame
  repeat' first
    | (with_reducible first | assumption | apply bump_kept | apply h_eff)
    | split
    | (with_reducible refine Keeps.mk_upd ?_; with_reducible first | assumption | apply bump_kept | apply h_eff)

theorem ptpSyncRx_kept {r₀ : State} (p : Nat) (m : PtpSync) {s : State} (h_s : Keeps r₀ s) : Keeps r₀ (ptpSyncRx p m s) := by
  unfold ptpSyncRx
  repeat' first
    | (with_reducible first | assumption | apply bump_kept | apply setPtp_kept | apply portSample_kept)
    | split
    | (with_reducible refine Keeps.mk_upd ?_; with_reducible first | assumption | apply bump_kept | apply setPtp_kept | apply portSample_kept)

theorem ptpFollowUpRx_kept {r₀ : State} (p seq pot : Nat) (corr : Int) {s : State} (h_s : Keeps r₀ s) : Keeps r₀ (ptpFollowUpRx p seq pot corr s) := by
  unfold ptpFollowUpRx
  repeat' first
    | (with_reducible first | assumption | apply portSample_kept | apply setPtp_kept)
    | (with_reducible refine Keeps.of_snd ‹_› ?_)
    | (with_reducible refine Keeps.of_fst ‹_› ?_)
    | (with_reducible refine Keeps.foldl _ _ ?_ ?_)
    | (with_reducible refine Keeps.foldl_fst _ _ ?_ ?_)
    | (with_reducible refine Keeps.foldl_snd _ _ ?_ ?_)
    | (with_reducible refine Keeps.elim _ ?_ ?_)
    | intro _
    | split
    | (with_reducible refine Keeps.mk_upd ?_; first | (with_reducible first | assumption | apply portSample_kept | apply setPtp_kept) | split)

theorem selectSource_kept {r₀ : State} (p : Nat) {s : State} (h_s : Keeps r₀ s) : Keeps r₀ (selectSource p s) := by
  unfold selectSource
  repeat' with_reducible first | assumption | apply servoWritten_kept | apply wr_kept

theorem ptpLkpMessage_kept {r₀ : State} (p : Nat) (m : PtpMsg) {s : State} (h_s : Keeps r₀ s) : Keeps r₀ (ptpLkpMessage p m s) := by
  unfold ptpLkpMessage
  repeat' first
    | (with_reducible first | assumption | apply setPtp_kept | apply setTime_kept | apply selectSource_kept | apply gmChange_kept | apply wr_kept | apply offerSample_kept)
    | (with_reducible refine Keeps.of_snd ‹_› ?_)
    | (with_reducible refine Keeps.of_fst ‹_› ?_)
    | (with_reducible refine Keeps.foldl _ _ ?_ ?_)
    | (with_reducible refine Keeps.foldl_fst _ _ ?_ ?_)
    | (with_reducible refine Keeps.foldl_snd _ _ ?_ ?_)
    | (with_reducible refine Keeps.elim _ ?_ ?_)
    | intro _
    | split
    | (with_reducible refine Keeps.mk_upd ?_; first | (with_reducible first | assumption | apply setPtp_kept | apply setTime_kept | apply selectSource_kept | apply gmChange_kept | apply wr_kept | apply offerSample_kept) | split)

end Sys2Proof.Machine
end

