-- ==== Sys2Proof/Laws/KeptPeers.lean ====
section
/-! SUPPORT. What the operations of Machine/Peers.lean keep: the queue, canonical forms, burnt fuses. -/
namespace Sys2Proof.Machine

theorem queueOn_kept {r₀ : State} (k : Nat) (p : Pkt) {s : State} (h_s : Keeps r₀ s) : Keeps r₀ (queueOn k p s) := by
  unfold queueOn
  repeat' first
    | (with_reducible first | assumption | apply putCq_kept | apply cnlBump_kept)
    | split
    | (with_reducible refine Keeps.mk_upd ?_; with_reducible first | assumption | apply putCq_kept | apply cnlBump_kept)

theorem resendOn_kept {r₀ : State} (k j w a a' : Nat) {s : State} (h_s : Keeps r₀ s) : Keeps r₀ (resendOn k j w a a' s) := by
  unfold resendOn
  repeat' first
    | (with_reducible first | assumption | apply setLink_kept | apply queueOn_kept)
    | (with_reducible refine Keeps.of_snd ‹_› ?_)
    | (with_reducible refine Keeps.of_fst ‹_› ?_)
    | (with_reducible refine Keeps.foldl _ _ ?_ ?_)
    | (with_reducible refine Keeps.foldl_fst _ _ ?_ ?_)
    | (with_reducible refine Keeps.foldl_snd _ _ ?_ ?_)
    | (with_reducible refine Keeps.elim _ ?_ ?_)
    | intro _
    | split
    | (with_reducible refine Keeps.mk_upd ?_; first | (with_reducible first | assumption | apply setLink_kept | apply queueOn_kept) | split)

theorem failWindow_kept {r₀ : State} (j w : Nat) {s : State} (h_s : Keeps r₀ s) : Keeps r₀ (failWindow j w s) := by
  unfold failWindow
  repeat' with_reducible first | assumption | apply setPass_kept

theorem windowLost_kept {r₀ : State} (k j w : Nat) {s : State} (h_s : Keeps r₀ s) : Keeps r₀ (windowLost k j w s) := by
  unfold windowLost
  repeat' first
    | (with_reducible first | assumption | apply beginRestart_kept | apply setAttempt_kept | apply setLink_kept | apply resendOn_kept)
    | (with_reducible refine Keeps.of_snd ‹_› ?_)
    | (with_reducible refine Keeps.of_fst ‹_› ?_)
    | (with_reducible refine Keeps.foldl _ _ ?_ ?_)
    | (with_reducible refine Keeps.foldl_fst _ _ ?_ ?_)
    | (with_reducible refine Keeps.foldl_snd _ _ ?_ ?_)
    | (with_reducible refine Keeps.elim _ ?_ ?_)
    | intro _
    | split
    | (with_reducible refine Keeps.mk_upd ?_; first | (with_reducible first | assumption | apply beginRestart_kept | apply setAttempt_kept | apply setLink_kept | apply resendOn_kept) | split)

theorem rerouteTx_kept {r₀ : State} (k : Nat) {s : State} (h_s : Keeps r₀ s) : Keeps r₀ (rerouteTx k s) := by
  unfold rerouteTx
  repeat' first
    | (with_reducible first | assumption | apply queueOn_kept | apply setCq_kept)
    | (with_reducible refine Keeps.of_snd ‹_› ?_)
    | (with_reducible refine Keeps.of_fst ‹_› ?_)
    | (with_reducible refine Keeps.foldl _ _ ?_ ?_)
    | (with_reducible refine Keeps.foldl_fst _ _ ?_ ?_)
    | (with_reducible refine Keeps.foldl_snd _ _ ?_ ?_)
    | (with_reducible refine Keeps.elim _ ?_ ?_)
    | intro _
    | split
    | (with_reducible refine Keeps.mk_upd ?_; first | (with_reducible first | assumption | apply queueOn_kept | apply setCq_kept) | split)

theorem duplicateNotice_kept {r₀ : State} (k : Nat) {s : State} (h_s : Keeps r₀ s) : Keeps r₀ (duplicateNotice k s) := by
  unfold duplicateNotice
  repeat' first
    | (with_reducible first | assumption | apply linkNotice_kept)
    | (with_reducible refine Keeps.of_snd ‹_› ?_)
    | (with_reducible refine Keeps.of_fst ‹_› ?_)
    | (with_reducible refine Keeps.foldl _ _ ?_ ?_)
    | (with_reducible refine Keeps.foldl_fst _ _ ?_ ?_)
    | (with_reducible refine Keeps.foldl_snd _ _ ?_ ?_)
    | (with_reducible refine Keeps.elim _ ?_ ?_)
    | intro _
    | split
    | (with_reducible refine Keeps.mk_upd ?_; first | (with_reducible first | assumption | apply linkNotice_kept) | split)

theorem devIdWritten_kept {r₀ : State} {s : State} (h_s : Keeps r₀ s) : Keeps r₀ (devIdWritten s) := by
  unfold devIdWritten
  repeat' first
    | (with_reducible first | assumption | apply rerouteTx_kept | apply duplicateNotice_kept | apply setLink_kept)
    | (with_reducible refine Keeps.of_snd ‹_› ?_)
    | (with_reducible refine Keeps.of_fst ‹_› ?_)
    | (with_reducible refine Keeps.foldl _ _ ?_ ?_)
    | (with_reducible refine Keeps.foldl_fst _ _ ?_ ?_)
    | (with_reducible refine Keeps.foldl_snd _ _ ?_ ?_)
    | (with_reducible refine Keeps.elim _ ?_ ?_)
    | intro _
    | split
    | (with_reducible refine Keeps.mk_upd ?_; first | (with_reducible first | assumption | apply rerouteTx_kept | apply duplicateNotice_kept | apply setLink_kept) | split)

theorem linkLost_kept {r₀ : State} (k : Nat) {s : State} (h_s : Keeps r₀ s) : Keeps r₀ (linkLost k s) := by
  unfold linkLost
  repeat' first
    | (with_reducible first | assumption | apply cnlBumpN_kept | apply setReady_kept | apply setLink_kept | apply windowLost_kept | apply failWindow_kept | apply rerouteTx_kept | apply bumpN_kept | apply linkNotice_kept | apply raiseCause_kept)
    | (with_reducible refine Keeps.of_snd ‹_› ?_)
    | (with_reducible refine Keeps.of_fst ‹_› ?_)
    | (with_reducible refine Keeps.foldl _ _ ?_ ?_)
    | (with_reducible refine Keeps.foldl_fst _ _ ?_ ?_)
    | (with_reducible refine Keeps.foldl_snd _ _ ?_ ?_)
    | (with_reducible refine Keeps.elim _ ?_ ?_)
    | intro _
    | split
    | (with_reducible refine Keeps.mk_upd ?_; first | (with_reducible first | assumption | apply cnlBumpN_kept | apply setReady_kept | apply setLink_kept | apply windowLost_kept | apply failWindow_kept | apply rerouteTx_kept | apply bumpN_kept | apply linkNotice_kept | apply raiseCause_kept) | split)

theorem linkEnabled_kept {r₀ : State} (k : Nat) (on : Bool) {s : State} (h_s : Keeps r₀ s) : Keeps r₀ (linkEnabled k on s) := by
  unfold linkEnabled
  repeat' first
    | (with_reducible first | assumption | apply setLink_kept | apply linkLost_kept | apply setReady_kept)
    | split
    | (with_reducible refine Keeps.mk_upd ?_; with_reducible first | assumption | apply setLink_kept | apply linkLost_kept | apply setReady_kept)

end Sys2Proof.Machine
end

