-- ==== Sys2Proof/Laws/KeptRegisters.lean ====
section
/-! SUPPORT. What the operations of Machine/Registers.lean keep: the queue, canonical forms, burnt fuses. -/
namespace Sys2Proof.Machine

theorem sluPortWritten_kept {r₀ : State} (n : Nat) (old : List Nat) {s : State} (h_s : Keeps r₀ s) : Keeps r₀ (sluPortWritten n old s) := by
  unfold sluPortWritten
  dsimp only
  repeat' first
    | (with_reducible first | assumption | apply setRegWord_kept | apply portEnable_kept | apply portDisable_kept)
    | (with_reducible refine Keeps.of_snd ‹_› ?_)
    | (with_reducible refine Keeps.of_fst ‹_› ?_)
    | (with_reducible refine Keeps.foldl _ _ ?_ ?_)
    | (with_reducible refine Keeps.foldl_fst _ _ ?_ ?_)
    | (with_reducible refine Keeps.foldl_snd _ _ ?_ ?_)
    | (with_reducible refine Keeps.elim _ ?_ ?_)
    | intro _
    | split
    | (with_reducible refine Keeps.mk_upd ?_; first | (with_reducible first | assumption | apply setRegWord_kept | apply portEnable_kept | apply portDisable_kept) | split)
    | (with_reducible refine Keeps.mk_sec ?_ (.same rfl rfl rfl rfl rfl rfl rfl rfl rfl rfl rfl); first | (with_reducible first | assumption | apply setRegWord_kept | apply portEnable_kept | apply portDisable_kept) | split)

theorem entryWritten_kept {r₀ : State} (u reg e : Nat) (old : List Nat) {s : State} (h_s : Keeps r₀ s) : Keeps r₀ (entryWritten u reg e old s) := by
  unfold entryWritten
  repeat' first
    | (with_reducible first | assumption | apply sluPortWritten_kept | apply inrChWritten_kept | apply srfPortEnable_kept | apply fillPolicer_kept | apply devIdWritten_kept | apply linkEnabled_kept | apply streamEnable_kept | apply streamDisable_kept | apply queueDisable_kept | apply servoWritten_kept | apply armCmp_kept | apply ppsRestart_kept | apply syncOutEnable_kept)
    | (with_reducible refine Keeps.of_snd ‹_› ?_)
    | (with_reducible refine Keeps.of_fst ‹_› ?_)
    | (with_reducible refine Keeps.foldl _ _ ?_ ?_)
    | (with_reducible refine Keeps.foldl_fst _ _ ?_ ?_)
    | (with_reducible refine Keeps.foldl_snd _ _ ?_ ?_)
    | (with_reducible refine Keeps.elim _ ?_ ?_)
    | intro _
    | split
    | (with_reducible refine Keeps.mk_upd ?_; first | (with_reducible first | assumption | apply sluPortWritten_kept | apply inrChWritten_kept | apply srfPortEnable_kept | apply fillPolicer_kept | apply devIdWritten_kept | apply linkEnabled_kept | apply streamEnable_kept | apply streamDisable_kept | apply queueDisable_kept | apply servoWritten_kept | apply armCmp_kept | apply ppsRestart_kept | apply syncOutEnable_kept) | split)

theorem writeEntryWords_kept {r₀ : State} (u reg e : Nat) (ws : List Nat) {s : State} (h_s : Keeps r₀ s) : Keeps r₀ (writeEntryWords u reg e ws s) := by
  unfold writeEntryWords
  repeat' first
    | (with_reducible first | assumption | apply entryWritten_kept | apply setRegWord_kept)
    | (with_reducible refine Keeps.of_snd ‹_› ?_)
    | (with_reducible refine Keeps.of_fst ‹_› ?_)
    | (with_reducible refine Keeps.foldl _ _ ?_ ?_)
    | (with_reducible refine Keeps.foldl_fst _ _ ?_ ?_)
    | (with_reducible refine Keeps.foldl_snd _ _ ?_ ?_)
    | (with_reducible refine Keeps.elim _ ?_ ?_)
    | intro _
    | split
    | (with_reducible refine Keeps.mk_upd ?_; first | (with_reducible first | assumption | apply entryWritten_kept | apply setRegWord_kept) | split)

theorem cfgWrite_kept {r₀ : State} (u reg entry word : Nat) (vals : List Nat) {s : State} (h_s : Keeps r₀ s) : Keeps r₀ (cfgWrite u reg entry word vals s).2 := by
  unfold cfgWrite
  repeat' first
    | (with_reducible first | assumption | apply writeEntryWords_kept | apply gmChange_kept)
    | (lift_lets
       intro x
       first
         | (have hx : Keeps r₀ x := by
               repeat' first
                 | (with_reducible first | assumption | apply writeEntryWords_kept | apply gmChange_kept)
                 | (with_reducible refine Keeps.of_snd ‹_› ?_)
                 | (with_reducible refine Keeps.of_fst ‹_› ?_)
                 | (with_reducible refine Keeps.foldl _ _ ?_ ?_)
                 | (with_reducible refine Keeps.foldl_fst _ _ ?_ ?_)
                 | (with_reducible refine Keeps.foldl_snd _ _ ?_ ?_)
                 | (with_reducible refine Keeps.elim _ ?_ ?_)
                 | intro _
                 | split
                 | (with_reducible refine Keeps.mk_upd ?_; first | (with_reducible first | assumption | apply writeEntryWords_kept | apply gmChange_kept) | split)
            clear_value x)
         | skip)
    | (with_reducible refine Keeps.of_snd ‹_› ?_)
    | (with_reducible refine Keeps.of_fst ‹_› ?_)
    | (with_reducible refine Keeps.foldl _ _ ?_ ?_)
    | (with_reducible refine Keeps.foldl_fst _ _ ?_ ?_)
    | (with_reducible refine Keeps.foldl_snd _ _ ?_ ?_)
    | (with_reducible refine Keeps.elim _ ?_ ?_)
    | intro _
    | split
    | (with_reducible refine Keeps.mk_upd ?_; first | (with_reducible first | assumption | apply writeEntryWords_kept | apply gmChange_kept) | split)

theorem latchTime_kept {r₀ : State} (p0 n : Nat) {s : State} (h_s : Keeps r₀ s) : Keeps r₀ (latchTime p0 n s) := by
  unfold latchTime
  repeat' first | (with_reducible first | assumption | apply setTime_kept) | split | (with_reducible refine Keeps.mk_upd ?_; with_reducible first | assumption | apply setTime_kept)

theorem cfgRead_kept {r₀ : State} (u reg entry word count : Nat) {s : State} (h_s : Keeps r₀ s) : Keeps r₀ (cfgRead u reg entry word count s).2.2 := by
  unfold cfgRead
  repeat' first
    | (with_reducible first | assumption | apply latchTime_kept)
    | (lift_lets
       intro x
       first
         | (have hx : Keeps r₀ x := by
               repeat' first
                 | (with_reducible first | assumption | apply latchTime_kept)
                 | (with_reducible refine Keeps.of_snd ‹_› ?_)
                 | (with_reducible refine Keeps.of_fst ‹_› ?_)
                 | (with_reducible refine Keeps.foldl _ _ ?_ ?_)
                 | (with_reducible refine Keeps.foldl_fst _ _ ?_ ?_)
                 | (with_reducible refine Keeps.foldl_snd _ _ ?_ ?_)
                 | (with_reducible refine Keeps.elim _ ?_ ?_)
                 | intro _
                 | split
                 | (with_reducible refine Keeps.mk_upd ?_; first | (with_reducible first | assumption | apply latchTime_kept) | split)
            clear_value x)
         | skip)
    | (with_reducible refine Keeps.of_snd ‹_› ?_)
    | (with_reducible refine Keeps.of_fst ‹_› ?_)
    | (with_reducible refine Keeps.foldl _ _ ?_ ?_)
    | (with_reducible refine Keeps.foldl_fst _ _ ?_ ?_)
    | (with_reducible refine Keeps.foldl_snd _ _ ?_ ?_)
    | (with_reducible refine Keeps.elim _ ?_ ?_)
    | intro _
    | split
    | (with_reducible refine Keeps.mk_upd ?_; first | (with_reducible first | assumption | apply latchTime_kept) | split)

end Sys2Proof.Machine
end

