-- ==== Sys2Proof/Laws/KeptCommands.lean ====
section
/-! SUPPORT. What the operations of Machine/Commands.lean keep: the queue, canonical forms, burnt fuses. -/
namespace Sys2Proof.Machine

theorem guarded__kept {r₀ : State} (q : Req) (us : List Nat) (eff : State → CmdRes) {s : State} (h_eff : ∀ x, Keeps r₀ x → Keeps r₀ (eff x).st) (h_s : Keeps r₀ s) : Keeps r₀ (guarded_ q us eff s).st := by
  unfold guarded_
  repeat' first
    | (with_reducible first | assumption | apply ans_kept | apply h_eff)
    | split
    | (with_reducible refine Keeps.mk_upd ?_; with_reducible first | assumption | apply ans_kept | apply h_eff)

theorem configWrite_kept {r₀ : State} (u reg entry word : Nat) (data : List W64) {s : State} (h_s : Keeps r₀ s) : Keeps r₀ (configWrite u reg entry word data s).st := by
  unfold configWrite
  repeat' with_reducible first | assumption | apply cfgWrite_kept | apply ans_kept

theorem configRead_kept {r₀ : State} (u reg entry word count : Nat) {s : State} (h_s : Keeps r₀ s) : Keeps r₀ (configRead u reg entry word count s).st := by
  unfold configRead
  repeat' with_reducible first | assumption | apply cfgRead_kept | apply ans_kept

theorem writeEnt_kept {r₀ : State} (u i : Nat) (e : Nat × Nat) {s : State} (h_s : Keeps r₀ s) : Keeps r₀ (writeEnt u i e s) := by
  unfold writeEnt
  repeat' with_reducible first | assumption | apply setRegWord_kept

theorem routeWrite_kept {r₀ : State} (u first : Nat) (data : List W64) {s : State} (h_s : Keeps r₀ s) : Keeps r₀ (routeWrite u first data s).st := by
  unfold routeWrite
  repeat' first
    | (with_reducible first | assumption | apply ans_kept | apply writeEnt_kept)
    | (lift_lets
       intro x
       first
         | (have hx : Keeps r₀ x := by
               repeat' first
                 | (with_reducible first | assumption | apply ans_kept | apply writeEnt_kept)
                 | (with_reducible refine Keeps.of_snd ‹_› ?_)
                 | (with_reducible refine Keeps.of_fst ‹_› ?_)
                 | (with_reducible refine Keeps.foldl _ _ ?_ ?_)
                 | (with_reducible refine Keeps.foldl_fst _ _ ?_ ?_)
                 | (with_reducible refine Keeps.foldl_snd _ _ ?_ ?_)
                 | (with_reducible refine Keeps.elim _ ?_ ?_)
                 | intro _
                 | split
                 | (with_reducible refine Keeps.mk_upd ?_; first | (with_reducible first | assumption | apply ans_kept | apply writeEnt_kept) | split)
            clear_value x)
         | skip)
    | (with_reducible refine Keeps.of_snd ‹_› ?_)
    | (with_reducible refine Keeps.of_fst ‹_› ?_)
    | (with_reducible refine Keeps.foldl _ _ ?_ ?_)
    | (with_reducible refine Keeps.foldl_fst _ _ ?_ ?_)
    | (with_reducible refine Keeps.foldl_snd _ _ ?_ ?_)
    | (with_reducible refine Keeps.elim _ ?_ ?_)
    | intro _
    | split
    | (with_reducible refine Keeps.mk_upd ?_; first | (with_reducible first | assumption | apply ans_kept | apply writeEnt_kept) | split)

theorem putRowBytes_kept {r₀ : State} (c m row : Nat) (l : List Byte) {s : State} (h_s : Keeps r₀ s) : Keeps r₀ (putRowBytes c m row l s) := by
  unfold putRowBytes
  repeat' with_reducible first | assumption | apply setNe_kept

theorem setRowAsm_kept {r₀ : State} (c : Nat) (r : Option RowAsm) {s : State} (h_s : Keeps r₀ s) : Keeps r₀ (setRowAsm c r s) := by
  unfold setRowAsm
  repeat' first | (with_reducible assumption) | split | (with_reducible refine Keeps.mk_upd ?_; with_reducible assumption)

theorem weightsWrite_kept {r₀ : State} (c m row off : Nat) (last : Bool) (data : List Byte) {s : State} (h_s : Keeps r₀ s) : Keeps r₀ (weightsWrite c m row off last data s).st := by
  unfold weightsWrite
  repeat' first
    | (with_reducible first | assumption | apply ans_kept | apply setRowAsm_kept | apply putRowBytes_kept)
    | (lift_lets
       intro x
       first
         | (have hx : Keeps r₀ x := by
               repeat' first
                 | (with_reducible first | assumption | apply ans_kept | apply setRowAsm_kept | apply putRowBytes_kept)
                 | (with_reducible refine Keeps.of_snd ‹_› ?_)
                 | (with_reducible refine Keeps.of_fst ‹_› ?_)
                 | (with_reducible refine Keeps.foldl _ _ ?_ ?_)
                 | (with_reducible refine Keeps.foldl_fst _ _ ?_ ?_)
                 | (with_reducible refine Keeps.foldl_snd _ _ ?_ ?_)
                 | (with_reducible refine Keeps.elim _ ?_ ?_)
                 | intro _
                 | split
                 | (with_reducible refine Keeps.mk_upd ?_; first | (with_reducible first | assumption | apply ans_kept | apply setRowAsm_kept | apply putRowBytes_kept) | split)
            clear_value x)
         | skip)
    | (with_reducible refine Keeps.of_snd ‹_› ?_)
    | (with_reducible refine Keeps.of_fst ‹_› ?_)
    | (with_reducible refine Keeps.foldl _ _ ?_ ?_)
    | (with_reducible refine Keeps.foldl_fst _ _ ?_ ?_)
    | (with_reducible refine Keeps.foldl_snd _ _ ?_ ?_)
    | (with_reducible refine Keeps.elim _ ?_ ?_)
    | intro _
    | split
    | (with_reducible refine Keeps.mk_upd ?_; first | (with_reducible first | assumption | apply ans_kept | apply setRowAsm_kept | apply putRowBytes_kept) | split)

theorem setI3c_kept {r₀ : State} (n : Nat) (r : Option I3cRun) {s : State} (h_s : Keeps r₀ s) : Keeps r₀ (setI3c n r s) := by
  unfold setI3c
  repeat' first | (with_reducible assumption) | split | (with_reducible refine Keeps.mk_upd ?_; with_reducible assumption)

theorem sensorI3c_kept {r₀ : State} (q : Req) (n : Nat) (resp : I3cResp) {s : State} (h_s : Keeps r₀ s) : Keeps r₀ (sensorI3c q n resp s).st := by
  unfold sensorI3c
  repeat' first
    | (with_reducible first | assumption | apply ans_kept | apply waits_kept | apply setBerth_kept | apply setI3c_kept)
    | split
    | (with_reducible refine Keeps.mk_upd ?_; with_reducible first | assumption | apply ans_kept | apply waits_kept | apply setBerth_kept | apply setI3c_kept)

theorem i3cTimeout_kept {r₀ : State} (n : Nat) {s : State} (h_s : Keeps r₀ s) : Keeps r₀ (i3cTimeout n s) := by
  unfold i3cTimeout
  repeat' first
    | (with_reducible first | assumption | apply setI3c_kept | apply finishBerth_kept)
    | (with_reducible refine Keeps.of_snd ‹_› ?_)
    | (with_reducible refine Keeps.of_fst ‹_› ?_)
    | (with_reducible refine Keeps.foldl _ _ ?_ ?_)
    | (with_reducible refine Keeps.foldl_fst _ _ ?_ ?_)
    | (with_reducible refine Keeps.foldl_snd _ _ ?_ ?_)
    | (with_reducible refine Keeps.elim _ ?_ ?_)
    | intro _
    | split
    | (with_reducible refine Keeps.mk_upd ?_; first | (with_reducible first | assumption | apply setI3c_kept | apply finishBerth_kept) | split)

theorem filterSync_kept {r₀ : State} (engines : Nat) {s : State} (h_s : Keeps r₀ s) : Keeps r₀ (filterSync engines s).st := by
  unfold filterSync
  repeat' first
    | (with_reducible first | assumption | apply ans_kept | apply drawFree_kept | apply scheduleReset_kept)
    | (with_reducible refine Keeps.of_snd ‹_› ?_)
    | (with_reducible refine Keeps.of_fst ‹_› ?_)
    | (with_reducible refine Keeps.foldl _ _ ?_ ?_)
    | (with_reducible refine Keeps.foldl_fst _ _ ?_ ?_)
    | (with_reducible refine Keeps.foldl_snd _ _ ?_ ?_)
    | (with_reducible refine Keeps.elim _ ?_ ?_)
    | intro _
    | split
    | (with_reducible refine Keeps.mk_upd ?_; first | (with_reducible first | assumption | apply ans_kept | apply drawFree_kept | apply scheduleReset_kept) | split)

theorem timeGet_kept {r₀ : State} {s : State} (h_s : Keeps r₀ s) : Keeps r₀ (timeGet s).st := by
  unfold timeGet
  repeat' with_reducible first | assumption | apply ans_kept

theorem ptpConfig_kept {r₀ : State} (port profile role : Nat) (ls lp la : Int) (p1 p2 : Nat) {s : State} (h_s : Keeps r₀ s) : Keeps r₀ (ptpConfig port profile role ls lp la p1 p2 s).st := by
  unfold ptpConfig
  repeat' first
    | (with_reducible first | assumption | apply ans_kept | apply setPtp_kept)
    | split
    | (with_reducible refine Keeps.mk_upd ?_; with_reducible first | assumption | apply ans_kept | apply setPtp_kept)

theorem resultRead_kept {r₀ : State} (q : Req) (k sel seq off len : Nat) {s : State} (h_s : Keeps r₀ s) : Keeps r₀ (resultRead q k sel seq off len s).st := by
  unfold resultRead
  repeat' first
    | (with_reducible first | assumption | apply resBump_kept | apply ans_kept | apply markRead_kept)
    | (lift_lets
       intro x
       first
         | (have hx : Keeps r₀ x := by
               repeat' first
                 | (with_reducible first | assumption | apply resBump_kept | apply ans_kept | apply markRead_kept)
                 | (with_reducible refine Keeps.of_snd ‹_› ?_)
                 | (with_reducible refine Keeps.of_fst ‹_› ?_)
                 | (with_reducible refine Keeps.foldl _ _ ?_ ?_)
                 | (with_reducible refine Keeps.foldl_fst _ _ ?_ ?_)
                 | (with_reducible refine Keeps.foldl_snd _ _ ?_ ?_)
                 | (with_reducible refine Keeps.elim _ ?_ ?_)
                 | intro _
                 | split
                 | (with_reducible refine Keeps.mk_upd ?_; first | (with_reducible first | assumption | apply resBump_kept | apply ans_kept | apply markRead_kept) | split)
            clear_value x)
         | skip)
    | (with_reducible refine Keeps.of_snd ‹_› ?_)
    | (with_reducible refine Keeps.of_fst ‹_› ?_)
    | (with_reducible refine Keeps.foldl _ _ ?_ ?_)
    | (with_reducible refine Keeps.foldl_fst _ _ ?_ ?_)
    | (with_reducible refine Keeps.foldl_snd _ _ ?_ ?_)
    | (with_reducible refine Keeps.elim _ ?_ ?_)
    | intro _
    | split
    | (with_reducible refine Keeps.mk_upd ?_; first | (with_reducible first | assumption | apply resBump_kept | apply ans_kept | apply markRead_kept) | split)

theorem resultReleaseCmd_kept {r₀ : State} (q : Req) (k seq : Nat) {s : State} (h_s : Keeps r₀ s) : Keeps r₀ (resultReleaseCmd q k seq s).st := by
  have h := resultRelease_kept k seq h_s
  unfold resultReleaseCmd
  generalize resultRelease k seq s = x at h ⊢
  rcases x with ⟨a, t⟩
  split
  · exact ans_kept _ _ h_s
  · exact ans_kept _ _ h

theorem subscribe_kept {r₀ : State} (q : Req) (k port cls every : Nat) {s : State} (h_s : Keeps r₀ s) : Keeps r₀ (subscribe q k port cls every s).st := by
  unfold subscribe
  repeat' first
    | (with_reducible first | assumption | apply ans_kept | apply setRegWord_kept)
    | split
    | (with_reducible refine Keeps.mk_upd ?_; with_reducible first | assumption | apply ans_kept | apply setRegWord_kept)

theorem dropSub_kept {r₀ : State} (i : Nat) {s : State} (h_s : Keeps r₀ s) : Keeps r₀ (dropSub i s) := by
  unfold dropSub
  repeat' first | (with_reducible first | assumption | apply setRegWord_kept) | split | (with_reducible refine Keeps.mk_upd ?_; with_reducible first | assumption | apply setRegWord_kept)

theorem unsubscribe_kept {r₀ : State} (q : Req) (i : Nat) {s : State} (h_s : Keeps r₀ s) : Keeps r₀ (unsubscribe q i s).st := by
  unfold unsubscribe
  repeat' first
    | (with_reducible first | assumption | apply ans_kept | apply dropSub_kept)
    | split
    | (with_reducible refine Keeps.mk_upd ?_; with_reducible first | assumption | apply ans_kept | apply dropSub_kept)

theorem readCounter_kept {r₀ : State} (u b e w : Nat) (clear : Bool) {s : State} (h_s : Keeps r₀ s) : Keeps r₀ (readCounter u b e w clear s).2 := by
  unfold readCounter
  cases cntPlace u b w e with
  | none => exact h_s
  | some k =>
    refine h_s.trans ⟨rfl, id, id, id, fun x => fset_fwf _ _ _ _ x, fun x => ?_, .refl _⟩
    exact fset_all (fun v => v < 2 ^ 32) _ _ _ _ x (by decide)

theorem readCounters_kept {r₀ : State} (u b e : Nat) (clear : Bool) (l : List Nat) :
    ∀ x : List Byte × State, Keeps r₀ x.2 → Keeps r₀ (readCounters u b e clear l x).2 := by
  induction l with
  | nil => intro x h; exact h
  | cons w r ih => intro x h; exact ih _ (readCounter_kept u b e w clear h)

theorem countersRead_kept {r₀ : State} (q : Req) (u b e first count : Nat) (clear : Bool) {s : State} (h_s : Keeps r₀ s) : Keeps r₀ (countersRead q u b e first count clear s).st := by
  unfold countersRead
  repeat' first
    | (with_reducible first | assumption | apply ans_kept | apply readCounters_kept)
    | split
    | (with_reducible refine Keeps.mk_upd ?_; with_reducible first | assumption | apply ans_kept | apply readCounters_kept)

theorem noticeLogRead_kept {r₀ : State} (start count : Nat) {s : State} (h_s : Keeps r₀ s) : Keeps r₀ (noticeLogRead start count s).st := by
  unfold noticeLogRead
  repeat' first
    | (with_reducible first | assumption | apply ans_kept)
    | (lift_lets
       intro x
       first
         | (have hx : Keeps r₀ x := by
               repeat' first
                 | (with_reducible first | assumption | apply ans_kept)
                 | (with_reducible refine Keeps.of_snd ‹_› ?_)
                 | (with_reducible refine Keeps.of_fst ‹_› ?_)
                 | (with_reducible refine Keeps.foldl _ _ ?_ ?_)
                 | (with_reducible refine Keeps.foldl_fst _ _ ?_ ?_)
                 | (with_reducible refine Keeps.foldl_snd _ _ ?_ ?_)
                 | (with_reducible refine Keeps.elim _ ?_ ?_)
                 | intro _
                 | split
                 | (with_reducible refine Keeps.mk_upd ?_; first | (with_reducible first | assumption | apply ans_kept) | split)
            clear_value x)
         | skip)
    | (with_reducible refine Keeps.of_snd ‹_› ?_)
    | (with_reducible refine Keeps.of_fst ‹_› ?_)
    | (with_reducible refine Keeps.foldl _ _ ?_ ?_)
    | (with_reducible refine Keeps.foldl_fst _ _ ?_ ?_)
    | (with_reducible refine Keeps.foldl_snd _ _ ?_ ?_)
    | (with_reducible refine Keeps.elim _ ?_ ?_)
    | intro _
    | split
    | (with_reducible refine Keeps.mk_upd ?_; first | (with_reducible first | assumption | apply ans_kept) | split)

theorem unitStatusGet_kept {r₀ : State} (u : Nat) {s : State} (h_s : Keeps r₀ s) : Keeps r₀ (unitStatusGet u s).st := by
  unfold unitStatusGet
  repeat' with_reducible first | assumption | apply ans_kept

theorem windowLogRead_kept {r₀ : State} (back count : Nat) {s : State} (h_s : Keeps r₀ s) : Keeps r₀ (windowLogRead back count s).st := by
  unfold windowLogRead
  repeat' with_reducible first | assumption | apply ans_kept

theorem testControl_kept {r₀ : State} (on : Bool) (rotation : Nat) {s : State} (h_s : Keeps r₀ s) : Keeps r₀ (testControl on rotation s).st := by
  unfold testControl
  repeat' with_reducible first | assumption | apply ans_kept | apply setPass_kept

end Sys2Proof.Machine
end

