-- ==== Sys2Proof/Laws/KeptSecurity.lean ====
section
/-! SUPPORT. What the operations of Machine/Security.lean keep: the queue, canonical forms, burnt fuses. -/
namespace Sys2Proof.Machine

theorem setStage_kept {r₀ : State} {s : State} (kind : Nat) (v : Stage) (h_s : Keeps r₀ s) : Keeps r₀ (setStage s kind v) := by
  unfold setStage
  repeat' first | (with_reducible assumption) | split | (with_reducible refine Keeps.mk_upd ?_; with_reducible assumption)

theorem blobBegin_kept {r₀ : State} (q : Req) (kind total : Nat) {s : State} (h_s : Keeps r₀ s) : Keeps r₀ (blobBegin q kind total s).st := by
  unfold blobBegin
  repeat' first
    | (with_reducible first | assumption | apply ans_kept | apply setStage_kept | refine setSec_kept (.same rfl rfl rfl rfl rfl rfl rfl rfl rfl rfl rfl) ?_)
    | split
    | (with_reducible refine Keeps.mk_upd ?_; with_reducible first | assumption | apply ans_kept | apply setStage_kept | refine setSec_kept (.same rfl rfl rfl rfl rfl rfl rfl rfl rfl rfl rfl) ?_)

theorem blobWrite_kept {r₀ : State} (q : Req) (kind off : Nat) (data : List Byte) {s : State} (h_s : Keeps r₀ s) : Keeps r₀ (blobWrite q kind off data s).st := by
  unfold blobWrite
  repeat' first
    | (with_reducible first | assumption | apply ans_kept | apply setStage_kept | apply ramPut_kept)
    | (lift_lets
       intro x
       first
         | (have hx : Keeps r₀ x := by
               repeat' first
                 | (with_reducible first | assumption | apply ans_kept | apply setStage_kept | apply ramPut_kept)
                 | (with_reducible refine Keeps.of_snd ‹_› ?_)
                 | (with_reducible refine Keeps.of_fst ‹_› ?_)
                 | (with_reducible refine Keeps.foldl _ _ ?_ ?_)
                 | (with_reducible refine Keeps.foldl_fst _ _ ?_ ?_)
                 | (with_reducible refine Keeps.foldl_snd _ _ ?_ ?_)
                 | (with_reducible refine Keeps.elim _ ?_ ?_)
                 | intro _
                 | split
                 | (with_reducible refine Keeps.mk_upd ?_; first | (with_reducible first | assumption | apply ans_kept | apply setStage_kept | apply ramPut_kept) | split)
            clear_value x)
         | skip)
    | (with_reducible refine Keeps.of_snd ‹_› ?_)
    | (with_reducible refine Keeps.of_fst ‹_› ?_)
    | (with_reducible refine Keeps.foldl _ _ ?_ ?_)
    | (with_reducible refine Keeps.foldl_fst _ _ ?_ ?_)
    | (with_reducible refine Keeps.foldl_snd _ _ ?_ ?_)
    | (with_reducible refine Keeps.elim _ ?_ ?_)
    | intro _
    | split
    | (with_reducible refine Keeps.mk_upd ?_; first | (with_reducible first | assumption | apply ans_kept | apply setStage_kept | apply ramPut_kept) | split)

theorem checkFlash_kept {r₀ : State} {s : State} (h_s : Keeps r₀ s) : Keeps r₀ (checkFlash s) := by
  unfold checkFlash
  repeat' first
    | (with_reducible first | assumption | refine setSec_kept (.same rfl rfl rfl rfl rfl rfl rfl rfl rfl rfl rfl) ?_)
    | split
    | (with_reducible refine Keeps.mk_upd ?_; with_reducible first | assumption | refine setSec_kept (.same rfl rfl rfl rfl rfl rfl rfl rfl rfl rfl rfl) ?_)

theorem startFw_kept {r₀ : State} (f : FwImg) (source : Nat) {s : State} (h_s : Keeps r₀ s) : Keeps r₀ (startFw f source s) := by
  unfold startFw
  repeat' first
    | (with_reducible first | assumption | refine setSec_kept (.same rfl rfl rfl rfl rfl rfl rfl rfl rfl rfl rfl) ?_ | apply enterSafe_kept)
    | (with_reducible refine Keeps.of_snd ‹_› ?_)
    | (with_reducible refine Keeps.of_fst ‹_› ?_)
    | (with_reducible refine Keeps.foldl _ _ ?_ ?_)
    | (with_reducible refine Keeps.foldl_fst _ _ ?_ ?_)
    | (with_reducible refine Keeps.foldl_snd _ _ ?_ ?_)
    | (with_reducible refine Keeps.elim _ ?_ ?_)
    | intro _
    | split
    | (with_reducible refine Keeps.mk_upd ?_; first | (with_reducible first | assumption | refine setSec_kept (.same rfl rfl rfl rfl rfl rfl rfl rfl rfl rfl rfl) ?_ | apply enterSafe_kept) | split)

theorem romFlashBoot_kept {r₀ : State} {s : State} (h_s : Keeps r₀ s) : Keeps r₀ (romFlashBoot s) := by
  unfold romFlashBoot
  repeat' first
    | (with_reducible first | assumption | refine setSec_kept (.same rfl rfl rfl rfl rfl rfl rfl rfl rfl rfl rfl) ?_ | apply startFw_kept)
    | (with_reducible refine Keeps.of_snd ‹_› ?_)
    | (with_reducible refine Keeps.of_fst ‹_› ?_)
    | (with_reducible refine Keeps.foldl _ _ ?_ ?_)
    | (with_reducible refine Keeps.foldl_fst _ _ ?_ ?_)
    | (with_reducible refine Keeps.foldl_snd _ _ ?_ ?_)
    | (with_reducible refine Keeps.elim _ ?_ ?_)
    | intro _
    | split
    | (with_reducible refine Keeps.mk_upd ?_; first | (with_reducible first | assumption | refine setSec_kept (.same rfl rfl rfl rfl rfl rfl rfl rfl rfl rfl rfl) ?_ | apply startFw_kept) | split)

theorem fwStage_kept {r₀ : State} (len : Nat) {s : State} (h_s : Keeps r₀ s) : Keeps r₀ (fwStage len s).st := by
  unfold fwStage
  repeat' first
    | (with_reducible first | assumption | apply ans_kept | apply ansKeep_kept | refine setSec_kept (.same rfl rfl rfl rfl rfl rfl rfl rfl rfl rfl rfl) ?_)
    | (lift_lets
       intro x
       first
         | (have hx : Keeps r₀ x := by
               repeat' first
                 | (with_reducible first | assumption | apply ans_kept | apply ansKeep_kept | refine setSec_kept (.same rfl rfl rfl rfl rfl rfl rfl rfl rfl rfl rfl) ?_)
                 | (with_reducible refine Keeps.of_snd ‹_› ?_)
                 | (with_reducible refine Keeps.of_fst ‹_› ?_)
                 | (with_reducible refine Keeps.foldl _ _ ?_ ?_)
                 | (with_reducible refine Keeps.foldl_fst _ _ ?_ ?_)
                 | (with_reducible refine Keeps.foldl_snd _ _ ?_ ?_)
                 | (with_reducible refine Keeps.elim _ ?_ ?_)
                 | intro _
                 | split
                 | (with_reducible refine Keeps.mk_upd ?_; first | (with_reducible first | assumption | apply ans_kept | apply ansKeep_kept | refine setSec_kept (.same rfl rfl rfl rfl rfl rfl rfl rfl rfl rfl rfl) ?_) | split)
            clear_value x)
         | skip)
    | (with_reducible refine Keeps.of_snd ‹_› ?_)
    | (with_reducible refine Keeps.of_fst ‹_› ?_)
    | (with_reducible refine Keeps.foldl _ _ ?_ ?_)
    | (with_reducible refine Keeps.foldl_fst _ _ ?_ ?_)
    | (with_reducible refine Keeps.foldl_snd _ _ ?_ ?_)
    | (with_reducible refine Keeps.elim _ ?_ ?_)
    | intro _
    | split
    | (with_reducible refine Keeps.mk_upd ?_; first | (with_reducible first | assumption | apply ans_kept | apply ansKeep_kept | refine setSec_kept (.same rfl rfl rfl rfl rfl rfl rfl rfl rfl rfl rfl) ?_) | split)

theorem fwActivate_kept {r₀ : State} (q : Req) (version : Nat) {s : State} (h_s : Keeps r₀ s) : Keeps r₀ (fwActivate q version s).st := by
  unfold fwActivate
  repeat' first
    | (with_reducible first | assumption | apply ans_kept | apply blobBegin_kept | apply blobWrite_kept | apply waits_kept | refine setSec_kept (.same rfl rfl rfl rfl rfl rfl rfl rfl rfl rfl rfl) ?_ | apply startFw_kept)
    | split
    | (with_reducible refine Keeps.mk_upd ?_; with_reducible first | assumption | apply ans_kept | apply blobBegin_kept | apply blobWrite_kept | apply waits_kept | refine setSec_kept (.same rfl rfl rfl rfl rfl rfl rfl rfl rfl rfl rfl) ?_ | apply startFw_kept)

theorem activateQuiescent_kept {r₀ : State} {s : State} (h_s : Keeps r₀ s) : Keeps r₀ (activateQuiescent s) := by
  unfold activateQuiescent
  repeat' first
    | (with_reducible first | assumption | apply setStage_kept | refine setSec_kept (.same rfl rfl rfl rfl rfl rfl rfl rfl rfl rfl rfl) ?_)
    | split
    | (with_reducible refine Keeps.mk_upd ?_; with_reducible first | assumption | apply setStage_kept | refine setSec_kept (.same rfl rfl rfl rfl rfl rfl rfl rfl rfl rfl rfl) ?_)

theorem firmwareAlive_kept {r₀ : State} {s : State} (h_s : Keeps r₀ s) : Keeps r₀ (firmwareAlive s) := by
  unfold firmwareAlive
  repeat' first
    | (with_reducible first | assumption | refine setSec_kept (.same rfl rfl rfl rfl rfl rfl rfl rfl rfl rfl rfl) ?_ | apply finishBerth_kept | apply checkFlash_kept | apply resumeService_kept)
    | split
    | (with_reducible refine Keeps.mk_upd ?_; with_reducible first | assumption | refine setSec_kept (.same rfl rfl rfl rfl rfl rfl rfl rfl rfl rfl rfl) ?_ | apply finishBerth_kept | apply checkFlash_kept | apply resumeService_kept)

theorem activateFallback_kept {r₀ : State} {s : State} (h_s : Keeps r₀ s) : Keeps r₀ (activateFallback s) := by
  unfold activateFallback
  repeat' first
    | (with_reducible first | assumption | apply setStage_kept | refine setSec_kept (.same rfl rfl rfl rfl rfl rfl rfl rfl rfl rfl rfl) ?_ | apply resumeService_kept | apply finishBerth_kept)
    | split
    | (with_reducible refine Keeps.mk_upd ?_; with_reducible first | assumption | apply setStage_kept | refine setSec_kept (.same rfl rfl rfl rfl rfl rfl rfl rfl rfl rfl rfl) ?_ | apply resumeService_kept | apply finishBerth_kept)

theorem flashRewriteDone_kept {r₀ : State} (ok : Bool) {s : State} (h_s : Keeps r₀ s) : Keeps r₀ (flashRewriteDone ok s) := by
  unfold flashRewriteDone
  repeat' first
    | (with_reducible first | assumption | refine setSec_kept (.same rfl rfl rfl rfl rfl rfl rfl rfl rfl rfl rfl) ?_ | apply unitNotice_kept)
    | split
    | (with_reducible refine Keeps.mk_upd ?_; with_reducible first | assumption | refine setSec_kept (.same rfl rfl rfl rfl rfl rfl rfl rfl rfl rfl rfl) ?_ | apply unitNotice_kept)

theorem bit_testBit (w i : Nat) : bit w i = w.testBit i := by
  simp only [bit, Nat.testBit, Nat.one_and_eq_mod_two, bne]
  rcases Nat.mod_two_eq_zero_or_one (w >>> i) with h | h <;> simp [h]

theorem testBit_add_pow (i : Nat) : ∀ (w j : Nat), w.testBit i = false → w.testBit j = true → (w + 2 ^ i).testBit j = true := by
  induction i with
  | zero =>
    intro w j hi hj
    cases j with
    | zero => simp_all
    | succ j =>
      rw [Nat.testBit_add_one] at hj ⊢
      simp only [Nat.testBit_zero, decide_eq_false_iff_not] at hi
      have : (w + 2 ^ 0) / 2 = w / 2 := by omega
      rw [this]; exact hj
  | succ i ih =>
    intro w j hi hj
    have e : (w + 2 ^ (i + 1)) / 2 = w / 2 + 2 ^ i := by rw [Nat.pow_succ]; omega
    cases j with
    | zero =>
      simp only [Nat.testBit_zero, decide_eq_true_eq] at hj ⊢
      rw [Nat.pow_succ]; omega
    | succ j =>
      rw [Nat.testBit_add_one] at hi hj ⊢
      rw [e]; exact ih _ _ hi hj

theorem add_pow_bit (w i j : Nat) (hi : bit w i = false) (h : bit w j = true) : bit (w + 2 ^ i) j = true := by
  rw [bit_testBit] at *
  exact testBit_add_pow i w j hi h

theorem setBits_one (w i j : Nat) (h : bit w j = true) : bit (setBits w i 1 1) j = true := by
  have h2 : bits w i 1 = (w >>> i) % 2 := rfl
  have hle : (w >>> i) % 2 * 2 ^ i ≤ w := by
    rw [Nat.shiftRight_eq_div_pow]
    exact le_trans (Nat.mul_le_mul_right _ (Nat.mod_le _ _)) (Nat.div_mul_le_self _ _)
  rcases Nat.mod_two_eq_zero_or_one (w >>> i) with e | e
  · have : setBits w i 1 1 = w + 2 ^ i := by simp [setBits, h2, e]
    rw [this]
    exact add_pow_bit w i j (by simp [bit, e]) h
  · have : setBits w i 1 1 = w := by
      simp only [setBits, h2, e] at hle ⊢
      simp; omega
    rw [this]; exact h

theorem blowBits_bit (n : Nat) : ∀ (w j : Nat), bit w j = true → bit (blowBits n w) j = true := by
  induction n with
  | zero => intro w j h; exact h
  | succ n ih =>
    intro w j h
    unfold blowBits
    split
    · rename_i i hi
      have := List.find?_some hi
      exact ih _ _ (add_pow_bit _ _ _ (by simpa using this) h)
    · exact h

theorem FusesForward.burn (a : SecSt) (n : Nat) : FusesForward a { a with svnFuses := blowBits n a.svnFuses } where
  uid := rfl
  mac := rfl
  variant := rfl
  ip := rfl
  hashes := ⟨rfl, rfl, rfl, rfl⟩
  revoked := fun _ x => x
  svn := fun i x => blowBits_bit n a.svnFuses i x
  rma := fun x => x

theorem svnBurn_kept {r₀ : State} {s : State} (h_s : Keeps r₀ s) : Keeps r₀ (svnBurn s) := by
  unfold svnBurn
  cases s.sec.fw with
  | none => exact h_s
  | some f => exact Keeps.ite (setSec_kept (.burn _ _) h_s) h_s

theorem firstIdle_kept {r₀ : State} {s : State} (h_s : Keeps r₀ s) : Keeps r₀ (firstIdle s) := by
  unfold firstIdle
  repeat' first
    | (with_reducible first | assumption | apply notice_kept | refine setSec_kept (.same rfl rfl rfl rfl rfl rfl rfl rfl rfl rfl rfl) ?_)
    | split
    | (with_reducible refine Keeps.mk_upd ?_; with_reducible first | assumption | apply notice_kept | refine setSec_kept (.same rfl rfl rfl rfl rfl rfl rfl rfl rfl rfl rfl) ?_)

theorem keyRevoke_kept {r₀ : State} (slot : Nat) (sig : List Byte) {s : State} (h_s : Keeps r₀ s) : Keeps r₀ (keyRevoke slot sig s).st := by
  unfold keyRevoke
  repeat' first
    | exact ans_kept _ _ h_s
    | exact ans_kept _ _ (setSec_kept ⟨rfl, rfl, rfl, rfl, ⟨rfl, rfl, rfl, rfl⟩, fun i x => setBits_one _ _ _ x, fun _ x => x, id⟩ h_s)
    | split

theorem identityGet_kept {r₀ : State} (off : Nat) {s : State} (h_s : Keeps r₀ s) : Keeps r₀ (identityGet off s).st := by
  unfold identityGet
  repeat' with_reducible first | assumption | apply ans_kept

theorem attestQuote_kept {r₀ : State} (nonce : Nat) {s : State} (h_s : Keeps r₀ s) : Keeps r₀ (attestQuote nonce s).st := by
  unfold attestQuote
  repeat' first
    | (with_reducible first | assumption | apply ans_kept | apply drawFree_kept)
    | split
    | (with_reducible refine Keeps.mk_upd ?_; with_reducible first | assumption | apply ans_kept | apply drawFree_kept)

theorem macsecKeySet_kept {r₀ : State} (p len cak ckn : Nat) {s : State} (h_s : Keeps r₀ s) : Keeps r₀ (macsecKeySet p len cak ckn s).st := by
  unfold macsecKeySet
  repeat' with_reducible first | assumption | apply ans_kept | apply setEth_kept

theorem endSession_kept {r₀ : State} {s : State} (h_s : Keeps r₀ s) : Keeps r₀ (endSession s) := by
  unfold endSession
  repeat' with_reducible first | assumption | refine setSec_kept (.same rfl rfl rfl rfl rfl rfl rfl rfl rfl rfl rfl) ?_

theorem debugChallenge_kept {r₀ : State} {s : State} (h_s : Keeps r₀ s) : Keeps r₀ (debugChallenge s).st := by
  unfold debugChallenge
  repeat' with_reducible first | assumption | apply drawFree_kept | apply ans_kept | refine setSec_kept (.same rfl rfl rfl rfl rfl rfl rfl rfl rfl rfl rfl) ?_

theorem debugUnlock_kept {r₀ : State} (scope : Nat) (sig : List Byte) {s : State} (h_s : Keeps r₀ s) : Keeps r₀ (debugUnlock scope sig s).st := by
  unfold debugUnlock
  repeat' first
    | (with_reducible first | assumption | apply ans_kept | refine setSec_kept (.same rfl rfl rfl rfl rfl rfl rfl rfl rfl rfl rfl) ?_ | apply ansKeep_kept)
    | (lift_lets
       intro x
       first
         | (have hx : Keeps r₀ x := by
               repeat' first
                 | (with_reducible first | assumption | apply ans_kept | refine setSec_kept (.same rfl rfl rfl rfl rfl rfl rfl rfl rfl rfl rfl) ?_ | apply ansKeep_kept)
                 | (with_reducible refine Keeps.of_snd ‹_› ?_)
                 | (with_reducible refine Keeps.of_fst ‹_› ?_)
                 | (with_reducible refine Keeps.foldl _ _ ?_ ?_)
                 | (with_reducible refine Keeps.foldl_fst _ _ ?_ ?_)
                 | (with_reducible refine Keeps.foldl_snd _ _ ?_ ?_)
                 | (with_reducible refine Keeps.elim _ ?_ ?_)
                 | intro _
                 | split
                 | (with_reducible refine Keeps.mk_upd ?_; first | (with_reducible first | assumption | apply ans_kept | refine setSec_kept (.same rfl rfl rfl rfl rfl rfl rfl rfl rfl rfl rfl) ?_ | apply ansKeep_kept) | split)
            clear_value x)
         | skip)
    | (with_reducible refine Keeps.of_snd ‹_› ?_)
    | (with_reducible refine Keeps.of_fst ‹_› ?_)
    | (with_reducible refine Keeps.foldl _ _ ?_ ?_)
    | (with_reducible refine Keeps.foldl_fst _ _ ?_ ?_)
    | (with_reducible refine Keeps.foldl_snd _ _ ?_ ?_)
    | (with_reducible refine Keeps.elim _ ?_ ?_)
    | intro _
    | split
    | (with_reducible refine Keeps.mk_upd ?_; first | (with_reducible first | assumption | apply ans_kept | refine setSec_kept (.same rfl rfl rfl rfl rfl rfl rfl rfl rfl rfl rfl) ?_ | apply ansKeep_kept) | split)

theorem debugLock_kept {r₀ : State} {s : State} (h_s : Keeps r₀ s) : Keeps r₀ (debugLock s).st := by
  unfold debugLock
  repeat' first
    | (with_reducible first | assumption | apply endSession_kept | apply ans_kept)
    | split
    | (with_reducible refine Keeps.mk_upd ?_; with_reducible first | assumption | apply endSession_kept | apply ans_kept)

theorem loseCompute_kept {r₀ : State} (keep : Nat → Bool) {s : State} (h_s : Keeps r₀ s) : Keeps r₀ (loseCompute keep s) := by
  refine h_s.trans ⟨rfl, fun x => ?_, fun x => ?_, fun x => ?_, fun x => ?_, fun x e he => x e ?_, .refl _⟩
  · simp only [Memory.wf, loseCompute]
    exact tclear_fwf _ _ _ x
  · simp only [Tags.wf, loseCompute]
    exact tclear_fwf _ _ _ x
  · simp only [Registers.wf, loseCompute]
    exact tclear_fwf _ _ _ x
  · simp only [Counters.wf, loseCompute]
    exact tclear_fwf _ _ _ x
  · simp only [loseCompute] at he
    exact List.mem_of_mem_filter he

theorem rmaZeroise_kept {r₀ : State} {s : State} (h_s : Keeps r₀ s) : Keeps r₀ (rmaZeroise s) := by
  unfold rmaZeroise
  repeat' first
    | (with_reducible first | assumption | apply setEth_kept | apply loseCompute_kept | apply setStage_kept)
    | (with_reducible refine Keeps.of_snd ‹_› ?_)
    | (with_reducible refine Keeps.of_fst ‹_› ?_)
    | (with_reducible refine Keeps.foldl _ _ ?_ ?_)
    | (with_reducible refine Keeps.foldl_fst _ _ ?_ ?_)
    | (with_reducible refine Keeps.foldl_snd _ _ ?_ ?_)
    | (with_reducible refine Keeps.elim _ ?_ ?_)
    | intro _
    | split
    | (with_reducible refine Keeps.mk_upd ?_; with_reducible first | assumption | apply setEth_kept | apply loseCompute_kept | apply setStage_kept)
    | (with_reducible refine Keeps.mk_sec ?_ (.same rfl rfl rfl rfl rfl rfl rfl rfl rfl rfl rfl); with_reducible first | assumption | apply setEth_kept | apply loseCompute_kept | apply setStage_kept)

theorem lifecycleSet_kept {r₀ : State} (target : Nat) (sig : List Byte) {s : State} (h_s : Keeps r₀ s) : Keeps r₀ (lifecycleSet target sig s).st := by
  have step : ∀ l, (s.sec.lifecycle = 3 → l = 3) → Keeps r₀ (setSec s { s.sec with lifecycle := l }) := fun l hl =>
    setSec_kept ⟨rfl, rfl, rfl, rfl, ⟨rfl, rfl, rfl, rfl⟩, fun _ x => x, fun _ x => x, hl⟩ h_s
  unfold lifecycleSet
  split
  · exact ans_kept _ _ h_s
  split
  · exact ans_kept _ _ h_s
  split
  · exact ans_kept _ _ h_s
  split
  · rename_i hc
    exact ans_kept _ _ (endSession_kept (step 1 (by rw [hc.2.1]; decide)))
  split
  · have h := rmaZeroise_kept (step 3 (fun _ => rfl))
    refine ans_kept _ _ ?_
    split
    · exact setState_kept _ h
    · exact h
  · exact ans_kept _ _ h_s

theorem challengeExpiry_kept {r₀ : State} {s : State} (h_s : Keeps r₀ s) : Keeps r₀ (challengeExpiry s) := by
  unfold challengeExpiry
  repeat' first
    | (with_reducible first | assumption | refine setSec_kept (.same rfl rfl rfl rfl rfl rfl rfl rfl rfl rfl rfl) ?_)
    | split
    | (with_reducible refine Keeps.mk_upd ?_; with_reducible first | assumption | refine setSec_kept (.same rfl rfl rfl rfl rfl rfl rfl rfl rfl rfl rfl) ?_)

theorem debugSessionExpiry_kept {r₀ : State} {s : State} (h_s : Keeps r₀ s) : Keeps r₀ (debugSessionExpiry s) := by
  unfold debugSessionExpiry
  repeat' first | (with_reducible first | assumption | apply endSession_kept) | split | (with_reducible refine Keeps.mk_upd ?_; with_reducible first | assumption | apply endSession_kept)

theorem holdPowerWrite_kept {r₀ : State} (v : Bool) {s : State} (h_s : Keeps r₀ s) : Keeps r₀ (holdPowerWrite v s) := by
  unfold holdPowerWrite
  repeat' first
    | (with_reducible first | assumption | refine setSec_kept (.same rfl rfl rfl rfl rfl rfl rfl rfl rfl rfl rfl) ?_)
    | split
    | (with_reducible refine Keeps.mk_upd ?_; with_reducible first | assumption | refine setSec_kept (.same rfl rfl rfl rfl rfl rfl rfl rfl rfl rfl rfl) ?_)

theorem lkpHalt_kept {r₀ : State} {s : State} (h_s : Keeps r₀ s) : Keeps r₀ (lkpHalt s) := by
  unfold lkpHalt
  repeat' first
    | (with_reducible first | assumption | apply raiseCause_kept | refine setSec_kept (.same rfl rfl rfl rfl rfl rfl rfl rfl rfl rfl rfl) ?_)
    | split
    | (with_reducible refine Keeps.mk_upd ?_; with_reducible first | assumption | apply raiseCause_kept | refine setSec_kept (.same rfl rfl rfl rfl rfl rfl rfl rfl rfl rfl rfl) ?_)

theorem lkpResume_kept {r₀ : State} {s : State} (h_s : Keeps r₀ s) : Keeps r₀ (lkpResume s) := by
  unfold lkpResume
  repeat' first
    | (with_reducible first | assumption | apply resumeService_kept | refine setSec_kept (.same rfl rfl rfl rfl rfl rfl rfl rfl rfl rfl rfl) ?_)
    | split
    | (with_reducible refine Keeps.mk_upd ?_; with_reducible first | assumption | apply resumeService_kept | refine setSec_kept (.same rfl rfl rfl rfl rfl rfl rfl rfl rfl rfl rfl) ?_)

theorem statusGet_kept {r₀ : State} {s : State} (h_s : Keeps r₀ s) : Keeps r₀ (statusGet s).st := by
  unfold statusGet
  repeat' with_reducible first | assumption | apply ans_kept

end Sys2Proof.Machine
end

