-- ==== Sys2Proof/Laws/KeptGraph.lean ====
section
/-! SUPPORT. What the operations of Machine/Graph.lean keep: the queue, canonical forms, burnt fuses. -/
namespace Sys2Proof.Machine

theorem stepsOk_keptP {α : Type} {r₀ : State} (f : α → State → Nat × State) (hf : ∀ a x, Keeps r₀ x → KeepsP r₀ (f a x)) (l : List α) :
    ∀ {s : State}, Keeps r₀ s → KeepsP r₀ (stepsOk f l s) := by
  induction l with
  | nil => intro s h; exact h
  | cons a r ih =>
    intro s h
    simp only [stepsOk]
    split
    · exact ih (hf a s h)
    · exact hf a s h

theorem stepsOk_kept {α : Type} {r₀ : State} (f : α → State → Nat × State) (hf : ∀ a x, Keeps r₀ x → Keeps r₀ (f a x).2) (l : List α)
    {s : State} (h : Keeps r₀ s) : Keeps r₀ (stepsOk f l s).2 := stepsOk_keptP f hf l h

theorem sizeLayer_keptP {r₀ : State} (n l : Nat) {s : State} (h_s : Keeps r₀ s) : KeepsP r₀ (sizeLayer n l s) := by
  unfold sizeLayer
  dsimp only
  repeat' first
    | exact h_s
    | exact KeepsP.mk _ (wr_kept _ _ _ _ (wr_kept _ _ _ _ h_s))
    | split

theorem sizeLayer_kept {r₀ : State} (n l : Nat) {s : State} (h_s : Keeps r₀ s) : Keeps r₀ (sizeLayer n l s).2 :=
  sizeLayer_keptP n l h_s

theorem sizeLayersOf_keptP {r₀ : State} (n : Nat) {s : State} (h_s : Keeps r₀ s) : KeepsP r₀ (stepsOk (sizeLayer n) (validLayers s n) s) :=
  stepsOk_keptP _ (fun l _ h => sizeLayer_keptP n l h) _ h_s

theorem sizeLayers_keptP {r₀ : State} {s : State} (h_s : Keeps r₀ s) : KeepsP r₀ (sizeLayers s) := by
  unfold sizeLayers
  exact stepsOk_keptP _ (fun n _ h => sizeLayersOf_keptP n h) _ h_s

theorem sizeLayers_kept {r₀ : State} {s : State} (h_s : Keeps r₀ s) : Keeps r₀ (sizeLayers s).2 := sizeLayers_keptP h_s

theorem putUnit_kept {r₀ : State} (u : GUnit) {s : State} (h_s : Keeps r₀ s) : Keeps r₀ (putUnit u s).2 := by
  unfold putUnit
  repeat' first
    | (with_reducible first | assumption | apply setUnit_kept)
    | (lift_lets
       intro x
       first
         | (have hx : Keeps r₀ x := by
               repeat' first
                 | (with_reducible first | assumption | apply setUnit_kept)
                 | (with_reducible refine Keeps.of_snd ‹_› ?_)
                 | (with_reducible refine Keeps.of_fst ‹_› ?_)
                 | (with_reducible refine Keeps.foldl _ _ ?_ ?_)
                 | (with_reducible refine Keeps.foldl_fst _ _ ?_ ?_)
                 | (with_reducible refine Keeps.foldl_snd _ _ ?_ ?_)
                 | (with_reducible refine Keeps.elim _ ?_ ?_)
                 | intro _
                 | split
                 | (with_reducible refine Keeps.mk_upd ?_; first | (with_reducible first | assumption | apply setUnit_kept) | split)
            clear_value x)
         | skip)
    | (with_reducible refine Keeps.of_snd ‹_› ?_)
    | (with_reducible refine Keeps.of_fst ‹_› ?_)
    | (with_reducible refine Keeps.foldl _ _ ?_ ?_)
    | (with_reducible refine Keeps.foldl_fst _ _ ?_ ?_)
    | (with_reducible refine Keeps.foldl_snd _ _ ?_ ?_)
    | (with_reducible refine Keeps.elim _ ?_ ?_)
    | intro _
    | split
    | (with_reducible refine Keeps.mk_upd ?_; first | (with_reducible first | assumption | apply setUnit_kept) | split)

theorem putJob_kept {r₀ : State} (g : GImage) (img : List Byte) (e : Nat × Job) {s : State} (h_s : Keeps r₀ s) : Keeps r₀ (putJob g img e s).2 := by
  unfold putJob
  repeat' with_reducible first | assumption | apply cfgWrite_kept | apply setJob_kept

theorem putStates_kept {r₀ : State} (m : GPut) {s : State} (h_s : Keeps r₀ s) : Keeps r₀ (putStates m s) := by
  unfold putStates
  repeat' with_reducible first | assumption | apply setNe_kept

theorem putWeights_kept {r₀ : State} (m : GPut) {s : State} (h_s : Keeps r₀ s) : Keeps r₀ (putWeights m s).2 := by
  unfold putWeights
  repeat' first
    | (with_reducible first | assumption | apply putRowBytes_kept)
    | (lift_lets
       intro x
       first
         | (have hx : Keeps r₀ x := by
               repeat' first
                 | (with_reducible first | assumption | apply putRowBytes_kept)
                 | (with_reducible refine Keeps.of_snd ‹_› ?_)
                 | (with_reducible refine Keeps.of_fst ‹_› ?_)
                 | (with_reducible refine Keeps.foldl _ _ ?_ ?_)
                 | (with_reducible refine Keeps.foldl_fst _ _ ?_ ?_)
                 | (with_reducible refine Keeps.foldl_snd _ _ ?_ ?_)
                 | (with_reducible refine Keeps.elim _ ?_ ?_)
                 | intro _
                 | split
                 | (with_reducible refine Keeps.mk_upd ?_; first | (with_reducible first | assumption | apply putRowBytes_kept) | split)
            clear_value x)
         | skip)
    | (with_reducible refine Keeps.of_snd ‹_› ?_)
    | (with_reducible refine Keeps.of_fst ‹_› ?_)
    | (with_reducible refine Keeps.foldl _ _ ?_ ?_)
    | (with_reducible refine Keeps.foldl_fst _ _ ?_ ?_)
    | (with_reducible refine Keeps.foldl_snd _ _ ?_ ?_)
    | (with_reducible refine Keeps.elim _ ?_ ?_)
    | intro _
    | split
    | (with_reducible refine Keeps.mk_upd ?_; first | (with_reducible first | assumption | apply putRowBytes_kept) | split)

theorem putConfig_kept {r₀ : State} (g : GImage) (c : GCfg) {s : State} (h_s : Keeps r₀ s) : Keeps r₀ (putConfig g c s).2 := by
  unfold putConfig
  repeat' first | (with_reducible first | assumption | apply cfgWrite_kept) | split | (with_reducible refine Keeps.mk_upd ?_; with_reducible first | assumption | apply cfgWrite_kept)

theorem putRoute_kept {r₀ : State} (g : GImage) (c : GCfg) {s : State} (h_s : Keeps r₀ s) : Keeps r₀ (putRoute g c s).2 := by
  unfold putRoute
  repeat' first
    | (with_reducible first | assumption | apply writeEnt_kept)
    | (lift_lets
       intro x
       first
         | (have hx : Keeps r₀ x := by
               repeat' first
                 | (with_reducible first | assumption | apply writeEnt_kept)
                 | (with_reducible refine Keeps.of_snd ‹_› ?_)
                 | (with_reducible refine Keeps.of_fst ‹_› ?_)
                 | (with_reducible refine Keeps.foldl _ _ ?_ ?_)
                 | (with_reducible refine Keeps.foldl_fst _ _ ?_ ?_)
                 | (with_reducible refine Keeps.foldl_snd _ _ ?_ ?_)
                 | (with_reducible refine Keeps.elim _ ?_ ?_)
                 | intro _
                 | split
                 | (with_reducible refine Keeps.mk_upd ?_; first | (with_reducible first | assumption | apply writeEnt_kept) | split)
            clear_value x)
         | skip)
    | (with_reducible refine Keeps.of_snd ‹_› ?_)
    | (with_reducible refine Keeps.of_fst ‹_› ?_)
    | (with_reducible refine Keeps.foldl _ _ ?_ ?_)
    | (with_reducible refine Keeps.foldl_fst _ _ ?_ ?_)
    | (with_reducible refine Keeps.foldl_snd _ _ ?_ ?_)
    | (with_reducible refine Keeps.elim _ ?_ ?_)
    | intro _
    | split
    | (with_reducible refine Keeps.mk_upd ?_; first | (with_reducible first | assumption | apply writeEnt_kept) | split)

theorem putPair_kept {r₀ : State} (g : GImage) (e : Nat × Up) {s : State} (h_s : Keeps r₀ s) : Keeps r₀ (putPair g e s).2 := by
  unfold putPair
  repeat' first
    | (with_reducible first | assumption | apply setUp_kept)
    | (lift_lets
       intro x
       first
         | (have hx : Keeps r₀ x := by
               repeat' first
                 | (with_reducible first | assumption | apply setUp_kept)
                 | (with_reducible refine Keeps.of_snd ‹_› ?_)
                 | (with_reducible refine Keeps.of_fst ‹_› ?_)
                 | (with_reducible refine Keeps.foldl _ _ ?_ ?_)
                 | (with_reducible refine Keeps.foldl_fst _ _ ?_ ?_)
                 | (with_reducible refine Keeps.foldl_snd _ _ ?_ ?_)
                 | (with_reducible refine Keeps.elim _ ?_ ?_)
                 | intro _
                 | split
                 | (with_reducible refine Keeps.mk_upd ?_; first | (with_reducible first | assumption | apply setUp_kept) | split)
            clear_value x)
         | skip)
    | (with_reducible refine Keeps.of_snd ‹_› ?_)
    | (with_reducible refine Keeps.of_fst ‹_› ?_)
    | (with_reducible refine Keeps.foldl _ _ ?_ ?_)
    | (with_reducible refine Keeps.foldl_fst _ _ ?_ ?_)
    | (with_reducible refine Keeps.foldl_snd _ _ ?_ ?_)
    | (with_reducible refine Keeps.elim _ ?_ ?_)
    | intro _
    | split
    | (with_reducible refine Keeps.mk_upd ?_; first | (with_reducible first | assumption | apply setUp_kept) | split)

theorem andThen_kept {r₀ : State} {x : Nat × State} {f : State → Nat × State} (hf : ∀ y, Keeps r₀ y → Keeps r₀ (f y).2) (h : Keeps r₀ x.2) :
    Keeps r₀ (andThen x f).2 := by
  unfold andThen
  split
  · exact hf _ h
  · exact h

theorem admitGraph_kept {r₀ : State} (img : List Byte) {s : State} (h_s : Keeps r₀ s) : Keeps r₀ (admitGraph img s).2 := by
  unfold admitGraph
  repeat' first
    | (with_reducible first | assumption | apply setNe_kept | apply setFa_kept | apply stepsOk_kept | apply putUnit_kept | apply andThen_kept | apply putJob_kept | apply ramPut_kept | apply putStates_kept | apply putConfig_kept | apply putWeights_kept | apply putRoute_kept | apply putPair_kept | apply sizeLayers_kept)
    | (lift_lets
       intro x
       first
         | (have hx : Keeps r₀ x := by
               repeat' first
                 | (with_reducible first | assumption | apply setNe_kept | apply setFa_kept | apply stepsOk_kept | apply putUnit_kept | apply andThen_kept | apply putJob_kept | apply ramPut_kept | apply putStates_kept | apply putConfig_kept | apply putWeights_kept | apply putRoute_kept | apply putPair_kept | apply sizeLayers_kept)
                 | (with_reducible refine Keeps.of_snd ‹_› ?_)
                 | (with_reducible refine Keeps.of_fst ‹_› ?_)
                 | (with_reducible refine Keeps.foldl _ _ ?_ ?_)
                 | (with_reducible refine Keeps.foldl_fst _ _ ?_ ?_)
                 | (with_reducible refine Keeps.foldl_snd _ _ ?_ ?_)
                 | (with_reducible refine Keeps.elim _ ?_ ?_)
                 | intro _
                 | split
                 | (with_reducible refine Keeps.mk_upd ?_; first | (with_reducible first | assumption | apply setNe_kept | apply setFa_kept | apply stepsOk_kept | apply putUnit_kept | apply andThen_kept | apply putJob_kept | apply ramPut_kept | apply putStates_kept | apply putConfig_kept | apply putWeights_kept | apply putRoute_kept | apply putPair_kept | apply sizeLayers_kept) | split)
            clear_value x)
         | skip)
    | (with_reducible refine Keeps.of_snd ‹_› ?_)
    | (with_reducible refine Keeps.of_fst ‹_› ?_)
    | (with_reducible refine Keeps.foldl _ _ ?_ ?_)
    | (with_reducible refine Keeps.foldl_fst _ _ ?_ ?_)
    | (with_reducible refine Keeps.foldl_snd _ _ ?_ ?_)
    | (with_reducible refine Keeps.elim _ ?_ ?_)
    | intro _
    | split
    | (with_reducible refine Keeps.mk_upd ?_; first | (with_reducible first | assumption | apply setNe_kept | apply setFa_kept | apply stepsOk_kept | apply putUnit_kept | apply andThen_kept | apply putJob_kept | apply ramPut_kept | apply putStates_kept | apply putConfig_kept | apply putWeights_kept | apply putRoute_kept | apply putPair_kept | apply sizeLayers_kept) | split)

theorem graphLoad_kept {r₀ : State} (len digest : Nat) {s : State} (h_s : Keeps r₀ s) : Keeps r₀ (graphLoad len digest s).st := by
  unfold graphLoad
  repeat' first
    | (with_reducible first | assumption | apply ans_kept | apply admitGraph_kept | apply setState_kept)
    | (lift_lets
       intro x
       first
         | (have hx : Keeps r₀ x := by
               repeat' first
                 | (with_reducible first | assumption | apply ans_kept | apply admitGraph_kept | apply setState_kept)
                 | (with_reducible refine Keeps.of_snd ‹_› ?_)
                 | (with_reducible refine Keeps.of_fst ‹_› ?_)
                 | (with_reducible refine Keeps.foldl _ _ ?_ ?_)
                 | (with_reducible refine Keeps.foldl_fst _ _ ?_ ?_)
                 | (with_reducible refine Keeps.foldl_snd _ _ ?_ ?_)
                 | (with_reducible refine Keeps.elim _ ?_ ?_)
                 | intro _
                 | split
                 | (with_reducible refine Keeps.mk_upd ?_; first | (with_reducible first | assumption | apply ans_kept | apply admitGraph_kept | apply setState_kept) | split)
            clear_value x)
         | skip)
    | (with_reducible refine Keeps.of_snd ‹_› ?_)
    | (with_reducible refine Keeps.of_fst ‹_› ?_)
    | (with_reducible refine Keeps.foldl _ _ ?_ ?_)
    | (with_reducible refine Keeps.foldl_fst _ _ ?_ ?_)
    | (with_reducible refine Keeps.foldl_snd _ _ ?_ ?_)
    | (with_reducible refine Keeps.elim _ ?_ ?_)
    | intro _
    | split
    | (with_reducible refine Keeps.mk_upd ?_; first | (with_reducible first | assumption | apply ans_kept | apply admitGraph_kept | apply setState_kept) | split)

theorem resetRegs_kept {r₀ : State} (us : List Nat) {s : State} (h_s : Keeps r₀ s) : Keeps r₀ (resetRegs us s) := by
  unfold resetRegs
  repeat' with_reducible first | assumption | apply regsClear_kept

theorem clearUnit_kept {r₀ : State} (u : Nat) {s : State} (h_s : Keeps r₀ s) : Keeps r₀ (clearUnit u s) := by
  unfold clearUnit
  repeat' first
    | (with_reducible first | assumption | apply setSlu_kept | apply setRowAsm_kept | apply setNe_kept | apply setSrf_kept | apply setFa_kept | apply setUp_kept | apply setStr_kept | apply setQueue_kept)
    | split
    | (with_reducible refine Keeps.mk_upd ?_; with_reducible first | assumption | apply setSlu_kept | apply setRowAsm_kept | apply setNe_kept | apply setSrf_kept | apply setFa_kept | apply setUp_kept | apply setStr_kept | apply setQueue_kept)

theorem unitReset_kept {r₀ : State} (u : Nat) {s : State} (h_s : Keeps r₀ s) : Keeps r₀ (unitReset u s) := by
  unfold unitReset
  repeat' first
    | (with_reducible first | assumption | apply portDisable_kept | apply streamDisable_kept | apply queueDisable_kept | apply clearUnit_kept | apply resetRegs_kept)
    | split
    | (with_reducible refine Keeps.mk_upd ?_; with_reducible first | assumption | apply portDisable_kept | apply streamDisable_kept | apply queueDisable_kept | apply clearUnit_kept | apply resetRegs_kept)

theorem cfgApply_kept {r₀ : State} (c : GCfg) {s : State} (h_s : Keeps r₀ s) : Keeps r₀ (cfgApply c s) := by
  unfold cfgApply
  repeat' first
    | (with_reducible first | assumption | apply writeEntryWords_kept)
    | (with_reducible refine Keeps.of_snd ‹_› ?_)
    | (with_reducible refine Keeps.of_fst ‹_› ?_)
    | (with_reducible refine Keeps.foldl _ _ ?_ ?_)
    | (with_reducible refine Keeps.foldl_fst _ _ ?_ ?_)
    | (with_reducible refine Keeps.foldl_snd _ _ ?_ ?_)
    | (with_reducible refine Keeps.elim _ ?_ ?_)
    | intro _
    | split
    | (with_reducible refine Keeps.mk_upd ?_; first | (with_reducible first | assumption | apply writeEntryWords_kept) | split)

theorem restoreCore_kept {r₀ : State} (j src dst : Nat) {s : State} (h_s : Keeps r₀ s) : Keeps r₀ (restoreCore j src dst s) := by
  unfold restoreCore
  repeat' first | (with_reducible first | assumption | apply setNe_kept) | split | (with_reducible refine Keeps.mk_upd ?_; with_reducible first | assumption | apply setNe_kept)

theorem reloadUnit_kept {r₀ : State} (src dst : Nat) {s : State} (h_s : Keeps r₀ s) : Keeps r₀ (reloadUnit src dst s) := by
  unfold reloadUnit
  repeat' first
    | (with_reducible first | assumption | apply unitReset_kept | apply putStates_kept | apply cfgApply_kept | apply putWeights_kept | apply writeEnt_kept | apply setUp_kept | apply restoreCore_kept | apply stepsOk_kept | apply sizeLayer_kept)
    | (with_reducible refine Keeps.of_snd ‹_› ?_)
    | (with_reducible refine Keeps.of_fst ‹_› ?_)
    | (with_reducible refine Keeps.foldl _ _ ?_ ?_)
    | (with_reducible refine Keeps.foldl_fst _ _ ?_ ?_)
    | (with_reducible refine Keeps.foldl_snd _ _ ?_ ?_)
    | (with_reducible refine Keeps.elim _ ?_ ?_)
    | intro _
    | split
    | (with_reducible refine Keeps.mk_upd ?_; first | (with_reducible first | assumption | apply unitReset_kept | apply putStates_kept | apply cfgApply_kept | apply putWeights_kept | apply writeEnt_kept | apply setUp_kept | apply restoreCore_kept | apply stepsOk_kept | apply sizeLayer_kept) | split)

theorem unassign_kept {r₀ : State} (u : Nat) {s : State} (h_s : Keeps r₀ s) : Keeps r₀ (unassign u s) := by
  unfold unassign
  repeat' with_reducible first | assumption | apply setUnit_kept

theorem unloadUnits_kept {r₀ : State} (us : List Nat) {s : State} (h_s : Keeps r₀ s) : Keeps r₀ (unloadUnits us s) := by
  unfold unloadUnits
  repeat' first
    | (with_reducible first | assumption | apply unassign_kept | apply unitReset_kept)
    | (with_reducible refine Keeps.of_snd ‹_› ?_)
    | (with_reducible refine Keeps.of_fst ‹_› ?_)
    | (with_reducible refine Keeps.foldl _ _ ?_ ?_)
    | (with_reducible refine Keeps.foldl_fst _ _ ?_ ?_)
    | (with_reducible refine Keeps.foldl_snd _ _ ?_ ?_)
    | (with_reducible refine Keeps.elim _ ?_ ?_)
    | intro _
    | split
    | (with_reducible refine Keeps.mk_upd ?_; first | (with_reducible first | assumption | apply unassign_kept | apply unitReset_kept) | split)

theorem unloadStreams_kept {r₀ : State} (streams queues : List Nat) {s : State} (h_s : Keeps r₀ s) : Keeps r₀ (unloadStreams streams queues s) := by
  unfold unloadStreams
  repeat' first
    | (with_reducible first | assumption | apply unitReset_kept | apply dropSub_kept)
    | (with_reducible refine Keeps.of_snd ‹_› ?_)
    | (with_reducible refine Keeps.of_fst ‹_› ?_)
    | (with_reducible refine Keeps.foldl _ _ ?_ ?_)
    | (with_reducible refine Keeps.foldl_fst _ _ ?_ ?_)
    | (with_reducible refine Keeps.foldl_snd _ _ ?_ ?_)
    | (with_reducible refine Keeps.elim _ ?_ ?_)
    | intro _
    | split
    | (with_reducible refine Keeps.mk_upd ?_; first | (with_reducible first | assumption | apply unitReset_kept | apply dropSub_kept) | split)

theorem unloadRoutes_kept {r₀ : State} (links : List Nat) {s : State} (h_s : Keeps r₀ s) : Keeps r₀ (unloadRoutes links s) := by
  unfold unloadRoutes
  repeat' with_reducible first | assumption | apply regsClear_kept

theorem graphUnload_kept {r₀ : State} {s : State} (h_s : Keeps r₀ s) : Keeps r₀ (graphUnload s).st := by
  unfold graphUnload
  lift_lets
  intro g s1
  have h1 : Keeps r₀ s1 := unloadUnits_kept _ h_s
  clear_value s1
  intro s2
  have h2 : Keeps r₀ s2 := unloadStreams_kept _ _ h1
  clear_value s2
  intro s3
  have h3 : Keeps r₀ s3 := unloadRoutes_kept _ h2
  clear_value s3
  intro s4
  have h4 : Keeps r₀ s4 := Keeps.foldl _ _ h3 (fun _ n h => setUp_kept n _ h)
  clear_value s4
  intros
  exact ans_kept _ _ (setState_kept _ (setStage_kept _ _ (Keeps.mk_upd h4)))

end Sys2Proof.Machine
end

