-- ==== Sys2Proof/Laws/KeptPower.lean ====
section
/-! SUPPORT. What the operations of Machine/Power.lean keep: the queue, canonical forms, burnt fuses. -/
namespace Sys2Proof.Machine

theorem refuse_kept {r₀ : State} (target rkind rdetail : Nat) {s : State} (h_s : Keeps r₀ s) : Keeps r₀ (refuse target rkind rdetail s) := by
  unfold refuse
  repeat' with_reducible first | assumption | apply setPwr_kept | apply powerNotice_kept

theorem commitOpen_kept {r₀ : State} {s : State} (h_s : Keeps r₀ s) : Keeps r₀ (commitOpen s) := by
  unfold commitOpen
  repeat' first
    | (with_reducible first | assumption | apply shutRec_kept | apply recordCommit_kept)
    | (with_reducible refine Keeps.of_snd ‹_› ?_)
    | (with_reducible refine Keeps.of_fst ‹_› ?_)
    | (with_reducible refine Keeps.foldl _ _ ?_ ?_)
    | (with_reducible refine Keeps.foldl_fst _ _ ?_ ?_)
    | (with_reducible refine Keeps.foldl_snd _ _ ?_ ?_)
    | (with_reducible refine Keeps.elim _ ?_ ?_)
    | intro _
    | split
    | (with_reducible refine Keeps.mk_upd ?_; first | (with_reducible first | assumption | apply shutRec_kept | apply recordCommit_kept) | split)

theorem entryQuiesced_kept {r₀ : State} {s : State} (h_s : Keeps r₀ s) : Keeps r₀ (entryQuiesced s) := by
  unfold entryQuiesced
  repeat' first
    | (with_reducible first | assumption | apply abortEntry_kept | apply commitOpen_kept | apply setPwr_kept | apply sendTc10_kept | apply finishBerth_kept)
    | (with_reducible refine Keeps.of_snd ‹_› ?_)
    | (with_reducible refine Keeps.of_fst ‹_› ?_)
    | (with_reducible refine Keeps.foldl _ _ ?_ ?_)
    | (with_reducible refine Keeps.foldl_fst _ _ ?_ ?_)
    | (with_reducible refine Keeps.foldl_snd _ _ ?_ ?_)
    | (with_reducible refine Keeps.elim _ ?_ ?_)
    | intro _
    | split
    | (with_reducible refine Keeps.mk_upd ?_; first | (with_reducible first | assumption | apply abortEntry_kept | apply commitOpen_kept | apply setPwr_kept | apply sendTc10_kept | apply finishBerth_kept) | split)

theorem macsStop_kept {r₀ : State} (level : Nat) {s : State} (h_s : Keeps r₀ s) : Keeps r₀ (macsStop level s) := by
  unfold macsStop
  repeat' first
    | (with_reducible first | assumption | apply setEth_kept)
    | (lift_lets
       intro x
       first
         | (have hx : Keeps r₀ x := by
               repeat' first
                 | (with_reducible first | assumption | apply setEth_kept)
                 | (with_reducible refine Keeps.of_snd ‹_› ?_)
                 | (with_reducible refine Keeps.of_fst ‹_› ?_)
                 | (with_reducible refine Keeps.foldl _ _ ?_ ?_)
                 | (with_reducible refine Keeps.foldl_fst _ _ ?_ ?_)
                 | (with_reducible refine Keeps.foldl_snd _ _ ?_ ?_)
                 | (with_reducible refine Keeps.elim _ ?_ ?_)
                 | intro _
                 | split
                 | (with_reducible refine Keeps.mk_upd ?_; first | (with_reducible first | assumption | apply setEth_kept) | split)
            clear_value x)
         | skip)
    | (with_reducible refine Keeps.of_snd ‹_› ?_)
    | (with_reducible refine Keeps.of_fst ‹_› ?_)
    | (with_reducible refine Keeps.foldl _ _ ?_ ?_)
    | (with_reducible refine Keeps.foldl_fst _ _ ?_ ?_)
    | (with_reducible refine Keeps.foldl_snd _ _ ?_ ?_)
    | (with_reducible refine Keeps.elim _ ?_ ?_)
    | intro _
    | split
    | (with_reducible refine Keeps.mk_upd ?_; first | (with_reducible first | assumption | apply setEth_kept) | split)

theorem drydock_kept {r₀ : State} {s : State} (h_s : Keeps r₀ s) : Keeps r₀ (drydock s) := by
  unfold drydock
  repeat' first
    | (with_reducible first | assumption | apply setStage_kept | refine setSec_kept (.same rfl rfl rfl rfl rfl rfl rfl rfl rfl rfl rfl) ?_ | apply endSession_kept | apply regsClear_kept)
    | split
    | (with_reducible refine Keeps.mk_upd ?_; with_reducible first | assumption | apply setStage_kept | refine setSec_kept (.same rfl rfl rfl rfl rfl rfl rfl rfl rfl rfl rfl) ?_ | apply endSession_kept | apply regsClear_kept)

theorem loseLevel_kept {r₀ : State} (level : Nat) {s : State} (h_s : Keeps r₀ s) : Keeps r₀ (loseLevel level s) := by
  unfold loseLevel
  repeat' first
    | (with_reducible first | assumption | apply loseCompute_kept | apply macsStop_kept | apply drydock_kept)
    | split
    | (with_reducible refine Keeps.mk_upd ?_; with_reducible first | assumption | apply loseCompute_kept | apply macsStop_kept | apply drydock_kept)

theorem entryComplete_kept {r₀ : State} {s : State} (h_s : Keeps r₀ s) : Keeps r₀ (entryComplete s) := by
  unfold entryComplete
  repeat' first
    | (with_reducible first | assumption | apply loseLevel_kept | apply setPwr_kept | apply powerNotice_kept)
    | split
    | (with_reducible refine Keeps.mk_upd ?_; with_reducible first | assumption | apply loseLevel_kept | apply setPwr_kept | apply powerNotice_kept)

theorem reloadPort_kept {r₀ : State} (g : GImage) (u : Nat) {s : State} (h_s : Keeps r₀ s) : Keeps r₀ (reloadPort g u s) := by
  unfold reloadPort
  repeat' first
    | (with_reducible first | assumption | apply cfgApply_kept | apply streamEnable_kept | apply setQueue_kept)
    | (with_reducible refine Keeps.of_snd ‹_› ?_)
    | (with_reducible refine Keeps.of_fst ‹_› ?_)
    | (with_reducible refine Keeps.foldl _ _ ?_ ?_)
    | (with_reducible refine Keeps.foldl_fst _ _ ?_ ?_)
    | (with_reducible refine Keeps.foldl_snd _ _ ?_ ?_)
    | (with_reducible refine Keeps.elim _ ?_ ?_)
    | intro _
    | split
    | (with_reducible refine Keeps.mk_upd ?_; first | (with_reducible first | assumption | apply cfgApply_kept | apply streamEnable_kept | apply setQueue_kept) | split)

theorem reloadGraph_kept {r₀ : State} (level : Nat) {s : State} (h_s : Keeps r₀ s) : Keeps r₀ (reloadGraph level s) := by
  unfold reloadGraph
  repeat' first
    | (with_reducible first | assumption | apply ramPut_kept | apply reloadPort_kept | apply reloadUnit_kept | apply settleState_kept | apply unitNotice_kept | apply setUnit_kept)
    | (with_reducible refine Keeps.of_snd ‹_› ?_)
    | (with_reducible refine Keeps.of_fst ‹_› ?_)
    | (with_reducible refine Keeps.foldl _ _ ?_ ?_)
    | (with_reducible refine Keeps.foldl_fst _ _ ?_ ?_)
    | (with_reducible refine Keeps.foldl_snd _ _ ?_ ?_)
    | (with_reducible refine Keeps.elim _ ?_ ?_)
    | intro _
    | split
    | (with_reducible refine Keeps.mk_upd ?_; first | (with_reducible first | assumption | apply ramPut_kept | apply reloadPort_kept | apply reloadUnit_kept | apply settleState_kept | apply unitNotice_kept | apply setUnit_kept) | split)

theorem exitComplete_kept {r₀ : State} {s : State} (h_s : Keeps r₀ s) : Keeps r₀ (exitComplete s) := by
  unfold exitComplete
  repeat' first
    | (with_reducible first | assumption | apply setPwr_kept | apply fillPolicer_kept | apply reloadGraph_kept | apply setEth_kept | apply sendTc10_kept | apply powerNotice_kept | apply finishBerth_kept)
    | (with_reducible refine Keeps.of_snd ‹_› ?_)
    | (with_reducible refine Keeps.of_fst ‹_› ?_)
    | (with_reducible refine Keeps.foldl _ _ ?_ ?_)
    | (with_reducible refine Keeps.foldl_fst _ _ ?_ ?_)
    | (with_reducible refine Keeps.foldl_snd _ _ ?_ ?_)
    | (with_reducible refine Keeps.elim _ ?_ ?_)
    | intro _
    | split
    | (with_reducible refine Keeps.mk_upd ?_; first | (with_reducible first | assumption | apply setPwr_kept | apply fillPolicer_kept | apply reloadGraph_kept | apply setEth_kept | apply sendTc10_kept | apply powerNotice_kept | apply finishBerth_kept) | split)

theorem powerLevelSet_kept {r₀ : State} (q : Req) (level : Nat) {s : State} (h_s : Keeps r₀ s) : Keeps r₀ (powerLevelSet q level s).st := by
  unfold powerLevelSet
  repeat' first
    | (with_reducible first | assumption | apply waits_kept | apply setBerth_kept | apply ans_kept | apply setPwr_kept | apply powerNotice_kept | apply ansKeep_kept | apply refuse_kept)
    | split
    | (with_reducible refine Keeps.mk_upd ?_; with_reducible first | assumption | apply waits_kept | apply setBerth_kept | apply ans_kept | apply setPwr_kept | apply powerNotice_kept | apply ansKeep_kept | apply refuse_kept)

theorem nextLevelSet_kept {r₀ : State} {s : State} (h_s : Keeps r₀ s) : Keeps r₀ (nextLevelSet s) := by
  unfold nextLevelSet
  repeat' first
    | (with_reducible first | assumption | apply powerLevelSet_kept | apply runInTurn_kept)
    | (with_reducible refine Keeps.of_snd ‹_› ?_)
    | (with_reducible refine Keeps.of_fst ‹_› ?_)
    | (with_reducible refine Keeps.foldl _ _ ?_ ?_)
    | (with_reducible refine Keeps.foldl_fst _ _ ?_ ?_)
    | (with_reducible refine Keeps.foldl_snd _ _ ?_ ?_)
    | (with_reducible refine Keeps.elim _ ?_ ?_)
    | intro _
    | split
    | (with_reducible refine Keeps.mk_upd ?_; first | (with_reducible first | assumption | apply powerLevelSet_kept | apply runInTurn_kept) | split)

theorem powerLimitSet_kept {r₀ : State} (limit : Nat) {s : State} (h_s : Keeps r₀ s) : Keeps r₀ (powerLimitSet limit s).st := by
  unfold powerLimitSet
  repeat' with_reducible first | assumption | apply ans_kept | apply setPwr_kept

theorem powerStatusGet_kept {r₀ : State} {s : State} (h_s : Keeps r₀ s) : Keeps r₀ (powerStatusGet s).st := by
  unfold powerStatusGet
  repeat' with_reducible first | assumption | apply ans_kept

theorem tc10SleepRequest_kept {r₀ : State} (p : Nat) {s : State} (h_s : Keeps r₀ s) : Keeps r₀ (tc10SleepRequest p s) := by
  unfold tc10SleepRequest
  repeat' first
    | (with_reducible first | assumption | apply sendTc10_kept | apply setPwr_kept | apply refuse_kept)
    | split
    | (with_reducible refine Keeps.mk_upd ?_; with_reducible first | assumption | apply sendTc10_kept | apply setPwr_kept | apply refuse_kept)

theorem tc10SleepReject_kept {r₀ : State} (p : Nat) {s : State} (h_s : Keeps r₀ s) : Keeps r₀ (tc10SleepReject p s) := by
  unfold tc10SleepReject
  repeat' first
    | (with_reducible first | assumption | apply unitNotice_kept | apply setEth_kept)
    | (with_reducible refine Keeps.of_snd ‹_› ?_)
    | (with_reducible refine Keeps.of_fst ‹_› ?_)
    | (with_reducible refine Keeps.foldl _ _ ?_ ?_)
    | (with_reducible refine Keeps.foldl_fst _ _ ?_ ?_)
    | (with_reducible refine Keeps.foldl_snd _ _ ?_ ?_)
    | (with_reducible refine Keeps.elim _ ?_ ?_)
    | intro _
    | split
    | (with_reducible refine Keeps.mk_upd ?_; first | (with_reducible first | assumption | apply unitNotice_kept | apply setEth_kept) | split)

theorem tc10Wake_kept {r₀ : State} (p : Nat) {s : State} (h_s : Keeps r₀ s) : Keeps r₀ (tc10Wake p s) := by
  unfold tc10Wake
  repeat' first | (with_reducible first | assumption | apply powerWake_kept) | split | (with_reducible refine Keeps.mk_upd ?_; with_reducible first | assumption | apply powerWake_kept)

theorem stepRung_kept {r₀ : State} (i n : Nat) {s : State} (h_s : Keeps r₀ s) : Keeps r₀ (stepRung i n s) := by
  unfold stepRung
  repeat' with_reducible first | assumption | apply setPwr_kept

theorem governorNotice_kept {r₀ : State} (kind : Nat) {s : State} (h_s : Keeps r₀ s) : Keeps r₀ (governorNotice kind s) := by
  unfold governorNotice
  repeat' with_reducible first | assumption | apply powerNotice_kept

theorem governorStep_kept {r₀ : State} (past hot low : Bool) {s : State} (h_s : Keeps r₀ s) : Keeps r₀ (governorStep past hot low s) := by
  unfold governorStep
  repeat' first
    | (with_reducible first | assumption | apply stepRung_kept | apply governorNotice_kept | apply setPwr_kept)
    | (with_reducible refine Keeps.of_snd ‹_› ?_)
    | (with_reducible refine Keeps.of_fst ‹_› ?_)
    | (with_reducible refine Keeps.foldl _ _ ?_ ?_)
    | (with_reducible refine Keeps.foldl_fst _ _ ?_ ?_)
    | (with_reducible refine Keeps.foldl_snd _ _ ?_ ?_)
    | (with_reducible refine Keeps.elim _ ?_ ?_)
    | intro _
    | split
    | (with_reducible refine Keeps.mk_upd ?_; first | (with_reducible first | assumption | apply stepRung_kept | apply governorNotice_kept | apply setPwr_kept) | split)

theorem governorPeriod_kept {r₀ : State} (mw : Nat) {s : State} (h_s : Keeps r₀ s) : Keeps r₀ (governorPeriod mw s) := by
  unfold governorPeriod
  repeat' first
    | (with_reducible first | assumption | apply setPwr_kept | apply governorStep_kept | apply governorNotice_kept)
    | (lift_lets
       intro x
       first
         | (have hx : Keeps r₀ x := by
               repeat' first
                 | (with_reducible first | assumption | apply setPwr_kept | apply governorStep_kept | apply governorNotice_kept)
                 | (with_reducible refine Keeps.of_snd ‹_› ?_)
                 | (with_reducible refine Keeps.of_fst ‹_› ?_)
                 | (with_reducible refine Keeps.foldl _ _ ?_ ?_)
                 | (with_reducible refine Keeps.foldl_fst _ _ ?_ ?_)
                 | (with_reducible refine Keeps.foldl_snd _ _ ?_ ?_)
                 | (with_reducible refine Keeps.elim _ ?_ ?_)
                 | intro _
                 | split
                 | (with_reducible refine Keeps.mk_upd ?_; first | (with_reducible first | assumption | apply setPwr_kept | apply governorStep_kept | apply governorNotice_kept) | split)
            clear_value x)
         | skip)
    | (with_reducible refine Keeps.of_snd ‹_› ?_)
    | (with_reducible refine Keeps.of_fst ‹_› ?_)
    | (with_reducible refine Keeps.foldl _ _ ?_ ?_)
    | (with_reducible refine Keeps.foldl_fst _ _ ?_ ?_)
    | (with_reducible refine Keeps.foldl_snd _ _ ?_ ?_)
    | (with_reducible refine Keeps.elim _ ?_ ?_)
    | intro _
    | split
    | (with_reducible refine Keeps.mk_upd ?_; first | (with_reducible first | assumption | apply setPwr_kept | apply governorStep_kept | apply governorNotice_kept) | split)

theorem avsAdjust_kept {r₀ : State} (slackOk answered : Bool) {s : State} (h_s : Keeps r₀ s) : Keeps r₀ (avsAdjust slackOk answered s) := by
  unfold avsAdjust
  repeat' first
    | (with_reducible first | assumption | apply setPwr_kept | apply drawFree_kept)
    | split
    | (with_reducible refine Keeps.mk_upd ?_; with_reducible first | assumption | apply setPwr_kept | apply drawFree_kept)

theorem islandClockStop_kept {r₀ : State} (i : Nat) {s : State} (h_s : Keeps r₀ s) : Keeps r₀ (islandClockStop i s) := by
  unfold islandClockStop
  repeat' first | (with_reducible first | assumption | apply setPwr_kept) | split | (with_reducible refine Keeps.mk_upd ?_; with_reducible first | assumption | apply setPwr_kept)

theorem islandClockRestart_kept {r₀ : State} (i : Nat) {s : State} (h_s : Keeps r₀ s) : Keeps r₀ (islandClockRestart i s) := by
  unfold islandClockRestart
  repeat' with_reducible first | assumption | apply setPwr_kept

end Sys2Proof.Machine
end

