-- ==== Sys2Proof/Laws/KeptJobs.lean ====
section
/-! SUPPORT. What the operations of Machine/Jobs.lean keep: the queue, canonical forms, burnt fuses. -/
namespace Sys2Proof.Machine

theorem clearArray_kept {r₀ : State} (n : Nat) {s : State} (h_s : Keeps r₀ s) : Keeps r₀ (clearArray n s) := by
  unfold clearArray
  repeat' first
    | (with_reducible first | assumption | apply freeBuf_kept | apply setFa_kept)
    | (with_reducible refine Keeps.of_snd ‹_› ?_)
    | (with_reducible refine Keeps.of_fst ‹_› ?_)
    | (with_reducible refine Keeps.foldl _ _ ?_ ?_)
    | (with_reducible refine Keeps.foldl_fst _ _ ?_ ?_)
    | (with_reducible refine Keeps.foldl_snd _ _ ?_ ?_)
    | (with_reducible refine Keeps.elim _ ?_ ?_)
    | intro _
    | split
    | (with_reducible refine Keeps.mk_upd ?_; first | (with_reducible first | assumption | apply freeBuf_kept | apply setFa_kept) | split)

theorem reloadTables_kept {r₀ : State} (c : Nat) {s : State} (h_s : Keeps r₀ s) : Keeps r₀ (reloadTables c s) := by
  unfold reloadTables
  repeat' first
    | (with_reducible first | assumption | apply putWeights_kept | apply writeEnt_kept)
    | (with_reducible refine Keeps.of_snd ‹_› ?_)
    | (with_reducible refine Keeps.of_fst ‹_› ?_)
    | (with_reducible refine Keeps.foldl _ _ ?_ ?_)
    | (with_reducible refine Keeps.foldl_fst _ _ ?_ ?_)
    | (with_reducible refine Keeps.foldl_snd _ _ ?_ ?_)
    | (with_reducible refine Keeps.elim _ ?_ ?_)
    | intro _
    | split
    | (with_reducible refine Keeps.mk_upd ?_; first | (with_reducible first | assumption | apply putWeights_kept | apply writeEnt_kept) | split)

theorem freshCore_kept {r₀ : State} (c : Nat) {s : State} (h_s : Keeps r₀ s) : Keeps r₀ (freshCore c s) := by
  unfold freshCore
  repeat' first
    | (with_reducible first | assumption | apply setNe_kept | apply putStates_kept)
    | (with_reducible refine Keeps.of_snd ‹_› ?_)
    | (with_reducible refine Keeps.of_fst ‹_› ?_)
    | (with_reducible refine Keeps.foldl _ _ ?_ ?_)
    | (with_reducible refine Keeps.foldl_fst _ _ ?_ ?_)
    | (with_reducible refine Keeps.foldl_snd _ _ ?_ ?_)
    | (with_reducible refine Keeps.elim _ ?_ ?_)
    | intro _
    | split
    | (with_reducible refine Keeps.mk_upd ?_; first | (with_reducible first | assumption | apply setNe_kept | apply putStates_kept) | split)

theorem startCore_kept {r₀ : State} (j : Nat) (again : Bool) {s : State} (c : Nat) (h_s : Keeps r₀ s) : Keeps r₀ (startCore j again s c) := by
  unfold startCore
  repeat' first
    | (with_reducible first | assumption | apply clearSurfaces_kept | apply reloadTables_kept | apply restoreCore_kept | apply freshCore_kept | apply neStart_kept)
    | split
    | (with_reducible refine Keeps.mk_upd ?_; with_reducible first | assumption | apply clearSurfaces_kept | apply reloadTables_kept | apply restoreCore_kept | apply freshCore_kept | apply neStart_kept)

theorem enterGuest_kept {r₀ : State} (j : Nat) (again : Bool) {s : State} (h_s : Keeps r₀ s) : Keeps r₀ (enterGuest j again s) := by
  unfold enterGuest
  repeat' first | (with_reducible first | assumption | apply enterHarts_kept) | split | (with_reducible refine Keeps.mk_upd ?_; with_reducible first | assumption | apply enterHarts_kept)

theorem startUnits_kept {r₀ : State} (j : Nat) (again : Bool) {s : State} (h_s : Keeps r₀ s) : Keeps r₀ (startUnits j again s) := by
  unfold startUnits
  repeat' first
    | (with_reducible first | assumption | apply startCore_kept | apply clearArray_kept | apply tenStart_kept | apply tenStop_kept | apply fusRestore_kept | apply fusStart_kept | apply enterGuest_kept | apply armProbes_kept)
    | (with_reducible refine Keeps.of_snd ‹_› ?_)
    | (with_reducible refine Keeps.of_fst ‹_› ?_)
    | (with_reducible refine Keeps.foldl _ _ ?_ ?_)
    | (with_reducible refine Keeps.foldl_fst _ _ ?_ ?_)
    | (with_reducible refine Keeps.foldl_snd _ _ ?_ ?_)
    | (with_reducible refine Keeps.elim _ ?_ ?_)
    | intro _
    | split
    | (with_reducible refine Keeps.mk_upd ?_; first | (with_reducible first | assumption | apply startCore_kept | apply clearArray_kept | apply tenStart_kept | apply tenStop_kept | apply fusRestore_kept | apply fusStart_kept | apply enterGuest_kept | apply armProbes_kept) | split)

theorem startJob_kept {r₀ : State} (again : Bool) {s : State} (j : Nat) (h_s : Keeps r₀ s) : Keeps r₀ (startJob again s j) := by
  unfold startJob
  repeat' with_reducible first | assumption | apply setJob_kept | apply startUnits_kept | apply setPass_kept

theorem jobStart_kept {r₀ : State} (mask : Nat) (again : Bool) {s : State} (h_s : Keeps r₀ s) : Keeps r₀ (jobStart mask again s).st := by
  unfold jobStart
  repeat' first
    | (with_reducible first | assumption | apply ans_kept | apply abortEntry_kept | apply settleState_kept | apply startJob_kept)
    | (lift_lets
       intro x
       first
         | (have hx : Keeps r₀ x := by
               repeat' first
                 | (with_reducible first | assumption | apply ans_kept | apply abortEntry_kept | apply settleState_kept | apply startJob_kept)
                 | (with_reducible refine Keeps.of_snd ‹_› ?_)
                 | (with_reducible refine Keeps.of_fst ‹_› ?_)
                 | (with_reducible refine Keeps.foldl _ _ ?_ ?_)
                 | (with_reducible refine Keeps.foldl_fst _ _ ?_ ?_)
                 | (with_reducible refine Keeps.foldl_snd _ _ ?_ ?_)
                 | (with_reducible refine Keeps.elim _ ?_ ?_)
                 | intro _
                 | split
                 | (with_reducible refine Keeps.mk_upd ?_; first | (with_reducible first | assumption | apply ans_kept | apply abortEntry_kept | apply settleState_kept | apply startJob_kept) | split)
            clear_value x)
         | skip)
    | (with_reducible refine Keeps.of_snd ‹_› ?_)
    | (with_reducible refine Keeps.of_fst ‹_› ?_)
    | (with_reducible refine Keeps.foldl _ _ ?_ ?_)
    | (with_reducible refine Keeps.foldl_fst _ _ ?_ ?_)
    | (with_reducible refine Keeps.foldl_snd _ _ ?_ ?_)
    | (with_reducible refine Keeps.elim _ ?_ ?_)
    | intro _
    | split
    | (with_reducible refine Keeps.mk_upd ?_; first | (with_reducible first | assumption | apply ans_kept | apply abortEntry_kept | apply settleState_kept | apply startJob_kept) | split)

theorem stopReply_kept {r₀ : State} (b : Nat) {s : State} (h_s : Keeps r₀ s) : Keeps r₀ (stopReply b s) := by
  unfold stopReply
  repeat' first
    | (with_reducible first | assumption | apply setJob_kept | apply finishBerth_kept)
    | (with_reducible refine Keeps.of_snd ‹_› ?_)
    | (with_reducible refine Keeps.of_fst ‹_› ?_)
    | (with_reducible refine Keeps.foldl _ _ ?_ ?_)
    | (with_reducible refine Keeps.foldl_fst _ _ ?_ ?_)
    | (with_reducible refine Keeps.foldl_snd _ _ ?_ ?_)
    | (with_reducible refine Keeps.elim _ ?_ ?_)
    | intro _
    | split
    | (with_reducible refine Keeps.mk_upd ?_; first | (with_reducible first | assumption | apply setJob_kept | apply finishBerth_kept) | split)

theorem stopJob_kept {r₀ : State} (j : Nat) (forced : Bool) {s : State} (h_s : Keeps r₀ s) : Keeps r₀ (stopJob j forced s) := by
  unfold stopJob
  repeat' first
    | (with_reducible first | assumption | apply endJob_kept | apply setJob_kept | apply finishBerth_kept | apply settleState_kept | apply stopReply_kept)
    | (with_reducible refine Keeps.of_snd ‹_› ?_)
    | (with_reducible refine Keeps.of_fst ‹_› ?_)
    | (with_reducible refine Keeps.foldl _ _ ?_ ?_)
    | (with_reducible refine Keeps.foldl_fst _ _ ?_ ?_)
    | (with_reducible refine Keeps.foldl_snd _ _ ?_ ?_)
    | (with_reducible refine Keeps.elim _ ?_ ?_)
    | intro _
    | split
    | (with_reducible refine Keeps.mk_upd ?_; first | (with_reducible first | assumption | apply endJob_kept | apply setJob_kept | apply finishBerth_kept | apply settleState_kept | apply stopReply_kept) | split)

theorem askStop_kept {r₀ : State} (b : Nat) {s : State} (j : Nat) (h_s : Keeps r₀ s) : Keeps r₀ (askStop b s j) := by
  unfold askStop
  repeat' first
    | (with_reducible first | assumption | apply setJob_kept | apply stopJob_kept | apply raiseMsi_kept)
    | (with_reducible refine Keeps.of_snd ‹_› ?_)
    | (with_reducible refine Keeps.of_fst ‹_› ?_)
    | (with_reducible refine Keeps.foldl _ _ ?_ ?_)
    | (with_reducible refine Keeps.foldl_fst _ _ ?_ ?_)
    | (with_reducible refine Keeps.foldl_snd _ _ ?_ ?_)
    | (with_reducible refine Keeps.elim _ ?_ ?_)
    | intro _
    | split
    | (with_reducible refine Keeps.mk_upd ?_; first | (with_reducible first | assumption | apply setJob_kept | apply stopJob_kept | apply raiseMsi_kept) | split)

theorem jobStop_kept {r₀ : State} (q : Req) (mask : Nat) {s : State} (h_s : Keeps r₀ s) : Keeps r₀ (jobStop q mask s).st := by
  unfold jobStop
  repeat' first
    | (with_reducible first | assumption | apply ans_kept | apply setJob_kept | apply waits_kept | apply askStop_kept)
    | (lift_lets
       intro x
       first
         | (have hx : Keeps r₀ x := by
               repeat' first
                 | (with_reducible first | assumption | apply ans_kept | apply setJob_kept | apply waits_kept | apply askStop_kept)
                 | (with_reducible refine Keeps.of_snd ‹_› ?_)
                 | (with_reducible refine Keeps.of_fst ‹_› ?_)
                 | (with_reducible refine Keeps.foldl _ _ ?_ ?_)
                 | (with_reducible refine Keeps.foldl_fst _ _ ?_ ?_)
                 | (with_reducible refine Keeps.foldl_snd _ _ ?_ ?_)
                 | (with_reducible refine Keeps.elim _ ?_ ?_)
                 | intro _
                 | split
                 | (with_reducible refine Keeps.mk_upd ?_; first | (with_reducible first | assumption | apply ans_kept | apply setJob_kept | apply waits_kept | apply askStop_kept) | split)
            clear_value x)
         | skip)
    | (with_reducible refine Keeps.of_snd ‹_› ?_)
    | (with_reducible refine Keeps.of_fst ‹_› ?_)
    | (with_reducible refine Keeps.foldl _ _ ?_ ?_)
    | (with_reducible refine Keeps.foldl_fst _ _ ?_ ?_)
    | (with_reducible refine Keeps.foldl_snd _ _ ?_ ?_)
    | (with_reducible refine Keeps.elim _ ?_ ?_)
    | intro _
    | split
    | (with_reducible refine Keeps.mk_upd ?_; first | (with_reducible first | assumption | apply ans_kept | apply setJob_kept | apply waits_kept | apply askStop_kept) | split)

theorem jobStopHalt_kept {r₀ : State} (j : Nat) {s : State} (h_s : Keeps r₀ s) : Keeps r₀ (jobStopHalt j s) := by
  unfold jobStopHalt
  repeat' first | (with_reducible first | assumption | apply stopJob_kept) | split | (with_reducible refine Keeps.mk_upd ?_; with_reducible first | assumption | apply stopJob_kept)

theorem jobCheckpoint_kept {r₀ : State} (q : Req) (j : Nat) {s : State} (h_s : Keeps r₀ s) : Keeps r₀ (jobCheckpoint q j s).st := by
  unfold jobCheckpoint
  repeat' first
    | (with_reducible first | assumption | apply ans_kept | apply waits_kept | apply ckptBegin_kept)
    | split
    | (with_reducible refine Keeps.mk_upd ?_; with_reducible first | assumption | apply ans_kept | apply waits_kept | apply ckptBegin_kept)

theorem jobRestart_kept {r₀ : State} (q : Req) (j : Nat) {s : State} (h_s : Keeps r₀ s) : Keeps r₀ (jobRestart q j s).st := by
  unfold jobRestart
  repeat' first
    | (with_reducible first | assumption | apply ans_kept | apply waits_kept | apply beginRestart_kept)
    | split
    | (with_reducible refine Keeps.mk_upd ?_; with_reducible first | assumption | apply ans_kept | apply waits_kept | apply beginRestart_kept)

theorem restartResumed_kept {r₀ : State} (j : Nat) {s : State} (h_s : Keeps r₀ s) : Keeps r₀ (restartResumed j s) := by
  unfold restartResumed
  repeat' first
    | (with_reducible first | assumption | apply setPass_kept | apply startUnits_kept | apply setJob_kept | apply poisonNotice_kept | apply finishBerth_kept)
    | (with_reducible refine Keeps.of_snd ‹_› ?_)
    | (with_reducible refine Keeps.of_fst ‹_› ?_)
    | (with_reducible refine Keeps.foldl _ _ ?_ ?_)
    | (with_reducible refine Keeps.foldl_fst _ _ ?_ ?_)
    | (with_reducible refine Keeps.foldl_snd _ _ ?_ ?_)
    | (with_reducible refine Keeps.elim _ ?_ ?_)
    | intro _
    | split
    | (with_reducible refine Keeps.mk_upd ?_; first | (with_reducible first | assumption | apply setPass_kept | apply startUnits_kept | apply setJob_kept | apply poisonNotice_kept | apply finishBerth_kept) | split)

theorem hartPoisonTrap_kept {r₀ : State} (h addr : Nat) {s : State} (h_s : Keeps r₀ s) : Keeps r₀ (hartPoisonTrap h addr s) := by
  unfold hartPoisonTrap
  repeat' first
    | (with_reducible first | assumption | apply apxBump_kept | apply consumePoison_kept | apply haltHarts_kept)
    | (with_reducible refine Keeps.of_snd ‹_› ?_)
    | (with_reducible refine Keeps.of_fst ‹_› ?_)
    | (with_reducible refine Keeps.foldl _ _ ?_ ?_)
    | (with_reducible refine Keeps.foldl_fst _ _ ?_ ?_)
    | (with_reducible refine Keeps.foldl_snd _ _ ?_ ?_)
    | (with_reducible refine Keeps.elim _ ?_ ?_)
    | intro _
    | split
    | (with_reducible refine Keeps.mk_upd ?_; first | (with_reducible first | assumption | apply apxBump_kept | apply consumePoison_kept | apply haltHarts_kept) | split)

theorem l1ParityError_kept {r₀ : State} (h : Nat) {s : State} (h_s : Keeps r₀ s) : Keeps r₀ (l1ParityError h s) := by
  unfold l1ParityError
  repeat' first | (with_reducible first | assumption | apply apxBump_kept) | split | (with_reducible refine Keeps.mk_upd ?_; with_reducible first | assumption | apply apxBump_kept)

theorem safeExit_kept {r₀ : State} {s : State} (h_s : Keeps r₀ s) : Keeps r₀ (safeExit s).st := by
  unfold safeExit
  repeat' first
    | (with_reducible first | assumption | apply ans_kept | apply setState_kept | apply firstIdle_kept | apply fillPolicer_kept)
    | (with_reducible refine Keeps.of_snd ‹_› ?_)
    | (with_reducible refine Keeps.of_fst ‹_› ?_)
    | (with_reducible refine Keeps.foldl _ _ ?_ ?_)
    | (with_reducible refine Keeps.foldl_fst _ _ ?_ ?_)
    | (with_reducible refine Keeps.foldl_snd _ _ ?_ ?_)
    | (with_reducible refine Keeps.elim _ ?_ ?_)
    | intro _
    | split
    | (with_reducible refine Keeps.mk_upd ?_; first | (with_reducible first | assumption | apply ans_kept | apply setState_kept | apply firstIdle_kept | apply fillPolicer_kept) | split)

end Sys2Proof.Machine
end

