-- ==== Sys2Proof/Laws/KeptRequests.lean ====
section
/-! SUPPORT. What the operations of Machine/Requests.lean keep: the queue, canonical forms, burnt fuses. -/
namespace Sys2Proof.Machine

theorem offerReq_kept {r₀ : State} (w : WaitReq) {s : State} (h_s : Keeps r₀ s) : Keeps r₀ (offerReq w s) := by
  unfold offerReq
  repeat' first
    | (with_reducible first | assumption | apply holdReq_kept | apply takeReq_kept)
    | split
    | (with_reducible refine Keeps.mk_upd ?_; with_reducible first | assumption | apply holdReq_kept | apply takeReq_kept)

theorem rxOther_kept {r₀ : State} (p : Nat) {s : State} (h_s : Keeps r₀ s) : Keeps r₀ (rxOther p s) := by
  unfold rxOther
  repeat' with_reducible first | assumption | apply towBump_kept

theorem romRequest_kept {r₀ : State} (p src srcPort : Nat) (w : Wrap) (b : List Byte) {s : State} (h_s : Keeps r₀ s) : Keeps r₀ (romRequest p src srcPort w b s) := by
  unfold romRequest
  repeat' first
    | (with_reducible first | assumption | apply towBump_kept | apply offerReq_kept)
    | split
    | (with_reducible refine Keeps.mk_upd ?_; with_reducible first | assumption | apply towBump_kept | apply offerReq_kept)

theorem relayRequest_kept {r₀ : State} (p src srcPort : Nat) (b : List Byte) {s : State} (h_s : Keeps r₀ s) : Keeps r₀ (relayRequest p src srcPort b s) := by
  unfold relayRequest
  repeat' first
    | (with_reducible first | assumption | apply sendMgmt_kept | apply towBump_kept)
    | split
    | (with_reducible refine Keeps.mk_upd ?_; with_reducible first | assumption | apply sendMgmt_kept | apply towBump_kept)

theorem towlineRx_kept {r₀ : State} (p src srcPort : Nat) (w : Wrap) (b : List Byte) {s : State} (h_s : Keeps r₀ s) : Keeps r₀ (towlineRx p src srcPort w b s) := by
  unfold towlineRx
  repeat' first
    | (with_reducible first | assumption | apply romRequest_kept | apply rxOther_kept | apply towBump_kept | apply offerReq_kept | apply relayRequest_kept)
    | split
    | (with_reducible refine Keeps.mk_upd ?_; with_reducible first | assumption | apply romRequest_kept | apply rxOther_kept | apply towBump_kept | apply offerReq_kept | apply relayRequest_kept)

theorem arpIcmpRx_kept {r₀ : State} (p : Nat) (req : ArpIcmp) {s : State} (h_s : Keeps r₀ s) : Keeps r₀ (arpIcmpRx p req s) := by
  unfold arpIcmpRx
  repeat' first
    | (with_reducible first | assumption | apply enqueue_kept | apply rxOther_kept)
    | (with_reducible refine Keeps.of_snd ‹_› ?_)
    | (with_reducible refine Keeps.of_fst ‹_› ?_)
    | (with_reducible refine Keeps.foldl _ _ ?_ ?_)
    | (with_reducible refine Keeps.foldl_fst _ _ ?_ ?_)
    | (with_reducible refine Keeps.foldl_snd _ _ ?_ ?_)
    | (with_reducible refine Keeps.elim _ ?_ ?_)
    | intro _
    | split
    | (with_reducible refine Keeps.mk_upd ?_; first | (with_reducible first | assumption | apply enqueue_kept | apply rxOther_kept) | split)

theorem sensorFrameRx_kept {r₀ : State} (p udp : Nat) (frame : List Byte) {s : State} (h_s : Keeps r₀ s) : Keeps r₀ (sensorFrameRx p udp frame s) := by
  unfold sensorFrameRx
  repeat' first
    | (with_reducible first | assumption | apply towBump_kept | apply ramPut_kept | apply ramPutNat_kept | apply setEth_kept)
    | (with_reducible refine Keeps.of_snd ‹_› ?_)
    | (with_reducible refine Keeps.of_fst ‹_› ?_)
    | (with_reducible refine Keeps.foldl _ _ ?_ ?_)
    | (with_reducible refine Keeps.foldl_fst _ _ ?_ ?_)
    | (with_reducible refine Keeps.foldl_snd _ _ ?_ ?_)
    | (with_reducible refine Keeps.elim _ ?_ ?_)
    | intro _
    | split
    | (with_reducible refine Keeps.mk_upd ?_; first | (with_reducible first | assumption | apply towBump_kept | apply ramPut_kept | apply ramPutNat_kept | apply setEth_kept) | split)

theorem mkaPduRx_kept {r₀ : State} (p : Nat) (m : MkaPdu) {s : State} (h_s : Keeps r₀ s) : Keeps r₀ (mkaPduRx p m s) := by
  unfold mkaPduRx
  repeat' first
    | (with_reducible first | assumption | apply rxOther_kept | apply setEth_kept)
    | (with_reducible refine Keeps.of_snd ‹_› ?_)
    | (with_reducible refine Keeps.of_fst ‹_› ?_)
    | (with_reducible refine Keeps.foldl _ _ ?_ ?_)
    | (with_reducible refine Keeps.foldl_fst _ _ ?_ ?_)
    | (with_reducible refine Keeps.foldl_snd _ _ ?_ ?_)
    | (with_reducible refine Keeps.elim _ ?_ ?_)
    | intro _
    | split
    | (with_reducible refine Keeps.mk_upd ?_; first | (with_reducible first | assumption | apply rxOther_kept | apply setEth_kept) | split)

theorem startFrame_kept {r₀ : State} (p : Nat) (m : TxMsg) {s : State} (h_s : Keeps r₀ s) : Keeps r₀ (startFrame p m s) := by
  unfold startFrame
  repeat' first
    | (with_reducible first | assumption | apply setEth_kept | apply towBump_kept | apply notice_kept)
    | (with_reducible refine Keeps.of_snd ‹_› ?_)
    | (with_reducible refine Keeps.of_fst ‹_› ?_)
    | (with_reducible refine Keeps.foldl _ _ ?_ ?_)
    | (with_reducible refine Keeps.foldl_fst _ _ ?_ ?_)
    | (with_reducible refine Keeps.foldl_snd _ _ ?_ ?_)
    | (with_reducible refine Keeps.elim _ ?_ ?_)
    | intro _
    | split
    | (with_reducible refine Keeps.mk_upd ?_; first | (with_reducible first | assumption | apply setEth_kept | apply towBump_kept | apply notice_kept) | split)

theorem alarmFrameTx_kept {r₀ : State} (p : Nat) {s : State} (h_s : Keeps r₀ s) : Keeps r₀ (alarmFrameTx p s) := by
  unfold alarmFrameTx
  repeat' first
    | (with_reducible first | assumption | apply startFrame_kept | apply setEth_kept)
    | split
    | (with_reducible refine Keeps.mk_upd ?_; with_reducible first | assumption | apply startFrame_kept | apply setEth_kept)

theorem ethFrameTx_kept {r₀ : State} (p : Nat) {s : State} (h_s : Keeps r₀ s) : Keeps r₀ (ethFrameTx p s) := by
  unfold ethFrameTx
  repeat' first
    | (with_reducible first | assumption | apply startFrame_kept | apply setEth_kept)
    | (with_reducible refine Keeps.of_snd ‹_› ?_)
    | (with_reducible refine Keeps.of_fst ‹_› ?_)
    | (with_reducible refine Keeps.foldl _ _ ?_ ?_)
    | (with_reducible refine Keeps.foldl_fst _ _ ?_ ?_)
    | (with_reducible refine Keeps.foldl_snd _ _ ?_ ?_)
    | (with_reducible refine Keeps.elim _ ?_ ?_)
    | intro _
    | split
    | (with_reducible refine Keeps.mk_upd ?_; first | (with_reducible first | assumption | apply startFrame_kept | apply setEth_kept) | split)

theorem berthGo_kept {r₀ : State} (b : Nat) (data : List Byte) {s : State} (h_s : Keeps r₀ s) : Keeps r₀ (berthGo b data s) := by
  unfold berthGo
  repeat' first
    | (with_reducible first | assumption | apply apxBump_kept | apply offerReq_kept | apply setBport_kept)
    | (with_reducible refine Keeps.of_snd ‹_› ?_)
    | (with_reducible refine Keeps.of_fst ‹_› ?_)
    | (with_reducible refine Keeps.foldl _ _ ?_ ?_)
    | (with_reducible refine Keeps.foldl_fst _ _ ?_ ?_)
    | (with_reducible refine Keeps.foldl_snd _ _ ?_ ?_)
    | (with_reducible refine Keeps.elim _ ?_ ?_)
    | intro _
    | split
    | (with_reducible refine Keeps.mk_upd ?_; first | (with_reducible first | assumption | apply apxBump_kept | apply offerReq_kept | apply setBport_kept) | split)

theorem forwardToHost_kept {r₀ : State} (src : Nat) (b : List Byte) {s : State} (h_s : Keeps r₀ s) : Keeps r₀ (forwardToHost src b s) := by
  unfold forwardToHost
  repeat' first
    | (with_reducible first | assumption | apply enqueue_kept | apply notice_kept)
    | (with_reducible refine Keeps.of_snd ‹_› ?_)
    | (with_reducible refine Keeps.of_fst ‹_› ?_)
    | (with_reducible refine Keeps.foldl _ _ ?_ ?_)
    | (with_reducible refine Keeps.foldl_fst _ _ ?_ ?_)
    | (with_reducible refine Keeps.foldl_snd _ _ ?_ ?_)
    | (with_reducible refine Keeps.elim _ ?_ ?_)
    | intro _
    | split
    | (with_reducible refine Keeps.mk_upd ?_; first | (with_reducible first | assumption | apply enqueue_kept | apply notice_kept) | split)

theorem mgmtOwn_kept {r₀ : State} (src : Nat) (b : List Byte) {s : State} (h_s : Keeps r₀ s) : Keeps r₀ (mgmtOwn src b s) := by
  unfold mgmtOwn
  repeat' first
    | (with_reducible first | assumption | apply forwardToHost_kept | apply offerReq_kept)
    | split
    | (with_reducible refine Keeps.mk_upd ?_; with_reducible first | assumption | apply forwardToHost_kept | apply offerReq_kept)

theorem mgmtMessage_kept {r₀ : State} (m : Reasm) {s : State} (h_s : Keeps r₀ s) : Keeps r₀ (mgmtMessage m s) := by
  unfold mgmtMessage
  repeat' first
    | (with_reducible first | assumption | apply bump_kept | apply mgmtOwn_kept)
    | split
    | (with_reducible refine Keeps.mk_upd ?_; with_reducible first | assumption | apply bump_kept | apply mgmtOwn_kept)

theorem mgmtFragment_kept {r₀ : State} (k v : Nat) {s : State} (h_s : Keeps r₀ s) : Keeps r₀ (mgmtFragment k v s) := by
  unfold mgmtFragment
  dsimp only
  repeat' first
    | (with_reducible first | assumption | apply mgmtMessage_kept | apply bump_kept)
    | (with_reducible refine Keeps.of_snd ‹_› ?_)
    | (with_reducible refine Keeps.of_fst ‹_› ?_)
    | (with_reducible refine Keeps.foldl _ _ ?_ ?_)
    | (with_reducible refine Keeps.foldl_fst _ _ ?_ ?_)
    | (with_reducible refine Keeps.foldl_snd _ _ ?_ ?_)
    | (with_reducible refine Keeps.elim _ ?_ ?_)
    | intro _
    | split
    | (with_reducible refine Keeps.mk_upd ?_; first | (with_reducible first | assumption | apply mgmtMessage_kept | apply bump_kept) | split)
    | (with_reducible refine Keeps.mk_sec ?_ (.same rfl rfl rfl rfl rfl rfl rfl rfl rfl rfl rfl); first | (with_reducible first | assumption | apply mgmtMessage_kept | apply bump_kept) | split)

end Sys2Proof.Machine
end

