-- ==== Sys2Proof/Laws/KeptAccess.lean ====
section
/-! SUPPORT. What the operations of Machine/Access.lean keep: the queue, canonical forms, burnt fuses. -/
namespace Sys2Proof.Machine

theorem loadPortal_kept {r₀ : State} (q j off n : Nat) {s : State} (h_s : Keeps r₀ s) : Keeps r₀ (loadPortal q j off n s).2 := by
  unfold loadPortal
  repeat' first
    | (with_reducible first | assumption | apply portalPopTaken_kept | apply brgBump_kept)
    | split
    | (with_reducible refine Keeps.mk_upd ?_; with_reducible first | assumption | apply portalPopTaken_kept | apply brgBump_kept)

theorem storePortal_kept {r₀ : State} (q j off n v : Nat) {s : State} (h_s : Keeps r₀ s) : Keeps r₀ (storePortal q j off n v s) := by
  unfold storePortal
  repeat' first
    | (with_reducible first | assumption | apply portalPush_kept | apply portalAbort_kept | apply writeQstat_kept | apply brgBump_kept)
    | split
    | (with_reducible refine Keeps.mk_upd ?_; with_reducible first | assumption | apply portalPush_kept | apply portalAbort_kept | apply writeQstat_kept | apply brgBump_kept)

theorem storeBport_kept {r₀ : State} (b off n v : Nat) {s : State} (h_s : Keeps r₀ s) : Keeps r₀ (storeBport b off n v s) := by
  unfold storeBport
  repeat' first
    | (with_reducible first | assumption | apply setBport_kept | apply berthGo_kept)
    | (lift_lets
       intro x
       first
         | (have hx : Keeps r₀ x := by
               repeat' first
                 | (with_reducible first | assumption | apply setBport_kept | apply berthGo_kept)
                 | (with_reducible refine Keeps.of_snd ‹_› ?_)
                 | (with_reducible refine Keeps.of_fst ‹_› ?_)
                 | (with_reducible refine Keeps.foldl _ _ ?_ ?_)
                 | (with_reducible refine Keeps.foldl_fst _ _ ?_ ?_)
                 | (with_reducible refine Keeps.foldl_snd _ _ ?_ ?_)
                 | (with_reducible refine Keeps.elim _ ?_ ?_)
                 | intro _
                 | split
                 | (with_reducible refine Keeps.mk_upd ?_; first | (with_reducible first | assumption | apply setBport_kept | apply berthGo_kept) | split)
            clear_value x)
         | skip)
    | (with_reducible refine Keeps.of_snd ‹_› ?_)
    | (with_reducible refine Keeps.of_fst ‹_› ?_)
    | (with_reducible refine Keeps.foldl _ _ ?_ ?_)
    | (with_reducible refine Keeps.foldl_fst _ _ ?_ ?_)
    | (with_reducible refine Keeps.foldl_snd _ _ ?_ ?_)
    | (with_reducible refine Keeps.elim _ ?_ ?_)
    | intro _
    | split
    | (with_reducible refine Keeps.mk_upd ?_; first | (with_reducible first | assumption | apply setBport_kept | apply berthGo_kept) | split)

theorem storeJobctl_kept {r₀ : State} (j off n v : Nat) {s : State} (h_s : Keeps r₀ s) : Keeps r₀ (storeJobctl j off n v s) := by
  unfold storeJobctl
  repeat' first
    | (with_reducible first | assumption | apply ckptAck_kept | apply setJobctl_kept)
    | (with_reducible refine Keeps.of_snd ‹_› ?_)
    | (with_reducible refine Keeps.of_fst ‹_› ?_)
    | (with_reducible refine Keeps.foldl _ _ ?_ ?_)
    | (with_reducible refine Keeps.foldl_fst _ _ ?_ ?_)
    | (with_reducible refine Keeps.foldl_snd _ _ ?_ ?_)
    | (with_reducible refine Keeps.elim _ ?_ ?_)
    | intro _
    | split
    | (with_reducible refine Keeps.mk_upd ?_; first | (with_reducible first | assumption | apply ckptAck_kept | apply setJobctl_kept) | split)

theorem viewBytes_kept {r₀ : State} (l : List (Option Byte)) {s : State} (h_s : Keeps r₀ s) : Keeps r₀ (viewBytes l s).2 := by
  unfold viewBytes
  repeat' first
    | (with_reducible first | assumption | apply drawFree_kept)
    | (with_reducible refine Keeps.of_snd ‹_› ?_)
    | (with_reducible refine Keeps.of_fst ‹_› ?_)
    | (with_reducible refine Keeps.foldl _ _ ?_ ?_)
    | (with_reducible refine Keeps.foldl_fst _ _ ?_ ?_)
    | (with_reducible refine Keeps.foldl_snd _ _ ?_ ?_)
    | (with_reducible refine Keeps.elim _ ?_ ?_)
    | intro _
    | split
    | (with_reducible refine Keeps.mk_upd ?_; first | (with_reducible first | assumption | apply drawFree_kept) | split)

theorem loadBytes_kept {r₀ : State} (j a n : Nat) {s : State} (h_s : Keeps r₀ s) : Keeps r₀ (loadBytes j a n s).2 := by
  unfold loadBytes
  repeat' first
    | (with_reducible first | assumption | apply viewBytes_kept | apply loadPortal_kept)
    | (lift_lets
       intro x
       first
         | (have hx : Keeps r₀ x := by
               repeat' first
                 | (with_reducible first | assumption | apply viewBytes_kept | apply loadPortal_kept)
                 | (with_reducible refine Keeps.of_snd ‹_› ?_)
                 | (with_reducible refine Keeps.of_fst ‹_› ?_)
                 | (with_reducible refine Keeps.foldl _ _ ?_ ?_)
                 | (with_reducible refine Keeps.foldl_fst _ _ ?_ ?_)
                 | (with_reducible refine Keeps.foldl_snd _ _ ?_ ?_)
                 | (with_reducible refine Keeps.elim _ ?_ ?_)
                 | intro _
                 | split
                 | (with_reducible refine Keeps.mk_upd ?_; first | (with_reducible first | assumption | apply viewBytes_kept | apply loadPortal_kept) | split)
            clear_value x)
         | skip)
    | (with_reducible refine Keeps.of_snd ‹_› ?_)
    | (with_reducible refine Keeps.of_fst ‹_› ?_)
    | (with_reducible refine Keeps.foldl _ _ ?_ ?_)
    | (with_reducible refine Keeps.foldl_fst _ _ ?_ ?_)
    | (with_reducible refine Keeps.foldl_snd _ _ ?_ ?_)
    | (with_reducible refine Keeps.elim _ ?_ ?_)
    | intro _
    | split
    | (with_reducible refine Keeps.mk_upd ?_; first | (with_reducible first | assumption | apply viewBytes_kept | apply loadPortal_kept) | split)

theorem setLoaded_kept {r₀ : State} (h : Nat) (l : List Byte) {s : State} (h_s : Keeps r₀ s) : Keeps r₀ (setLoaded h l s) := by
  unfold setLoaded
  repeat' first | (with_reducible assumption) | split | (with_reducible refine Keeps.mk_upd ?_; with_reducible assumption)

theorem guestLoad_kept {r₀ : State} (h j a n : Nat) {s : State} (h_s : Keeps r₀ s) : Keeps r₀ (guestLoad h j a n s) := by
  unfold guestLoad
  repeat' first
    | (with_reducible first | assumption | apply hartPoisonTrap_kept | apply loadBytes_kept | apply setLoaded_kept)
    | split
    | (with_reducible refine Keeps.mk_upd ?_; with_reducible first | assumption | apply hartPoisonTrap_kept | apply loadBytes_kept | apply setLoaded_kept)

theorem guestStore_kept {r₀ : State} (h j a n v : Nat) {s : State} (h_s : Keeps r₀ s) : Keeps r₀ (guestStore h j a n v s) := by
  unfold guestStore
  repeat' first
    | (with_reducible first | assumption | apply storeJobctl_kept | apply ramPutNat_kept | apply storePortal_kept | apply arrRunWrite_kept | apply raiseMsi_kept | apply storeBport_kept)
    | (with_reducible refine Keeps.of_snd ‹_› ?_)
    | (with_reducible refine Keeps.of_fst ‹_› ?_)
    | (with_reducible refine Keeps.foldl _ _ ?_ ?_)
    | (with_reducible refine Keeps.foldl_fst _ _ ?_ ?_)
    | (with_reducible refine Keeps.foldl_snd _ _ ?_ ?_)
    | (with_reducible refine Keeps.elim _ ?_ ?_)
    | intro _
    | split
    | (with_reducible refine Keeps.mk_upd ?_; first | (with_reducible first | assumption | apply storeJobctl_kept | apply ramPutNat_kept | apply storePortal_kept | apply arrRunWrite_kept | apply raiseMsi_kept | apply storeBport_kept) | split)

theorem guestAccess_kept {r₀ : State} (h a n : Nat) (write : Bool) (v : Nat) {s : State} (h_s : Keeps r₀ s) : Keeps r₀ (guestAccess h a n write v s) := by
  unfold guestAccess
  repeat' first
    | (with_reducible first | assumption | apply guestStore_kept | apply guestLoad_kept | apply guestFault_kept)
    | (with_reducible refine Keeps.of_snd ‹_› ?_)
    | (with_reducible refine Keeps.of_fst ‹_› ?_)
    | (with_reducible refine Keeps.foldl _ _ ?_ ?_)
    | (with_reducible refine Keeps.foldl_fst _ _ ?_ ?_)
    | (with_reducible refine Keeps.foldl_snd _ _ ?_ ?_)
    | (with_reducible refine Keeps.elim _ ?_ ?_)
    | intro _
    | split
    | (with_reducible refine Keeps.mk_upd ?_; first | (with_reducible first | assumption | apply guestStore_kept | apply guestLoad_kept | apply guestFault_kept) | split)

end Sys2Proof.Machine
end

