-- ==== Sys2Proof/Laws/KeptReports.lean ====
section
/-! SUPPORT. What the operations of Machine/Reports.lean keep: the queue, canonical forms, burnt fuses. -/
namespace Sys2Proof.Machine

theorem setMem_kept {r₀ : State} {s : State} (m : MemSt) (h_s : Keeps r₀ s) : Keeps r₀ (setMem s m) := by
  unfold setMem
  repeat' first | (with_reducible assumption) | split | (with_reducible refine Keeps.mk_upd ?_; with_reducible assumption)

theorem setMemOf_kept {r₀ : State} {s : State} (u row : Nat) (m : MemReg) (h_s : Keeps r₀ s) : Keeps r₀ (setMemOf s u row m) := by
  unfold setMemOf
  repeat' with_reducible first | assumption | apply setMem_kept

theorem memNotice_kept {r₀ : State} (kind u row addr lap resumed : Nat) {s : State} (h_s : Keeps r₀ s) : Keeps r₀ (memNotice kind u row addr lap resumed s) := by
  unfold memNotice
  repeat' with_reducible first | assumption | apply notice_kept

theorem reportResumed_kept {r₀ : State} (u : Nat) {s : State} (h_s : Keeps r₀ s) : Keeps r₀ (reportResumed u s) := by
  unfold reportResumed
  repeat' first
    | (with_reducible first | assumption | apply memNotice_kept | apply setMem_kept)
    | split
    | (with_reducible refine Keeps.mk_upd ?_; with_reducible first | assumption | apply memNotice_kept | apply setMem_kept)

theorem unitFails_kept {r₀ : State} (u : Nat) {s : State} (h_s : Keeps r₀ s) : Keeps r₀ (unitFails u s) := by
  unfold unitFails
  repeat' first
    | (with_reducible first | assumption | apply setReady_kept | apply setUnit_kept | apply unitNotice_kept | apply raiseCause_kept)
    | split
    | (with_reducible refine Keeps.mk_upd ?_; with_reducible first | assumption | apply setReady_kept | apply setUnit_kept | apply unitNotice_kept | apply raiseCause_kept)

theorem moveWork_kept {r₀ : State} (u v : Nat) {s : State} (h_s : Keeps r₀ s) : Keeps r₀ (moveWork u v s) := by
  unfold moveWork
  repeat' with_reducible first | assumption | apply setUnit_kept | apply reloadUnit_kept

theorem quarantine_kept {r₀ : State} (cause pcause taint u : Nat) {s : State} (h_s : Keeps r₀ s) : Keeps r₀ (quarantine cause pcause taint u s).2 := by
  unfold quarantine
  repeat' first
    | (with_reducible first | assumption | apply dropReplaysOn_kept | apply moveWork_kept | apply setUnit_kept | apply unitNotice_kept | apply settleState_kept | apply beginRestart_kept)
    | (with_reducible refine Keeps.of_snd ‹_› ?_)
    | (with_reducible refine Keeps.of_fst ‹_› ?_)
    | (with_reducible refine Keeps.foldl _ _ ?_ ?_)
    | (with_reducible refine Keeps.foldl_fst _ _ ?_ ?_)
    | (with_reducible refine Keeps.foldl_snd _ _ ?_ ?_)
    | (with_reducible refine Keeps.elim _ ?_ ?_)
    | intro _
    | split
    | (with_reducible refine Keeps.mk_upd ?_; first | (with_reducible first | assumption | apply dropReplaysOn_kept | apply moveWork_kept | apply setUnit_kept | apply unitNotice_kept | apply settleState_kept | apply beginRestart_kept) | split)

end Sys2Proof.Machine
end

