-- ==== Sys2Proof/Laws/KeptLinks.lean ====
section
/-! SUPPORT. What the operations of Machine/Links.lean keep: the queue, canonical forms, burnt fuses. -/
namespace Sys2Proof.Machine

theorem logRecipient_kept {r₀ : State} (src j w : Nat) (loc : Bool) (jobs links : Nat) (g : Bool) {s : State} (h_s : Keeps r₀ s) : Keeps r₀ (logRecipient src j w loc jobs links g s) := by
  unfold logRecipient
  repeat' first | (with_reducible assumption) | split | (with_reducible refine Keeps.mk_upd ?_; with_reducible assumption)

theorem placePacket_kept {r₀ : State} (k : Nat) (p : Pkt) {s : State} (h_s : Keeps r₀ s) : Keeps r₀ (placePacket k p s).2 := by
  unfold placePacket
  repeat' with_reducible first | assumption | apply logRecipient_kept | apply setLink_kept

theorem takeClass_kept {r₀ : State} (k c : Nat) {s : State} (h_s : Keeps r₀ s) : ∀ e ∈ takeClass k c s, KeepsP r₀ e := by
  intro e he
  unfold takeClass at he
  split at he
  · simp at he
  · split at he
    · simp at he
    · simp only [Option.mem_def, Option.some.injEq] at he
      rw [← he]
      exact placePacket_kept _ _ (setCq_kept _ _ _ h_s)

theorem takeNote_kept {r₀ : State} (k : Nat) {s : State} (h_s : Keeps r₀ s) : ∀ e ∈ takeNote k s, KeepsP r₀ e := by
  intro e he
  unfold takeNote at he
  dsimp only at he
  split at he
  · simp at he
  · split at he
    · simp at he
    · simp only [Option.mem_def, Option.some.injEq] at he
      rw [← he]
      exact KeepsP.mk _ (setLink_kept _ _ h_s)

theorem takeCtl_kept {r₀ : State} (k : Nat) {s : State} (h_s : Keeps r₀ s) : ∀ e ∈ takeCtl k s, KeepsP r₀ e := by
  intro e he
  unfold takeCtl at he
  dsimp only at he
  split at he
  · simp only [Option.mem_def, Option.some.injEq] at he
    rw [← he]
    exact KeepsP.mk _ (setLink_kept _ _ h_s)
  · simp only [Option.mem_def, Option.some.injEq] at he
    rw [← he]
    exact KeepsP.mk _ (Keeps.mk_upd h_s)
  · simp at he

/-- The first of two offers that is made keeps what both keep. -/
theorem keepsP_orElse {r₀ : State} {a b : Option (Nat × Nat × State)} (ha : ∀ e ∈ a, Keeps r₀ e.2.2) (hb : ∀ e ∈ b, Keeps r₀ e.2.2) :
    ∀ e ∈ a.orElse (fun _ => b), Keeps r₀ e.2.2 := by
  intro e he
  cases a with
  | none => exact hb e he
  | some x => exact ha e he

theorem keepsP_pick {r₀ : State} (t : Nat) {o : Option (Nat × State)} (h : ∀ e ∈ o, KeepsP r₀ e) :
    ∀ e ∈ o.map (fun e => (t, e.1, e.2)), Keeps r₀ e.2.2 := by
  intro e he
  obtain ⟨x, hx, rfl⟩ := Option.mem_map.mp he
  exact h x hx

theorem keepsP_getD {r₀ : State} {o : Option (Nat × Nat × State)} {d : Nat × Nat × State} (h : ∀ e ∈ o, Keeps r₀ e.2.2) (hd : Keeps r₀ d.2.2) :
    Keeps r₀ (o.getD d).2.2 := by
  cases o with
  | none => exact hd
  | some x => exact h x rfl

theorem fillSlot_kept {r₀ : State} (k : Nat) {s : State} (h_s : Keeps r₀ s) : Keeps r₀ (fillSlot k s).2.2 := by
  unfold fillSlot
  refine keepsP_getD ?_ h_s
  refine keepsP_orElse (keepsP_pick _ (takeClass_kept _ _ h_s)) ?_
  refine keepsP_orElse (keepsP_pick _ (takeCtl_kept _ h_s)) ?_
  refine keepsP_orElse (keepsP_pick _ (takeNote_kept _ h_s)) ?_
  refine keepsP_orElse (keepsP_pick _ (takeClass_kept _ _ h_s)) ?_
  refine keepsP_orElse (keepsP_pick _ (takeClass_kept _ _ h_s)) ?_
  exact keepsP_pick _ (takeClass_kept _ _ h_s)

theorem fillFirst_kept {r₀ : State} (k : Nat) {s : State} (h_s : Keeps r₀ s) : Keeps r₀ (fillFirst k s).2.2 := by
  have hc := takeClass_kept k 0 h_s
  unfold fillFirst
  generalize takeClass k 0 s = o at hc
  cases o with
  | none => exact h_s
  | some e => exact hc e rfl

theorem fillAt_kept {r₀ : State} (k i : Nat) {s : State} (h_s : Keeps r₀ s) : Keeps r₀ (fillAt k i s).2.2 := by
  unfold fillAt
  split
  · exact fillFirst_kept k h_s
  · exact fillSlot_kept k h_s

theorem fillFrame_kept {r₀ : State} (k n : Nat) : ∀ (i v : Nat) {s : State}, Keeps r₀ s → Keeps r₀ (fillFrame k n i v s).2 := by
  induction n with
  | zero => intro i v s h; exact h
  | succ n ih => intro i v s h; exact ih _ _ (fillAt_kept k i h)

theorem sendFrame_kept {r₀ : State} (k : Nat) (p : Nat × State) (h_p : Keeps r₀ p.2) : Keeps r₀ (sendFrame k p) := by
  unfold sendFrame
  repeat' with_reducible first | assumption | apply setLink_kept

theorem linkFrameTx_kept {r₀ : State} (k : Nat) {s : State} (h_s : Keeps r₀ s) : Keeps r₀ (linkFrameTx k s) := by
  unfold linkFrameTx
  lift_lets
  intro l
  split
  · exact h_s
  split
  · exact setLink_kept _ _ h_s
  split
  · exact h_s
  · have h := fillFrame_kept k 5 0 (l.txSeq * 1024) h_s
    dsimp only
    refine sendFrame_kept _ _ ?_
    show Keeps r₀ (ite _ _ _)
    split
    · exact cnlBump_kept _ _ h
    · exact h

theorem windowRefused_kept {r₀ : State} (k : Nat) (n : LinkNote) {s : State} (h_s : Keeps r₀ s) : Keeps r₀ (windowRefused k n s) := by
  unfold windowRefused
  repeat' first
    | (with_reducible first | assumption | apply beginRestart_kept | apply setAttempt_kept | apply resendOn_kept | apply failWindow_kept | apply setLink_kept)
    | (with_reducible refine Keeps.of_snd ‹_› ?_)
    | (with_reducible refine Keeps.of_fst ‹_› ?_)
    | (with_reducible refine Keeps.foldl _ _ ?_ ?_)
    | (with_reducible refine Keeps.foldl_fst _ _ ?_ ?_)
    | (with_reducible refine Keeps.foldl_snd _ _ ?_ ?_)
    | (with_reducible refine Keeps.elim _ ?_ ?_)
    | intro _
    | split
    | (with_reducible refine Keeps.mk_upd ?_; first | (with_reducible first | assumption | apply beginRestart_kept | apply setAttempt_kept | apply resendOn_kept | apply failWindow_kept | apply setLink_kept) | split)

theorem releaseCredits_kept {r₀ : State} (k : Nat) {s : State} (h_s : Keeps r₀ s) : Keeps r₀ (releaseCredits k s) := by
  unfold releaseCredits
  repeat' first
    | (with_reducible first | assumption | apply setLink_kept)
    | (lift_lets
       intro x
       first
         | (have hx : Keeps r₀ x := by
               repeat' first
                 | (with_reducible first | assumption | apply setLink_kept)
                 | (with_reducible refine Keeps.of_snd ‹_› ?_)
                 | (with_reducible refine Keeps.of_fst ‹_› ?_)
                 | (with_reducible refine Keeps.foldl _ _ ?_ ?_)
                 | (with_reducible refine Keeps.foldl_fst _ _ ?_ ?_)
                 | (with_reducible refine Keeps.foldl_snd _ _ ?_ ?_)
                 | (with_reducible refine Keeps.elim _ ?_ ?_)
                 | intro _
                 | split
                 | (with_reducible refine Keeps.mk_upd ?_; first | (with_reducible first | assumption | apply setLink_kept) | split)
            clear_value x)
         | skip)
    | (with_reducible refine Keeps.of_snd ‹_› ?_)
    | (with_reducible refine Keeps.of_fst ‹_› ?_)
    | (with_reducible refine Keeps.foldl _ _ ?_ ?_)
    | (with_reducible refine Keeps.foldl_fst _ _ ?_ ?_)
    | (with_reducible refine Keeps.foldl_snd _ _ ?_ ?_)
    | (with_reducible refine Keeps.elim _ ?_ ?_)
    | intro _
    | split
    | (with_reducible refine Keeps.mk_upd ?_; first | (with_reducible first | assumption | apply setLink_kept) | split)

theorem receiveProv_kept {r₀ : State} (k : Nat) (p : Pkt) {s : State} (h_s : Keeps r₀ s) : Keeps r₀ (receiveProv k p s) := by
  unfold receiveProv
  repeat' first
    | (with_reducible first | assumption | apply returnCredit_kept | apply checkParity_kept | apply logRecipient_kept | apply setLink_kept | apply cnlBump_kept | apply putCq_kept)
    | (with_reducible refine Keeps.of_snd ‹_› ?_)
    | (with_reducible refine Keeps.of_fst ‹_› ?_)
    | (with_reducible refine Keeps.foldl _ _ ?_ ?_)
    | (with_reducible refine Keeps.foldl_fst _ _ ?_ ?_)
    | (with_reducible refine Keeps.foldl_snd _ _ ?_ ?_)
    | (with_reducible refine Keeps.elim _ ?_ ?_)
    | intro _
    | split
    | (with_reducible refine Keeps.mk_upd ?_; first | (with_reducible first | assumption | apply returnCredit_kept | apply checkParity_kept | apply logRecipient_kept | apply setLink_kept | apply cnlBump_kept | apply putCq_kept) | split)

theorem receivePacket_kept {r₀ : State} (k : Nat) (p : Pkt) {s : State} (h_s : Keeps r₀ s) : Keeps r₀ (receivePacket k p s) := by
  unfold receivePacket
  repeat' first
    | (with_reducible first | assumption | apply setLink_kept | apply receiveProv_kept | apply putCq_kept | apply logRecipient_kept)
    | split
    | (with_reducible refine Keeps.mk_upd ?_; with_reducible first | assumption | apply setLink_kept | apply receiveProv_kept | apply putCq_kept | apply logRecipient_kept)

theorem foldPacket_kept {r₀ : State} (k : Nat) (p : Pkt) {s : State} (h_s : Keeps r₀ s) : Keeps r₀ (foldPacket k p s) := by
  unfold foldPacket
  repeat' first
    | (with_reducible first | assumption | apply cnlBump_kept | apply putCq_kept)
    | split
    | (with_reducible refine Keeps.mk_upd ?_; with_reducible first | assumption | apply cnlBump_kept | apply putCq_kept)

theorem passNote_kept {r₀ : State} (k : Nat) (n : LinkNote) {s : State} (h_s : Keeps r₀ s) : Keeps r₀ (passNote k n s) := by
  unfold passNote
  repeat' first
    | (with_reducible first | assumption | apply setLink_kept)
    | (with_reducible refine Keeps.of_snd ‹_› ?_)
    | (with_reducible refine Keeps.of_fst ‹_› ?_)
    | (with_reducible refine Keeps.foldl _ _ ?_ ?_)
    | (with_reducible refine Keeps.foldl_fst _ _ ?_ ?_)
    | (with_reducible refine Keeps.foldl_snd _ _ ?_ ?_)
    | (with_reducible refine Keeps.elim _ ?_ ?_)
    | intro _
    | split
    | (with_reducible refine Keeps.mk_upd ?_; first | (with_reducible first | assumption | apply setLink_kept) | split)

theorem receiveCommit_kept {r₀ : State} (k : Nat) (n : LinkNote) {s : State} (h_s : Keeps r₀ s) : Keeps r₀ (receiveCommit k n s) := by
  unfold receiveCommit
  repeat' first
    | (with_reducible first | assumption | apply setLink_kept | apply cnlBumpN_kept | apply foldPacket_kept | apply cnlBump_kept | apply passNote_kept | apply releaseCredits_kept)
    | (with_reducible refine Keeps.of_snd ‹_› ?_)
    | (with_reducible refine Keeps.of_fst ‹_› ?_)
    | (with_reducible refine Keeps.foldl _ _ ?_ ?_)
    | (with_reducible refine Keeps.foldl_fst _ _ ?_ ?_)
    | (with_reducible refine Keeps.foldl_snd _ _ ?_ ?_)
    | (with_reducible refine Keeps.elim _ ?_ ?_)
    | intro _
    | split
    | (with_reducible refine Keeps.mk_upd ?_; first | (with_reducible first | assumption | apply setLink_kept | apply cnlBumpN_kept | apply foldPacket_kept | apply cnlBump_kept | apply passNote_kept | apply releaseCredits_kept) | split)

theorem receiveRetract_kept {r₀ : State} (k : Nat) (n : LinkNote) {s : State} (h_s : Keeps r₀ s) : Keeps r₀ (receiveRetract k n s) := by
  unfold receiveRetract
  repeat' with_reducible first | assumption | apply setLink_kept | apply passNote_kept | apply releaseCredits_kept | apply cnlBumpN_kept

theorem receiveNak_kept {r₀ : State} (k : Nat) (n : LinkNote) {s : State} (h_s : Keeps r₀ s) : Keeps r₀ (receiveNak k n s) := by
  unfold receiveNak
  repeat' first
    | (with_reducible first | assumption | apply windowRefused_kept | apply setLink_kept)
    | (with_reducible refine Keeps.of_snd ‹_› ?_)
    | (with_reducible refine Keeps.of_fst ‹_› ?_)
    | (with_reducible refine Keeps.foldl _ _ ?_ ?_)
    | (with_reducible refine Keeps.foldl_fst _ _ ?_ ?_)
    | (with_reducible refine Keeps.foldl_snd _ _ ?_ ?_)
    | (with_reducible refine Keeps.elim _ ?_ ?_)
    | intro _
    | split
    | (with_reducible refine Keeps.mk_upd ?_; first | (with_reducible first | assumption | apply windowRefused_kept | apply setLink_kept) | split)

theorem receiveNote_kept {r₀ : State} (k : Nat) (n : LinkNote) {s : State} (h_s : Keeps r₀ s) : Keeps r₀ (receiveNote k n s) := by
  unfold receiveNote
  repeat' first
    | (with_reducible first | assumption | apply setLink_kept | apply receiveCommit_kept | apply receiveRetract_kept | apply receiveNak_kept)
    | split
    | (with_reducible refine Keeps.mk_upd ?_; with_reducible first | assumption | apply setLink_kept | apply receiveCommit_kept | apply receiveRetract_kept | apply receiveNak_kept)

theorem peerKnown_kept {r₀ : State} (k dev : Nat) (asg : Bool) (caps : Nat) {s : State} (h_s : Keeps r₀ s) : Keeps r₀ (peerKnown k dev asg caps s) := by
  unfold peerKnown
  repeat' first
    | (with_reducible first | assumption | apply rerouteTx_kept | apply duplicateNotice_kept | apply setLink_kept)
    | (with_reducible refine Keeps.of_snd ‹_› ?_)
    | (with_reducible refine Keeps.of_fst ‹_› ?_)
    | (with_reducible refine Keeps.foldl _ _ ?_ ?_)
    | (with_reducible refine Keeps.foldl_fst _ _ ?_ ?_)
    | (with_reducible refine Keeps.foldl_snd _ _ ?_ ?_)
    | (with_reducible refine Keeps.elim _ ?_ ?_)
    | intro _
    | split
    | (with_reducible refine Keeps.mk_upd ?_; first | (with_reducible first | assumption | apply rerouteTx_kept | apply duplicateNotice_kept | apply setLink_kept) | split)

theorem receiveCtl_kept {r₀ : State} (k : Nat) (c : LinkCtl) {s : State} (h_s : Keeps r₀ s) : Keeps r₀ (receiveCtl k c s) := by
  unfold receiveCtl
  repeat' first
    | (with_reducible first | assumption | apply setLink_kept | apply cnlBump_kept | apply peerKnown_kept | apply mgmtFragment_kept)
    | (with_reducible refine Keeps.of_snd ‹_› ?_)
    | (with_reducible refine Keeps.of_fst ‹_› ?_)
    | (with_reducible refine Keeps.foldl _ _ ?_ ?_)
    | (with_reducible refine Keeps.foldl_fst _ _ ?_ ?_)
    | (with_reducible refine Keeps.foldl_snd _ _ ?_ ?_)
    | (with_reducible refine Keeps.elim _ ?_ ?_)
    | intro _
    | split
    | (with_reducible refine Keeps.mk_upd ?_; first | (with_reducible first | assumption | apply setLink_kept | apply cnlBump_kept | apply peerKnown_kept | apply mgmtFragment_kept) | split)

theorem receiveSlot_kept {r₀ : State} (k v i : Nat) {s : State} (h_s : Keeps r₀ s) : Keeps r₀ (receiveSlot k v i s) := by
  unfold receiveSlot
  repeat' first
    | (with_reducible first | assumption | apply receivePacket_kept | apply receiveNote_kept | apply receiveCtl_kept)
    | (with_reducible refine Keeps.of_snd ‹_› ?_)
    | (with_reducible refine Keeps.of_fst ‹_› ?_)
    | (with_reducible refine Keeps.foldl _ _ ?_ ?_)
    | (with_reducible refine Keeps.foldl_fst _ _ ?_ ?_)
    | (with_reducible refine Keeps.foldl_snd _ _ ?_ ?_)
    | (with_reducible refine Keeps.elim _ ?_ ?_)
    | intro _
    | split
    | (with_reducible refine Keeps.mk_upd ?_; first | (with_reducible first | assumption | apply receivePacket_kept | apply receiveNote_kept | apply receiveCtl_kept) | split)

theorem linkFrameRx_kept {r₀ : State} (k : Nat) (f : BitVec 512) {s : State} (h_s : Keeps r₀ s) : Keeps r₀ (linkFrameRx k f s) := by
  unfold linkFrameRx
  repeat' first
    | (with_reducible first | assumption | apply wakeIsland_kept | apply setLink_kept | apply receiveSlot_kept)
    | (with_reducible refine Keeps.of_snd ‹_› ?_)
    | (with_reducible refine Keeps.of_fst ‹_› ?_)
    | (with_reducible refine Keeps.foldl _ _ ?_ ?_)
    | (with_reducible refine Keeps.foldl_fst _ _ ?_ ?_)
    | (with_reducible refine Keeps.foldl_snd _ _ ?_ ?_)
    | (with_reducible refine Keeps.elim _ ?_ ?_)
    | intro _
    | split
    | (with_reducible refine Keeps.mk_upd ?_; first | (with_reducible first | assumption | apply wakeIsland_kept | apply setLink_kept | apply receiveSlot_kept) | split)

theorem linkUp_kept {r₀ : State} (k lanes peer : Nat) (asg : Bool) (caps : Nat) {s : State} (h_s : Keeps r₀ s) : Keeps r₀ (linkUp k lanes peer asg caps s) := by
  unfold linkUp
  repeat' first
    | (with_reducible first | assumption | apply setLink_kept | apply setReady_kept | apply linkNotice_kept | apply duplicateNotice_kept | apply reportResumed_kept | apply clearCause_kept)
    | (with_reducible refine Keeps.of_snd ‹_› ?_)
    | (with_reducible refine Keeps.of_fst ‹_› ?_)
    | (with_reducible refine Keeps.foldl _ _ ?_ ?_)
    | (with_reducible refine Keeps.foldl_fst _ _ ?_ ?_)
    | (with_reducible refine Keeps.foldl_snd _ _ ?_ ?_)
    | (with_reducible refine Keeps.elim _ ?_ ?_)
    | intro _
    | split
    | (with_reducible refine Keeps.mk_upd ?_; first | (with_reducible first | assumption | apply setLink_kept | apply setReady_kept | apply linkNotice_kept | apply duplicateNotice_kept | apply reportResumed_kept | apply clearCause_kept) | split)

theorem linkFails_kept {r₀ : State} (k : Nat) {s : State} (h_s : Keeps r₀ s) : Keeps r₀ (linkFails k s) := by
  unfold linkFails
  repeat' first
    | (with_reducible first | assumption | apply linkLost_kept | apply cnlBump_kept)
    | (with_reducible refine Keeps.of_snd ‹_› ?_)
    | (with_reducible refine Keeps.of_fst ‹_› ?_)
    | (with_reducible refine Keeps.foldl _ _ ?_ ?_)
    | (with_reducible refine Keeps.foldl_fst _ _ ?_ ?_)
    | (with_reducible refine Keeps.foldl_snd _ _ ?_ ?_)
    | (with_reducible refine Keeps.elim _ ?_ ?_)
    | intro _
    | split
    | (with_reducible refine Keeps.mk_upd ?_; first | (with_reducible first | assumption | apply linkLost_kept | apply cnlBump_kept) | split)

theorem linkDown_kept {r₀ : State} (k : Nat) (r : LinkLoss) {s : State} (h_s : Keeps r₀ s) : Keeps r₀ (linkDown k r s) := by
  unfold linkDown
  repeat' first
    | (with_reducible first | assumption | apply linkFails_kept)
    | (with_reducible refine Keeps.of_snd ‹_› ?_)
    | (with_reducible refine Keeps.of_fst ‹_› ?_)
    | (with_reducible refine Keeps.foldl _ _ ?_ ?_)
    | (with_reducible refine Keeps.foldl_fst _ _ ?_ ?_)
    | (with_reducible refine Keeps.foldl_snd _ _ ?_ ?_)
    | (with_reducible refine Keeps.elim _ ?_ ?_)
    | intro _
    | split
    | (with_reducible refine Keeps.mk_upd ?_; first | (with_reducible first | assumption | apply linkFails_kept) | split)

theorem ethPhyLinkChange_kept {r₀ : State} (p : Nat) (up selfTest : Bool) {s : State} (h_s : Keeps r₀ s) : Keeps r₀ (ethPhyLinkChange p up selfTest s) := by
  unfold ethPhyLinkChange
  repeat' first
    | (with_reducible first | assumption | apply setEth_kept | apply setReady_kept | apply linkNotice_kept | apply clearCause_kept)
    | (with_reducible refine Keeps.of_snd ‹_› ?_)
    | (with_reducible refine Keeps.of_fst ‹_› ?_)
    | (with_reducible refine Keeps.foldl _ _ ?_ ?_)
    | (with_reducible refine Keeps.foldl_fst _ _ ?_ ?_)
    | (with_reducible refine Keeps.foldl_snd _ _ ?_ ?_)
    | (with_reducible refine Keeps.elim _ ?_ ?_)
    | intro _
    | split
    | (with_reducible refine Keeps.mk_upd ?_; first | (with_reducible first | assumption | apply setEth_kept | apply setReady_kept | apply linkNotice_kept | apply clearCause_kept) | split)

end Sys2Proof.Machine
end

