-- ==== Sys2Proof/Laws/KeptIntegrity.lean ====
section
/-! SUPPORT. What the operations of Machine/Integrity.lean keep: the queue, canonical forms, burnt fuses. -/
namespace Sys2Proof.Machine

theorem poisonSurface_kept {r₀ : State} (c off : Nat) {s : State} (h_s : Keeps r₀ s) : Keeps r₀ (poisonSurface c off s) := by
  unfold poisonSurface
  repeat' first | (with_reducible first | assumption | apply setSrf_kept) | split | (with_reducible refine Keeps.mk_upd ?_; with_reducible first | assumption | apply setSrf_kept)

theorem poisonGyro_kept {r₀ : State} (c off : Nat) {s : State} (h_s : Keeps r₀ s) : Keeps r₀ (poisonGyro c off s) := by
  unfold poisonGyro
  repeat' with_reducible first | assumption | apply setSrf_kept

theorem poisonNeuron_kept {r₀ : State} (c n : Nat) {s : State} (h_s : Keeps r₀ s) : Keeps r₀ (poisonNeuron c n s) := by
  unfold poisonNeuron
  repeat' with_reducible first | assumption | apply setNe_kept

theorem poisonNe_kept {r₀ : State} (c off : Nat) {s : State} (h_s : Keeps r₀ s) : Keeps r₀ (poisonNe c off s) := by
  unfold poisonNe
  repeat' first
    | (with_reducible first | assumption | apply poisonNeuron_kept | apply setNe_kept)
    | split
    | (with_reducible refine Keeps.mk_upd ?_; with_reducible first | assumption | apply poisonNeuron_kept | apply setNe_kept)

theorem poisonHub_kept {r₀ : State} (h off : Nat) {s : State} (h_s : Keeps r₀ s) : Keeps r₀ (poisonHub h off s) := by
  unfold poisonHub
  repeat' first
    | (with_reducible first | assumption | apply setCq_kept | apply setPol_kept)
    | split
    | (with_reducible refine Keeps.mk_upd ?_; with_reducible first | assumption | apply setCq_kept | apply setPol_kept)

theorem poisonFa_kept {r₀ : State} (n off : Nat) {s : State} (h_s : Keeps r₀ s) : Keeps r₀ (poisonFa n off s) := by
  unfold poisonFa
  repeat' first | (with_reducible first | assumption | apply setFa_kept) | split | (with_reducible refine Keeps.mk_upd ?_; with_reducible first | assumption | apply setFa_kept)

theorem poisonFus_kept {r₀ : State} (off : Nat) {s : State} (h_s : Keeps r₀ s) : Keeps r₀ (poisonFus off s) := by
  unfold poisonFus
  repeat' first | (with_reducible assumption) | split | (with_reducible refine Keeps.mk_upd ?_; with_reducible assumption)

theorem poisonQueue_kept {r₀ : State} (q off : Nat) {s : State} (h_s : Keeps r₀ s) : Keeps r₀ (poisonQueue q off s) := by
  unfold poisonQueue
  repeat' first
    | (with_reducible first | assumption | apply markBad_kept | apply brgBump_kept | apply setQueue_kept)
    | (with_reducible refine Keeps.of_snd ‹_› ?_)
    | (with_reducible refine Keeps.of_fst ‹_› ?_)
    | (with_reducible refine Keeps.foldl _ _ ?_ ?_)
    | (with_reducible refine Keeps.foldl_fst _ _ ?_ ?_)
    | (with_reducible refine Keeps.foldl_snd _ _ ?_ ?_)
    | (with_reducible refine Keeps.elim _ ?_ ?_)
    | intro _
    | split
    | (with_reducible refine Keeps.mk_upd ?_; first | (with_reducible first | assumption | apply markBad_kept | apply brgBump_kept | apply setQueue_kept) | split)

theorem poisonLink_kept {r₀ : State} (k off : Nat) {s : State} (h_s : Keeps r₀ s) : Keeps r₀ (poisonLink k off s) := by
  unfold poisonLink
  repeat' first | (with_reducible first | assumption | apply setLink_kept) | split | (with_reducible refine Keeps.mk_upd ?_; with_reducible first | assumption | apply setLink_kept)

theorem abandonPush_kept {r₀ : State} (p : Nat) {s : State} (h_s : Keeps r₀ s) : Keeps r₀ (abandonPush p s) := by
  unfold abandonPush
  repeat' first
    | (with_reducible first | assumption | apply bump_kept | apply setPush_kept)
    | (with_reducible refine Keeps.of_snd ‹_› ?_)
    | (with_reducible refine Keeps.of_fst ‹_› ?_)
    | (with_reducible refine Keeps.foldl _ _ ?_ ?_)
    | (with_reducible refine Keeps.foldl_fst _ _ ?_ ?_)
    | (with_reducible refine Keeps.foldl_snd _ _ ?_ ?_)
    | (with_reducible refine Keeps.elim _ ?_ ?_)
    | intro _
    | split
    | (with_reducible refine Keeps.mk_upd ?_; first | (with_reducible first | assumption | apply bump_kept | apply setPush_kept) | split)

theorem poisonByte_kept {r₀ : State} (u row off : Nat) {s : State} (h_s : Keeps r₀ s) : Keeps r₀ (poisonByte u row off s) := by
  unfold poisonByte
  repeat' first
    | (with_reducible first | assumption | apply setSlu_kept | apply poisonSurface_kept | apply poisonGyro_kept | apply poisonNe_kept | apply poisonHub_kept | apply setRamBad_kept | apply poisonFa_kept | apply poisonFus_kept | apply failPath_kept | apply poisonQueue_kept | apply setStr_kept | apply abandonPush_kept | apply poisonLink_kept | apply setEth_kept | apply rxOther_kept)
    | (with_reducible refine Keeps.of_snd ‹_› ?_)
    | (with_reducible refine Keeps.of_fst ‹_› ?_)
    | (with_reducible refine Keeps.foldl _ _ ?_ ?_)
    | (with_reducible refine Keeps.foldl_fst _ _ ?_ ?_)
    | (with_reducible refine Keeps.foldl_snd _ _ ?_ ?_)
    | (with_reducible refine Keeps.elim _ ?_ ?_)
    | intro _
    | split
    | (with_reducible refine Keeps.mk_upd ?_; first | (with_reducible first | assumption | apply setSlu_kept | apply poisonSurface_kept | apply poisonGyro_kept | apply poisonNe_kept | apply poisonHub_kept | apply setRamBad_kept | apply poisonFa_kept | apply poisonFus_kept | apply failPath_kept | apply poisonQueue_kept | apply setStr_kept | apply abandonPush_kept | apply poisonLink_kept | apply setEth_kept | apply rxOther_kept) | split)

theorem restartOf_kept {r₀ : State} (u j : Nat) {s : State} (h_s : Keeps r₀ s) : Keeps r₀ (restartOf u j s) := by
  unfold restartOf
  repeat' first | (with_reducible first | assumption | apply beginRestart_kept) | split | (with_reducible refine Keeps.mk_upd ?_; with_reducible first | assumption | apply beginRestart_kept)

theorem setTested_kept {r₀ : State} (u : Nat) (ok : Bool) {s : State} (h_s : Keeps r₀ s) : Keeps r₀ (setTested u ok s) := by
  unfold setTested
  repeat' first | (with_reducible first | assumption | apply setMem_kept) | split | (with_reducible refine Keeps.mk_upd ?_; with_reducible first | assumption | apply setMem_kept)

theorem holdReset_kept {r₀ : State} (u : Nat) {s : State} (h_s : Keeps r₀ s) : Keeps r₀ (holdReset u s) := by
  unfold holdReset
  repeat' first
    | (with_reducible first | assumption | apply setReady_kept | apply setTested_kept | apply setUnit_kept)
    | split
    | (with_reducible refine Keeps.mk_upd ?_; with_reducible first | assumption | apply setReady_kept | apply setTested_kept | apply setUnit_kept)

theorem reapply_kept {r₀ : State} (p : Nat → Bool) {s : State} (h_s : Keeps r₀ s) : Keeps r₀ (reapply p s) := by
  unfold reapply
  repeat' first
    | (with_reducible first | assumption | apply cfgApply_kept)
    | (with_reducible refine Keeps.of_snd ‹_› ?_)
    | (with_reducible refine Keeps.of_fst ‹_› ?_)
    | (with_reducible refine Keeps.foldl _ _ ?_ ?_)
    | (with_reducible refine Keeps.foldl_fst _ _ ?_ ?_)
    | (with_reducible refine Keeps.foldl_snd _ _ ?_ ?_)
    | (with_reducible refine Keeps.elim _ ?_ ?_)
    | intro _
    | split
    | (with_reducible refine Keeps.mk_upd ?_; first | (with_reducible first | assumption | apply cfgApply_kept) | split)

theorem coreReset_kept {r₀ : State} (u : Nat) {s : State} (h_s : Keeps r₀ s) : Keeps r₀ (coreReset u s) := by
  unfold coreReset
  repeat' first
    | (with_reducible first | assumption | apply moveWork_kept | apply setUnit_kept | apply clearUnit_kept | apply holdReset_kept | apply restartOf_kept)
    | (with_reducible refine Keeps.of_snd ‹_› ?_)
    | (with_reducible refine Keeps.of_fst ‹_› ?_)
    | (with_reducible refine Keeps.foldl _ _ ?_ ?_)
    | (with_reducible refine Keeps.foldl_fst _ _ ?_ ?_)
    | (with_reducible refine Keeps.foldl_snd _ _ ?_ ?_)
    | (with_reducible refine Keeps.elim _ ?_ ?_)
    | intro _
    | split
    | (with_reducible refine Keeps.mk_upd ?_; first | (with_reducible first | assumption | apply moveWork_kept | apply setUnit_kept | apply clearUnit_kept | apply holdReset_kept | apply restartOf_kept) | split)

theorem hubReset_kept {r₀ : State} (h : Nat) {s : State} (h_s : Keeps r₀ s) : Keeps r₀ (hubReset h s) := by
  unfold hubReset
  repeat' first
    | (with_reducible first | assumption | apply holdReset_kept | apply setPol_kept | apply restartOf_kept | apply raiseCause_kept)
    | (with_reducible refine Keeps.of_snd ‹_› ?_)
    | (with_reducible refine Keeps.of_fst ‹_› ?_)
    | (with_reducible refine Keeps.foldl _ _ ?_ ?_)
    | (with_reducible refine Keeps.foldl_fst _ _ ?_ ?_)
    | (with_reducible refine Keeps.foldl_snd _ _ ?_ ?_)
    | (with_reducible refine Keeps.elim _ ?_ ?_)
    | intro _
    | split
    | (with_reducible refine Keeps.mk_upd ?_; first | (with_reducible first | assumption | apply holdReset_kept | apply setPol_kept | apply restartOf_kept | apply raiseCause_kept) | split)

theorem queueUe_kept {r₀ : State} (q : Nat) {s : State} (h_s : Keeps r₀ s) : Keeps r₀ (queueUe q s) := by
  unfold queueUe
  repeat' first
    | (with_reducible first | assumption | apply reapply_kept | apply setQueue_kept | apply sluBumpN_kept | apply restartOf_kept)
    | (with_reducible refine Keeps.of_snd ‹_› ?_)
    | (with_reducible refine Keeps.of_fst ‹_› ?_)
    | (with_reducible refine Keeps.foldl _ _ ?_ ?_)
    | (with_reducible refine Keeps.foldl_fst _ _ ?_ ?_)
    | (with_reducible refine Keeps.foldl_snd _ _ ?_ ?_)
    | (with_reducible refine Keeps.elim _ ?_ ?_)
    | intro _
    | split
    | (with_reducible refine Keeps.mk_upd ?_; first | (with_reducible first | assumption | apply reapply_kept | apply setQueue_kept | apply sluBumpN_kept | apply restartOf_kept) | split)

theorem tenUe_kept {r₀ : State} (k : Nat) {s : State} (h_s : Keeps r₀ s) : Keeps r₀ (tenUe k s) := by
  unfold tenUe
  repeat' first
    | (with_reducible first | assumption | apply tenBump_kept | apply reapply_kept | apply setTen_kept)
    | (with_reducible refine Keeps.of_snd ‹_› ?_)
    | (with_reducible refine Keeps.of_fst ‹_› ?_)
    | (with_reducible refine Keeps.foldl _ _ ?_ ?_)
    | (with_reducible refine Keeps.foldl_fst _ _ ?_ ?_)
    | (with_reducible refine Keeps.foldl_snd _ _ ?_ ?_)
    | (with_reducible refine Keeps.elim _ ?_ ?_)
    | intro _
    | split
    | (with_reducible refine Keeps.mk_upd ?_; first | (with_reducible first | assumption | apply tenBump_kept | apply reapply_kept | apply setTen_kept) | split)

theorem macReset_kept {r₀ : State} (p : Nat) {s : State} (h_s : Keeps r₀ s) : Keeps r₀ (macReset p s) := by
  unfold macReset
  repeat' with_reducible first | assumption | apply holdReset_kept | apply setEth_kept

theorem apxReset_kept {r₀ : State} {s : State} (h_s : Keeps r₀ s) : Keeps r₀ (apxReset s) := by
  unfold apxReset
  repeat' first
    | (with_reducible first | assumption | apply holdReset_kept | apply restartOf_kept)
    | (with_reducible refine Keeps.of_snd ‹_› ?_)
    | (with_reducible refine Keeps.of_fst ‹_› ?_)
    | (with_reducible refine Keeps.foldl _ _ ?_ ?_)
    | (with_reducible refine Keeps.foldl_fst _ _ ?_ ?_)
    | (with_reducible refine Keeps.foldl_snd _ _ ?_ ?_)
    | (with_reducible refine Keeps.elim _ ?_ ?_)
    | intro _
    | split
    | (with_reducible refine Keeps.mk_upd ?_; first | (with_reducible first | assumption | apply holdReset_kept | apply restartOf_kept) | split)

theorem configUe_kept {r₀ : State} (u row : Nat) {s : State} (h_s : Keeps r₀ s) : Keeps r₀ (configUe u row s) := by
  unfold configUe
  repeat' first
    | (with_reducible first | assumption | apply holdReset_kept | apply setSlu_kept | apply coreReset_kept | apply hubReset_kept | apply tenUe_kept | apply raiseCause_kept | apply resetPair_kept | apply clearArray_kept | apply restartOf_kept | apply queueUe_kept | apply dropRecords_kept | apply linkFails_kept | apply macReset_kept | apply apxReset_kept)
    | (with_reducible refine Keeps.of_snd ‹_› ?_)
    | (with_reducible refine Keeps.of_fst ‹_› ?_)
    | (with_reducible refine Keeps.foldl _ _ ?_ ?_)
    | (with_reducible refine Keeps.foldl_fst _ _ ?_ ?_)
    | (with_reducible refine Keeps.foldl_snd _ _ ?_ ?_)
    | (with_reducible refine Keeps.elim _ ?_ ?_)
    | intro _
    | split
    | (with_reducible refine Keeps.mk_upd ?_; first | (with_reducible first | assumption | apply holdReset_kept | apply setSlu_kept | apply coreReset_kept | apply hubReset_kept | apply tenUe_kept | apply raiseCause_kept | apply resetPair_kept | apply clearArray_kept | apply restartOf_kept | apply queueUe_kept | apply dropRecords_kept | apply linkFails_kept | apply macReset_kept | apply apxReset_kept) | split)

theorem configError_kept {r₀ : State} (u row addr : Nat) (again : Bool) {s : State} (h_s : Keeps r₀ s) : Keeps r₀ (configError u row addr again s) := by
  unfold configError
  repeat' first
    | (with_reducible first | assumption | apply setMem_kept | apply configUe_kept | apply quarantine_kept | apply reportResumed_kept)
    | split
    | (with_reducible refine Keeps.mk_upd ?_; with_reducible first | assumption | apply setMem_kept | apply configUe_kept | apply quarantine_kept | apply reportResumed_kept)

theorem lkpFault_kept {r₀ : State} {s : State} (h_s : Keeps r₀ s) : Keeps r₀ (lkpFault s) := by
  unfold lkpFault
  repeat' first
    | (with_reducible first | assumption | apply setMem_kept | apply raiseCause_kept)
    | (with_reducible refine Keeps.of_snd ‹_› ?_)
    | (with_reducible refine Keeps.of_fst ‹_› ?_)
    | (with_reducible refine Keeps.foldl _ _ ?_ ?_)
    | (with_reducible refine Keeps.foldl_fst _ _ ?_ ?_)
    | (with_reducible refine Keeps.foldl_snd _ _ ?_ ?_)
    | (with_reducible refine Keeps.elim _ ?_ ?_)
    | intro _
    | split
    | (with_reducible refine Keeps.mk_upd ?_; first | (with_reducible first | assumption | apply setMem_kept | apply raiseCause_kept) | split)

theorem stagingError_kept {r₀ : State} {s : State} (h_s : Keeps r₀ s) : Keeps r₀ (stagingError s) := by
  unfold stagingError
  repeat' first
    | (with_reducible first | assumption | apply setStage_kept | refine setSec_kept (.same rfl rfl rfl rfl rfl rfl rfl rfl rfl rfl rfl) ?_ | apply finishBerth_kept)
    | (with_reducible refine Keeps.of_snd ‹_› ?_)
    | (with_reducible refine Keeps.of_fst ‹_› ?_)
    | (with_reducible refine Keeps.foldl _ _ ?_ ?_)
    | (with_reducible refine Keeps.foldl_fst _ _ ?_ ?_)
    | (with_reducible refine Keeps.foldl_snd _ _ ?_ ?_)
    | (with_reducible refine Keeps.elim _ ?_ ?_)
    | intro _
    | split
    | (with_reducible refine Keeps.mk_upd ?_; first | (with_reducible first | assumption | apply setStage_kept | refine setSec_kept (.same rfl rfl rfl rfl rfl rfl rfl rfl rfl rfl rfl) ?_ | apply finishBerth_kept) | split)

theorem lockstepMismatch_kept {r₀ : State} {s : State} (h_s : Keeps r₀ s) : Keeps r₀ (lockstepMismatch s) := by
  unfold lockstepMismatch
  repeat' first | (with_reducible first | assumption | apply lkpFault_kept) | split | (with_reducible refine Keeps.mk_upd ?_; with_reducible first | assumption | apply lkpFault_kept)

theorem lkpRecovered_kept {r₀ : State} (clean : Bool) {s : State} (h_s : Keeps r₀ s) : Keeps r₀ (lkpRecovered clean s) := by
  unfold lkpRecovered
  repeat' first
    | (with_reducible first | assumption | apply raiseCause_kept | apply setMem_kept | apply reportResumed_kept | apply resumeService_kept | apply clearCause_kept)
    | split
    | (with_reducible refine Keeps.mk_upd ?_; with_reducible first | assumption | apply raiseCause_kept | apply setMem_kept | apply reportResumed_kept | apply resumeService_kept | apply clearCause_kept)

theorem noteCe_kept {r₀ : State} (u row addr : Nat) {s : State} (h_s : Keeps r₀ s) : Keeps r₀ (noteCe u row addr s) := by
  unfold noteCe
  repeat' first
    | (with_reducible first | assumption | apply setMem_kept | apply memNotice_kept | apply suspectUnit_kept)
    | (with_reducible refine Keeps.of_snd ‹_› ?_)
    | (with_reducible refine Keeps.of_fst ‹_› ?_)
    | (with_reducible refine Keeps.foldl _ _ ?_ ?_)
    | (with_reducible refine Keeps.foldl_fst _ _ ?_ ?_)
    | (with_reducible refine Keeps.foldl_snd _ _ ?_ ?_)
    | (with_reducible refine Keeps.elim _ ?_ ?_)
    | intro _
    | split
    | (with_reducible refine Keeps.mk_upd ?_; first | (with_reducible first | assumption | apply setMem_kept | apply memNotice_kept | apply suspectUnit_kept) | split)

theorem keptError_kept {r₀ : State} (u row : Nat) (loc : Nat × Nat × Nat) {s : State} (h_s : Keeps r₀ s) : Keeps r₀ (keptError u row loc s) := by
  unfold keptError
  repeat' first
    | (with_reducible first | assumption | apply setMemOf_kept | apply quarantine_kept)
    | (with_reducible refine Keeps.of_snd ‹_› ?_)
    | (with_reducible refine Keeps.of_fst ‹_› ?_)
    | (with_reducible refine Keeps.foldl _ _ ?_ ?_)
    | (with_reducible refine Keeps.foldl_fst _ _ ?_ ?_)
    | (with_reducible refine Keeps.foldl_snd _ _ ?_ ?_)
    | (with_reducible refine Keeps.elim _ ?_ ?_)
    | intro _
    | split
    | (with_reducible refine Keeps.mk_upd ?_; first | (with_reducible first | assumption | apply setMemOf_kept | apply quarantine_kept) | split)

theorem hardSram_kept {r₀ : State} (r : MemRead) {s : State} (h_s : Keeps r₀ s) : Keeps r₀ (hardSram r s) := by
  unfold hardSram
  repeat' first
    | (with_reducible first | assumption | apply setMemOf_kept | apply setMem_kept | apply memNotice_kept)
    | (with_reducible refine Keeps.of_snd ‹_› ?_)
    | (with_reducible refine Keeps.of_fst ‹_› ?_)
    | (with_reducible refine Keeps.foldl _ _ ?_ ?_)
    | (with_reducible refine Keeps.foldl_fst _ _ ?_ ?_)
    | (with_reducible refine Keeps.foldl_snd _ _ ?_ ?_)
    | (with_reducible refine Keeps.elim _ ?_ ?_)
    | intro _
    | split
    | (with_reducible refine Keeps.mk_upd ?_; first | (with_reducible first | assumption | apply setMemOf_kept | apply setMem_kept | apply memNotice_kept) | split)

theorem hardDdr_kept {r₀ : State} (r : MemRead) {s : State} (h_s : Keeps r₀ s) : Keeps r₀ (hardDdr r s) := by
  unfold hardDdr
  repeat' first
    | (with_reducible first | assumption | apply setMem_kept | apply memNotice_kept | apply setMemOf_kept)
    | (with_reducible refine Keeps.of_snd ‹_› ?_)
    | (with_reducible refine Keeps.of_fst ‹_› ?_)
    | (with_reducible refine Keeps.foldl _ _ ?_ ?_)
    | (with_reducible refine Keeps.foldl_fst _ _ ?_ ?_)
    | (with_reducible refine Keeps.foldl_snd _ _ ?_ ?_)
    | (with_reducible refine Keeps.elim _ ?_ ?_)
    | intro _
    | split
    | (with_reducible refine Keeps.mk_upd ?_; first | (with_reducible first | assumption | apply setMem_kept | apply memNotice_kept | apply setMemOf_kept) | split)

theorem spareSwitch_kept {r₀ : State} (u row mac : Nat) {s : State} (h_s : Keeps r₀ s) : Keeps r₀ (spareSwitch u row mac s) := by
  unfold spareSwitch
  repeat' first
    | (with_reducible first | assumption | apply setMemOf_kept | apply setMem_kept | apply memNotice_kept)
    | (with_reducible refine Keeps.of_snd ‹_› ?_)
    | (with_reducible refine Keeps.of_fst ‹_› ?_)
    | (with_reducible refine Keeps.foldl _ _ ?_ ?_)
    | (with_reducible refine Keeps.foldl_fst _ _ ?_ ?_)
    | (with_reducible refine Keeps.foldl_snd _ _ ?_ ?_)
    | (with_reducible refine Keeps.elim _ ?_ ?_)
    | intro _
    | split
    | (with_reducible refine Keeps.mk_upd ?_; first | (with_reducible first | assumption | apply setMemOf_kept | apply setMem_kept | apply memNotice_kept) | split)

theorem pageRemap_kept {r₀ : State} (chan page : Nat) {s : State} (h_s : Keeps r₀ s) : Keeps r₀ (pageRemap chan page s) := by
  unfold pageRemap
  repeat' first
    | (with_reducible first | assumption | apply memNotice_kept | apply setMem_kept)
    | (with_reducible refine Keeps.of_snd ‹_› ?_)
    | (with_reducible refine Keeps.of_fst ‹_› ?_)
    | (with_reducible refine Keeps.foldl _ _ ?_ ?_)
    | (with_reducible refine Keeps.foldl_fst _ _ ?_ ?_)
    | (with_reducible refine Keeps.foldl_snd _ _ ?_ ?_)
    | (with_reducible refine Keeps.elim _ ?_ ?_)
    | intro _
    | split
    | (with_reducible refine Keeps.mk_upd ?_; first | (with_reducible first | assumption | apply memNotice_kept | apply setMem_kept) | split)

theorem fuseBurnDone_kept {r₀ : State} (ok : Bool) {s : State} (h_s : Keeps r₀ s) : Keeps r₀ (fuseBurnDone ok s) := by
  unfold fuseBurnDone
  repeat' first
    | (with_reducible first | assumption | apply setMemOf_kept | apply setMem_kept)
    | split
    | (with_reducible refine Keeps.mk_upd ?_; with_reducible first | assumption | apply setMemOf_kept | apply setMem_kept)

theorem writeBack_kept {r₀ : State} (r : MemRead) {s : State} (h_s : Keeps r₀ s) : Keeps r₀ (writeBack r s) := by
  unfold writeBack
  repeat' first
    | (with_reducible first | assumption | apply ramPut_kept)
    | (with_reducible refine Keeps.of_snd ‹_› ?_)
    | (with_reducible refine Keeps.of_fst ‹_› ?_)
    | (with_reducible refine Keeps.foldl _ _ ?_ ?_)
    | (with_reducible refine Keeps.foldl_fst _ _ ?_ ?_)
    | (with_reducible refine Keeps.foldl_snd _ _ ?_ ?_)
    | (with_reducible refine Keeps.elim _ ?_ ?_)
    | intro _
    | split
    | (with_reducible refine Keeps.mk_upd ?_; first | (with_reducible first | assumption | apply ramPut_kept) | split)

theorem ceFound_kept {r₀ : State} (r : MemRead) {s : State} (h_s : Keeps r₀ s) : Keeps r₀ (ceFound r s) := by
  unfold ceFound
  repeat' first
    | (with_reducible first | assumption | apply setMemOf_kept | apply noteCe_kept | apply writeBack_kept | apply keptError_kept | apply hardDdr_kept | apply hardSram_kept)
    | (with_reducible refine Keeps.of_snd ‹_› ?_)
    | (with_reducible refine Keeps.of_fst ‹_› ?_)
    | (with_reducible refine Keeps.foldl _ _ ?_ ?_)
    | (with_reducible refine Keeps.foldl_fst _ _ ?_ ?_)
    | (with_reducible refine Keeps.foldl_snd _ _ ?_ ?_)
    | (with_reducible refine Keeps.elim _ ?_ ?_)
    | intro _
    | split
    | (with_reducible refine Keeps.mk_upd ?_; first | (with_reducible first | assumption | apply setMemOf_kept | apply noteCe_kept | apply writeBack_kept | apply keptError_kept | apply hardDdr_kept | apply hardSram_kept) | split)

theorem ueFound_kept {r₀ : State} (r : MemRead) {s : State} (h_s : Keeps r₀ s) : Keeps r₀ (ueFound r s) := by
  unfold ueFound
  repeat' first
    | (with_reducible first | assumption | apply setMemOf_kept | apply lkpFault_kept | apply setMem_kept | apply stagingError_kept | apply configError_kept | apply poisonByte_kept | apply memNotice_kept)
    | (with_reducible refine Keeps.of_snd ‹_› ?_)
    | (with_reducible refine Keeps.of_fst ‹_› ?_)
    | (with_reducible refine Keeps.foldl _ _ ?_ ?_)
    | (with_reducible refine Keeps.foldl_fst _ _ ?_ ?_)
    | (with_reducible refine Keeps.foldl_snd _ _ ?_ ?_)
    | (with_reducible refine Keeps.elim _ ?_ ?_)
    | intro _
    | split
    | (with_reducible refine Keeps.mk_upd ?_; first | (with_reducible first | assumption | apply setMemOf_kept | apply lkpFault_kept | apply setMem_kept | apply stagingError_kept | apply configError_kept | apply poisonByte_kept | apply memNotice_kept) | split)

theorem lapEnds_kept {r₀ : State} (u row : Nat) {s : State} (h_s : Keeps r₀ s) : Keeps r₀ (lapEnds u row s) := by
  unfold lapEnds
  repeat' first
    | (with_reducible first | assumption | apply setMemOf_kept | apply memNotice_kept)
    | (lift_lets
       intro x
       first
         | (have hx : Keeps r₀ x := by
               repeat' first
                 | (with_reducible first | assumption | apply setMemOf_kept | apply memNotice_kept)
                 | (with_reducible refine Keeps.of_snd ‹_› ?_)
                 | (with_reducible refine Keeps.of_fst ‹_› ?_)
                 | (with_reducible refine Keeps.foldl _ _ ?_ ?_)
                 | (with_reducible refine Keeps.foldl_fst _ _ ?_ ?_)
                 | (with_reducible refine Keeps.foldl_snd _ _ ?_ ?_)
                 | (with_reducible refine Keeps.elim _ ?_ ?_)
                 | intro _
                 | split
                 | (with_reducible refine Keeps.mk_upd ?_; first | (with_reducible first | assumption | apply setMemOf_kept | apply memNotice_kept) | split)
            clear_value x)
         | skip)
    | (with_reducible refine Keeps.of_snd ‹_› ?_)
    | (with_reducible refine Keeps.of_fst ‹_› ?_)
    | (with_reducible refine Keeps.foldl _ _ ?_ ?_)
    | (with_reducible refine Keeps.foldl_fst _ _ ?_ ?_)
    | (with_reducible refine Keeps.foldl_snd _ _ ?_ ?_)
    | (with_reducible refine Keeps.elim _ ?_ ?_)
    | intro _
    | split
    | (with_reducible refine Keeps.mk_upd ?_; first | (with_reducible first | assumption | apply setMemOf_kept | apply memNotice_kept) | split)

theorem dredgerRead_kept {r₀ : State} (r : MemRead) {s : State} (h_s : Keeps r₀ s) : Keeps r₀ (dredgerRead r s) := by
  unfold dredgerRead
  repeat' first
    | (with_reducible first | assumption | apply ceFound_kept | apply ueFound_kept | apply lapEnds_kept)
    | split
    | (with_reducible refine Keeps.mk_upd ?_; with_reducible first | assumption | apply ceFound_kept | apply ueFound_kept | apply lapEnds_kept)

theorem lapNotice_kept {r₀ : State} (u row : Nat) {s : State} (h_s : Keeps r₀ s) : Keeps r₀ (lapNotice u row s) := by
  unfold lapNotice
  repeat' first
    | (with_reducible first | assumption | apply memNotice_kept | apply setMemOf_kept)
    | (with_reducible refine Keeps.of_snd ‹_› ?_)
    | (with_reducible refine Keeps.of_fst ‹_› ?_)
    | (with_reducible refine Keeps.foldl _ _ ?_ ?_)
    | (with_reducible refine Keeps.foldl_fst _ _ ?_ ?_)
    | (with_reducible refine Keeps.foldl_snd _ _ ?_ ?_)
    | (with_reducible refine Keeps.elim _ ?_ ?_)
    | intro _
    | split
    | (with_reducible refine Keeps.mk_upd ?_; first | (with_reducible first | assumption | apply memNotice_kept | apply setMemOf_kept) | split)

theorem unitResumes_kept {r₀ : State} (u : Nat) {s : State} (h_s : Keeps r₀ s) : Keeps r₀ (unitResumes u s) := by
  unfold unitResumes
  repeat' first
    | (with_reducible first | assumption | apply setTested_kept | apply setUnit_kept | apply setReady_kept | apply reloadUnit_kept | apply unitReset_kept | apply setUp_kept | apply clearCause_kept | apply fillPolicer_kept | apply reapply_kept | apply scheduleReset_kept | apply monitorStarts_kept)
    | (with_reducible refine Keeps.of_snd ‹_› ?_)
    | (with_reducible refine Keeps.of_fst ‹_› ?_)
    | (with_reducible refine Keeps.foldl _ _ ?_ ?_)
    | (with_reducible refine Keeps.foldl_fst _ _ ?_ ?_)
    | (with_reducible refine Keeps.foldl_snd _ _ ?_ ?_)
    | (with_reducible refine Keeps.elim _ ?_ ?_)
    | intro _
    | split
    | (with_reducible refine Keeps.mk_upd ?_; first | (with_reducible first | assumption | apply setTested_kept | apply setUnit_kept | apply setReady_kept | apply reloadUnit_kept | apply unitReset_kept | apply setUp_kept | apply clearCause_kept | apply fillPolicer_kept | apply reapply_kept | apply scheduleReset_kept | apply monitorStarts_kept) | split)

theorem unitResetDone_kept {r₀ : State} (u : Nat) (pass : Bool) {s : State} (h_s : Keeps r₀ s) : Keeps r₀ (unitResetDone u pass s) := by
  unfold unitResetDone
  repeat' first
    | (with_reducible first | assumption | apply reportResumed_kept | apply unitResumes_kept | apply memNotice_kept | apply unitFails_kept | apply setMem_kept)
    | (with_reducible refine Keeps.of_snd ‹_› ?_)
    | (with_reducible refine Keeps.of_fst ‹_› ?_)
    | (with_reducible refine Keeps.foldl _ _ ?_ ?_)
    | (with_reducible refine Keeps.foldl_fst _ _ ?_ ?_)
    | (with_reducible refine Keeps.foldl_snd _ _ ?_ ?_)
    | (with_reducible refine Keeps.elim _ ?_ ?_)
    | intro _
    | split
    | (with_reducible refine Keeps.mk_upd ?_; first | (with_reducible first | assumption | apply reportResumed_kept | apply unitResumes_kept | apply memNotice_kept | apply unitFails_kept | apply setMem_kept) | split)

end Sys2Proof.Machine
end

