-- ==== Sys2Proof/Laws/KeptPassage.lean ====
section
/-! SUPPORT. What the operations of Machine/Passage.lean keep: the queue, canonical forms, burnt fuses. -/
namespace Sys2Proof.Machine

theorem freeHeld_kept {r₀ : State} (w n : Nat) {s : State} (h_s : Keeps r₀ s) : Keeps r₀ (freeHeld w n s) := by
  unfold freeHeld
  repeat' first
    | (with_reducible first | assumption | apply freeBuf_kept | apply setFa_kept)
    | (with_reducible refine Keeps.of_snd ‹_› ?_)
    | (with_reducible refine Keeps.of_fst ‹_› ?_)
    | (with_reducible refine Keeps.foldl _ _ ?_ ?_)
    | (with_reducible refine Keeps.foldl_fst _ _ ?_ ?_)
    | (with_reducible refine Keeps.foldl_snd _ _ ?_ ?_)
    | (with_reducible refine Keeps.elim _ ?_ ?_)
    | intro _
    | split
    | (with_reducible refine Keeps.mk_upd ?_; first | (with_reducible first | assumption | apply freeBuf_kept | apply setFa_kept) | split)

theorem commitHeld_kept {r₀ : State} (j : Nat) {s : State} (h_s : Keeps r₀ s) : Keeps r₀ (commitHeld j s) := by
  unfold commitHeld
  repeat' first
    | (with_reducible first | assumption | apply commitAll_kept)
    | (with_reducible refine Keeps.of_snd ‹_› ?_)
    | (with_reducible refine Keeps.of_fst ‹_› ?_)
    | (with_reducible refine Keeps.foldl _ _ ?_ ?_)
    | (with_reducible refine Keeps.foldl_fst _ _ ?_ ?_)
    | (with_reducible refine Keeps.foldl_snd _ _ ?_ ?_)
    | (with_reducible refine Keeps.elim _ ?_ ?_)
    | intro _
    | split
    | (with_reducible refine Keeps.mk_upd ?_; first | (with_reducible first | assumption | apply commitAll_kept) | split)

theorem windowCommit_kept {r₀ : State} (j : Nat) {s : State} (h_s : Keeps r₀ s) : Keeps r₀ (windowCommit j s) := by
  unfold windowCommit
  repeat' first
    | (with_reducible first | assumption | apply commitHeld_kept | apply windowNotices_kept | apply logWindow_kept | apply freeRetained_kept | apply freeHeld_kept | apply setPass_kept | apply ckptWindow_kept)
    | (with_reducible refine Keeps.of_snd ‹_› ?_)
    | (with_reducible refine Keeps.of_fst ‹_› ?_)
    | (with_reducible refine Keeps.foldl _ _ ?_ ?_)
    | (with_reducible refine Keeps.foldl_fst _ _ ?_ ?_)
    | (with_reducible refine Keeps.foldl_snd _ _ ?_ ?_)
    | (with_reducible refine Keeps.elim _ ?_ ?_)
    | intro _
    | split
    | (with_reducible refine Keeps.mk_upd ?_; first | (with_reducible first | assumption | apply commitHeld_kept | apply windowNotices_kept | apply logWindow_kept | apply freeRetained_kept | apply freeHeld_kept | apply setPass_kept | apply ckptWindow_kept) | split)

theorem supplyDroop_kept {r₀ : State} (island : Nat) {s : State} (h_s : Keeps r₀ s) : Keeps r₀ (supplyDroop island s) := by
  unfold supplyDroop
  repeat' first
    | (with_reducible first | assumption | apply suspectUnit_kept)
    | (with_reducible refine Keeps.of_snd ‹_› ?_)
    | (with_reducible refine Keeps.of_fst ‹_› ?_)
    | (with_reducible refine Keeps.foldl _ _ ?_ ?_)
    | (with_reducible refine Keeps.foldl_fst _ _ ?_ ?_)
    | (with_reducible refine Keeps.foldl_snd _ _ ?_ ?_)
    | (with_reducible refine Keeps.elim _ ?_ ?_)
    | intro _
    | split
    | (with_reducible refine Keeps.mk_upd ?_; first | (with_reducible first | assumption | apply suspectUnit_kept) | split)

theorem replayStart_kept {r₀ : State} (j : Nat) {s : State} (h_s : Keeps r₀ s) : Keeps r₀ (replayStart j s) := by
  unfold replayStart
  repeat' first
    | (with_reducible first | assumption | apply beginRestart_kept | apply setPass_kept)
    | (with_reducible refine Keeps.of_snd ‹_› ?_)
    | (with_reducible refine Keeps.of_fst ‹_› ?_)
    | (with_reducible refine Keeps.foldl _ _ ?_ ?_)
    | (with_reducible refine Keeps.foldl_fst _ _ ?_ ?_)
    | (with_reducible refine Keeps.foldl_snd _ _ ?_ ?_)
    | (with_reducible refine Keeps.elim _ ?_ ?_)
    | intro _
    | split
    | (with_reducible refine Keeps.mk_upd ?_; first | (with_reducible first | assumption | apply beginRestart_kept | apply setPass_kept) | split)

theorem swapBody_kept {r₀ : State} (k : Nat) (b : List Byte) (r : Rec) {s : State} (h_s : Keeps r₀ s) : Keeps r₀ (swapBody k b r s).2 := by
  unfold swapBody
  repeat' with_reducible first | assumption | apply ramPut_kept

theorem replaceRecs_kept {r₀ : State} (k unit win : Nat) (swap : Bool) (l : List Rec) : ∀ (bs : List (List Byte)) {s : State}, Keeps r₀ s →
    Keeps r₀ (replaceRecs k unit win swap bs l s).2.2 := by
  induction l with
  | nil => intro bs s h; unfold replaceRecs; exact h
  | cons r rest ih =>
    intro bs s h
    unfold replaceRecs
    split
    · exact ih bs h
    · split
      · exact ih bs h
      · cases bs with
        | nil => exact ih _ h
        | cons b bs => exact ih bs (swapBody_kept k b r h)

theorem arbitrateStream_kept {r₀ : State} (unit win : Nat) (swap : Bool) (bodies : List (Nat × List Byte)) (k : Nat) {s : State} (h_s : Keeps r₀ s) : Keeps r₀ (arbitrateStream unit win swap bodies k s) := by
  unfold arbitrateStream
  exact setStr_kept _ _ (replaceRecs_kept _ _ _ _ _ _ (replaceRecs_kept _ _ _ _ _ _ h_s))

theorem arbitrated_kept {r₀ : State} (j : Nat) (r : StepRec) (swap : Bool) (bodies : List (Nat × List Byte)) {s : State} (h_s : Keeps r₀ s) : Keeps r₀ (arbitrated j r swap bodies s) := by
  unfold arbitrated
  repeat' first
    | (with_reducible first | assumption | apply setStep_kept | apply arbitrateStream_kept | apply windowLost_kept)
    | (with_reducible refine Keeps.of_snd ‹_› ?_)
    | (with_reducible refine Keeps.of_fst ‹_› ?_)
    | (with_reducible refine Keeps.foldl _ _ ?_ ?_)
    | (with_reducible refine Keeps.foldl_fst _ _ ?_ ?_)
    | (with_reducible refine Keeps.foldl_snd _ _ ?_ ?_)
    | (with_reducible refine Keeps.elim _ ?_ ?_)
    | intro _
    | split
    | (with_reducible refine Keeps.mk_upd ?_; first | (with_reducible first | assumption | apply setStep_kept | apply arbitrateStream_kept | apply windowLost_kept) | split)

theorem replayVerdict_kept {r₀ : State} (j : Nat) (v : ReplayRuns) {s : State} (h_s : Keeps r₀ s) : Keeps r₀ (replayVerdict j v s) := by
  unfold replayVerdict
  repeat' first
    | (with_reducible first | assumption | apply setPass_kept | apply setStep_kept | apply arbitrated_kept | apply beginRestart_kept)
    | (with_reducible refine Keeps.of_snd ‹_› ?_)
    | (with_reducible refine Keeps.of_fst ‹_› ?_)
    | (with_reducible refine Keeps.foldl _ _ ?_ ?_)
    | (with_reducible refine Keeps.foldl_fst _ _ ?_ ?_)
    | (with_reducible refine Keeps.foldl_snd _ _ ?_ ?_)
    | (with_reducible refine Keeps.elim _ ?_ ?_)
    | intro _
    | split
    | (with_reducible refine Keeps.mk_upd ?_; first | (with_reducible first | assumption | apply setPass_kept | apply setStep_kept | apply arbitrated_kept | apply beginRestart_kept) | split)

theorem replayLimit_kept {r₀ : State} (j : Nat) {s : State} (h_s : Keeps r₀ s) : Keeps r₀ (replayLimit j s) := by
  unfold replayLimit
  repeat' first | (with_reducible first | assumption | apply beginRestart_kept) | split | (with_reducible refine Keeps.mk_upd ?_; with_reducible first | assumption | apply beginRestart_kept)

theorem pairDiffers_kept {r₀ : State} (c : Nat) {s : State} (h_s : Keeps r₀ s) : Keeps r₀ (pairDiffers c s) := by
  unfold pairDiffers
  repeat' first
    | (with_reducible first | assumption | apply setCq_kept | apply moveWork_kept | apply setUnit_kept | apply setPass_kept | apply beginRestart_kept)
    | (with_reducible refine Keeps.of_snd ‹_› ?_)
    | (with_reducible refine Keeps.of_fst ‹_› ?_)
    | (with_reducible refine Keeps.foldl _ _ ?_ ?_)
    | (with_reducible refine Keeps.foldl_fst _ _ ?_ ?_)
    | (with_reducible refine Keeps.foldl_snd _ _ ?_ ?_)
    | (with_reducible refine Keeps.elim _ ?_ ?_)
    | intro _
    | split
    | (with_reducible refine Keeps.mk_upd ?_; first | (with_reducible first | assumption | apply setCq_kept | apply moveWork_kept | apply setUnit_kept | apply setPass_kept | apply beginRestart_kept) | split)

theorem lockLookup_kept {r₀ : State} (node : LockNode) (mismatch : Bool) {s : State} (h_s : Keeps r₀ s) : Keeps r₀ (lockLookup node mismatch s) := by
  unfold lockLookup
  repeat' first
    | (with_reducible first | assumption | apply pairDiffers_kept | apply lookupNode_kept)
    | split
    | (with_reducible refine Keeps.mk_upd ?_; with_reducible first | assumption | apply pairDiffers_kept | apply lookupNode_kept)

theorem setTest_kept {r₀ : State} (u : Nat) (t : TestSt) {s : State} (h_s : Keeps r₀ s) : Keeps r₀ (setTest u t s) := by
  unfold setTest
  repeat' with_reducible first | assumption | apply setPass_kept

theorem setMargin_kept {r₀ : State} (u v f : Nat) {s : State} (h_s : Keeps r₀ s) : Keeps r₀ (setMargin u v f s) := by
  unfold setMargin
  repeat' with_reducible first | assumption | apply unitNotice_kept | apply setUnit_kept

theorem marginStep_kept {r₀ : State} (u i : Nat) {s : State} (h_s : Keeps r₀ s) : Keeps r₀ (marginStep u i s) := by
  unfold marginStep
  repeat' first
    | (with_reducible first | assumption | apply setMargin_kept | apply setTest_kept | apply setUnit_kept)
    | split
    | (with_reducible refine Keeps.mk_upd ?_; with_reducible first | assumption | apply setMargin_kept | apply setTest_kept | apply setUnit_kept)

theorem testVisitStart_kept {r₀ : State} (u : Nat) {s : State} (h_s : Keeps r₀ s) : Keeps r₀ (testVisitStart u s) := by
  unfold testVisitStart
  repeat' first
    | (with_reducible first | assumption | apply setTest_kept)
    | (with_reducible refine Keeps.of_snd ‹_› ?_)
    | (with_reducible refine Keeps.of_fst ‹_› ?_)
    | (with_reducible refine Keeps.foldl _ _ ?_ ?_)
    | (with_reducible refine Keeps.foldl_fst _ _ ?_ ?_)
    | (with_reducible refine Keeps.foldl_snd _ _ ?_ ?_)
    | (with_reducible refine Keeps.elim _ ?_ ?_)
    | intro _
    | split
    | (with_reducible refine Keeps.mk_upd ?_; first | (with_reducible first | assumption | apply setTest_kept) | split)

theorem testFails_kept {r₀ : State} (u : Nat) {s : State} (h_s : Keeps r₀ s) : Keeps r₀ (testFails u s) := by
  unfold testFails
  repeat' first
    | (with_reducible first | assumption | apply setPass_kept | apply setTest_kept | apply raiseCause_kept | apply quarantine_kept | apply beginRestart_kept | apply marginStep_kept)
    | (with_reducible refine Keeps.of_snd ‹_› ?_)
    | (with_reducible refine Keeps.of_fst ‹_› ?_)
    | (with_reducible refine Keeps.foldl _ _ ?_ ?_)
    | (with_reducible refine Keeps.foldl_fst _ _ ?_ ?_)
    | (with_reducible refine Keeps.foldl_snd _ _ ?_ ?_)
    | (with_reducible refine Keeps.elim _ ?_ ?_)
    | intro _
    | split
    | (with_reducible refine Keeps.mk_upd ?_; first | (with_reducible first | assumption | apply setPass_kept | apply setTest_kept | apply raiseCause_kept | apply quarantine_kept | apply beginRestart_kept | apply marginStep_kept) | split)

theorem pairPasses_kept {r₀ : State} (n : Nat) {s : State} (h_s : Keeps r₀ s) : Keeps r₀ (pairPasses n s) := by
  unfold pairPasses
  repeat' first
    | (with_reducible first | assumption | apply clearCause_kept)
    | (with_reducible refine Keeps.of_snd ‹_› ?_)
    | (with_reducible refine Keeps.of_fst ‹_› ?_)
    | (with_reducible refine Keeps.foldl _ _ ?_ ?_)
    | (with_reducible refine Keeps.foldl_fst _ _ ?_ ?_)
    | (with_reducible refine Keeps.foldl_snd _ _ ?_ ?_)
    | (with_reducible refine Keeps.elim _ ?_ ?_)
    | intro _
    | split
    | (with_reducible refine Keeps.mk_upd ?_; first | (with_reducible first | assumption | apply clearCause_kept) | split)

theorem testPasses_kept {r₀ : State} (u : Nat) {s : State} (h_s : Keeps r₀ s) : Keeps r₀ (testPasses u s) := by
  unfold testPasses
  repeat' first
    | (with_reducible first | assumption | apply pairPasses_kept | apply setUnit_kept | apply setTest_kept | apply settleState_kept | apply unitNotice_kept)
    | (with_reducible refine Keeps.of_snd ‹_› ?_)
    | (with_reducible refine Keeps.of_fst ‹_› ?_)
    | (with_reducible refine Keeps.foldl _ _ ?_ ?_)
    | (with_reducible refine Keeps.foldl_fst _ _ ?_ ?_)
    | (with_reducible refine Keeps.foldl_snd _ _ ?_ ?_)
    | (with_reducible refine Keeps.elim _ ?_ ?_)
    | intro _
    | split
    | (with_reducible refine Keeps.mk_upd ?_; first | (with_reducible first | assumption | apply pairPasses_kept | apply setUnit_kept | apply setTest_kept | apply settleState_kept | apply unitNotice_kept) | split)

theorem testVisitDone_kept {r₀ : State} (u : Nat) (ok : Bool) {s : State} (h_s : Keeps r₀ s) : Keeps r₀ (testVisitDone u ok s) := by
  unfold testVisitDone
  repeat' first
    | (with_reducible first | assumption | apply testPasses_kept | apply setTest_kept | apply marginStep_kept | apply testFails_kept)
    | (with_reducible refine Keeps.of_snd ‹_› ?_)
    | (with_reducible refine Keeps.of_fst ‹_› ?_)
    | (with_reducible refine Keeps.foldl _ _ ?_ ?_)
    | (with_reducible refine Keeps.foldl_fst _ _ ?_ ?_)
    | (with_reducible refine Keeps.foldl_snd _ _ ?_ ?_)
    | (with_reducible refine Keeps.elim _ ?_ ?_)
    | intro _
    | split
    | (with_reducible refine Keeps.mk_upd ?_; first | (with_reducible first | assumption | apply testPasses_kept | apply setTest_kept | apply marginStep_kept | apply testFails_kept) | split)

theorem testLate_kept {r₀ : State} (u : Nat) {s : State} (h_s : Keeps r₀ s) : Keeps r₀ (testLate u s) := by
  unfold testLate
  repeat' first
    | (with_reducible first | assumption | apply setTest_kept | apply notice_kept | apply suspectUnit_kept)
    | (with_reducible refine Keeps.of_snd ‹_› ?_)
    | (with_reducible refine Keeps.of_fst ‹_› ?_)
    | (with_reducible refine Keeps.foldl _ _ ?_ ?_)
    | (with_reducible refine Keeps.foldl_fst _ _ ?_ ?_)
    | (with_reducible refine Keeps.foldl_snd _ _ ?_ ?_)
    | (with_reducible refine Keeps.elim _ ?_ ?_)
    | intro _
    | split
    | (with_reducible refine Keeps.mk_upd ?_; first | (with_reducible first | assumption | apply setTest_kept | apply notice_kept | apply suspectUnit_kept) | split)

theorem testContentLoad_kept {r₀ : State} (len : Nat) {s : State} (h_s : Keeps r₀ s) : Keeps r₀ (testContentLoad len s).st := by
  unfold testContentLoad
  repeat' first
    | (with_reducible first | assumption | apply ans_kept | apply setPass_kept | refine setSec_kept (.same rfl rfl rfl rfl rfl rfl rfl rfl rfl rfl rfl) ?_ | apply suspectUnit_kept)
    | (lift_lets
       intro x
       first
         | (have hx : Keeps r₀ x := by
               repeat' first
                 | (with_reducible first | assumption | apply ans_kept | apply setPass_kept | refine setSec_kept (.same rfl rfl rfl rfl rfl rfl rfl rfl rfl rfl rfl) ?_ | apply suspectUnit_kept)
                 | (with_reducible refine Keeps.of_snd ‹_› ?_)
                 | (with_reducible refine Keeps.of_fst ‹_› ?_)
                 | (with_reducible refine Keeps.foldl _ _ ?_ ?_)
                 | (with_reducible refine Keeps.foldl_fst _ _ ?_ ?_)
                 | (with_reducible refine Keeps.foldl_snd _ _ ?_ ?_)
                 | (with_reducible refine Keeps.elim _ ?_ ?_)
                 | intro _
                 | split
                 | (with_reducible refine Keeps.mk_upd ?_; first | (with_reducible first | assumption | apply ans_kept | apply setPass_kept | refine setSec_kept (.same rfl rfl rfl rfl rfl rfl rfl rfl rfl rfl rfl) ?_ | apply suspectUnit_kept) | split)
            clear_value x)
         | skip)
    | (with_reducible refine Keeps.of_snd ‹_› ?_)
    | (with_reducible refine Keeps.of_fst ‹_› ?_)
    | (with_reducible refine Keeps.foldl _ _ ?_ ?_)
    | (with_reducible refine Keeps.foldl_fst _ _ ?_ ?_)
    | (with_reducible refine Keeps.foldl_snd _ _ ?_ ?_)
    | (with_reducible refine Keeps.elim _ ?_ ?_)
    | intro _
    | split
    | (with_reducible refine Keeps.mk_upd ?_; first | (with_reducible first | assumption | apply ans_kept | apply setPass_kept | refine setSec_kept (.same rfl rfl rfl rfl rfl rfl rfl rfl rfl rfl rfl) ?_ | apply suspectUnit_kept) | split)

theorem unitQuarantine_kept {r₀ : State} (u : Nat) {s : State} (h_s : Keeps r₀ s) : Keeps r₀ (unitQuarantine u s).st := by
  unfold unitQuarantine
  repeat' first
    | (with_reducible first | assumption | apply ans_kept | apply quarantine_kept)
    | (lift_lets
       intro x
       first
         | (have hx : Keeps r₀ x := by
               repeat' first
                 | (with_reducible first | assumption | apply ans_kept | apply quarantine_kept)
                 | (with_reducible refine Keeps.of_snd ‹_› ?_)
                 | (with_reducible refine Keeps.of_fst ‹_› ?_)
                 | (with_reducible refine Keeps.foldl _ _ ?_ ?_)
                 | (with_reducible refine Keeps.foldl_fst _ _ ?_ ?_)
                 | (with_reducible refine Keeps.foldl_snd _ _ ?_ ?_)
                 | (with_reducible refine Keeps.elim _ ?_ ?_)
                 | intro _
                 | split
                 | (with_reducible refine Keeps.mk_upd ?_; first | (with_reducible first | assumption | apply ans_kept | apply quarantine_kept) | split)
            clear_value x)
         | skip)
    | (with_reducible refine Keeps.of_snd ‹_› ?_)
    | (with_reducible refine Keeps.of_fst ‹_› ?_)
    | (with_reducible refine Keeps.foldl _ _ ?_ ?_)
    | (with_reducible refine Keeps.foldl_fst _ _ ?_ ?_)
    | (with_reducible refine Keeps.foldl_snd _ _ ?_ ?_)
    | (with_reducible refine Keeps.elim _ ?_ ?_)
    | intro _
    | split
    | (with_reducible refine Keeps.mk_upd ?_; first | (with_reducible first | assumption | apply ans_kept | apply quarantine_kept) | split)

theorem unitRelease_kept {r₀ : State} (u : Nat) {s : State} (h_s : Keeps r₀ s) : Keeps r₀ (unitRelease u s).st := by
  unfold unitRelease
  repeat' first
    | (with_reducible first | assumption | apply ans_kept | apply setUnit_kept | apply setTest_kept | apply reloadUnit_kept | apply settleState_kept | apply unitNotice_kept)
    | (lift_lets
       intro x
       first
         | (have hx : Keeps r₀ x := by
               repeat' first
                 | (with_reducible first | assumption | apply ans_kept | apply setUnit_kept | apply setTest_kept | apply reloadUnit_kept | apply settleState_kept | apply unitNotice_kept)
                 | (with_reducible refine Keeps.of_snd ‹_› ?_)
                 | (with_reducible refine Keeps.of_fst ‹_› ?_)
                 | (with_reducible refine Keeps.foldl _ _ ?_ ?_)
                 | (with_reducible refine Keeps.foldl_fst _ _ ?_ ?_)
                 | (with_reducible refine Keeps.foldl_snd _ _ ?_ ?_)
                 | (with_reducible refine Keeps.elim _ ?_ ?_)
                 | intro _
                 | split
                 | (with_reducible refine Keeps.mk_upd ?_; first | (with_reducible first | assumption | apply ans_kept | apply setUnit_kept | apply setTest_kept | apply reloadUnit_kept | apply settleState_kept | apply unitNotice_kept) | split)
            clear_value x)
         | skip)
    | (with_reducible refine Keeps.of_snd ‹_› ?_)
    | (with_reducible refine Keeps.of_fst ‹_› ?_)
    | (with_reducible refine Keeps.foldl _ _ ?_ ?_)
    | (with_reducible refine Keeps.foldl_fst _ _ ?_ ?_)
    | (with_reducible refine Keeps.foldl_snd _ _ ?_ ?_)
    | (with_reducible refine Keeps.elim _ ?_ ?_)
    | intro _
    | split
    | (with_reducible refine Keeps.mk_upd ?_; first | (with_reducible first | assumption | apply ans_kept | apply setUnit_kept | apply setTest_kept | apply reloadUnit_kept | apply settleState_kept | apply unitNotice_kept) | split)

theorem unitMargin_kept {r₀ : State} (u v f : Nat) {s : State} (h_s : Keeps r₀ s) : Keeps r₀ (unitMargin u v f s).st := by
  unfold unitMargin
  repeat' first
    | (with_reducible first | assumption | apply ans_kept | apply setMargin_kept)
    | (lift_lets
       intro x
       first
         | (have hx : Keeps r₀ x := by
               repeat' first
                 | (with_reducible first | assumption | apply ans_kept | apply setMargin_kept)
                 | (with_reducible refine Keeps.of_snd ‹_› ?_)
                 | (with_reducible refine Keeps.of_fst ‹_› ?_)
                 | (with_reducible refine Keeps.foldl _ _ ?_ ?_)
                 | (with_reducible refine Keeps.foldl_fst _ _ ?_ ?_)
                 | (with_reducible refine Keeps.foldl_snd _ _ ?_ ?_)
                 | (with_reducible refine Keeps.elim _ ?_ ?_)
                 | intro _
                 | split
                 | (with_reducible refine Keeps.mk_upd ?_; first | (with_reducible first | assumption | apply ans_kept | apply setMargin_kept) | split)
            clear_value x)
         | skip)
    | (with_reducible refine Keeps.of_snd ‹_› ?_)
    | (with_reducible refine Keeps.of_fst ‹_› ?_)
    | (with_reducible refine Keeps.foldl _ _ ?_ ?_)
    | (with_reducible refine Keeps.foldl_fst _ _ ?_ ?_)
    | (with_reducible refine Keeps.foldl_snd _ _ ?_ ?_)
    | (with_reducible refine Keeps.elim _ ?_ ?_)
    | intro _
    | split
    | (with_reducible refine Keeps.mk_upd ?_; first | (with_reducible first | assumption | apply ans_kept | apply setMargin_kept) | split)

theorem stateConflict_kept {r₀ : State} (u : Nat) (hw : UnitSt) {s : State} (h_s : Keeps r₀ s) : Keeps r₀ (stateConflict u hw s) := by
  unfold stateConflict
  repeat' first
    | (with_reducible first | assumption | apply setUnit_kept | apply moveWork_kept | apply settleState_kept | apply unitNotice_kept | apply beginRestart_kept)
    | (with_reducible refine Keeps.of_snd ‹_› ?_)
    | (with_reducible refine Keeps.of_fst ‹_› ?_)
    | (with_reducible refine Keeps.foldl _ _ ?_ ?_)
    | (with_reducible refine Keeps.foldl_fst _ _ ?_ ?_)
    | (with_reducible refine Keeps.foldl_snd _ _ ?_ ?_)
    | (with_reducible refine Keeps.elim _ ?_ ?_)
    | intro _
    | split
    | (with_reducible refine Keeps.mk_upd ?_; first | (with_reducible first | assumption | apply setUnit_kept | apply moveWork_kept | apply settleState_kept | apply unitNotice_kept | apply beginRestart_kept) | split)

end Sys2Proof.Machine
end

