-- ==== Sys2Proof/Laws/KeptHazards.lean ====
section
/-! SUPPORT. What the operations of Machine/Hazards.lean keep: the queue, canonical forms, burnt fuses. -/
namespace Sys2Proof.Machine

theorem setSafe_kept {r₀ : State} {s : State} (v : SafeSt) (h_s : Keeps r₀ s) : Keeps r₀ (setSafe s v) := by
  unfold setSafe
  repeat' first | (with_reducible assumption) | split | (with_reducible refine Keeps.mk_upd ?_; with_reducible assumption)

theorem supplyFault_kept {r₀ : State} {s : State} (h_s : Keeps r₀ s) : Keeps r₀ (supplyFault s) := by
  unfold supplyFault
  repeat' with_reducible first | assumption | apply raiseCause_kept

theorem clockFault_kept {r₀ : State} {s : State} (h_s : Keeps r₀ s) : Keeps r₀ (clockFault s) := by
  unfold clockFault
  repeat' with_reducible first | assumption | apply raiseCause_kept

theorem safeNFault_kept {r₀ : State} {s : State} (h_s : Keeps r₀ s) : Keeps r₀ (safeNFault s) := by
  unfold safeNFault
  repeat' with_reducible first | assumption | apply raiseCause_kept

theorem thermalSample_kept {r₀ : State} (l : List Int) {s : State} (h_s : Keeps r₀ s) : Keeps r₀ (thermalSample l s) := by
  unfold thermalSample
  repeat' first
    | (with_reducible first | assumption | apply setSafe_kept | apply raiseCause_kept)
    | (with_reducible refine Keeps.of_snd ‹_› ?_)
    | (with_reducible refine Keeps.of_fst ‹_› ?_)
    | (with_reducible refine Keeps.foldl _ _ ?_ ?_)
    | (with_reducible refine Keeps.foldl_fst _ _ ?_ ?_)
    | (with_reducible refine Keeps.foldl_snd _ _ ?_ ?_)
    | (with_reducible refine Keeps.elim _ ?_ ?_)
    | intro _
    | split
    | (with_reducible refine Keeps.mk_upd ?_; first | (with_reducible first | assumption | apply setSafe_kept | apply raiseCause_kept) | split)

theorem hostLinksDown_kept {r₀ : State} {s : State} (h_s : Keeps r₀ s) : Keeps r₀ (hostLinksDown s) := by
  unfold hostLinksDown
  repeat' first
    | (with_reducible first | assumption | apply raiseCause_kept)
    | (with_reducible refine Keeps.of_snd ‹_› ?_)
    | (with_reducible refine Keeps.of_fst ‹_› ?_)
    | (with_reducible refine Keeps.foldl _ _ ?_ ?_)
    | (with_reducible refine Keeps.foldl_fst _ _ ?_ ?_)
    | (with_reducible refine Keeps.foldl_snd _ _ ?_ ?_)
    | (with_reducible refine Keeps.elim _ ?_ ?_)
    | intro _
    | split
    | (with_reducible refine Keeps.mk_upd ?_; first | (with_reducible first | assumption | apply raiseCause_kept) | split)

theorem mechDiagnostic_kept {r₀ : State} (m : Nat) (pass : Bool) {s : State} (h_s : Keeps r₀ s) : Keeps r₀ (mechDiagnostic m pass s) := by
  unfold mechDiagnostic
  repeat' first
    | (with_reducible first | assumption | apply raiseCause_kept | apply setSafe_kept | apply clearCause_kept)
    | (with_reducible refine Keeps.of_snd ‹_› ?_)
    | (with_reducible refine Keeps.of_fst ‹_› ?_)
    | (with_reducible refine Keeps.foldl _ _ ?_ ?_)
    | (with_reducible refine Keeps.foldl_fst _ _ ?_ ?_)
    | (with_reducible refine Keeps.foldl_snd _ _ ?_ ?_)
    | (with_reducible refine Keeps.elim _ ?_ ?_)
    | intro _
    | split
    | (with_reducible refine Keeps.mk_upd ?_; first | (with_reducible first | assumption | apply raiseCause_kept | apply setSafe_kept | apply clearCause_kept) | split)

theorem safeCauseClear_kept {r₀ : State} (c : Nat) {s : State} (h_s : Keeps r₀ s) : Keeps r₀ (safeCauseClear c s) := by
  unfold safeCauseClear
  repeat' first | (with_reducible first | assumption | apply clearCause_kept) | split | (with_reducible refine Keeps.mk_upd ?_; with_reducible first | assumption | apply clearCause_kept)

end Sys2Proof.Machine
end

