-- ==== Sys2Proof/Laws/KeptBoot.lean ====
section
/-! SUPPORT. What the operations of Machine/Boot.lean keep: the queue, canonical forms, burnt fuses. -/
namespace Sys2Proof.Machine

theorem deviceReset_kept {r₀ : State} (rstc : Nat) {s : State} (h_s : Keeps r₀ s) : Keeps r₀ (deviceReset rstc s) :=
  h_s.trans ⟨rfl, fun _ => rfl, fun _ => rfl, fun _ => rfl, fun _ => rfl, fun _ e he => absurd he (List.not_mem_nil),
    .same rfl rfl rfl rfl rfl rfl rfl rfl rfl rfl rfl⟩

theorem powerOnReset_kept {r₀ : State} {s : State} (h_s : Keeps r₀ s) : Keeps r₀ (powerOnReset s) := by
  unfold powerOnReset
  repeat' first | (with_reducible first | assumption | apply deviceReset_kept) | split | (with_reducible refine Keeps.mk_upd ?_; with_reducible first | assumption | apply deviceReset_kept)

theorem otherReset_kept {r₀ : State} (b : Nat) {s : State} (h_s : Keeps r₀ s) : Keeps r₀ (otherReset b s) := by
  unfold otherReset
  repeat' with_reducible first | assumption | apply deviceReset_kept

theorem externalReset_kept {r₀ : State} (mode : Bool) {s : State} (h_s : Keeps r₀ s) : Keeps r₀ (externalReset mode s) := by
  unfold externalReset
  repeat' with_reducible first | assumption | apply otherReset_kept | refine setSec_kept (.same rfl rfl rfl rfl rfl rfl rfl rfl rfl rfl rfl) ?_

theorem watchdogReset_kept {r₀ : State} {s : State} (h_s : Keeps r₀ s) : Keeps r₀ (watchdogReset s) := by
  unfold watchdogReset
  repeat' first | (with_reducible first | assumption | apply otherReset_kept) | split | (with_reducible refine Keeps.mk_upd ?_; with_reducible first | assumption | apply otherReset_kept)

theorem debugSysReset_kept {r₀ : State} {s : State} (h_s : Keeps r₀ s) : Keeps r₀ (debugSysReset s) := by
  unfold debugSysReset
  repeat' first | (with_reducible first | assumption | apply otherReset_kept) | split | (with_reducible refine Keeps.mk_upd ?_; with_reducible first | assumption | apply otherReset_kept)

theorem brownOut_kept {r₀ : State} {s : State} (h_s : Keeps r₀ s) : Keeps r₀ (brownOut s) := by
  unfold brownOut
  repeat' with_reducible first | assumption | apply powerOnReset_kept | refine setSec_kept (.same rfl rfl rfl rfl rfl rfl rfl rfl rfl rfl rfl) ?_

theorem powerUp_kept {r₀ : State} (r : Rail) {s : State} (h_s : Keeps r₀ s) : Keeps r₀ (powerUp r s) := by
  unfold powerUp
  repeat' first | (with_reducible first | assumption | apply setPwr_kept) | split | (with_reducible refine Keeps.mk_upd ?_; with_reducible first | assumption | apply setPwr_kept)

theorem enablesLow_kept {r₀ : State} {s : State} (h_s : Keeps r₀ s) : Keeps r₀ (enablesLow s) := by
  unfold enablesLow
  repeat' with_reducible first | assumption | apply setPwr_kept

theorem railTimeout_kept {r₀ : State} {s : State} (h_s : Keeps r₀ s) : Keeps r₀ (railTimeout s) := by
  unfold railTimeout
  repeat' first
    | (with_reducible first | assumption | apply powerOnReset_kept | apply enablesLow_kept)
    | split
    | (with_reducible refine Keeps.mk_upd ?_; with_reducible first | assumption | apply powerOnReset_kept | apply enablesLow_kept)

theorem corePart_kept {r₀ : State} (u : Nat) {s : State} (h_s : Keeps r₀ s) : Keeps r₀ (corePart u s) := by
  unfold corePart
  repeat' first
    | (with_reducible first | assumption | apply setMem_kept | apply setReady_kept)
    | (with_reducible refine Keeps.of_snd ‹_› ?_)
    | (with_reducible refine Keeps.of_fst ‹_› ?_)
    | (with_reducible refine Keeps.foldl _ _ ?_ ?_)
    | (with_reducible refine Keeps.foldl_fst _ _ ?_ ?_)
    | (with_reducible refine Keeps.foldl_snd _ _ ?_ ?_)
    | (with_reducible refine Keeps.elim _ ?_ ?_)
    | intro _
    | split
    | (with_reducible refine Keeps.mk_upd ?_; first | (with_reducible first | assumption | apply setMem_kept | apply setReady_kept) | split)

theorem slicePart_kept {r₀ : State} (u : Nat) {s : State} (h_s : Keeps r₀ s) : Keeps r₀ (slicePart u s) := by
  unfold slicePart
  repeat' first
    | (with_reducible first | assumption | apply setMem_kept | apply setReady_kept)
    | (with_reducible refine Keeps.of_snd ‹_› ?_)
    | (with_reducible refine Keeps.of_fst ‹_› ?_)
    | (with_reducible refine Keeps.foldl _ _ ?_ ?_)
    | (with_reducible refine Keeps.foldl_fst _ _ ?_ ?_)
    | (with_reducible refine Keeps.foldl_snd _ _ ?_ ?_)
    | (with_reducible refine Keeps.elim _ ?_ ?_)
    | intro _
    | split
    | (with_reducible refine Keeps.mk_upd ?_; first | (with_reducible first | assumption | apply setMem_kept | apply setReady_kept) | split)

theorem readied_kept {r₀ : State} (u : Nat) {s : State} (h_s : Keeps r₀ s) : Keeps r₀ (readied u s) := by
  unfold readied
  repeat' first
    | (with_reducible first | assumption | apply corePart_kept | apply fillPolicer_kept | apply setReady_kept | apply scheduleReset_kept | apply slicePart_kept | apply monitorStarts_kept)
    | (with_reducible refine Keeps.of_snd ‹_› ?_)
    | (with_reducible refine Keeps.of_fst ‹_› ?_)
    | (with_reducible refine Keeps.foldl _ _ ?_ ?_)
    | (with_reducible refine Keeps.foldl_fst _ _ ?_ ?_)
    | (with_reducible refine Keeps.foldl_snd _ _ ?_ ?_)
    | (with_reducible refine Keeps.elim _ ?_ ?_)
    | intro _
    | split
    | (with_reducible refine Keeps.mk_upd ?_; first | (with_reducible first | assumption | apply corePart_kept | apply fillPolicer_kept | apply setReady_kept | apply scheduleReset_kept | apply slicePart_kept | apply monitorStarts_kept) | split)

theorem bootFailure_kept {r₀ : State} (u : Nat) {s : State} (h_s : Keeps r₀ s) : Keeps r₀ (bootFailure u s) := by
  unfold bootFailure
  repeat' first
    | (with_reducible first | assumption | apply unitFails_kept | apply enterSafe_kept)
    | split
    | (with_reducible refine Keeps.mk_upd ?_; with_reducible first | assumption | apply unitFails_kept | apply enterSafe_kept)

theorem selfTestDone_kept {r₀ : State} (u : Nat) (pass : Bool) {s : State} (h_s : Keeps r₀ s) : Keeps r₀ (selfTestDone u pass s) := by
  unfold selfTestDone
  repeat' first
    | (with_reducible first | assumption | apply readied_kept | apply bootFailure_kept | apply unitFails_kept)
    | (with_reducible refine Keeps.of_snd ‹_› ?_)
    | (with_reducible refine Keeps.of_fst ‹_› ?_)
    | (with_reducible refine Keeps.foldl _ _ ?_ ?_)
    | (with_reducible refine Keeps.foldl_fst _ _ ?_ ?_)
    | (with_reducible refine Keeps.foldl_snd _ _ ?_ ?_)
    | (with_reducible refine Keeps.elim _ ?_ ?_)
    | intro _
    | split
    | (with_reducible refine Keeps.mk_upd ?_; first | (with_reducible first | assumption | apply readied_kept | apply bootFailure_kept | apply unitFails_kept) | split)

theorem ddrNotReady_kept {r₀ : State} (chan cause : Nat) {s : State} (h_s : Keeps r₀ s) : Keeps r₀ (ddrNotReady chan cause s) := by
  unfold ddrNotReady
  repeat' with_reducible first | assumption | apply unitNotice_kept

theorem ddrTrainingDone_kept {r₀ : State} (chan : Nat) (r : DdrTraining) {s : State} (h_s : Keeps r₀ s) : Keeps r₀ (ddrTrainingDone chan r s) := by
  unfold ddrTrainingDone
  repeat' first | (with_reducible first | assumption | apply ddrNotReady_kept) | split | (with_reducible refine Keeps.mk_upd ?_; with_reducible first | assumption | apply ddrNotReady_kept)

theorem ddrFillDone_kept {r₀ : State} (chan : Nat) (pass : Bool) {s : State} (h_s : Keeps r₀ s) : Keeps r₀ (ddrFillDone chan pass s) := by
  unfold ddrFillDone
  repeat' first
    | (with_reducible first | assumption | apply setReady_kept | apply ddrNotReady_kept)
    | split
    | (with_reducible refine Keeps.mk_upd ?_; with_reducible first | assumption | apply setReady_kept | apply ddrNotReady_kept)

theorem bringupComplete_kept {r₀ : State} {s : State} (h_s : Keeps r₀ s) : Keeps r₀ (bringupComplete s) := by
  unfold bringupComplete
  repeat' first
    | (with_reducible first | assumption | apply firstIdle_kept | apply setPwr_kept | apply checkFlash_kept)
    | (with_reducible refine Keeps.of_snd ‹_› ?_)
    | (with_reducible refine Keeps.of_fst ‹_› ?_)
    | (with_reducible refine Keeps.foldl _ _ ?_ ?_)
    | (with_reducible refine Keeps.foldl_fst _ _ ?_ ?_)
    | (with_reducible refine Keeps.foldl_snd _ _ ?_ ?_)
    | (with_reducible refine Keeps.elim _ ?_ ?_)
    | intro _
    | split
    | (with_reducible refine Keeps.mk_upd ?_; first | (with_reducible first | assumption | apply firstIdle_kept | apply setPwr_kept | apply checkFlash_kept) | split)

theorem dbgAnswer_kept {r₀ : State} (st data : Nat) {s : State} (h_s : Keeps r₀ s) : Keeps r₀ (dbgAnswer st data s) := by
  unfold dbgAnswer
  repeat' with_reducible first | assumption | refine setSec_kept (.same rfl rfl rfl rfl rfl rfl rfl rfl rfl rfl rfl) ?_

theorem dbgCtrlWrite_kept {r₀ : State} (d : Nat) {s : State} (h_s : Keeps r₀ s) : Keeps r₀ (dbgCtrlWrite d s) := by
  unfold dbgCtrlWrite
  repeat' first
    | (with_reducible first | assumption | apply dbgAnswer_kept | apply holdPowerWrite_kept | apply lkpHalt_kept | apply lkpResume_kept | apply debugSysReset_kept)
    | (with_reducible refine Keeps.of_snd ‹_› ?_)
    | (with_reducible refine Keeps.of_fst ‹_› ?_)
    | (with_reducible refine Keeps.foldl _ _ ?_ ?_)
    | (with_reducible refine Keeps.foldl_fst _ _ ?_ ?_)
    | (with_reducible refine Keeps.foldl_snd _ _ ?_ ?_)
    | (with_reducible refine Keeps.elim _ ?_ ?_)
    | intro _
    | split
    | (with_reducible refine Keeps.mk_upd ?_; first | (with_reducible first | assumption | apply dbgAnswer_kept | apply holdPowerWrite_kept | apply lkpHalt_kept | apply lkpResume_kept | apply debugSysReset_kept) | split)

theorem dbgBusAccess_kept {r₀ : State} (v : Nat) {s : State} (h_s : Keeps r₀ s) : Keeps r₀ (dbgBusAccess v s) := by
  unfold dbgBusAccess
  repeat' first
    | (with_reducible first | assumption | apply dbgAnswer_kept | apply dbgCtrlWrite_kept | apply drawFree_kept)
    | (with_reducible refine Keeps.of_snd ‹_› ?_)
    | (with_reducible refine Keeps.of_fst ‹_› ?_)
    | (with_reducible refine Keeps.foldl _ _ ?_ ?_)
    | (with_reducible refine Keeps.foldl_fst _ _ ?_ ?_)
    | (with_reducible refine Keeps.foldl_snd _ _ ?_ ?_)
    | (with_reducible refine Keeps.elim _ ?_ ?_)
    | intro _
    | split
    | (with_reducible refine Keeps.mk_upd ?_; first | (with_reducible first | assumption | apply dbgAnswer_kept | apply dbgCtrlWrite_kept | apply drawFree_kept) | split)

theorem counterTick_kept {r₀ : State} (n : Nat) {s : State} (h_s : Keeps r₀ s) : Keeps r₀ (counterTick n s) := by
  unfold counterTick
  repeat' first | (with_reducible first | assumption | apply tickBy_kept) | split | (with_reducible refine Keeps.mk_upd ?_; with_reducible first | assumption | apply tickBy_kept)

end Sys2Proof.Machine
end

