-- ==== Sys2Proof/Laws/KeptExec.lean ====
section
/-! SUPPORT. What every command keeps: the queue, canonical forms, burnt fuses. -/
namespace Sys2Proof.Machine

theorem regCommand_kept (u reg e : Nat) (ws : List W64) {s t : State} (h : regCommand u reg e ws s = .next t) : Keeps s t := by
  unfold regCommand at h
  injection h with h
  rw [← h]
  exact cfgWrite_kept _ _ _ _ _ (Keeps.refl s)

theorem execPortalPush_kept (queue job : Nat) (words : List Nat) (parBad : Bool) {s : State} {t : State} (h : execPortalPush queue job words parBad s = .next t) : Keeps s t := by
  injection h with h
  rw [← h]
  have h0 := Keeps.refl s
  repeat' with_reducible first | assumption | apply portalPush_kept

theorem execPortalPushEnd_kept (queue job : Nat) (words : List Nat) (parBad : Bool) {s : State} {t : State} (h : execPortalPushEnd queue job words parBad s = .next t) : Keeps s t := by
  injection h with h
  rw [← h]
  have h0 := Keeps.refl s
  repeat' with_reducible first | assumption | apply portalPush_kept

theorem execPortalAbort_kept (queue job : Nat) {s : State} {t : State} (h : execPortalAbort queue job s = .next t) : Keeps s t := by
  injection h with h
  rw [← h]
  have h0 := Keeps.refl s
  repeat' with_reducible first | assumption | apply portalAbort_kept

theorem execCanalCloseTimeout_kept (queue : Nat) {s : State} {t : State} (h : execCanalCloseTimeout queue s = .next t) : Keeps s t := by
  injection h with h
  rw [← h]
  have h0 := Keeps.refl s
  repeat' with_reducible first | assumption | apply canalClose_kept

theorem execMiddleLineWrite_kept (queue : Nat) (parBad : Bool) {s : State} {t : State} (h : execMiddleLineWrite queue parBad s = .next t) : Keeps s t := by
  injection h with h
  rw [← h]
  have h0 := Keeps.refl s
  repeat' with_reducible first | assumption | apply middleLineWrite_kept

theorem execMiddleLineRead_kept (queue : Nat) (parBad : Bool) {s : State} {t : State} (h : execMiddleLineRead queue parBad s = .next t) : Keeps s t := by
  injection h with h
  rw [← h]
  have h0 := Keeps.refl s
  repeat' with_reducible first | assumption | apply middleLineRead_kept

theorem execHelmClaim_kept (q : Req) (force : Bool) {s : State} {t : State} (h : execHelmClaim q force s = .next t) : Keeps s t := by
  injection h with h
  rw [← h]
  refine serve_kept _ _ _ _ (fun x hx => ?_) (Keeps.refl s)
  repeat' with_reducible first | assumption | apply helmClaim_kept

theorem execHelmKeep_kept (q : Req) {s : State} {t : State} (h : execHelmKeep q s = .next t) : Keeps s t := by
  injection h with h
  rw [← h]
  refine serve_kept _ _ _ _ (fun x hx => ?_) (Keeps.refl s)
  repeat' with_reducible first | assumption | apply helmKeep_kept

theorem execHelmRelease_kept (q : Req) {s : State} {t : State} (h : execHelmRelease q s = .next t) : Keeps s t := by
  injection h with h
  rw [← h]
  refine serve_kept _ _ _ _ (fun x hx => ?_) (Keeps.refl s)
  repeat' with_reducible first | assumption | apply ans_kept | apply setHelm_kept

theorem execHelmHandover_kept (q : Req) (link : Nat) {s : State} {t : State} (h : execHelmHandover q link s = .next t) : Keeps s t := by
  injection h with h
  rw [← h]
  refine serve_kept _ _ _ _ (fun x hx => ?_) (Keeps.refl s)
  repeat' with_reducible first | assumption | apply helmHandover_kept

theorem execProgressGet_kept (q : Req) (berth : Nat) {s : State} {t : State} (h : execProgressGet q berth s = .next t) : Keeps s t := by
  injection h with h
  rw [← h]
  refine serve_kept _ _ _ _ (fun x hx => ?_) (Keeps.refl s)
  repeat' with_reducible first | assumption | apply ans_kept

theorem execCommandAbort_kept (q : Req) (berth : Nat) {s : State} {t : State} (h : execCommandAbort q berth s = .next t) : Keeps s t := by
  injection h with h
  rw [← h]
  refine serve_kept _ _ _ _ (fun x hx => ?_) (Keeps.refl s)
  repeat' with_reducible first | assumption | apply commandAbort_kept

theorem execHelmSilence_kept {s : State} {t : State} (h : execHelmSilence s = .next t) : Keeps s t := by
  injection h with h
  rw [← h]
  have h0 := Keeps.refl s
  repeat' with_reducible first | assumption | apply helmSilence_kept

theorem execHelmObjectExpiry_kept {s : State} {t : State} (h : execHelmObjectExpiry s = .next t) : Keeps s t := by
  injection h with h
  rw [← h]
  have h0 := Keeps.refl s
  repeat' with_reducible first | assumption | apply helmObjectExpiry_kept

theorem execRecordFlush_kept (stream : Nat) {s : State} {t : State} (h : execRecordFlush stream s = .next t) : Keeps s t := by
  injection h with h
  rw [← h]
  have h0 := Keeps.refl s
  repeat' with_reducible first | assumption | apply recordFlush_kept

theorem execRecordCommit_kept (stream : Nat) {s : State} {t : State} (h : execRecordCommit stream s = .next t) : Keeps s t := by
  injection h with h
  rw [← h]
  have h0 := Keeps.refl s
  repeat' with_reducible first | assumption | apply recordCommit_kept

theorem execPushCopy_kept (port : Nat) {s : State} {t : State} (h : execPushCopy port s = .next t) : Keeps s t := by
  injection h with h
  rw [← h]
  have h0 := Keeps.refl s
  repeat' with_reducible first | assumption | apply pushCopy_kept

theorem execPushFragment_kept (port : Nat) {s : State} {t : State} (h : execPushFragment port s = .next t) : Keeps s t := by
  injection h with h
  rw [← h]
  have h0 := Keeps.refl s
  repeat' with_reducible first | assumption | apply pushFragment_kept

theorem execTmuTickLock_kept {s : State} {t : State} (h : execTmuTickLock s = .next t) : Keeps s t := by
  injection h with h
  rw [← h]
  have h0 := Keeps.refl s
  repeat' with_reducible first | assumption | apply setReady_kept

theorem execComparatorFire_kept (index : Nat) {s : State} {t : State} (h : execComparatorFire index s = .next t) : Keeps s t := by
  injection h with h
  rw [← h]
  have h0 := Keeps.refl s
  repeat' with_reducible first | assumption | apply comparatorFire_kept

theorem execSyncOutEdge_kept (sluice : Nat) {s : State} {t : State} (h : execSyncOutEdge sluice s = .next t) : Keeps s t := by
  injection h with h
  rw [← h]
  have h0 := Keeps.refl s
  repeat' with_reducible first | assumption | apply syncOutEdge_kept

theorem execSyncOutPulseEnd_kept (sluice : Nat) {s : State} {t : State} (h : execSyncOutPulseEnd sluice s = .next t) : Keeps s t := by
  injection h with h
  rw [← h]
  have h0 := Keeps.refl s
  repeat' with_reducible first | assumption | apply syncOutPulseEnd_kept

theorem execPpsEdge_kept {s : State} {t : State} (h : execPpsEdge s = .next t) : Keeps s t := by
  injection h with h
  rw [← h]
  have h0 := Keeps.refl s
  repeat' with_reducible first | assumption | apply ppsEdge_kept

theorem execPpsPulseEnd_kept {s : State} {t : State} (h : execPpsPulseEnd s = .next t) : Keeps s t := by
  injection h with h
  rw [← h]
  have h0 := Keeps.refl s
  repeat' with_reducible first | assumption | apply ppsPulseEnd_kept

theorem execSyncInEdge_kept (sluice : Nat) {s : State} {t : State} (h : execSyncInEdge sluice s = .next t) : Keeps s t := by
  injection h with h
  rw [← h]
  have h0 := Keeps.refl s
  repeat' with_reducible first | assumption | apply syncInEdge_kept

theorem execPtpEventTx_kept (port kind seq : Nat) {s : State} {t : State} (h : execPtpEventTx port kind seq s = .next t) : Keeps s t := by
  injection h with h
  rw [← h]
  have h0 := Keeps.refl s
  repeat' with_reducible first | assumption | apply ptpEventTx_kept

theorem execTxqLookup_kept (port key : Nat) {s : State} {t : State} (h : execTxqLookup port key s = .next t) : Keeps s t := by
  injection h with h
  rw [← h]
  have h0 := Keeps.refl s
  repeat' with_reducible first | assumption | apply txqLookup_kept

theorem execPairTimeout_kept (sluice : Nat) {s : State} {t : State} (h : execPairTimeout sluice s = .next t) : Keeps s t := by
  injection h with h
  rw [← h]
  have h0 := Keeps.refl s
  repeat' with_reducible first | assumption | apply pairTimeout_kept

theorem execRateTokenAdd_kept (sluice : Nat) {s : State} {t : State} (h : execRateTokenAdd sluice s = .next t) : Keeps s t := by
  injection h with h
  rw [← h]
  have h0 := Keeps.refl s
  repeat' with_reducible first | assumption | apply rateTokenAdd_kept

theorem execRateInterval_kept (sluice : Nat) {s : State} {t : State} (h : execRateInterval sluice s = .next t) : Keeps s t := by
  injection h with h
  rw [← h]
  have h0 := Keeps.refl s
  repeat' with_reducible first | assumption | apply rateInterval_kept

theorem execRefractSweep_kept (sluice cell : Nat) {s : State} {t : State} (h : execRefractSweep sluice cell s = .next t) : Keeps s t := by
  injection h with h
  rw [← h]
  have h0 := Keeps.refl s
  repeat' with_reducible first | assumption | apply refractSweep_kept

theorem execSluLinkUpTimeout_kept (sluice : Nat) {s : State} {t : State} (h : execSluLinkUpTimeout sluice s = .next t) : Keeps s t := by
  injection h with h
  rw [← h]
  have h0 := Keeps.refl s
  repeat' with_reducible first | assumption | apply linkUpTimeout_kept

theorem execSourceChange_kept (sluice : Nat) {s : State} {t : State} (h : execSourceChange sluice s = .next t) : Keeps s t := by
  injection h with h
  rw [← h]
  have h0 := Keeps.refl s
  repeat' with_reducible first | assumption | apply packetBoundary_kept

theorem execI3cIbi_kept (sluice target : Nat) (data : List Byte) {s : State} {t : State} (h : execI3cIbi sluice target data s = .next t) : Keeps s t := by
  injection h with h
  rw [← h]
  have h0 := Keeps.refl s
  repeat' with_reducible first | assumption | apply i3cIbi_kept

theorem execInputPeriod_kept (engine : Nat) (balls : List Nat) (residueFail : List (Nat × Nat)) {s : State} {t : State} (h : execInputPeriod engine balls residueFail s = .next t) : Keeps s t := by
  injection h with h
  rw [← h]
  have h0 := Keeps.refl s
  repeat' with_reducible first | assumption | apply inputPeriod_kept

theorem execSyncInertEdge_kept {s : State} {t : State} (h : execSyncInertEdge s = .next t) : Keeps s t := by
  injection h with h
  rw [← h]
  have h0 := Keeps.refl s
  repeat' with_reducible first | assumption | apply syncInertEdge_kept

theorem execSynchronisingReset_kept (engine : Nat) (retestFail : List (Nat × Nat)) {s : State} {t : State} (h : execSynchronisingReset engine retestFail s = .next t) : Keeps s t := by
  injection h with h
  rw [← h]
  have h0 := Keeps.refl s
  repeat' with_reducible first | assumption | apply synchronisingReset_kept

theorem execSeEvent_kept (core port : Nat) (residueBad : Bool) {s : State} {t : State} (h : execSeEvent core port residueBad s = .next t) : Keeps s t := by
  injection h with h
  rw [← h]
  have h0 := Keeps.refl s
  repeat' with_reducible first | assumption | apply seEvent_kept

theorem execApertureMerge_kept (core : Nat) (residueBad : Bool) {s : State} {t : State} (h : execApertureMerge core residueBad s = .next t) : Keeps s t := by
  injection h with h
  rw [← h]
  have h0 := Keeps.refl s
  repeat' with_reducible first | assumption | apply apertureMerge_kept

theorem execSeServiceWord_kept (core port : Nat) {s : State} {t : State} (h : execSeServiceWord core port s = .next t) : Keeps s t := by
  injection h with h
  rw [← h]
  have h0 := Keeps.refl s
  repeat' with_reducible first | assumption | apply seServiceWord_kept

theorem execGyroRecord_kept (core channel : Nat) (parBad : Bool) {s : State} {t : State} (h : execGyroRecord core channel parBad s = .next t) : Keeps s t := by
  injection h with h
  rw [← h]
  have h0 := Keeps.refl s
  repeat' with_reducible first | assumption | apply gyroRecord_kept

theorem execSurfaceSweep_kept (core : Nat) {s : State} {t : State} (h : execSurfaceSweep core s = .next t) : Keeps s t := by
  injection h with h
  rw [← h]
  have h0 := Keeps.refl s
  repeat' with_reducible first | assumption | apply surfaceSweep_kept

theorem execSurfaceClearDone_kept (core entry : Nat) {s : State} {t : State} (h : execSurfaceClearDone core entry s = .next t) : Keeps s t := by
  injection h with h
  rw [← h]
  have h0 := Keeps.refl s
  repeat' with_reducible first | assumption | apply surfaceClearDone_kept

theorem execNeInput_kept (core : Nat) {s : State} {t : State} (h : execNeInput core s = .next t) : Keeps s t := by
  injection h with h
  rw [← h]
  have h0 := Keeps.refl s
  repeat' with_reducible first | assumption | apply neInput_kept

theorem execBatchRelease_kept (core : Nat) {s : State} {t : State} (h : execBatchRelease core s = .next t) : Keeps s t := by
  injection h with h
  rw [← h]
  have h0 := Keeps.refl s
  repeat' with_reducible first | assumption | apply batchRelease_kept

theorem execBatchUpdate_kept (core : Nat) {s : State} {t : State} (h : execBatchUpdate core s = .next t) : Keeps s t := by
  injection h with h
  rw [← h]
  have h0 := Keeps.refl s
  repeat' with_reducible first | assumption | apply batchUpdate_kept

theorem execTickBatch_kept (core group : Nat) {s : State} {t : State} (h : execTickBatch core group s = .next t) : Keeps s t := by
  injection h with h
  rw [← h]
  have h0 := Keeps.refl s
  repeat' with_reducible first | assumption | apply tickBatch_kept

theorem execStampSweep_kept (core neuron : Nat) {s : State} {t : State} (h : execStampSweep core neuron s = .next t) : Keeps s t := by
  injection h with h
  rw [← h]
  have h0 := Keeps.refl s
  repeat' with_reducible first | assumption | apply stampSweep_kept

theorem execStepClose_kept (core : Nat) {s : State} {t : State} (h : execStepClose core s = .next t) : Keeps s t := by
  injection h with h
  rw [← h]
  have h0 := Keeps.refl s
  repeat' with_reducible first | assumption | apply stepClose_kept

theorem execStepOverrun_kept (core : Nat) {s : State} {t : State} (h : execStepOverrun core s = .next t) : Keeps s t := by
  injection h with h
  rw [← h]
  have h0 := Keeps.refl s
  repeat' with_reducible first | assumption | apply stepOverrun_kept

theorem execCountWindowClose_kept (core group : Nat) {s : State} {t : State} (h : execCountWindowClose core group s = .next t) : Keeps s t := by
  injection h with h
  rw [← h]
  have h0 := Keeps.refl s
  repeat' with_reducible first | assumption | apply countClose_kept

theorem execCountCopyDone_kept (core : Nat) {s : State} {t : State} (h : execCountCopyDone core s = .next t) : Keeps s t := by
  injection h with h
  rw [← h]
  have h0 := Keeps.refl s
  repeat' with_reducible first | assumption | apply countCopyDone_kept

theorem execPacketDispatch_kept (port : Nat) {s : State} {t : State} (h : execPacketDispatch port s = .next t) : Keeps s t := by
  injection h with h
  rw [← h]
  have h0 := Keeps.refl s
  repeat' with_reducible first | assumption | apply packetDispatch_kept

theorem execArrRunWrite_kept (array prog job : Nat) {s : State} {t : State} (h : execArrRunWrite array prog job s = .next t) : Keeps s t := by
  injection h with h
  rw [← h]
  have h0 := Keeps.refl s
  repeat' with_reducible first | assumption | apply arrRunWrite_kept

theorem execInstanceStart_kept (array : Nat) {s : State} {t : State} (h : execInstanceStart array s = .next t) : Keeps s t := by
  injection h with h
  rw [← h]
  have h0 := Keeps.refl s
  repeat' with_reducible first | assumption | apply instanceStart_kept

theorem execLoadDescriptor_kept (array : Nat) {s : State} {t : State} (h : execLoadDescriptor array s = .next t) : Keeps s t := by
  injection h with h
  rw [← h]
  have h0 := Keeps.refl s
  repeat' with_reducible first | assumption | apply loadDescriptor_kept

theorem execComputePass_kept (array : Nat) {s : State} {t : State} (h : execComputePass array s = .next t) : Keeps s t := by
  injection h with h
  rw [← h]
  have h0 := Keeps.refl s
  repeat' with_reducible first | assumption | apply computePass_kept

theorem execStoreDescriptor_kept (array : Nat) {s : State} {t : State} (h : execStoreDescriptor array s = .next t) : Keeps s t := by
  injection h with h
  rw [← h]
  have h0 := Keeps.refl s
  repeat' with_reducible first | assumption | apply storeDescriptor_kept

theorem execCsi2LongPacket_kept (sluice vc dt : Nat) (ecc : EccResult) (crcOk : Bool) (sot : Nat) (data : List Byte) (residueBad : List Nat) {s : State} {t : State} (h : execCsi2LongPacket sluice vc dt ecc crcOk sot data residueBad s = .next t) : Keeps s t := by
  injection h with h
  rw [← h]
  have h0 := Keeps.refl s
  repeat' with_reducible first | assumption | apply csi2Packet_kept

theorem execFrameStart_kept (sluice vc num : Nat) (ecc : EccResult) {s : State} {t : State} (h : execFrameStart sluice vc num ecc s = .next t) : Keeps s t := by
  injection h with h
  rw [← h]
  have h0 := Keeps.refl s
  repeat' first | (with_reducible first | assumption | apply framePacket_kept | apply frameStart_kept) | split

theorem execFrameEnd_kept (sluice vc : Nat) (ecc : EccResult) {s : State} {t : State} (h : execFrameEnd sluice vc ecc s = .next t) : Keeps s t := by
  injection h with h
  rw [← h]
  have h0 := Keeps.refl s
  repeat' with_reducible first | assumption | apply framePacket_kept | apply frameEnd_kept

theorem execPortClearDone_kept (sluice : Nat) {s : State} {t : State} (h : execPortClearDone sluice s = .next t) : Keeps s t := by
  injection h with h
  rw [← h]
  have h0 := Keeps.refl s
  repeat' with_reducible first | assumption | apply portClearDone_kept

theorem execStreamEntry_kept (stream : Nat) {s : State} {t : State} (h : execStreamEntry stream s = .next t) : Keeps s t := by
  injection h with h
  rw [← h]
  have h0 := Keeps.refl s
  repeat' with_reducible first | assumption | apply streamEntry_kept

theorem execQueueCopyWrite_kept (queue : Nat) {s : State} {t : State} (h : execQueueCopyWrite queue s = .next t) : Keeps s t := by
  injection h with h
  rw [← h]
  have h0 := Keeps.refl s
  repeat' with_reducible first | assumption | apply queueCopyWrite_kept

theorem execQueuePop_kept (queue : Nat) (parBad : Bool) {s : State} {t : State} (h : execQueuePop queue parBad s = .next t) : Keeps s t := by
  injection h with h
  rw [← h]
  have h0 := Keeps.refl s
  repeat' with_reducible first | assumption | apply queuePop_kept

theorem execPortalPop_kept (queue job : Nat) (parBad : Bool) {s : State} {t : State} (h : execPortalPop queue job parBad s = .next t) : Keeps s t := by
  injection h with h
  rw [← h]
  have h0 := Keeps.refl s
  repeat' with_reducible first | assumption | apply portalPopTaken_kept

theorem execUpBinnedCopy_kept (pair : Nat) (mismatch parBad : Bool) {s : State} {t : State} (h : execUpBinnedCopy pair mismatch parBad s = .next t) : Keeps s t := by
  injection h with h
  rw [← h]
  have h0 := Keeps.refl s
  repeat' with_reducible first | assumption | apply upBinnedCopy_kept

theorem execCl0Police_kept (hub : Nat) {s : State} {t : State} (h : execCl0Police hub s = .next t) : Keeps s t := by
  injection h with h
  rw [← h]
  have h0 := Keeps.refl s
  repeat' with_reducible first | assumption | apply cl0Police_kept

theorem execCl0TokenAdd_kept (hub : Nat) {s : State} {t : State} (h : execCl0TokenAdd hub s = .next t) : Keeps s t := by
  injection h with h
  rw [← h]
  have h0 := Keeps.refl s
  repeat' with_reducible first | assumption | apply cl0TokenAdd_kept

theorem execProbeEmit_kept (pair : Nat) {s : State} {t : State} (h : execProbeEmit pair s = .next t) : Keeps s t := by
  injection h with h
  rw [← h]
  have h0 := Keeps.refl s
  repeat' with_reducible first | assumption | apply probeEmit_kept

theorem execPathProbe_kept (port pair : Nat) {s : State} {t : State} (h : execPathProbe port pair s = .next t) : Keeps s t := by
  injection h with h
  rw [← h]
  have h0 := Keeps.refl s
  repeat' with_reducible first | assumption | apply pathProbe_kept

theorem execAlarmFramerRx_kept (port : Nat) (parBad : Bool) {s : State} {t : State} (h : execAlarmFramerRx port parBad s = .next t) : Keeps s t := by
  injection h with h
  rw [← h]
  have h0 := Keeps.refl s
  repeat' with_reducible first | assumption | apply alarmFramerRx_kept

theorem execSafeStopFrame_kept (port : Nat) {s : State} {t : State} (h : execSafeStopFrame port s = .next t) : Keeps s t := by
  injection h with h
  rw [← h]
  have h0 := Keeps.refl s
  repeat' with_reducible first | assumption | apply safeStopFrame_kept

theorem execTenPacket_kept (cluster : Nat) (residueBad : Bool) {s : State} {t : State} (h : execTenPacket cluster residueBad s = .next t) : Keeps s t := by
  injection h with h
  rw [← h]
  have h0 := Keeps.refl s
  repeat' with_reducible first | assumption | apply tenPacket_kept

theorem execTenWindowEnd_kept (cluster entry : Nat) {s : State} {t : State} (h : execTenWindowEnd cluster entry s = .next t) : Keeps s t := by
  injection h with h
  rw [← h]
  have h0 := Keeps.refl s
  repeat' with_reducible first | assumption | apply tenWindowEnd_kept

theorem execTenWindowClose_kept (cluster entry : Nat) {s : State} {t : State} (h : execTenWindowClose cluster entry s = .next t) : Keeps s t := by
  injection h with h
  rw [← h]
  have h0 := Keeps.refl s
  repeat' with_reducible first | assumption | apply tenClose_kept

theorem execTenBufferCleared_kept (cluster entry buf : Nat) {s : State} {t : State} (h : execTenBufferCleared cluster entry buf s = .next t) : Keeps s t := by
  injection h with h
  rw [← h]
  have h0 := Keeps.refl s
  repeat' with_reducible first | assumption | apply tenCleared_kept

theorem execCkptAck_kept (job gen : Nat) {s : State} {t : State} (h : execCkptAck job gen s = .next t) : Keeps s t := by
  injection h with h
  rw [← h]
  have h0 := Keeps.refl s
  repeat' with_reducible first | assumption | apply ckptAck_kept

theorem execCkptGraceExpiry_kept (job : Nat) {s : State} {t : State} (h : execCkptGraceExpiry job s = .next t) : Keeps s t := by
  injection h with h
  rw [← h]
  have h0 := Keeps.refl s
  repeat' with_reducible first | assumption | apply ckptExpiry_kept

theorem execCheckpointPeriod_kept (job : Nat) {s : State} {t : State} (h : execCheckpointPeriod job s = .next t) : Keeps s t := by
  injection h with h
  rw [← h]
  have h0 := Keeps.refl s
  repeat' with_reducible first | assumption | apply ckptPeriod_kept

theorem execInrOutput_kept (channel : Nat) {s : State} {t : State} (h : execInrOutput channel s = .next t) : Keeps s t := by
  injection h with h
  rw [← h]
  have h0 := Keeps.refl s
  repeat' with_reducible first | assumption | apply inrToFusion_kept

theorem execFusionTick_kept {s : State} {t : State} (h : execFusionTick s = .next t) : Keeps s t := by
  injection h with h
  rw [← h]
  have h0 := Keeps.refl s
  repeat' with_reducible first | assumption | apply fusionTick_kept

theorem execSnapshotCopyDone_kept (source : Nat) {s : State} {t : State} (h : execSnapshotCopyDone source s = .next t) : Keeps s t := by
  injection h with h
  rw [← h]
  have h0 := Keeps.refl s
  repeat' with_reducible first | assumption | apply snapshotDone_kept

theorem execLidarRecord_kept (source : Nat) (residueBad : Bool) {s : State} {t : State} (h : execLidarRecord source residueBad s = .next t) : Keeps s t := by
  injection h with h
  rw [← h]
  have h0 := Keeps.refl s
  repeat' with_reducible first | assumption | apply lidarRecord_kept

theorem execFlowPacket_kept {s : State} {t : State} (h : execFlowPacket s = .next t) : Keeps s t := by
  injection h with h
  rw [← h]
  have h0 := Keeps.refl s
  repeat' with_reducible first | assumption | apply flowPacket_kept

theorem execGridStageEnd_kept (residueBad : List Nat) {s : State} {t : State} (h : execGridStageEnd residueBad s = .next t) : Keeps s t := by
  injection h with h
  rw [← h]
  have h0 := Keeps.refl s
  repeat' with_reducible first | assumption | apply gridStageEnd_kept

theorem execEgoMotionDone_kept (residueBad : Bool) {s : State} {t : State} (h : execEgoMotionDone residueBad s = .next t) : Keeps s t := by
  injection h with h
  rw [← h]
  have h0 := Keeps.refl s
  repeat' with_reducible first | assumption | apply egoDone_kept

theorem execObjectStage_kept (residueBad : List Nat) {s : State} {t : State} (h : execObjectStage residueBad s = .next t) : Keeps s t := by
  injection h with h
  rw [← h]
  have h0 := Keeps.refl s
  repeat' with_reducible first | assumption | apply objectStage_kept

theorem execPtpSyncRx_kept (port : Nat) (secured : Bool) (msg : PtpSync) {s : State} {t : State} (h : execPtpSyncRx port secured msg s = .next t) : Keeps s t := by
  injection h with h
  rw [← h]
  have h0 := Keeps.refl s
  repeat' with_reducible first | assumption | apply ptpFrame_kept | apply ptpSyncRx_kept

theorem execPtpFollowUpRx_kept (port : Nat) (secured : Bool) (seq pot : Nat) (corr : Int) {s : State} {t : State} (h : execPtpFollowUpRx port secured seq pot corr s = .next t) : Keeps s t := by
  injection h with h
  rw [← h]
  have h0 := Keeps.refl s
  repeat' with_reducible first | assumption | apply ptpFrame_kept | apply ptpFollowUpRx_kept

theorem execPtpLkpMessage_kept (port : Nat) (secured : Bool) (msg : PtpMsg) {s : State} {t : State} (h : execPtpLkpMessage port secured msg s = .next t) : Keeps s t := by
  injection h with h
  rw [← h]
  have h0 := Keeps.refl s
  repeat' with_reducible first | assumption | apply ptpFrame_kept | apply ptpLkpMessage_kept

theorem execSyncTimeout_kept {s : State} {t : State} (h : execSyncTimeout s = .next t) : Keeps s t := by
  injection h with h
  rw [← h]
  have h0 := Keeps.refl s
  repeat' with_reducible first | assumption | apply syncTimeout_kept

theorem execHoldLimit_kept {s : State} {t : State} (h : execHoldLimit s = .next t) : Keeps s t := by
  injection h with h
  rw [← h]
  have h0 := Keeps.refl s
  repeat' with_reducible first | assumption | apply holdLimit_kept

theorem execPortEnable_kept (sluice : Nat) (w0 w1 : W64) {s : State} {t : State} (h : execPortEnable sluice w0 w1 s = .next t) : Keeps s t := by
  exact regCommand_kept _ _ _ _ h

theorem execPortDisable_kept (sluice : Nat) (w0 : W64) {s : State} {t : State} (h : execPortDisable sluice w0 s = .next t) : Keeps s t := by
  exact regCommand_kept _ _ _ _ h

theorem execLinkEnable_kept (link : Nat) (word : W64) {s : State} {t : State} (h : execLinkEnable link word s = .next t) : Keeps s t := by
  exact regCommand_kept _ _ _ _ h

theorem execDevIdWrite_kept (dev : Nat) {s : State} {t : State} (h : execDevIdWrite dev s = .next t) : Keeps s t := by
  exact regCommand_kept _ _ _ _ h

theorem execCnlUpqWrite_kept (hub : Nat) (word : W64) {s : State} {t : State} (h : execCnlUpqWrite hub word s = .next t) : Keeps s t := by
  exact regCommand_kept _ _ _ _ h

theorem execChannelResetWrite_kept (channel : Nat) (w0 w1 : W64) {s : State} {t : State} (h : execChannelResetWrite channel w0 w1 s = .next t) : Keeps s t := by
  exact regCommand_kept _ _ _ _ h

theorem execSrfPortEnable_kept (core entry : Nat) (word : W64) {s : State} {t : State} (h : execSrfPortEnable core entry word s = .next t) : Keeps s t := by
  exact regCommand_kept _ _ _ _ h

theorem execStreamEnable_kept (stream : Nat) (w0 w1 : W64) {s : State} {t : State} (h : execStreamEnable stream w0 w1 s = .next t) : Keeps s t := by
  exact regCommand_kept _ _ _ _ h

theorem execStreamDisable_kept (stream : Nat) (w0 : W64) {s : State} {t : State} (h : execStreamDisable stream w0 s = .next t) : Keeps s t := by
  exact regCommand_kept _ _ _ _ h

theorem execQueueDisable_kept (queue : Nat) (w0 : W64) {s : State} {t : State} (h : execQueueDisable queue w0 s = .next t) : Keeps s t := by
  exact regCommand_kept _ _ _ _ h

theorem execGmChange_kept {s : State} {t : State} (h : execGmChange s = .next t) : Keeps s t := by
  injection h with h
  rw [← h]
  have h0 := Keeps.refl s
  repeat' with_reducible first | assumption | apply gmChange_kept

theorem execServoDisable_kept (w0 : W64) {s : State} {t : State} (h : execServoDisable w0 s = .next t) : Keeps s t := by
  exact regCommand_kept _ _ _ _ h

theorem execCmpArm_kept (index : Nat) (w0 w1 : W64) {s : State} {t : State} (h : execCmpArm index w0 w1 s = .next t) : Keeps s t := by
  exact regCommand_kept _ _ _ _ h

theorem execSyncoutEnable_kept (sluice : Nat) (w0 w1 : W64) {s : State} {t : State} (h : execSyncoutEnable sluice w0 w1 s = .next t) : Keeps s t := by
  exact regCommand_kept _ _ _ _ h

theorem execConfigWrite_kept (q : Req) (unit reg entry word : Nat) (data : List W64) {s : State} {t : State} (h : execConfigWrite q unit reg entry word data s = .next t) : Keeps s t := by
  injection h with h
  rw [← h]
  refine serve_kept _ _ _ _ (fun x hx => ?_) (Keeps.refl s)
  repeat' with_reducible first | assumption | apply configWrite_kept | apply guarded__kept

theorem execConfigRead_kept (q : Req) (unit reg entry word count : Nat) {s : State} {t : State} (h : execConfigRead q unit reg entry word count s = .next t) : Keeps s t := by
  injection h with h
  rw [← h]
  refine serve_kept _ _ _ _ (fun x hx => ?_) (Keeps.refl s)
  repeat' with_reducible first | assumption | apply configRead_kept | apply guarded__kept

theorem execRouteWrite_kept (q : Req) (unit first : Nat) (data : List W64) {s : State} {t : State} (h : execRouteWrite q unit first data s = .next t) : Keeps s t := by
  injection h with h
  rw [← h]
  refine serve_kept _ _ _ _ (fun x hx => ?_) (Keeps.refl s)
  repeat' with_reducible first | assumption | apply routeWrite_kept | apply guarded__kept

theorem execWeightsWrite_kept (q : Req) (core matrix row offset : Nat) (last : Bool) (data : List Byte) {s : State} {t : State} (h : execWeightsWrite q core matrix row offset last data s = .next t) : Keeps s t := by
  injection h with h
  rw [← h]
  refine serve_kept _ _ _ _ (fun x hx => ?_) (Keeps.refl s)
  repeat' with_reducible first | assumption | apply weightsWrite_kept | apply guarded__kept

theorem execSensorI3c_kept (q : Req) (sluice target : Nat) (i2c : Bool) (wdata : List Byte) (rlen : Nat) (resp : I3cResp) {s : State} {t : State} (h : execSensorI3c q sluice target i2c wdata rlen resp s = .next t) : Keeps s t := by
  injection h with h
  rw [← h]
  refine serve_kept _ _ _ _ (fun x hx => ?_) (Keeps.refl s)
  repeat' with_reducible first | assumption | apply sensorI3c_kept | apply guarded__kept

theorem execI3cTimeout_kept (sluice : Nat) {s : State} {t : State} (h : execI3cTimeout sluice s = .next t) : Keeps s t := by
  injection h with h
  rw [← h]
  have h0 := Keeps.refl s
  repeat' with_reducible first | assumption | apply i3cTimeout_kept

theorem execFilterSync_kept (q : Req) (engines : Nat) {s : State} {t : State} (h : execFilterSync q engines s = .next t) : Keeps s t := by
  injection h with h
  rw [← h]
  refine serve_kept _ _ _ _ (fun x hx => ?_) (Keeps.refl s)
  repeat' with_reducible first | assumption | apply filterSync_kept | apply guarded__kept

theorem execTimeGet_kept (q : Req) {s : State} {t : State} (h : execTimeGet q s = .next t) : Keeps s t := by
  injection h with h
  rw [← h]
  refine serve_kept _ _ _ _ (fun x hx => ?_) (Keeps.refl s)
  repeat' with_reducible first | assumption | apply timeGet_kept

theorem execPtpConfig_kept (q : Req) (port profile role : Nat) (logSync logPdelay logAnnounce : Int) (prio1 prio2 : Nat) {s : State} {t : State} (h : execPtpConfig q port profile role logSync logPdelay logAnnounce prio1 prio2 s = .next t) : Keeps s t := by
  injection h with h
  rw [← h]
  refine serve_kept _ _ _ _ (fun x hx => ?_) (Keeps.refl s)
  repeat' with_reducible first | assumption | apply ptpConfig_kept

theorem execResultRead_kept (q : Req) (stream selector seq offset length : Nat) {s : State} {t : State} (h : execResultRead q stream selector seq offset length s = .next t) : Keeps s t := by
  injection h with h
  rw [← h]
  refine serve_kept _ _ _ _ (fun x hx => ?_) (Keeps.refl s)
  repeat' with_reducible first | assumption | apply resultRead_kept | apply guarded__kept

theorem execResultRelease_kept (q : Req) (stream seq : Nat) {s : State} {t : State} (h : execResultRelease q stream seq s = .next t) : Keeps s t := by
  injection h with h
  rw [← h]
  refine serve_kept _ _ _ _ (fun x hx => ?_) (Keeps.refl s)
  repeat' with_reducible first | assumption | apply resultRelease_kept | apply guarded__kept | apply resultReleaseCmd_kept

theorem execSubscribe_kept (q : Req) (stream port cls everyM1 : Nat) {s : State} {t : State} (h : execSubscribe q stream port cls everyM1 s = .next t) : Keeps s t := by
  injection h with h
  rw [← h]
  refine serve_kept _ _ _ _ (fun x hx => ?_) (Keeps.refl s)
  repeat' with_reducible first | assumption | apply subscribe_kept

theorem execUnsubscribe_kept (q : Req) (sub : Nat) {s : State} {t : State} (h : execUnsubscribe q sub s = .next t) : Keeps s t := by
  injection h with h
  rw [← h]
  refine serve_kept _ _ _ _ (fun x hx => ?_) (Keeps.refl s)
  repeat' with_reducible first | assumption | apply unsubscribe_kept

theorem execCountersRead_kept (q : Req) (unit block entry first count : Nat) (clear : Bool) {s : State} {t : State} (h : execCountersRead q unit block entry first count clear s = .next t) : Keeps s t := by
  injection h with h
  rw [← h]
  refine serve_kept _ _ _ _ (fun x hx => ?_) (Keeps.refl s)
  repeat' with_reducible first | assumption | apply countersRead_kept | apply guarded__kept

theorem execNoticeLogRead_kept (q : Req) (start count : Nat) {s : State} {t : State} (h : execNoticeLogRead q start count s = .next t) : Keeps s t := by
  injection h with h
  rw [← h]
  refine serve_kept _ _ _ _ (fun x hx => ?_) (Keeps.refl s)
  repeat' with_reducible first | assumption | apply noticeLogRead_kept

theorem execUnitStatusGet_kept (q : Req) (unit : Nat) {s : State} {t : State} (h : execUnitStatusGet q unit s = .next t) : Keeps s t := by
  injection h with h
  rw [← h]
  refine serve_kept _ _ _ _ (fun x hx => ?_) (Keeps.refl s)
  repeat' with_reducible first | assumption | apply unitStatusGet_kept | apply guarded__kept

theorem execWindowLogRead_kept (q : Req) (back count : Nat) {s : State} {t : State} (h : execWindowLogRead q back count s = .next t) : Keeps s t := by
  injection h with h
  rw [← h]
  refine serve_kept _ _ _ _ (fun x hx => ?_) (Keeps.refl s)
  repeat' with_reducible first | assumption | apply windowLogRead_kept

theorem execTestControl_kept (q : Req) (enable : Bool) (rotation : Nat) {s : State} {t : State} (h : execTestControl q enable rotation s = .next t) : Keeps s t := by
  injection h with h
  rw [← h]
  refine serve_kept _ _ _ _ (fun x hx => ?_) (Keeps.refl s)
  repeat' with_reducible first | assumption | apply testControl_kept

theorem execBlobBegin_kept (q : Req) (kind total : Nat) {s : State} {t : State} (h : execBlobBegin q kind total s = .next t) : Keeps s t := by
  injection h with h
  rw [← h]
  refine serve_kept _ _ _ _ (fun x hx => ?_) (Keeps.refl s)
  repeat' with_reducible first | assumption | apply blobBegin_kept

theorem execBlobWrite_kept (q : Req) (kind offset : Nat) (data : List Byte) {s : State} {t : State} (h : execBlobWrite q kind offset data s = .next t) : Keeps s t := by
  injection h with h
  rw [← h]
  refine serve_kept _ _ _ _ (fun x hx => ?_) (Keeps.refl s)
  repeat' with_reducible first | assumption | apply blobWrite_kept

theorem execFwStage_kept (q : Req) (length : Nat) {s : State} {t : State} (h : execFwStage q length s = .next t) : Keeps s t := by
  injection h with h
  rw [← h]
  refine serve_kept _ _ _ _ (fun x hx => ?_) (Keeps.refl s)
  repeat' with_reducible first | assumption | apply fwStage_kept

theorem execFwActivate_kept (q : Req) (version : Nat) {s : State} {t : State} (h : execFwActivate q version s = .next t) : Keeps s t := by
  injection h with h
  rw [← h]
  refine serve_kept _ _ _ _ (fun x hx => ?_) (Keeps.refl s)
  repeat' with_reducible first | assumption | apply fwActivate_kept

theorem execActivateQuiescent_kept {s : State} {t : State} (h : execActivateQuiescent s = .next t) : Keeps s t := by
  injection h with h
  rw [← h]
  have h0 := Keeps.refl s
  repeat' with_reducible first | assumption | apply activateQuiescent_kept

theorem execFirmwareAlive_kept {s : State} {t : State} (h : execFirmwareAlive s = .next t) : Keeps s t := by
  injection h with h
  rw [← h]
  have h0 := Keeps.refl s
  repeat' with_reducible first | assumption | apply firmwareAlive_kept

theorem execActivateFallback_kept {s : State} {t : State} (h : execActivateFallback s = .next t) : Keeps s t := by
  injection h with h
  rw [← h]
  have h0 := Keeps.refl s
  repeat' with_reducible first | assumption | apply activateFallback_kept

theorem execRomFlashBoot_kept {s : State} {t : State} (h : execRomFlashBoot s = .next t) : Keeps s t := by
  injection h with h
  rw [← h]
  have h0 := Keeps.refl s
  repeat' with_reducible first | assumption | apply romFlashBoot_kept

theorem execFlashRewriteDone_kept (ok : Bool) {s : State} {t : State} (h : execFlashRewriteDone ok s = .next t) : Keeps s t := by
  injection h with h
  rw [← h]
  have h0 := Keeps.refl s
  repeat' with_reducible first | assumption | apply flashRewriteDone_kept

theorem execSvnBurn_kept {s : State} {t : State} (h : execSvnBurn s = .next t) : Keeps s t := by
  injection h with h
  rw [← h]
  have h0 := Keeps.refl s
  repeat' with_reducible first | assumption | apply svnBurn_kept

theorem execKeyRevoke_kept (q : Req) (slot : Nat) (sig : List Byte) {s : State} {t : State} (h : execKeyRevoke q slot sig s = .next t) : Keeps s t := by
  injection h with h
  rw [← h]
  refine serve_kept _ _ _ _ (fun x hx => ?_) (Keeps.refl s)
  repeat' with_reducible first | assumption | apply keyRevoke_kept

theorem execIdentityGet_kept (q : Req) (offset : Nat) {s : State} {t : State} (h : execIdentityGet q offset s = .next t) : Keeps s t := by
  injection h with h
  rw [← h]
  refine serve_kept _ _ _ _ (fun x hx => ?_) (Keeps.refl s)
  repeat' with_reducible first | assumption | apply identityGet_kept

theorem execAttestQuote_kept (q : Req) (nonce : Nat) {s : State} {t : State} (h : execAttestQuote q nonce s = .next t) : Keeps s t := by
  injection h with h
  rw [← h]
  refine serve_kept _ _ _ _ (fun x hx => ?_) (Keeps.refl s)
  repeat' with_reducible first | assumption | apply attestQuote_kept

theorem execMacsecKeySet_kept (q : Req) (port cknLen cak ckn : Nat) {s : State} {t : State} (h : execMacsecKeySet q port cknLen cak ckn s = .next t) : Keeps s t := by
  injection h with h
  rw [← h]
  refine serve_kept _ _ _ _ (fun x hx => ?_) (Keeps.refl s)
  repeat' with_reducible first | assumption | apply macsecKeySet_kept

theorem execDebugChallenge_kept (q : Req) {s : State} {t : State} (h : execDebugChallenge q s = .next t) : Keeps s t := by
  injection h with h
  rw [← h]
  refine serve_kept _ _ _ _ (fun x hx => ?_) (Keeps.refl s)
  repeat' with_reducible first | assumption | apply debugChallenge_kept

theorem execDebugUnlock_kept (q : Req) (scope : Nat) (sig : List Byte) {s : State} {t : State} (h : execDebugUnlock q scope sig s = .next t) : Keeps s t := by
  injection h with h
  rw [← h]
  refine serve_kept _ _ _ _ (fun x hx => ?_) (Keeps.refl s)
  repeat' with_reducible first | assumption | apply debugUnlock_kept

theorem execDebugLock_kept (q : Req) {s : State} {t : State} (h : execDebugLock q s = .next t) : Keeps s t := by
  injection h with h
  rw [← h]
  refine serve_kept _ _ _ _ (fun x hx => ?_) (Keeps.refl s)
  repeat' with_reducible first | assumption | apply debugLock_kept

theorem execLifecycleSet_kept (q : Req) (target : Nat) (sig : List Byte) {s : State} {t : State} (h : execLifecycleSet q target sig s = .next t) : Keeps s t := by
  injection h with h
  rw [← h]
  refine serve_kept _ _ _ _ (fun x hx => ?_) (Keeps.refl s)
  repeat' with_reducible first | assumption | apply lifecycleSet_kept

theorem execChallengeExpiry_kept {s : State} {t : State} (h : execChallengeExpiry s = .next t) : Keeps s t := by
  injection h with h
  rw [← h]
  have h0 := Keeps.refl s
  repeat' with_reducible first | assumption | apply challengeExpiry_kept

theorem execDebugSessionExpiry_kept {s : State} {t : State} (h : execDebugSessionExpiry s = .next t) : Keeps s t := by
  injection h with h
  rw [← h]
  have h0 := Keeps.refl s
  repeat' with_reducible first | assumption | apply debugSessionExpiry_kept

theorem execHoldPowerWrite_kept (set : Bool) {s : State} {t : State} (h : execHoldPowerWrite set s = .next t) : Keeps s t := by
  injection h with h
  rw [← h]
  have h0 := Keeps.refl s
  repeat' with_reducible first | assumption | apply holdPowerWrite_kept

theorem execLkpHalt_kept {s : State} {t : State} (h : execLkpHalt s = .next t) : Keeps s t := by
  injection h with h
  rw [← h]
  have h0 := Keeps.refl s
  repeat' with_reducible first | assumption | apply lkpHalt_kept

theorem execLkpResumeWrite_kept {s : State} {t : State} (h : execLkpResumeWrite s = .next t) : Keeps s t := by
  injection h with h
  rw [← h]
  have h0 := Keeps.refl s
  repeat' with_reducible first | assumption | apply lkpResume_kept

theorem execStatusGet_kept (q : Req) {s : State} {t : State} (h : execStatusGet q s = .next t) : Keeps s t := by
  injection h with h
  rw [← h]
  refine serve_kept _ _ _ _ (fun x hx => ?_) (Keeps.refl s)
  repeat' with_reducible first | assumption | apply statusGet_kept

theorem execGraphLoad_kept (q : Req) (length digest : Nat) {s : State} {t : State} (h : execGraphLoad q length digest s = .next t) : Keeps s t := by
  injection h with h
  rw [← h]
  refine serve_kept _ _ _ _ (fun x hx => ?_) (Keeps.refl s)
  repeat' with_reducible first | assumption | apply graphLoad_kept

theorem execGraphUnload_kept (q : Req) {s : State} {t : State} (h : execGraphUnload q s = .next t) : Keeps s t := by
  injection h with h
  rw [← h]
  refine serve_kept _ _ _ _ (fun x hx => ?_) (Keeps.refl s)
  repeat' with_reducible first | assumption | apply graphUnload_kept

theorem execPowerLevelSet_kept (q : Req) (level : Nat) {s : State} {t : State} (h : execPowerLevelSet q level s = .next t) : Keeps s t := by
  injection h with h
  rw [← h]
  refine serve_kept _ _ _ _ (fun x hx => ?_) (Keeps.refl s)
  repeat' with_reducible first | assumption | apply powerLevelSet_kept

theorem execPowerLimitSet_kept (q : Req) (limit : Nat) {s : State} {t : State} (h : execPowerLimitSet q limit s = .next t) : Keeps s t := by
  injection h with h
  rw [← h]
  refine serve_kept _ _ _ _ (fun x hx => ?_) (Keeps.refl s)
  repeat' with_reducible first | assumption | apply powerLimitSet_kept

theorem execPowerStatusGet_kept (q : Req) {s : State} {t : State} (h : execPowerStatusGet q s = .next t) : Keeps s t := by
  injection h with h
  rw [← h]
  refine serve_kept _ _ _ _ (fun x hx => ?_) (Keeps.refl s)
  repeat' with_reducible first | assumption | apply powerStatusGet_kept

theorem execPowerEntryQuiesced_kept {s : State} {t : State} (h : execPowerEntryQuiesced s = .next t) : Keeps s t := by
  injection h with h
  rw [← h]
  have h0 := Keeps.refl s
  repeat' with_reducible first | assumption | apply nextLevelSet_kept | apply entryQuiesced_kept

theorem execPowerEntryComplete_kept {s : State} {t : State} (h : execPowerEntryComplete s = .next t) : Keeps s t := by
  injection h with h
  rw [← h]
  have h0 := Keeps.refl s
  repeat' with_reducible first | assumption | apply nextLevelSet_kept | apply entryComplete_kept

theorem execPowerExitComplete_kept {s : State} {t : State} (h : execPowerExitComplete s = .next t) : Keeps s t := by
  injection h with h
  rw [← h]
  have h0 := Keeps.refl s
  repeat' with_reducible first | assumption | apply nextLevelSet_kept | apply exitComplete_kept

theorem execTc10SleepRequest_kept (port : Nat) {s : State} {t : State} (h : execTc10SleepRequest port s = .next t) : Keeps s t := by
  injection h with h
  rw [← h]
  have h0 := Keeps.refl s
  repeat' with_reducible first | assumption | apply tc10SleepRequest_kept

theorem execTc10SleepReject_kept (port : Nat) {s : State} {t : State} (h : execTc10SleepReject port s = .next t) : Keeps s t := by
  injection h with h
  rw [← h]
  have h0 := Keeps.refl s
  repeat' with_reducible first | assumption | apply tc10SleepReject_kept

theorem execTc10Wake_kept (port : Nat) {s : State} {t : State} (h : execTc10Wake port s = .next t) : Keeps s t := by
  injection h with h
  rw [← h]
  have h0 := Keeps.refl s
  repeat' with_reducible first | assumption | apply tc10Wake_kept

theorem execWakeN_kept {s : State} {t : State} (h : execWakeN s = .next t) : Keeps s t := by
  injection h with h
  rw [← h]
  have h0 := Keeps.refl s
  repeat' with_reducible first | assumption | apply powerWake_kept

theorem execLpCurrent_kept {s : State} {t : State} (h : execLpCurrent s = .next t) : Keeps s t := by
  injection h with h
  rw [← h]
  have h0 := Keeps.refl s
  repeat' first | (with_reducible first | assumption | apply powerWake_kept) | split

theorem execGovernorPeriod_kept (mw : Nat) {s : State} {t : State} (h : execGovernorPeriod mw s = .next t) : Keeps s t := by
  injection h with h
  rw [← h]
  have h0 := Keeps.refl s
  repeat' with_reducible first | assumption | apply governorPeriod_kept

theorem execAvsAdjust_kept (slackOk answered : Bool) {s : State} {t : State} (h : execAvsAdjust slackOk answered s = .next t) : Keeps s t := by
  injection h with h
  rw [← h]
  have h0 := Keeps.refl s
  repeat' with_reducible first | assumption | apply avsAdjust_kept

theorem execIslandClockStop_kept (island : Nat) {s : State} {t : State} (h : execIslandClockStop island s = .next t) : Keeps s t := by
  injection h with h
  rw [← h]
  have h0 := Keeps.refl s
  repeat' with_reducible first | assumption | apply islandClockStop_kept

theorem execIslandClockRestart_kept (island : Nat) {s : State} {t : State} (h : execIslandClockRestart island s = .next t) : Keeps s t := by
  injection h with h
  rw [← h]
  have h0 := Keeps.refl s
  repeat' with_reducible first | assumption | apply islandClockRestart_kept

theorem execJobStart_kept (q : Req) (mask : Nat) (fromCkpt : Bool) {s : State} {t : State} (h : execJobStart q mask fromCkpt s = .next t) : Keeps s t := by
  injection h with h
  rw [← h]
  refine serve_kept _ _ _ _ (fun x hx => ?_) (Keeps.refl s)
  repeat' with_reducible first | assumption | apply jobStart_kept

theorem execJobStop_kept (q : Req) (mask : Nat) {s : State} {t : State} (h : execJobStop q mask s = .next t) : Keeps s t := by
  injection h with h
  rw [← h]
  refine serve_kept _ _ _ _ (fun x hx => ?_) (Keeps.refl s)
  repeat' with_reducible first | assumption | apply jobStop_kept

theorem execJobStopHalt_kept (job : Nat) {s : State} {t : State} (h : execJobStopHalt job s = .next t) : Keeps s t := by
  injection h with h
  rw [← h]
  have h0 := Keeps.refl s
  repeat' with_reducible first | assumption | apply jobStopHalt_kept

theorem execJobCheckpoint_kept (q : Req) (job : Nat) {s : State} {t : State} (h : execJobCheckpoint q job s = .next t) : Keeps s t := by
  injection h with h
  rw [← h]
  refine serve_kept _ _ _ _ (fun x hx => ?_) (Keeps.refl s)
  repeat' with_reducible first | assumption | apply jobCheckpoint_kept

theorem execJobRestart_kept (q : Req) (job : Nat) {s : State} {t : State} (h : execJobRestart q job s = .next t) : Keeps s t := by
  injection h with h
  rw [← h]
  refine serve_kept _ _ _ _ (fun x hx => ?_) (Keeps.refl s)
  repeat' with_reducible first | assumption | apply jobRestart_kept

theorem execRestartResumed_kept (job : Nat) {s : State} {t : State} (h : execRestartResumed job s = .next t) : Keeps s t := by
  injection h with h
  rw [← h]
  have h0 := Keeps.refl s
  repeat' with_reducible first | assumption | apply restartResumed_kept

theorem execHartPoisonTrap_kept (hart addr : Nat) {s : State} {t : State} (h : execHartPoisonTrap hart addr s = .next t) : Keeps s t := by
  injection h with h
  rw [← h]
  have h0 := Keeps.refl s
  repeat' with_reducible first | assumption | apply hartPoisonTrap_kept

theorem execL1ParityError_kept (hart : Nat) {s : State} {t : State} (h : execL1ParityError hart s = .next t) : Keeps s t := by
  injection h with h
  rw [← h]
  have h0 := Keeps.refl s
  repeat' with_reducible first | assumption | apply l1ParityError_kept

theorem execSafeExit_kept (q : Req) {s : State} {t : State} (h : execSafeExit q s = .next t) : Keeps s t := by
  injection h with h
  rw [← h]
  refine serve_kept _ _ _ _ (fun x hx => ?_) (Keeps.refl s)
  repeat' with_reducible first | assumption | apply safeExit_kept

theorem execTowlineRequestRx_kept (port src srcPort : Nat) (wrap : Wrap) (data : List Byte) {s : State} {t : State} (h : execTowlineRequestRx port src srcPort wrap data s = .next t) : Keeps s t := by
  injection h with h
  rw [← h]
  have h0 := Keeps.refl s
  repeat' with_reducible first | assumption | apply towlineRx_kept

theorem execArpIcmpRx_kept (port : Nat) (req : ArpIcmp) {s : State} {t : State} (h : execArpIcmpRx port req s = .next t) : Keeps s t := by
  injection h with h
  rw [← h]
  have h0 := Keeps.refl s
  repeat' with_reducible first | assumption | apply arpIcmpRx_kept

theorem execSensorFrameRx_kept (port udp : Nat) (data : List Byte) {s : State} {t : State} (h : execSensorFrameRx port udp data s = .next t) : Keeps s t := by
  injection h with h
  rw [← h]
  have h0 := Keeps.refl s
  repeat' with_reducible first | assumption | apply sensorFrameRx_kept

theorem execEthFrameTx_kept (port : Nat) {s : State} {t : State} (h : execEthFrameTx port s = .next t) : Keeps s t := by
  injection h with h
  rw [← h]
  have h0 := Keeps.refl s
  repeat' with_reducible first | assumption | apply ethFrameTx_kept

theorem execAlarmFrameTx_kept (port : Nat) {s : State} {t : State} (h : execAlarmFrameTx port s = .next t) : Keeps s t := by
  injection h with h
  rw [← h]
  have h0 := Keeps.refl s
  repeat' with_reducible first | assumption | apply alarmFrameTx_kept

theorem execMkaPduRx_kept (port : Nat) (pdu : MkaPdu) {s : State} {t : State} (h : execMkaPduRx port pdu s = .next t) : Keeps s t := by
  injection h with h
  rw [← h]
  have h0 := Keeps.refl s
  repeat' with_reducible first | assumption | apply mkaPduRx_kept

theorem execBerthGo_kept (berth : Nat) (data : List Byte) {s : State} {t : State} (h : execBerthGo berth data s = .next t) : Keeps s t := by
  injection h with h
  rw [← h]
  have h0 := Keeps.refl s
  repeat' with_reducible first | assumption | apply berthGo_kept

theorem execGuestAccessFault_kept (hart addr size : Nat) (write : Bool) (value : Nat) {s : State} {t : State} (h : execGuestAccessFault hart addr size write value s = .next t) : Keeps s t := by
  injection h with h
  rw [← h]
  have h0 := Keeps.refl s
  repeat' with_reducible first | assumption | apply guestAccess_kept

theorem execLinkUp_kept (link lanes peer : Nat) (peerAsg : Bool) (caps : Nat) {s : State} {t : State} (h : execLinkUp link lanes peer peerAsg caps s = .next t) : Keeps s t := by
  injection h with h
  rw [← h]
  have h0 := Keeps.refl s
  repeat' with_reducible first | assumption | apply linkUp_kept

theorem execLinkDown_kept (link : Nat) (reason : LinkLoss) {s : State} {t : State} (h : execLinkDown link reason s = .next t) : Keeps s t := by
  injection h with h
  rw [← h]
  have h0 := Keeps.refl s
  repeat' with_reducible first | assumption | apply linkDown_kept

theorem execLinkFrameTx_kept (link : Nat) {s : State} {t : State} (h : execLinkFrameTx link s = .next t) : Keeps s t := by
  injection h with h
  rw [← h]
  have h0 := Keeps.refl s
  repeat' with_reducible first | assumption | apply linkFrameTx_kept

theorem execLinkFrameRx_kept (link : Nat) (frame : BitVec 512) {s : State} {t : State} (h : execLinkFrameRx link frame s = .next t) : Keeps s t := by
  injection h with h
  rw [← h]
  have h0 := Keeps.refl s
  repeat' with_reducible first | assumption | apply linkFrameRx_kept

theorem execEthPhyLinkChange_kept (port : Nat) (up selfTest : Bool) {s : State} {t : State} (h : execEthPhyLinkChange port up selfTest s = .next t) : Keeps s t := by
  injection h with h
  rw [← h]
  have h0 := Keeps.refl s
  repeat' with_reducible first | assumption | apply ethPhyLinkChange_kept

theorem execDredgerRead_kept (line : MemRead) {s : State} {t : State} (h : execDredgerRead line s = .next t) : Keeps s t := by
  injection h with h
  rw [← h]
  have h0 := Keeps.refl s
  repeat' with_reducible first | assumption | apply dredgerRead_kept

theorem execUnitResetDone_kept (unit : Nat) (pass : Bool) {s : State} {t : State} (h : execUnitResetDone unit pass s = .next t) : Keeps s t := by
  injection h with h
  rw [← h]
  have h0 := Keeps.refl s
  repeat' with_reducible first | assumption | apply unitResetDone_kept

theorem execLkpRecovered_kept (cleanCopy : Bool) {s : State} {t : State} (h : execLkpRecovered cleanCopy s = .next t) : Keeps s t := by
  injection h with h
  rw [← h]
  have h0 := Keeps.refl s
  repeat' with_reducible first | assumption | apply lkpRecovered_kept

theorem execLkpLockstepMismatch_kept {s : State} {t : State} (h : execLkpLockstepMismatch s = .next t) : Keeps s t := by
  injection h with h
  rw [← h]
  have h0 := Keeps.refl s
  repeat' with_reducible first | assumption | apply lockstepMismatch_kept

theorem execLapNotice_kept (unit memory : Nat) {s : State} {t : State} (h : execLapNotice unit memory s = .next t) : Keeps s t := by
  injection h with h
  rw [← h]
  have h0 := Keeps.refl s
  repeat' with_reducible first | assumption | apply lapNotice_kept

theorem execSpareSwitch_kept (unit memory macroIx : Nat) {s : State} {t : State} (h : execSpareSwitch unit memory macroIx s = .next t) : Keeps s t := by
  injection h with h
  rw [← h]
  have h0 := Keeps.refl s
  repeat' with_reducible first | assumption | apply spareSwitch_kept

theorem execPageRemap_kept (chan page : Nat) {s : State} {t : State} (h : execPageRemap chan page s = .next t) : Keeps s t := by
  injection h with h
  rw [← h]
  have h0 := Keeps.refl s
  repeat' with_reducible first | assumption | apply pageRemap_kept

theorem execFuseBurnDone_kept (ok : Bool) {s : State} {t : State} (h : execFuseBurnDone ok s = .next t) : Keeps s t := by
  injection h with h
  rw [← h]
  have h0 := Keeps.refl s
  repeat' with_reducible first | assumption | apply fuseBurnDone_kept

theorem execLockLookup_kept (node : LockNode) (mismatch : Bool) {s : State} {t : State} (h : execLockLookup node mismatch s = .next t) : Keeps s t := by
  injection h with h
  rw [← h]
  have h0 := Keeps.refl s
  repeat' with_reducible first | assumption | apply lockLookup_kept

theorem execWindowCommit_kept (job : Nat) {s : State} {t : State} (h : execWindowCommit job s = .next t) : Keeps s t := by
  injection h with h
  rw [← h]
  have h0 := Keeps.refl s
  repeat' with_reducible first | assumption | apply windowCommit_kept

theorem execSupplyDroop_kept (island : Nat) {s : State} {t : State} (h : execSupplyDroop island s = .next t) : Keeps s t := by
  injection h with h
  rw [← h]
  have h0 := Keeps.refl s
  repeat' with_reducible first | assumption | apply supplyDroop_kept

theorem execReplayStart_kept (job : Nat) {s : State} {t : State} (h : execReplayStart job s = .next t) : Keeps s t := by
  injection h with h
  rw [← h]
  have h0 := Keeps.refl s
  repeat' with_reducible first | assumption | apply replayStart_kept

theorem execReplayVerdict_kept (job : Nat) (runs : ReplayRuns) {s : State} {t : State} (h : execReplayVerdict job runs s = .next t) : Keeps s t := by
  injection h with h
  rw [← h]
  have h0 := Keeps.refl s
  repeat' with_reducible first | assumption | apply replayVerdict_kept

theorem execReplayLimitExpiry_kept (job : Nat) {s : State} {t : State} (h : execReplayLimitExpiry job s = .next t) : Keeps s t := by
  injection h with h
  rw [← h]
  have h0 := Keeps.refl s
  repeat' with_reducible first | assumption | apply replayLimit_kept

theorem execTestVisitStart_kept (unit : Nat) {s : State} {t : State} (h : execTestVisitStart unit s = .next t) : Keeps s t := by
  injection h with h
  rw [← h]
  have h0 := Keeps.refl s
  repeat' with_reducible first | assumption | apply testVisitStart_kept

theorem execTestVisitDone_kept (unit : Nat) (ok : Bool) {s : State} {t : State} (h : execTestVisitDone unit ok s = .next t) : Keeps s t := by
  injection h with h
  rw [← h]
  have h0 := Keeps.refl s
  repeat' with_reducible first | assumption | apply testVisitDone_kept

theorem execTestLate_kept (unit : Nat) {s : State} {t : State} (h : execTestLate unit s = .next t) : Keeps s t := by
  injection h with h
  rw [← h]
  have h0 := Keeps.refl s
  repeat' with_reducible first | assumption | apply testLate_kept

theorem execTestContentLoad_kept (q : Req) (length : Nat) {s : State} {t : State} (h : execTestContentLoad q length s = .next t) : Keeps s t := by
  injection h with h
  rw [← h]
  refine serve_kept _ _ _ _ (fun x hx => ?_) (Keeps.refl s)
  repeat' with_reducible first | assumption | apply testContentLoad_kept

theorem execUnitQuarantine_kept (q : Req) (unit : Nat) {s : State} {t : State} (h : execUnitQuarantine q unit s = .next t) : Keeps s t := by
  injection h with h
  rw [← h]
  refine serve_kept _ _ _ _ (fun x hx => ?_) (Keeps.refl s)
  repeat' with_reducible first | assumption | apply unitQuarantine_kept

theorem execUnitRelease_kept (q : Req) (unit : Nat) {s : State} {t : State} (h : execUnitRelease q unit s = .next t) : Keeps s t := by
  injection h with h
  rw [← h]
  refine serve_kept _ _ _ _ (fun x hx => ?_) (Keeps.refl s)
  repeat' with_reducible first | assumption | apply unitRelease_kept

theorem execUnitMargin_kept (q : Req) (unit vstep fstep : Nat) {s : State} {t : State} (h : execUnitMargin q unit vstep fstep s = .next t) : Keeps s t := by
  injection h with h
  rw [← h]
  refine serve_kept _ _ _ _ (fun x hx => ?_) (Keeps.refl s)
  repeat' with_reducible first | assumption | apply unitMargin_kept

theorem execStateConflict_kept (unit : Nat) (hw : UnitSt) {s : State} {t : State} (h : execStateConflict unit hw s = .next t) : Keeps s t := by
  injection h with h
  rw [← h]
  have h0 := Keeps.refl s
  repeat' with_reducible first | assumption | apply stateConflict_kept

theorem execSupplyFault_kept (_rail : Nat) {s : State} {t : State} (h : execSupplyFault _rail s = .next t) : Keeps s t := by
  injection h with h
  rw [← h]
  have h0 := Keeps.refl s
  repeat' with_reducible first | assumption | apply supplyFault_kept

theorem execClockFault_kept (_pll : Bool) {s : State} {t : State} (h : execClockFault _pll s = .next t) : Keeps s t := by
  injection h with h
  rw [← h]
  have h0 := Keeps.refl s
  repeat' with_reducible first | assumption | apply clockFault_kept

theorem execSafeNFault_kept {s : State} {t : State} (h : execSafeNFault s = .next t) : Keeps s t := by
  injection h with h
  rw [← h]
  have h0 := Keeps.refl s
  repeat' with_reducible first | assumption | apply safeNFault_kept

theorem execThermalSample_kept (readings : List Int) {s : State} {t : State} (h : execThermalSample readings s = .next t) : Keeps s t := by
  injection h with h
  rw [← h]
  have h0 := Keeps.refl s
  repeat' with_reducible first | assumption | apply thermalSample_kept

theorem execHostLinksDown_kept {s : State} {t : State} (h : execHostLinksDown s = .next t) : Keeps s t := by
  injection h with h
  rw [← h]
  have h0 := Keeps.refl s
  repeat' with_reducible first | assumption | apply hostLinksDown_kept

theorem execMechDiagnostic_kept (mech : Nat) (pass : Bool) {s : State} {t : State} (h : execMechDiagnostic mech pass s = .next t) : Keeps s t := by
  injection h with h
  rw [← h]
  have h0 := Keeps.refl s
  repeat' with_reducible first | assumption | apply mechDiagnostic_kept

theorem execSafeCauseClear_kept (cause : Nat) {s : State} {t : State} (h : execSafeCauseClear cause s = .next t) : Keeps s t := by
  injection h with h
  rw [← h]
  have h0 := Keeps.refl s
  repeat' with_reducible first | assumption | apply safeCauseClear_kept

theorem execPowerOnReset_kept {s : State} {t : State} (h : execPowerOnReset s = .next t) : Keeps s t := by
  injection h with h
  rw [← h]
  have h0 := Keeps.refl s
  repeat' with_reducible first | assumption | apply powerOnReset_kept

theorem execExternalReset_kept (bootMode : Bool) {s : State} {t : State} (h : execExternalReset bootMode s = .next t) : Keeps s t := by
  injection h with h
  rw [← h]
  have h0 := Keeps.refl s
  repeat' with_reducible first | assumption | apply externalReset_kept

theorem execWatchdogReset_kept {s : State} {t : State} (h : execWatchdogReset s = .next t) : Keeps s t := by
  injection h with h
  rw [← h]
  have h0 := Keeps.refl s
  repeat' with_reducible first | assumption | apply watchdogReset_kept

theorem execDebugSysReset_kept {s : State} {t : State} (h : execDebugSysReset s = .next t) : Keeps s t := by
  injection h with h
  rw [← h]
  have h0 := Keeps.refl s
  repeat' with_reducible first | assumption | apply debugSysReset_kept

theorem execBrownOut_kept {s : State} {t : State} (h : execBrownOut s = .next t) : Keeps s t := by
  injection h with h
  rw [← h]
  have h0 := Keeps.refl s
  repeat' with_reducible first | assumption | apply brownOut_kept

theorem execPowerUpSequence_kept (rail : Rail) {s : State} {t : State} (h : execPowerUpSequence rail s = .next t) : Keeps s t := by
  injection h with h
  rw [← h]
  have h0 := Keeps.refl s
  repeat' with_reducible first | assumption | apply powerUp_kept

theorem execRailTimeout_kept {s : State} {t : State} (h : execRailTimeout s = .next t) : Keeps s t := by
  injection h with h
  rw [← h]
  have h0 := Keeps.refl s
  repeat' with_reducible first | assumption | apply railTimeout_kept

theorem execVsysSafeFall_kept {s : State} {t : State} (h : execVsysSafeFall s = .next t) : Keeps s t := by
  injection h with h
  rw [← h]
  have h0 := Keeps.refl s
  repeat' with_reducible first | assumption | apply enablesLow_kept

theorem execSelfTestDone_kept (unit : Nat) (pass : Bool) {s : State} {t : State} (h : execSelfTestDone unit pass s = .next t) : Keeps s t := by
  injection h with h
  rw [← h]
  have h0 := Keeps.refl s
  repeat' with_reducible first | assumption | apply selfTestDone_kept

theorem execBringupComplete_kept {s : State} {t : State} (h : execBringupComplete s = .next t) : Keeps s t := by
  injection h with h
  rw [← h]
  have h0 := Keeps.refl s
  repeat' with_reducible first | assumption | apply bringupComplete_kept

theorem execDdrTrainingDone_kept (chan : Nat) (result : DdrTraining) {s : State} {t : State} (h : execDdrTrainingDone chan result s = .next t) : Keeps s t := by
  injection h with h
  rw [← h]
  have h0 := Keeps.refl s
  repeat' with_reducible first | assumption | apply ddrTrainingDone_kept

theorem execDdrFillDone_kept (chan : Nat) (pass : Bool) {s : State} {t : State} (h : execDdrFillDone chan pass s = .next t) : Keeps s t := by
  injection h with h
  rw [← h]
  have h0 := Keeps.refl s
  repeat' with_reducible first | assumption | apply ddrFillDone_kept

theorem execDbgBusAccess_kept (data : Nat) {s : State} {t : State} (h : execDbgBusAccess data s = .next t) : Keeps s t := by
  injection h with h
  rw [← h]
  have h0 := Keeps.refl s
  repeat' with_reducible first | assumption | apply dbgBusAccess_kept

theorem execCounterTick_kept (ticks : Nat) {s : State} {t : State} (h : execCounterTick ticks s = .next t) : Keeps s t := by
  injection h with h
  rw [← h]
  have h0 := Keeps.refl s
  repeat' with_reducible first | assumption | apply counterTick_kept

end Sys2Proof.Machine
end

