-- ==== Sys2Proof/Laws/Packets.lean ====
section
/-! SUPPORT. What a CSI-2 packet boundary and a good header leave alone (R47, R91). -/
namespace Sys2Proof.Machine

/-- What a packet boundary and the header before a packet's content can change. -/
def Bounds (s t : State) : Prop := t = { s with slu := t.slu, brg := t.brg, time := t.time }

theorem Bounds.refl (s : State) : Bounds s s := rfl

theorem Bounds.trans {s t u : State} (a : Bounds s t) (b : Bounds t u) : Bounds s u := by
  unfold Bounds at *
  rw [a] at b
  exact b

theorem setSlu_bounds (s : State) (n : Nat) (v : Sluice) : Bounds s (setSlu s n v) := rfl
theorem setQueue_bounds (s : State) (q : Nat) (v : Queue) : Bounds s (setQueue s q v) := rfl
theorem setTime_bounds (s : State) (v : TimeSt) : Bounds s (setTime s v) := rfl

theorem limitsChanged_bounds (n : Nat) (s : State) : Bounds s (limitsChanged n s) :=
  (setQueue_bounds s _ _).trans (setQueue_bounds _ _ _)

theorem fltWritten_bounds (n m : Nat) (s : State) : Bounds s (fltWritten n m s) := by
  unfold fltWritten
  dsimp only
  repeat' split
  all_goals exact setSlu_bounds _ _ _

theorem sourceChange_bounds (n : Nat) (s : State) : Bounds s (sourceChange n s) := by
  unfold sourceChange
  dsimp only
  repeat' split
  · exact .refl s
  · exact setSlu_bounds _ _ _
  · exact (setTime_bounds s _).trans (setSlu_bounds _ _ _)

/-- A packet boundary changes the sluice, the decimation of its queues and its buffer of edge stamps. -/
theorem packetBoundary_bounds (n : Nat) (s : State) : Bounds s (packetBoundary n s) :=
  ((setSlu_bounds s _ _).trans (limitsChanged_bounds _ _)).trans ((fltWritten_bounds _ _ _).trans (sourceChange_bounds _ _))

theorem packetBoundary_eq (n : Nat) (s : State) : packetBoundary n s =
    { s with slu := (packetBoundary n s).slu, brg := (packetBoundary n s).brg, time := (packetBoundary n s).time } :=
  packetBoundary_bounds n s

/-- A clean header is noted in the sluice. -/
theorem goodHeader_ok_eq (n : Nat) (s : State) : goodHeader n .ok s = { s with slu := (goodHeader n .ok s).slu } := rfl

end Sys2Proof.Machine
end

