-- ==== Sys2Proof/Laws/Sends.lean ====
section
/-! SUPPORT. What sending a notice or a message can change: ports, counters, the notice log and the queues of the Towline,
and nothing else. -/
namespace Sys2Proof.Machine

/-- `t` is `s` but for counters, Ethernet ports, the notice log and the relay queues. -/
def Sends (s t : State) : Prop :=
  t = { s with cnt := t.cnt, tow := { s.tow with
    ports := t.tow.ports, log := t.tow.log, logSeq := t.tow.logSeq, mgmtTx := t.tow.mgmtTx, tag := t.tow.tag,
    relaySeq := t.tow.relaySeq } }

theorem Sends.refl (s : State) : Sends s s := rfl

theorem Sends.trans {s t u : State} (a : Sends s t) (b : Sends t u) : Sends s u := by
  unfold Sends at *
  rw [a] at b
  exact b

theorem Sends.dev {s t : State} (h : Sends s t) : t.dev = s.dev := by unfold Sends at h; rw [h]
theorem Sends.regs {s t : State} (h : Sends s t) : t.regs = s.regs := by unfold Sends at h; rw [h]
theorem Sends.ram {s t : State} (h : Sends s t) : t.ram = s.ram := by unfold Sends at h; rw [h]
theorem Sends.time {s t : State} (h : Sends s t) : t.time = s.time := by unfold Sends at h; rw [h]
theorem Sends.apx {s t : State} (h : Sends s t) : t.apx = s.apx := by unfold Sends at h; rw [h]
theorem Sends.pass {s t : State} (h : Sends s t) : t.pass = s.pass := by unfold Sends at h; rw [h]
theorem Sends.res {s t : State} (h : Sends s t) : t.res = s.res := by unfold Sends at h; rw [h]
theorem Sends.sec {s t : State} (h : Sends s t) : t.sec = s.sec := by unfold Sends at h; rw [h]
theorem Sends.pwr {s t : State} (h : Sends s t) : t.pwr = s.pwr := by unfold Sends at h; rw [h]
theorem Sends.safe {s t : State} (h : Sends s t) : t.safe = s.safe := by unfold Sends at h; rw [h]
theorem Sends.pending {s t : State} (h : Sends s t) : t.pending = s.pending := by unfold Sends at h; rw [h]
theorem Sends.stages {s t : State} (h : Sends s t) : t.tow.stages = s.tow.stages := by unfold Sends at h; rw [h]
theorem Sends.berths {s t : State} (h : Sends s t) : t.tow.berths = s.tow.berths := by unfold Sends at h; rw [h]
theorem Sends.holder {s t : State} (h : Sends s t) : t.tow.holder = s.tow.holder := by unfold Sends at h; rw [h]
theorem Sends.epoch {s t : State} (h : Sends s t) : t.tow.epoch = s.tow.epoch := by unfold Sends at h; rw [h]

theorem setEth_sends (s : State) (p : Nat) (e : EthPort) : Sends s (setEth s p e) := rfl
theorem bump_sends (u b w : Nat) (s : State) (e : Nat) : Sends s (bump u b w s e) := rfl
theorem logNotice_sends (c p st u : Nat) (d : List Byte) (s : State) : Sends s (logNotice c p st u d s) := rfl
theorem enqueue_sends (p q : Nat) (m : TxMsg) (s : State) : Sends s (enqueue p q m s) := rfl

theorem sendMgmt_sends (dst : Nat) (b : List Byte) (s : State) : Sends s (sendMgmt dst b s) := by
  unfold sendMgmt
  split
  · exact bump_sends _ _ _ s _
  · split
    · exact bump_sends _ _ _ s _
    · rfl

theorem sendTo_sends (l : Link) (k : TxKind) (d dp : Nat) (h : TowHdr) (b : List Byte) (s : State) :
    Sends s (sendTo l k d dp h b s) := by
  unfold sendTo
  split
  · exact enqueue_sends _ _ _ s
  · exact sendMgmt_sends _ _ s
  · exact Sends.refl s

theorem foldl_sends {α : Type} (f : State → α → State) (hf : ∀ s a, Sends s (f s a)) (l : List α) (s : State) :
    Sends s (l.foldl f s) := by
  induction l generalizing s with
  | nil => exact Sends.refl s
  | cons a r ih => exact (hf s a).trans (ih _)

theorem noticeOnPort_sends (c : Nat) (b : List Byte) (p : Nat) (s : State) : Sends s (noticeOnPort c b p s) := by
  unfold noticeOnPort
  exact Sends.trans (setEth_sends s p _) (sendTo_sends _ _ _ _ _ _ _)

theorem noticeOnRelay_sends (c : Nat) (b : List Byte) (p : Nat) (s : State) : Sends s (noticeOnRelay c b p s) := by
  unfold noticeOnRelay
  exact Sends.trans (t := { s with tow := { s.tow with relaySeq := (s.tow.relaySeq + 1) % 2 ^ 32 } }) rfl
    (sendTo_sends _ _ _ _ _ _ _)

/-- A notice is logged and sent; it changes nothing else. -/
theorem notice_sends (c st u : Nat) (d : List Byte) (s : State) : Sends s (notice c st u d s) := by
  have h : Sends s ((hostPorts s).foldl (fun t p => noticeOnPort c (noticeBody st u (now s) d) p t)
      (logNotice c (((hostPorts s).map (2 ^ ·)).sum) st u d s)) :=
    (logNotice_sends _ _ _ _ _ s).trans (foldl_sends _ (fun t p => noticeOnPort_sends _ _ p t) _ _)
  unfold notice
  dsimp only
  split
  · exact h
  · split
    · exact h
    · exact h.trans (noticeOnRelay_sends _ _ _ _)

/-- A change of DEVICE_STATE gives that state, logs and sends its notice. -/
theorem setState_sends (d : DevState) (s : State) : Sends { s with dev := { s.dev with state := d } } (setState d s) := by
  unfold setState
  split
  · rename_i h
    subst h
    exact Sends.refl s
  · exact notice_sends _ _ _ _ _

@[simp] theorem setState_dev (d : DevState) (s : State) : (setState d s).dev = { s.dev with state := d } := (setState_sends d s).dev

/-- HOLDER after a change of it, and after one that names the holder it has. -/
theorem setHelm_holder (h c : Nat) (s : State) : (setHelm h c s).tow.holder = h := by
  unfold setHelm
  dsimp only
  split
  · assumption
  · exact (notice_sends _ _ _ _ _).holder

/-- HELM_EPOCH counts the changes. -/
theorem setHelm_epoch (h c : Nat) (s : State) (hn : s.tow.holder ≠ h) : (setHelm h c s).tow.epoch = (s.tow.epoch + 1) % 2 ^ 32 := by
  unfold setHelm
  dsimp only
  rw [if_neg hn]
  exact (notice_sends _ _ _ _ _).epoch

theorem linkBump_sends (l : Link) (w : Nat) (s : State) : Sends s (linkBump l w s) := by
  unfold linkBump
  split
  · rfl
  · exact Sends.refl s

/-- Noting a request touches no berth. -/
theorem noteRequest_berths (l : Link) (s : State) : (noteRequest l s).tow.berths = s.tow.berths := by
  unfold noteRequest
  dsimp only
  split
  · exact (linkBump_sends _ _ s).berths
  · exact (linkBump_sends _ _ s).berths

/-- What the checks of a request leave: the state but for what refusing or absorbing it sends. -/
def admitLeft : Admit → State
  | .absorbed s => s
  | .rejected _ s => s
  | .accepted s => s

/-- A reply in a berth portal touches no berth. -/
theorem portalReply_berths (j b : Nat) (l : List Byte) (s : State) : (portalReply j b l s).tow.berths = s.tow.berths := by
  unfold portalReply
  dsimp only
  split
  · rfl
  · rfl

theorem checkBerth_berths (q : Req) (a b : Nat) (s : State) : (admitLeft (checkBerth q a b s)).tow.berths = s.tow.berths := by
  unfold checkBerth
  dsimp only
  repeat' split
  all_goals first
    | rfl
    | exact (linkBump_sends _ _ _).berths
    | exact (linkBump_sends _ _ _).berths.trans (enqueue_sends _ _ _ s).berths
    | exact (linkBump_sends _ _ _).berths.trans (sendMgmt_sends _ _ s).berths
    | exact (linkBump_sends _ _ _).berths.trans (portalReply_berths _ _ _ s)

theorem checkRights_sends (q : Req) (i : Instr) (r : CmdRow) (s : State) : Sends s (admitLeft (checkRights q i r s)) := by
  unfold checkRights
  dsimp only
  repeat' split
  all_goals first
    | exact Sends.refl s
    | exact bump_sends _ _ _ s _

/-- The request checks touch no berth. -/
theorem admitReq_berths (q : Req) (i : Instr) (code a b : Nat) (s : State) :
    (admitLeft (admitReq q i code a b s)).tow.berths = s.tow.berths := by
  have h := checkBerth_berths q a b s
  unfold admitReq
  split
  · rename_i u hu
    rw [hu] at h
    split
    · exact h
    · split
      · exact (checkRights_sends _ _ _ _).berths.trans h
      · exact h
  · exact h

end Sys2Proof.Machine
end

