-- ==== Sys2Proof/Laws/Safe.lean ====
section
/-! SUPPORT. Entry to SAFE: what the parts of it leave alone, and the state it gives. -/
namespace Sys2Proof.Machine

/-- DEVICE_STATE and everything SAFE keeps of its own are those of `s`. -/
structure Calm (s t : State) : Prop where
  state : t.dev.state = s.dev.state
  safe : t.safe = s.safe

theorem Calm.refl (s : State) : Calm s s := ⟨rfl, rfl⟩

theorem Calm.trans {s t u : State} (a : Calm s t) (b : Calm t u) : Calm s u :=
  ⟨b.state.trans a.state, b.safe.trans a.safe⟩

theorem Calm.of_sends {s t : State} (h : Sends s t) : Calm s t := ⟨by rw [h.dev], h.safe⟩

theorem foldl_calm {α : Type} (f : State → α → State) (hf : ∀ s a, Calm s (f s a)) (l : List α) (s : State) :
    Calm s (l.foldl f s) := by
  induction l generalizing s with
  | nil => exact Calm.refl s
  | cons a r ih => exact (hf s a).trans (ih _)

theorem portalReply_calm (j b : Nat) (l : List Byte) (s : State) : Calm s (portalReply j b l s) := by
  unfold portalReply
  dsimp only
  split
  · exact ⟨rfl, rfl⟩
  · exact ⟨rfl, rfl⟩

theorem deliverReply_calm (q : Req) (a b code st : Nat) (p : List Byte) (s : State) :
    Calm s (deliverReply q a b code st p s).2 := by
  unfold deliverReply
  split
  · exact portalReply_calm _ _ _ s
  · exact .of_sends (sendTo_sends _ _ _ _ _ _ s)
  · exact .of_sends (sendTo_sends _ _ _ _ _ _ s)

theorem complete_calm (q : Req) (code st : Nat) (p : List Byte) (s : State) : Calm s (complete q code st p s) := by
  unfold complete
  dsimp only
  have h : Calm s (if st = ST_BUSY then linkBump q.link 9 s else s) := by
    split
    · exact .of_sends (linkBump_sends _ _ s)
    · exact Calm.refl s
  refine h.trans ?_
  generalize (if st = ST_BUSY then linkBump q.link 9 s else s) = u
  rcases e : deliverReply q (berthOf s q.berth).src (berthOf s q.berth).srcPort code st p u with ⟨l, t⟩
  have k := deliverReply_calm q (berthOf s q.berth).src (berthOf s q.berth).srcPort code st p u
  rw [e] at k
  exact k.trans ⟨rfl, rfl⟩

theorem endAborts_calm (b : Nat) (s : State) : Calm s (endAborts b s) := by
  unfold endAborts
  refine foldl_calm _ (fun t c => ?_) _ s
  dsimp only
  split
  · split
    · exact complete_calm _ _ _ _ t
    · exact Calm.refl t
  · exact Calm.refl t

theorem finishBerth_calm (b st : Nat) (p : List Byte) (s : State) : Calm s (finishBerth b st p s) := by
  unfold finishBerth
  dsimp only
  split
  · split
    · exact (complete_calm _ _ _ _ s).trans (endAborts_calm _ _)
    · exact Calm.refl s
  · exact Calm.refl s

theorem notice_calm (c st u : Nat) (d : List Byte) (s : State) : Calm s (notice c st u d s) := .of_sends (notice_sends c st u d s)

theorem setPwr_calm (v : PwrSt) (s : State) : Calm s (setPwr s v) := ⟨rfl, rfl⟩

theorem setPass_calm (v : PassSt) (s : State) : Calm s (setPass s v) := ⟨rfl, rfl⟩

theorem setJob_calm (j : Nat) (v : Job) (s : State) : Calm s (setJob s j v) := ⟨rfl, rfl⟩

theorem haltHarts_calm (j : Nat) (s : State) : Calm s (haltHarts j s) := ⟨rfl, rfl⟩

theorem dropRecords_calm (s : State) : Calm s (dropRecords s) := ⟨rfl, rfl⟩

theorem powerNotice_calm (a b c e f g : Nat) (s : State) : Calm s (powerNotice a b c e f g s) := notice_calm _ _ _ _ s

theorem sendTc10_calm (w p : Nat) (s : State) : Calm s (sendTc10 w s p) := .of_sends (setEth_sends s _ _)

theorem abortEntry_calm (k d : Nat) (s : State) : Calm s (abortEntry k d s) := by
  unfold abortEntry
  split
  · exact Calm.refl s
  · rename_i e he
    dsimp only
    have h : Calm s (e.ports.foldl (sendTc10 3)
        (powerNotice 2 (setPwr s { s.pwr with entry := none }).dev.level e.target 0xFF k d (setPwr s { s.pwr with entry := none }))) :=
      ((setPwr_calm _ s).trans (powerNotice_calm _ _ _ _ _ _ _)).trans (foldl_calm (sendTc10 3) (fun t p => sendTc10_calm 3 p t) _ _)
    split
    · exact h.trans (finishBerth_calm _ _ _ _)
    · exact h

theorem powerWake_calm (src : Nat) (p : Option Nat) (s : State) : Calm s (powerWake src p s) := by
  unfold powerWake
  split
  · split
    · exact Calm.refl s
    · split
      · exact ⟨rfl, rfl⟩
      · exact abortEntry_calm _ _ s
  · split
    · exact Calm.refl s
    · split
      · exact ⟨rfl, rfl⟩
      · exact ⟨rfl, rfl⟩

theorem freeJobRetained_calm (j : Nat) (s : State) : Calm s (freeJobRetained j s) := by
  unfold freeJobRetained
  have h : ∀ (t : State) (q : Nat), Calm t (setQueue (freeRetained q (fun _ => true) t) q
      { queueOf (freeRetained q (fun _ => true) t) q with cur := [] }) := by
    intro t q
    unfold freeRetained
    exact ⟨rfl, rfl⟩
  exact Calm.trans (foldl_calm _ h _ s) (setPass_calm _ _)

theorem dropCkpt_calm (j : Nat) (s : State) : Calm s (dropCkpt j s) := by
  unfold dropCkpt
  dsimp only
  split
  · exact (Calm.trans (foldl_calm _ (fun t b => finishBerth_calm b ST_ABORTED [] t) _ s) (setJob_calm _ _ _)).trans (setPass_calm _ _)
  · exact (setJob_calm _ _ s).trans (setPass_calm _ _)

theorem endJob_calm (j : Nat) (s : State) : Calm s (endJob j s) := by
  unfold endJob
  exact ((((freeJobRetained_calm j s).trans (haltHarts_calm _ _)).trans (dropCkpt_calm _ _)).trans (setJob_calm _ _ _)).trans (setPass_calm _ _)

theorem unaskStop_calm (b : Nat) (s : State) (j : Nat) : Calm s (unaskStop b s j) := by
  unfold unaskStop
  dsimp only
  split
  · exact Calm.refl s
  · exact ⟨rfl, rfl⟩

theorem unaskCkpt_calm (b : Nat) (s : State) (j : Nat) : Calm s (unaskCkpt b s j) := by
  unfold unaskCkpt
  dsimp only
  split
  · exact Calm.refl s
  · split
    · exact Calm.refl s
    · split
      · exact ⟨rfl, rfl⟩
      · exact ⟨rfl, rfl⟩

/-- Taking back what a LONG command began touches neither DEVICE_STATE nor what SAFE keeps. -/
theorem undoLong_calm (b : Nat) (s : State) : Calm s (undoLong b s) := by
  unfold undoLong
  split
  · split
    · exact ⟨rfl, rfl⟩
    · exact Calm.refl s
  · exact foldl_calm _ (fun t j => unaskStop_calm b t j) _ s
  · exact unaskCkpt_calm _ s _
  · exact ⟨rfl, rfl⟩
  · split
    · exact ⟨rfl, rfl⟩
    · exact Calm.refl s
  · exact Calm.refl s

theorem abortBerth_calm (b : Nat) (s : State) : Calm s (abortBerth b s) := (undoLong_calm b s).trans (finishBerth_calm _ _ _ _)

theorem abortLong_calm (s : State) : Calm s (abortLong s) := by
  unfold abortLong
  refine foldl_calm _ (fun t b => ?_) _ s
  dsimp only
  split <;> split
  all_goals first
    | exact abortBerth_calm _ t
    | exact Calm.refl t

theorem dropClass0_calm (s : State) : Calm s (dropClass0 s) := by
  unfold dropClass0
  have h : Calm s ((upto 2).foldl (fun s p => setEth s p { ethOf s p with q0 := [] }) s) :=
    foldl_calm _ (fun t p => .of_sends (setEth_sends t _ _)) _ s
  exact ⟨h.state, h.safe⟩

/-- Entry to SAFE: the device is in SAFE, and what SAFE keeps is as R612 says. -/
theorem enterSafe_gives (c u : Nat) (s : State) :
    (enterSafe c u s).dev.state = .safe ∧ (enterSafe c u s).safe = { s.safe with
      reason := c, unit := u, time := now s, entries := s.safe.entries + 1, stopSeq := [], stopAt := [] } := by
  have h : Calm { s with
      dev := { s.dev with state := .safe },
      safe := { s.safe with
        reason := c, unit := u, time := now s, entries := s.safe.entries + 1, stopSeq := [], stopAt := [] } } (enterSafe c u s) := by
    unfold enterSafe
    refine Calm.trans (dropRecords_calm _) (Calm.trans (dropClass0_calm _) (Calm.trans (foldl_calm _ (fun t j => ?_) (upto 8) _)
      (Calm.trans (abortLong_calm _) (notice_calm _ _ _ _ _))))
    split
    · exact endJob_calm j t
    · exact Calm.refl t
  exact ⟨h.state, h.safe⟩

/-- A cause of the entry's own moment changes the REASON alone. -/
theorem sameCycle_gives (c u : Nat) (s : State) :
    (sameCycle c u s).dev = s.dev ∧ (sameCycle c u s).safe.active = s.safe.active := by
  unfold sameCycle
  split <;> exact ⟨rfl, rfl⟩

/-- A dangerous failure outside BOOT leaves the device in SAFE with the cause active (R612). -/
theorem raiseCause_gives (c u : Nat) (s : State) (hb : s.dev.state ≠ .boot) :
    (raiseCause c u s).dev.state = .safe ∧ (raiseCause c u s).safe.active = setBits s.safe.active (c - 1) 1 1 := by
  unfold raiseCause
  dsimp only
  generalize hw : (if bit s.safe.active (c - 1) = true then s else powerWake 5 none s) = w
  have cw : Calm s w := by
    rw [← hw]
    split
    · exact Calm.refl s
    · exact powerWake_calm 5 none s
  have e1 := cw.state
  have e2 := cw.safe
  split
  · rename_i hs
    split
    · refine ⟨hs, ?_⟩
      dsimp only
      rw [e2]
    · generalize hv : sameCycle c u { w with safe := { w.safe with active := setBits w.safe.active (c - 1) 1 1 } } = v
      have g := sameCycle_gives c u { w with safe := { w.safe with active := setBits w.safe.active (c - 1) 1 1 } }
      rw [hv] at g
      have k := notice_calm NT_STATE ST_OK uDEV (safeDetail v) v
      refine ⟨k.state.trans ((congrArg (·.state) g.1).trans hs), ?_⟩
      refine (congrArg (·.active) k.safe).trans (g.2.trans ?_)
      dsimp only
      rw [e2]
  · rename_i hs
    exact absurd (e1.symm.trans hs) hb
  · refine ⟨(enterSafe_gives c u _).1, ?_⟩
    rw [(enterSafe_gives c u _).2]
    dsimp only
    rw [e2]

end Sys2Proof.Machine
end

