-- ==== Sys2Proof/Laws/Serve.lean ====
section
/-! SUPPORT. What the course of a request does: one lemma for every command of chapter 15. -/
namespace Sys2Proof.Machine

/-- How a command that ran its effect in `s₀` ends (R17): it waits, or it completes with its status. -/
theorem runHeld_begun (q : Req) (i : Instr) (code : Nat) (eff : State → CmdRes) (s : State) (r : CmdRow) (hr : cmdRow code = some r)
    (hl : legalNow (begun q s) code (statesOf i r) = true) :
    runHeld q i code eff s = match (eff (begun q s)).res with
      | none => (eff (begun q s)).st
      | some (st, payload) =>
        complete q code st payload (if keepsEffects st || (eff (begun q s)).keep then (eff (begun q s)).st else begun q s) := by
  have h : ¬ ¬ legalNow (begun q s) code (statesOf i r) = true := not_not_intro hl
  unfold runHeld
  simp only [hr]
  exact if_neg h

/-- A request that runs its effect in `s₀` gives what that effect gives there. -/
theorem serve_starts {q : Req} {i : Instr} {code : Nat} (eff : State → CmdRes) {s s₀ : State} (h : Starts q i code s s₀) :
    serve q i code eff s = match (eff s₀).res with
      | none => (eff s₀).st
      | some (st, payload) => complete q code st payload (if keepsEffects st || (eff s₀).keep then (eff s₀).st else s₀) := by
  obtain ⟨hs, hh, ⟨r, hr, hl⟩, hc⟩ := h
  unfold serve
  simp only [hs, hh, not_true_eq_false, if_false]
  rcases hc with ⟨hb, hn, rfl⟩ | ⟨hb, t, ht, hn, rfl⟩
  · rw [if_pos (by simpa [heldBy] using hb), runInTurn, if_pos hn]
    exact runHeld_begun q i code eff s r hr hl
  · rw [if_neg (by simpa [heldBy] using hb)]
    cases ha : admitReq q i code 0 0 (noteRequest q.link s) with
    | absorbed u => simp [accepted, ha] at ht
    | rejected st u => simp [accepted, ha] at ht
    | accepted u =>
      simp only [accepted, ha, Option.some.injEq] at ht
      subst ht
      dsimp only
      rw [runInTurn, if_pos hn]
      exact runHeld_begun q i code eff _ r hr hl

/-- The effect succeeds at once. -/
theorem serve_ok {q : Req} {i : Instr} {code : Nat} {eff : State → CmdRes} {s s₀ t : State} {payload : List Byte}
    (h : Starts q i code s s₀) (he : eff s₀ = ans ST_OK payload t) : serve q i code eff s = complete q code ST_OK payload t := by
  rw [serve_starts eff h, he]
  rfl

/-- The effect waits. -/
theorem serve_waits {q : Req} {i : Instr} {code : Nat} {eff : State → CmdRes} {s s₀ t : State}
    (h : Starts q i code s s₀) (he : eff s₀ = waits t) : serve q i code eff s = t := by
  rw [serve_starts eff h, he]
  rfl

/-- The request checks leave the state of a request they accept as it was. -/
theorem admitReq_accepted {q : Req} {i : Instr} {code a b : Nat} {s t : State} (h : accepted (admitReq q i code a b s) = some t) : t = s := by
  have hb : ∀ u, accepted (checkBerth q a b s) = some u → u = s := by
    intro u hu
    simp only [checkBerth] at hu
    repeat' split at hu
    all_goals first
      | (simp only [accepted, Option.some.injEq] at hu; exact hu.symm)
      | (simp only [accepted] at hu; exact absurd hu (by simp))
  unfold admitReq at h
  split at h
  · rename_i u hu
    have := hb u (by rw [hu]; rfl)
    subst this
    split at h
    · simp [accepted] at h
    · split at h
      · unfold checkRights at h
        dsimp only at h
        repeat' split at h
        all_goals first
          | (simp only [accepted, Option.some.injEq] at h; exact h.symm)
          | (simp only [accepted] at h; exact absurd h (by simp))
      · simp [accepted] at h
  · exact hb t h

/-- Whether a request arriving now runs at once. -/
def startsNow (q : Req) (i : Instr) (code : Nat) (s : State) : Bool :=
  let s₁ := noteRequest q.link s
  svcRuns s && romHears s q && !((berthOf s q.berth).cmd.any (sameCmd i) && (berthOf s q.berth).started.isNone)
    && (match cmdRow code with
        | some r => legalNow (begun q (occupy q i code 0 0 s₁)) code (statesOf i r)
        | none => false)
    && (accepted (admitReq q i code 0 0 s₁)).isSome
    && nextBerth (occupy q i code 0 0 s₁) == some q.berth

/-- A request that arrives, passes the checks and is legal runs in the state in which it has taken its berth. -/
theorem starts_now {q : Req} {i : Instr} {code : Nat} {s : State} (h : startsNow q i code s = true) :
    Starts q i code s (begun q (occupy q i code 0 0 (noteRequest q.link s))) := by
  simp only [startsNow, Bool.and_eq_true, Bool.not_eq_true', Option.isSome_iff_exists] at h
  obtain ⟨⟨⟨⟨⟨hs, hh⟩, hb⟩, hl⟩, t, ht⟩, hn⟩ := h
  have ht' := admitReq_accepted ht
  subst ht'
  refine ⟨hs, hh, ?_, .inr ⟨?_, _, ht, by simpa using hn, rfl⟩⟩
  · split at hl
    · rename_i r hr
      exact ⟨r, hr, hl⟩
    · simp at hl
  · intro hc
    simp [heldBy] at hc
    simp_all

end Sys2Proof.Machine
end

