-- ==== Sys2Proof/Machine/Balls.lean ====
section
/-! DEFINITION. The balls of the package (file 21 of spec/): the signal or supply of every position, the supply ranges, the
I/O type and the internal resistor of each signal. Nothing here changes while the block runs. -/
namespace Sys2Proof.Machine

/-- The supply rails of Table 21-5. -/
inductive SupplyRail
  | vddCore | vddSram | vddqDdr | vdd1v8 | vdd3v3 | vsysSafe
deriving DecidableEq, Repr

/-- What a ball carries: a signal under the manual's name, a rail, or ground. -/
inductive Ball
  | sig (name : String)
  | rail (r : SupplyRail)
  | vss
deriving DecidableEq, Repr

/-- The regions of Table 21-2. -/
inductive BallRegion
  | ddr0 | ddrSplit | ddr1 | leftSluices | control | rightSluices | inertial | interior | canal | corner
deriving DecidableEq, Repr

/-- The row letters from index 1 to 45 (R644). -/
def rowLetters : List String :=
  ["A", "B", "C", "D", "E", "F", "G", "H", "J", "K", "L", "M", "N", "P", "T", "U", "V", "W", "Y", "AA", "AB", "AC", "AD"]
  ++ ["AE", "AF", "AG", "AH", "AJ", "AK", "AL", "AM", "AN", "AP", "AT", "AU", "AV", "AW", "AY"]
  ++ ["BA", "BB", "BC", "BD", "BE", "BF", "BG"]

/-- The name of a position: row letters, then column. -/
def ballName (r c : Nat) : String := rowLetters.getD (r - 1) "" ++ toString c

/-- The region of a position, row and column from 1 to 45 (R645). -/
def ballRegion (r c : Nat) : BallRegion :=
  if r ≤ 9 then (if c ≤ 22 then .ddr0 else if c = 23 then .ddrSplit else .ddr1)
  else if r ≤ 36 then
    if c ≤ 9 then (if r ≤ 25 then .leftSluices else .control)
    else if c ≤ 36 then .interior
    else if r ≤ 25 then .rightSluices else .inertial
  else if c ≤ 44 then .canal else .corner

/-- The 161 signals of a DDR5 channel in their order (R647). -/
def ddrSignals : List String :=
  let sub (x : String) : List String :=
    (List.range 14).map (fun i => "CA_" ++ x ++ toString i) ++ ["CS_" ++ x ++ "0", "CS_" ++ x ++ "1", "CK_" ++ x ++ "_T", "CK_" ++ x ++ "_C"]
  (List.range 20).flatMap (fun k =>
    (List.range 4).map (fun i => "DQ" ++ toString (4 * k + i)) ++ ["DQS" ++ toString k ++ "_T", "DQS" ++ toString k ++ "_C"])
  ++ sub "A" ++ sub "B" ++ ["RESET_N", "ALERT_N", "SCL", "SDA", "ZQ"]

/-- A ball of a DDR5 region, by DDR0's columns (R647). -/
def ddrBall (ch : String) (r c : Nat) : Ball :=
  if c = 22 ∨ (r = 9 ∧ c ≤ 12) then .vss
  else if c = 11 ∨ c = 12 then .rail .vddqDdr
  else
    let i := if r = 9 then 152 + (c - 13) else (r - 1) * 19 + (if c ≤ 10 then c - 1 else c - 3)
    .sig (ch ++ "_" ++ ddrSignals.getD i "")

/-- A ball of a sluice block: which of its rows, relative column 1 to 9 (Table 21-3). -/
def sluiceBall (n : Nat) (second : Bool) (j : Nat) : Ball :=
  let s (x : String) : Ball := .sig ("SL" ++ toString n ++ "_" ++ x)
  if second then
    match j with
    | 1 => s "D2_P" | 2 => s "D2_N" | 4 => s "D3_P" | 5 => s "D3_N" | 6 => .rail .vdd1v8 | 7 => s "SCL" | 8 => s "SDA"
    | 9 => s "SYNC_OUT" | _ => .vss
  else
    match j with
    | 1 => s "D0_P" | 2 => s "D0_N" | 4 => s "D1_P" | 5 => s "D1_N" | 7 => s "CK_P" | 8 => s "CK_N" | 9 => s "SYNC_IN" | _ => .vss

/-- A lane ball of a Canal link at relative column j, lanes from `l` (R649). -/
def laneBall (ck dir : String) (l j : Nat) : Ball :=
  if j % 3 = 2 then .vss else .sig (ck ++ "_" ++ dir ++ toString (l + j / 3) ++ (if j % 3 = 0 then "_P" else "_N"))

/-- A ball of the Canal region. -/
def canalBall (r c : Nat) : Ball :=
  let ck := "CK" ++ toString ((c - 1) / 11)
  let j := (c - 1) % 11
  match r with
  | 38 => laneBall ck "TX" 0 j
  | 40 => laneBall ck "TX" 4 j
  | 42 => laneBall ck "RX" 0 j
  | 44 => laneBall ck "RX" 4 j
  | 45 => if j ≤ 4 then .rail .vdd1v8 else if j = 5 then .sig (ck ++ "_REXT") else .vss
  | _ => .vss

/-- A ball of the inertial region (R650). -/
def inertialBall (r c : Nat) : Ball :=
  let e := (r - 26) / 3
  let j := 46 - c
  let s (x : String) : Ball := .sig ("INR" ++ toString e ++ "_" ++ x)
  if r = 35 then (if c = 45 then .sig "SYNC_INERT" else if c = 44 ∨ c = 43 then .rail .vdd1v8 else .vss)
  else if 35 < r ∨ j % 2 = 0 ∨ 7 < j then .vss
  else match (r - 26) % 3 with
    | 0 => if j = 1 then s "CLK" else if j = 3 then s "FS" else if j = 5 then s "SDO" else .vss
    | 1 => s ("D" ++ toString (j / 2))
    | _ => s ("D" ++ toString (4 + j / 2))

/-- Signals of the control region by row index and column (Table 21-4). -/
def controlSignals (r : Nat) : List (Nat × String) :=
  match r with
  | 26 => [(1, "T1A_P"), (2, "T1A_N"), (4, "T1B_P"), (5, "T1B_N")]
  | 28 => [(1, "T1C_P"), (2, "T1C_N"), (4, "T1D_P"), (5, "T1D_N"), (9, "ETH_REXT")]
  | 30 => [(1, "MG0_P"), (2, "MG0_N"), (7, "REF_CLK"), (9, "TEST_EN")]
  | 31 => [(1, "XSPI_CLK"), (3, "XSPI_CS_N"), (4, "XSPI_DS"), (5, "XSPI_RESET_N")]
  | 32 => (List.range 8).map (fun i => (i + 1, "XSPI_IO" ++ toString i))
  | 33 => [(1, "TCK"), (2, "TMS"), (3, "TDI"), (4, "TDO"), (5, "TRST_N")]
  | 34 => [(1, "AVS_CLK"), (2, "AVS_MDATA"), (3, "AVS_SDATA"), (5, "VSENSE_CORE_P"), (6, "VSENSE_CORE_N"), (7, "VSENSE_SRAM_P"),
      (8, "VSENSE_SRAM_N")]
  | 35 => [(1, "RESET_N"), (2, "BOOT_MODE"), (3, "WAKE_N"), (4, "SAFE_N"), (5, "PTP_PPS_OUT"), (6, "PWR_EN_CORE"),
      (7, "PWR_EN_DDR"), (8, "PWR_EN_AUX")]
  | _ => []

/-- Supply balls of the control region: VDD_1V8 at (31, 6) and (34, 9), VSYS_SAFE and VDD_3V3. -/
def controlRail (r c : Nat) : Ball :=
  if (r = 31 ∧ c = 6) ∨ (r = 34 ∧ c = 9) then .rail .vdd1v8
  else if r = 36 then (if c ≤ 4 then .rail .vsysSafe else if c ≤ 6 then .rail .vdd3v3 else .vss)
  else if r = 30 then (if c = 4 ∨ c = 5 then .rail .vdd3v3 else .vss)
  else if (c = 7 ∨ c = 8) ∧ (r ≤ 29 ∨ r = 31 ∨ r = 33) then .rail .vdd3v3 else .vss

/-- A ball of the control region. -/
def controlBall (r c : Nat) : Ball :=
  match (controlSignals r).find? (fun e => e.1 == c) with
  | some e => .sig e.2
  | none => controlRail r c

/-- The ball at row index r and column c, each from 1 to 45 (R645 to R651). -/
def ballAt (r c : Nat) : Ball :=
  match ballRegion r c with
  | .ddr0 => ddrBall "DDR0" r c
  | .ddr1 => ddrBall "DDR1" r (46 - c)
  | .ddrSplit => if r = 9 then .vss else .rail .vddqDdr
  | .leftSluices => sluiceBall ((r - 10) / 2) ((r - 10) % 2 == 1) c
  | .rightSluices => sluiceBall (8 + (r - 10) / 2) ((r - 10) % 2 == 1) (46 - c)
  | .control => controlBall r c
  | .inertial => inertialBall r c
  | .interior => if (r + c) % 2 = 0 then .vss else if r ≤ 14 then .rail .vddSram else .rail .vddCore
  | .canal => canalBall r c
  | .corner => .vss

/-- The number of balls that satisfy a test. -/
def ballCount (p : Ball → Bool) : Nat :=
  ((List.range 45).map (fun r => ((List.range 45).filter (fun c => p (ballAt (r + 1) (c + 1)))).length)).sum

/-- The range of a rail in mV (Table 21-5), VDD_CORE about its set point. -/
def railRange (core : Nat) (r : SupplyRail) : Nat × Nat :=
  match r with
  | .vddCore => (core - 30, core + 30)
  | .vddSram => (816, 884)
  | .vddqDdr => (1067, 1133)
  | .vdd1v8 => (1710, 1890)
  | .vdd3v3 => (3135, 3465)
  | .vsysSafe => (3000, 3600)

/-- The I/O types of Table 21-7. -/
inductive IoType
  | cmos33s | od33s | cmos18 | i3c | ddr5 | spd | mipi | t1Mdi | serDes
deriving DecidableEq, Repr

/-- The I/O type of a signal, none for a sense line or an external resistor. -/
def ioType (name : String) : Option IoType :=
  let starts (x : String) : Bool := x.toList.isPrefixOf name.toList
  let ends (x : String) : Bool := x.toList.isSuffixOf name.toList
  if name = "SAFE_N" then some .od33s
  else if starts "VSENSE" || ends "REXT" || ends "_ZQ" then none
  else if starts "DDR" then some (if ends "_SCL" || ends "_SDA" then .spd else .ddr5)
  else if starts "SL" then
    some (if ends "_SCL" || ends "_SDA" then .i3c else if ends "SYNC_IN" || ends "SYNC_OUT" then .cmos18 else .mipi)
  else if starts "INR" || starts "SYNC_INERT" || starts "XSPI" then some .cmos18
  else if starts "CK" then some .serDes
  else if starts "T1" || starts "MG0" then some .t1Mdi
  else some .cmos33s

/-- The internal resistors of R656: true for a pull-up, false for a pull-down. -/
def internalPull (name : String) : Option Bool :=
  if ["RESET_N", "BOOT_MODE", "TEST_EN", "TRST_N"].contains name then some false
  else if ["WAKE_N", "TMS", "TDI"].contains name then some true else none

end Sys2Proof.Machine
end

