-- ==== Sys2Proof/WellFormed.lean ====
section
/-! DEFINITION. Well-formed commands: every operand lies in the range its place gives it, the indices of Table 15-1 for the
happenings of hardware and the field widths of the request layouts (Tables 15-3 to 15-12) for the commands of hosts. A field of the right width
with a value that its command refuses is well formed: the command answers it with a status. -/
namespace Sys2Proof

/-- A link is an Ethernet port, the same port of the head device, or a berth portal of a job. -/
def wfLink : Link → Bool
  | .port p | .relay p => p < 5
  | .portal j => j < 8

/-- The fields of a request header have the widths of Table 14-4. -/
def wfReq (q : Req) : Bool := wfLink q.link && q.berth < 16 && q.cls < 4 && q.seq < 2 ^ 32 && q.epoch < 2 ^ 32

/-- A unit identity (Table 15-1): a type of 6 bits and an index of 10. -/
def wfUnit (u : Nat) : Bool := u < 65536

/-- A signed byte. -/
def wfI8 (i : Int) : Bool := decide (-128 ≤ i ∧ i ≤ 127)

/-- The locks and the link receivers (R213). -/
def wfNode : LockNode → Bool
  | .lock c => c < 16
  | .link k => k < 4

/-- A place the dredger reads: a row of Table 17-4, stored bytes of 13 bits (R549). -/
def wfMemRead (l : MemRead) : Bool := wfUnit l.unit && l.memory < 64 && l.stored.all (fun b => b < 8192)

/-- A trained channel has at least one GiB. -/
def wfTraining : DdrTraining → Bool
  | .trained g => 0 < g
  | _ => true

/-- A SAK is a key of 256 bits. -/
def wfMka (p : MkaPdu) : Bool := p.ckn < 2 ^ 256 && p.sak.all (fun k => k < 2 ^ 256)

/-- Every operand of a command lies in its range. -/
def Instr.wf (i : Instr) : Bool :=
  match i with
  | .powerOnReset => true
  | .externalReset _ => true
  | .watchdogReset => true
  | .debugSysReset => true
  | .brownOut => true
  | .powerUpSequence _ => true
  | .railTimeout => true
  | .vsysSafeFall => true
  | .romFlashBoot => true
  | .selfTestDone unit _ => wfUnit unit
  | .bringupComplete => true
  | .ddrTrainingDone chan result => chan < 2 && wfTraining result
  | .ddrFillDone chan _ => chan < 2
  | .tmuTickLock => true
  | .ethPhyLinkChange port _ _ => port < 5
  | .linkEnable link _ => link < 4
  | .linkUp link lanes peer _ _ => link < 4 && lanes < 5 && peer < 64
  | .linkDown link _ => link < 4
  | .linkFrameTx link => link < 4
  | .linkFrameRx link _ => link < 4
  | .devIdWrite dev => dev < 64
  | .lockLookup node _ => wfNode node
  | .packetDispatch port => port < 52 || (768 ≤ port && port < 804)
  | .cl0Police hub => hub < 4
  | .cl0TokenAdd hub => hub < 4
  | .cnlUpqWrite hub _ => hub < 4
  | .probeEmit pair => pair < 4
  | .pathProbe port pair => port < 2 && pair < 4
  | .upBinnedCopy pair _ _ => pair < 4
  | .alarmFramerRx port _ => port < 2
  | .alarmFrameTx port => port < 2
  | .safeStopFrame port => port < 2
  | .safeCauseClear cause => cause < 16
  | .supplyFault rail => rail < 16
  | .clockFault _ => true
  | .thermalSample _ => true
  | .safeNFault => true
  | .hostLinksDown => true
  | .mechDiagnostic mech _ => mech < 6
  | .stateConflict unit _ => wfUnit unit
  | .csi2LongPacket sluice vc dt _ _ _ data _ => sluice < 16 && vc < 32 && dt < 64 && data.length < 65536
  | .frameStart sluice vc num _ => sluice < 16 && vc < 32 && num < 65536
  | .frameEnd sluice vc _ => sluice < 16 && vc < 32
  | .syncInEdge sluice => sluice < 16
  | .pairTimeout sluice => sluice < 16
  | .rateTokenAdd sluice => sluice < 16
  | .rateInterval sluice => sluice < 16
  | .refractSweep sluice cell => sluice < 16 && cell < 2 ^ 22
  | .sluLinkUpTimeout sluice => sluice < 16
  | .portEnable sluice _ _ => sluice < 16
  | .portClearDone sluice => sluice < 16
  | .portDisable sluice _ => sluice < 16
  | .sourceChange sluice => sluice < 16
  | .i3cIbi sluice target _ => sluice < 16 && target < 128
  | .inputPeriod engine _ _ => engine < 3
  | .inrOutput channel => channel < 24
  | .syncInertEdge => true
  | .synchronisingReset engine _ => engine < 3
  | .channelResetWrite channel _ _ => channel < 24
  | .seEvent core port _ => core < 16 && port < 4
  | .apertureMerge core _ => core < 16
  | .seServiceWord core port => core < 16 && port < 4
  | .gyroRecord core channel _ => core < 16 && channel < 24
  | .surfaceSweep core => core < 16
  | .srfPortEnable core entry _ => core < 16 && entry < 4
  | .surfaceClearDone core entry => core < 16 && entry < 4
  | .neInput core => core < 16
  | .batchRelease core => core < 16
  | .batchUpdate core => core < 16
  | .tickBatch core group => core < 16 && group < 64
  | .stampSweep core neuron => core < 16 && neuron < 65536
  | .stepClose core => core < 16
  | .stepOverrun core => core < 16
  | .countWindowClose core group => core < 16 && group < 64
  | .countCopyDone core => core < 16
  | .arrRunWrite array prog job => array < 4 && prog < 16 && job < 8
  | .instanceStart array => array < 4
  | .loadDescriptor array => array < 4
  | .computePass array => array < 4
  | .storeDescriptor array => array < 4
  | .tenPacket cluster _ => cluster < 4
  | .tenWindowEnd cluster entry => cluster < 4 && entry < 8
  | .tenWindowClose cluster entry => cluster < 4 && entry < 8
  | .tenBufferCleared cluster entry buf => cluster < 4 && entry < 8 && buf < 3
  | .fusionTick => true
  | .checkpointPeriod job => job < 8
  | .gridStageEnd residueBad => residueBad.all (· < 2 ^ 26)
  | .egoMotionDone _ => true
  | .objectStage residueBad => residueBad.all (· < 2 ^ 20)
  | .snapshotCopyDone source => source < 32
  | .lidarRecord source _ => source < 32
  | .flowPacket => true
  | .streamEntry stream => stream < 64
  | .recordFlush stream => stream < 64
  | .recordCommit stream => stream < 64
  | .streamEnable stream _ _ => stream < 64
  | .streamDisable stream _ => stream < 64
  | .pushCopy port => port < 6
  | .pushFragment port => port < 6
  | .berthGo berth data => berth < 16 && data.length < 2033
  | .ckptAck job gen => job < 8 && gen < 2 ^ 32
  | .ckptGraceExpiry job => job < 8
  | .jobStopHalt job => job < 8
  | .hartPoisonTrap hart _ => hart < 8
  | .guestAccessFault hart _ size _ value => hart < 8 && size < 9 && value < 2 ^ (8 * size)
  | .l1ParityError hart => hart < 8
  | .portalPush queue job _ _ => queue < 512 && job < 8
  | .portalPushEnd queue job _ _ => queue < 512 && job < 8
  | .portalAbort queue job => queue < 512 && job < 8
  | .portalPop queue job _ => queue < 512 && job < 8
  | .queueCopyWrite queue => queue < 512
  | .canalCloseTimeout queue => queue < 512
  | .middleLineWrite queue _ => queue < 512
  | .middleLineRead queue _ => queue < 512
  | .queuePop queue _ => queue < 512
  | .queueDisable queue _ => queue < 512
  | .ptpSyncRx port _ msg => port < 5 && msg.seq < 65536
  | .ptpFollowUpRx port _ seq _ _ => port < 5 && seq < 65536
  | .ptpLkpMessage port _ _ => port < 5
  | .ptpEventTx port kind seq => port < 5 && kind < 16 && seq < 65536
  | .txqLookup port key => port < 5 && key < 2 ^ 32
  | .syncTimeout => true
  | .holdLimit => true
  | .gmChange => true
  | .servoDisable _ => true
  | .cmpArm index _ _ => index < 8
  | .comparatorFire index => index < 8
  | .syncoutEnable sluice _ _ => sluice < 16
  | .syncOutEdge sluice => sluice < 16
  | .syncOutPulseEnd sluice => sluice < 16
  | .ppsEdge => true
  | .ppsPulseEnd => true
  | .towlineRequestRx port _ srcPort _ data => port < 5 && srcPort < 65536 && data.length < 65536
  | .arpIcmpRx port _ => port < 5
  | .sensorFrameRx port udp data => port < 5 && udp < 65536 && data.length < 65536
  | .ethFrameTx port => port < 5
  | .helmSilence => true
  | .helmObjectExpiry => true
  | .blobBegin q kind total => wfReq q && kind < 256 && total < 2 ^ 32
  | .blobWrite q kind offset data => wfReq q && kind < 256 && offset < 2 ^ 32 && data.length < 1193
  | .graphLoad q length digest => wfReq q && length < 2 ^ 32 && digest < 2 ^ 256
  | .graphUnload q => wfReq q
  | .jobStart q mask _ => wfReq q && mask < 256
  | .jobStop q mask => wfReq q && mask < 256
  | .jobCheckpoint q job => wfReq q && job < 256
  | .jobRestart q job => wfReq q && job < 256
  | .safeExit q => wfReq q
  | .configWrite q unit reg entry word data => wfReq q && unit < 65536 && reg < 65536 && entry < 65536 && word < 256 && data.length < 150
  | .configRead q unit reg entry word count => wfReq q && unit < 65536 && reg < 65536 && entry < 65536 && word < 256 && count < 256
  | .routeWrite q unit first data => wfReq q && unit < 65536 && first < 65536 && data.length < 512
  | .weightsWrite q core matrix row offset _ data => wfReq q && core < 256 && matrix < 256 && row < 65536 && offset < 65536 && data.length < 1193
  | .sensorI3c q sluice target _ wdata rlen _ => wfReq q && sluice < 256 && target < 128 && wdata.length < 256 && rlen < 256
  | .i3cTimeout sluice => sluice < 16
  | .filterSync q engines => wfReq q && engines < 256
  | .timeGet q => wfReq q
  | .ptpConfig q port profile role logSync logPdelay logAnnounce prio1 prio2 => wfReq q && port < 256 && profile < 4 && role < 4 && wfI8 logSync && wfI8 logPdelay && wfI8 logAnnounce && prio1 < 256 && prio2 < 256
  | .powerLevelSet q level => wfReq q && level < 256
  | .powerLimitSet q limit => wfReq q && limit < 65536
  | .powerStatusGet q => wfReq q
  | .unitQuarantine q unit => wfReq q && unit < 65536
  | .unitRelease q unit => wfReq q && unit < 65536
  | .unitMargin q unit vstep fstep => wfReq q && unit < 65536 && vstep < 256 && fstep < 256
  | .testContentLoad q length => wfReq q && length < 2 ^ 32
  | .testControl q _ rotation => wfReq q && rotation < 65536
  | .windowLogRead q back count => wfReq q && back < 65536 && count < 256
  | .fwStage q length => wfReq q && length < 2 ^ 32
  | .fwActivate q version => wfReq q && version < 2 ^ 32
  | .attestQuote q nonce => wfReq q && nonce < 2 ^ 256
  | .identityGet q offset => wfReq q && offset < 2 ^ 32
  | .keyRevoke q slot sig => wfReq q && slot < 256 && sig.length == 384
  | .debugChallenge q => wfReq q
  | .debugUnlock q scope sig => wfReq q && scope < 256 && sig.length == 384
  | .debugLock q => wfReq q
  | .macsecKeySet q port cknLen cak ckn => wfReq q && port < 256 && cknLen < 256 && cak < 2 ^ 256 && ckn < 2 ^ 256
  | .lifecycleSet q target sig => wfReq q && target < 256 && sig.length == 384
  | .resultRead q stream selector seq offset length => wfReq q && stream < 256 && selector < 256 && seq < 2 ^ 32 && offset < 2 ^ 32 && length < 65536
  | .resultRelease q stream seq => wfReq q && stream < 256 && seq < 2 ^ 32
  | .subscribe q stream port cls everyM1 => wfReq q && stream < 256 && port < 256 && cls < 256 && everyM1 < 256
  | .unsubscribe q sub => wfReq q && sub < 256
  | .statusGet q => wfReq q
  | .countersRead q unit block entry first count _ => wfReq q && unit < 65536 && block < 65536 && entry < 65536 && first < 256 && count < 256
  | .noticeLogRead q start count => wfReq q && start < 2 ^ 32 && count < 256
  | .unitStatusGet q unit => wfReq q && unit < 65536
  | .helmClaim q _ => wfReq q
  | .helmKeep q => wfReq q
  | .helmRelease q => wfReq q
  | .helmHandover q link => wfReq q && link < 256
  | .progressGet q berth => wfReq q && berth < 256
  | .commandAbort q berth => wfReq q && berth < 256
  | .flashRewriteDone _ => true
  | .svnBurn => true
  | .activateQuiescent => true
  | .firmwareAlive => true
  | .activateFallback => true
  | .challengeExpiry => true
  | .debugSessionExpiry => true
  | .dbgBusAccess data => data < 2 ^ 70
  | .holdPowerWrite _ => true
  | .lkpHalt => true
  | .lkpResumeWrite => true
  | .dredgerRead line => wfMemRead line
  | .unitResetDone unit _ => wfUnit unit
  | .lkpRecovered _ => true
  | .lapNotice unit memory => wfUnit unit && memory < 64
  | .spareSwitch unit memory _ => wfUnit unit && memory < 64
  | .pageRemap chan page => chan < 2 && page < 2 ^ 23
  | .fuseBurnDone _ => true
  | .windowCommit job => job < 8
  | .supplyDroop island => island < 60
  | .replayStart job => job < 8
  | .replayVerdict job _ => job < 8
  | .replayLimitExpiry job => job < 8
  | .restartResumed job => job < 8
  | .testVisitStart unit => wfUnit unit
  | .testVisitDone unit _ => wfUnit unit
  | .testLate unit => wfUnit unit
  | .powerEntryQuiesced => true
  | .powerEntryComplete => true
  | .powerExitComplete => true
  | .tc10SleepRequest port => port < 4
  | .tc10SleepReject port => port < 4
  | .tc10Wake port => port < 4
  | .wakeN => true
  | .lpCurrent => true
  | .governorPeriod _ => true
  | .avsAdjust _ _ => true
  | .islandClockStop island => island < 60
  | .islandClockRestart island => island < 60
  | .counterTick _ => true
  | .mkaPduRx port pdu => port < 5 && wfMka pdu
  | .lkpLockstepMismatch => true

end Sys2Proof
end

