-- ==== Sys2Proof/Tests/Slice0.lean ====
section
/-! SUPPORT. Tests: ill-formed commands that the check refuses, the worked examples of the spec, and for every statement with
hypotheses a state and operands that meet them. -/
namespace Sys2Proof.Tests
open Sys2Proof Sys2Proof.Machine
set_option Elab.async false

/-! ### States that the witnesses start from -/

/-- A device in IDLE at PL0 with everything ready; T1A and T1B are up, nobody holds the helm. -/
def idleNoHelm : State := {
  dev := { state := .idle, ready := 2 ^ 64 - 1 },
  time := { sec := 5 },
  tow := { ports := [(0, { phyUp := true, trained := true }), (1, { phyUp := true, trained := true })] },
  pwr := { enAux := true, enDdr := true, enCore := true, por := false } }

/-- The same with the helm at T1A. -/
def idleHelm : State := { idleNoHelm with tow := { idleNoHelm.tow with holder := 0, lastReq := [(0, 5000000001)] } }

/-- A request of T1A in berth 0. -/
def req0 : Req := ⟨.port 0, 0, 1, 1, 0⟩

/-- Berth 4 holds a JOB_STOP of job 1, a LONG command. -/
def busyBerth : State := { idleHelm with tow := { idleHelm.tow with
  berths := [(4, { cmd := some (.jobStop ⟨.port 1, 4, 1, 9, 0⟩ 1), req := some ⟨.port 1, 4, 1, 9, 0⟩, code := 0x0104 })] } }

/-- Berth 4 holds a JOB_RESTART of job 0, whose restart runs. -/
def restartBerth : State := { idleHelm with
  tow := { idleHelm.tow with
    berths := [(4, { cmd := some (.jobRestart ⟨.port 1, 4, 1, 9, 0⟩ 0), req := some ⟨.port 1, 4, 1, 9, 0⟩, code := 0x0106, started := some 3, stepsDone := 1 })] }
  pass := { restart := [(0, some ⟨5, 0, 0, 0, 1, 0, [4]⟩)] } }

/-- The helm at T1A with a claim of T1B waiting in berth 4. -/
def helmClaimed : State := { idleHelm with tow := { idleHelm.tow with claim := some ⟨4, .port 1, 5⟩ } }

/-- Core 0 with matrix 3 of five rows of eight cells. -/
def weightState : State :=
  wr (wr (wr (wr idleHelm (uNE 0) NRN_MAT.VALID 1 3) (uNE 0) NRN_MAT.ROWS_M1 4 3) (uNE 0) NRN_MAT.COLS_M1 7 3) (uNE 0) NRN_MAT.FMT 2 3

/-- Job 0 runs. -/
def jobRuns0 : State := setJob { idleHelm with dev := { idleHelm.dev with state := .running } } 0 { exist := true, run := true }

/-- A graph image with no record: a header and one empty UNITS section. -/
def emptyGraph : List Byte :=
  [0x4D, 0x57, 0x47, 0x49, 1, 0, 1, 0, 128, 0, 0, 0, 0, 0xFF] ++ beBytes 50 0 ++ [2, 0, 0xFF, 0, 128, 0, 0, 0] ++ beBytes 56 0

/-- That image staged and in memory. -/
def graphStaged : State := setStage (ramPut idleHelm 0 emptyGraph) 0 { begun := true, total := 128, data := emptyGraph }

/-- LOADED, no job. -/
def loadedIdle : State := { idleHelm with dev := { idleHelm.dev with state := .loaded } }

/-- Job 0 exists and does not run. -/
def jobIdle0 : State := setJob loadedIdle 0 { exist := true }

/-- SAFE with no cause left. -/
def safeIdle : State := { idleHelm with dev := { idleHelm.dev with state := .safe } }

/-! Keys and signatures made for these tests alone: a modulus of 544 bits, exponent 65,537. -/

/-- A modulus. -/
def keyN : Nat := 0xce3303ab5da411b178ccd618129ad5be93d1dd0444ea3181f251397368f3f7fb9e0c0614d2607398837e8410675459d58bc64d9da12aa474fa2311e53a7e7c75fe5d828d

/-- A signed firmware image of version 7 with an empty body. -/
def fwImage : List Byte :=
  [0x4D, 0x57, 0x46, 0x57, 1, 0, 0, 0, 7, 0, 0, 0] ++ beBytes 52 0 ++ beBytes 384 keyN ++ beBytes 384 keyN
    ++ beBytes 192 0 ++ beBytes 384 0x85a5246d14bc8170bbebc753cde91a32c2abc0f6e2b2236954b6d443b3f402b5688613f511b330bd5ab3140d3667e48db055e8173ef54d1b4cc504634ded84af1586cfd0

/-- Signed test content of version 9 with no sections. -/
def testImage : List Byte :=
  [0x4D, 0x57, 0x46, 0x57, 1, 1, 0, 0, 9, 0, 0, 0] ++ beBytes 52 0 ++ beBytes 384 keyN ++ beBytes 384 keyN
    ++ beBytes 192 0 ++ beBytes 384 0x5ce8b25034da4b04ac3405f877d329eba22f6c21c0f39cae7882c51a43f32b1be458dee46dd905a29fb7dd89b56138bfa37bf5ff8dc6c98cb556f9b6b25aef2e19175fdc

/-- A revocation of key slot 2. -/
def revokeSig : List Byte := beBytes 384 0x2be06f9ebfb16745c1fa422fd254ea14002e9d7c86d45485a464bca521e180f47d0118209d707e8e9515545c69be13669535a4cc3cacba5d2f906c19608791c940b0507d

/-- A request for lifecycle 1 of this device. -/
def lifeSig : List Byte := beBytes 384 0x6a339715dcc1770dd9a9c5e7bc47ea41ba140a5902ad6335dd99fba0de3c4a4de220ae9cba923f88b7d5193eb9e80a4b8da099bc1877ca80ae94fe6e495cda97dfd2b1f8

/-- A request for lifecycle 3 of this device. -/
def rmaSig : List Byte := beBytes 384 0x70300ce6a2bc707410412811a9577525d28332b531a0d033a7c38aeeaad8f843c94be06891c5872b06923bfebdf355de19c86e8a7ce731c253609d68e249886000882bc6

/-- An unlock of scope 3 under the challenge 0x55. -/
def unlockSig : List Byte := beBytes 384 0x93cc3cc8ef5da03a1cc97e2c6f0abddda5c71ca33815f1a4314742511e30cd5b5979303c29720ce721202aa8325b62d42d738c57686b540f514e0ea935d014506607a078

/-- The running firmware with that key. -/
def ranFw : FwImg := ⟨7, 0, 0, 0, keyN, keyN, []⟩

/-- An unprovisioned device whose key slot 0 holds the hash of that key. -/
def keyedDev : State := { idleHelm with sec := { fw := some ranFw, uid := 0x112233, keyHash0 := 0x025cf8c2cb9e45757797357d52ac12e86561475fac9a2cba38512fa46a79a3ec, dbgKeyHash := 0x025cf8c2cb9e45757797357d52ac12e86561475fac9a2cba38512fa46a79a3ec, devKey := true, chain := [1] } }

/-- That device with the firmware image staged. -/
def fwState : State := setStage keyedDev 1 { begun := true, total := 1408, data := fwImage }

/-- What the image says of itself. -/
def fwParsed : FwImg := ⟨7, 0, 0, sha256 (fwImage.take 1024), keyN, keyN, fwImage⟩

/-- The same with the test content. -/
def tcState : State := setStage keyedDev 2 { begun := true, total := 1408, data := testImage }

/-- Stream 2 with record 1 of 64 bytes in slot 0; the helm host releases. -/
def ringState : State :=
  setStr (wr (wr loadedIdle (uSTREAM 2) RES_STREAM.ENABLE 1) (uSTREAM 2) RES_STREAM.BASE 0x10000000) 2
    { lastSeq := 1, slots := [(0, ⟨1, 64, 0, false⟩)] }

/-- The same with subscription 0 of T1A. -/
def subState : State :=
  { wr ringState uDEV RES_SUB.VALID 1 with res := { ringState.res with subs := [(0, { creator := some (.port 0) })] } }

/-- The notice log holds notices 1 and 2. -/
def noticed : State :=
  { idleHelm with tow := { idleHelm.tow with logSeq := 2, log := [⟨2, 1, 1, 0, 0xFFFF, 5, []⟩, ⟨1, 1, 1, 0, 0xFFFF, 5, []⟩] } }

/-- BRINGUP with nothing ready. -/
def bringup0 : State := { idleNoHelm with dev := { idleNoHelm.dev with state := .bringup, ready := 0 } }

/-- Canal link 1 up. -/
def linkUp1 : State := setLink idleHelm 1 { up := true, lanes := 3 }

/-- A packet of class 2 that no lock has looked up waits at the surface port of core 1. -/
def packetAt : State := setCq idleHelm (pSE 1) 2 [{ key := 5, pay := 6 }]

/-- The same at core 0. -/
def packetAt0 : State := setCq idleHelm (pSE 0) 2 [{ key := 5, pay := 6 }]

/-- It has been looked up and goes to stream 2. -/
def packetLooked : State := setCq idleHelm (pSE 1) 2 [{ key := 5, pay := 6, dst := some { stream := some 2 } }]

/-- A copy bound for stream 2 at hub 3 waits at the mesh from hub 0 to hub 3. -/
def packetOnWay : State := setCq idleHelm 787 2 [{ key := 5, pay := 6, to_ := some (pStream 2) }]

/-- Urgent pair 0 of the running job 0, with a binned copy waiting. -/
def upState : State :=
  setUp { jobRuns0 with upIn := [(0, [⟨1, 2, true, 5000000000, 0, false⟩])] } 0 { used := true, job := 0, ports := 1 }

/-- It offers an alarm, and there is a token. -/
def alarmOffered : State :=
  setPol (setUp upState 0 { upOf upState 0 with offered := [⟨0, 0, 0, 1, 1, 5, 0, false, 1⟩] }) 0 { tokens := 1 }

/-- Both host links have been down since reset. -/
def linksDown : State := { idleHelm with tow := { idleHelm.tow with ports := [(0, { trained := true }), (1, { trained := true })] } }

/-- Sluice 1 with its port enabled. -/
def portState : State := wr (wr loadedIdle (uSL 1) SLU_PORT.ENABLE 1) (uSL 1) SLU_PORT.PHY 1

/-- Sluice 1 in FRAME mode with every buffer held by an array. -/
def framesHeld : State :=
  setSlu (wr portState (uSL 1) SLU_PORT.MODE 2) 1 { bufs := (upto 16).map (fun i => (i, ⟨i + 1, true, 1, true⟩)) }

/-- A SENSOR_I3C of berth 4 waits at sluice 2. -/
def i3cBusy : State := setI3c 2 (some ⟨4, 0⟩) { idleHelm with tow := { idleHelm.tow with
  berths := [(4, { cmd := some (.timeGet ⟨.port 1, 4, 1, 9, 0⟩), req := some ⟨.port 1, 4, 1, 9, 0⟩, code := 0x0205 })] } }

/-- Core 0 belongs to the running job 0. -/
def core0 : State := setUnit jobRuns0 (uC 0) { unitOf jobRuns0 (uC 0) with st := .assigned, job := 0 }

/-- Entry 0 of core 0 is in a packet of sluice 0; an event word has been popped for it. -/
def seEventState : State := setSrf (setQueue core0 0 { latched := [{ w := 2 ^ 31 + 5, last := true }] }) 0 { cur := some 0 }

/-- The same with the core's output port full. -/
def seStalledState : State := setCq seEventState (pSE 0) 2 ((upto 40).map (fun i => { key := i, pay := 0 }))

/-- A service word instead: an EPOCH. -/
def seServiceState : State := setSrf (setQueue core0 0 { latched := [{ w := 2 ^ 30 + 7, last := true }] }) 0 { cur := some 0 }

/-- Core 0 with a corner of a moving edge waiting. -/
def cornerState : State :=
  setSrf core0 0 { corners := [⟨0, 2, 0, true, 9, 9, 5000, (upto 81).map (fun i => 1200 - 50 * max (i % 9) (i / 9)), false, srfCfg core0 0⟩] }

/-- A corner whose window was never written. -/
def cornerNever : State := setSrf core0 0 { corners := [⟨0, 2, 0, true, 9, 9, 5000, [], false, srfCfg core0 0⟩] }

/-- Inertial channel 3 runs, at the end of its first output period. -/
def inrState : State := setInr (wr idleHelm (uIN 3) INR_CH.ENABLE 1) 3 { on := true, periods := outEdges 1 }


/-- A packet of class 2 waits at the input of neuron engine 0 of running core 0. -/
def neIn0 : State := setCq core0 (pNeIn 0) 2 [{ key := 5, pay := 6 }]

/-- The same in a job with second passage and no undo region. -/
def neFull0 : State := setJob neIn0 0 { exist := true, run := true, spjob0 := 1 }

/-- The packet is an input of row 0, and 8,192 of one stamp are held. -/
def neCrowded : State :=
  let s := wr (wr (wr neIn0 (uNE 0) NRN_INMAP.VALID 1) (uNE 0) NRN_MAT.VALID 1) (uNE 0) NRN_MAT.ROWS_M1 7
  setNe s 0 { inputs := (upto 8192).map (fun _ => ⟨7, 5, 0, 0, false, false⟩) }

/-- An input of stamp 7 waits in neuron engine 0. -/
def neWaiting : State := setNe core0 0 { inputs := [⟨7, 5, 0, 0, false, false⟩] }

/-- A batch of stamp 7 that touches nothing waits for its update. -/
def neBatch0 : State := setNe core0 0 { batches := [⟨7, [], false⟩] }

/-- Group 1 of core 0 ticks every 100 µs and counts in windows of 100 µs. -/
def neGroup : State :=
  wr (wr (wr (wr core0 (uNE 0) NRN_GRP.VALID 1 1) (uNE 0) NRN_GRP.TICK_US 100 1) (uNE 0) NRN_GRP.CNT_EN 1 1) (uNE 0) NRN_GRP.CNT_WINDOW_US 100 1

/-- Core 0 in stepped time. -/
def neStepped : State := wr (wr core0 (uNE 0) NRN_CFG.TIME_MODE 1) (uNE 0) NRN_CFG.STEP_US 100

/-- Array 1 belongs to the running job 0; its programme 3 has one descriptor of each kind. -/
def array1 : State :=
  let s := setUnit jobRuns0 (uFA 1) { unitOf jobRuns0 (uFA 1) with st := .assigned, job := 0 }
  let s := wr (wr s (uFA 1) ARR_PROG.VALID 1 3) (uFA 1) ARR_PROG.LD_COUNT 1 3
  wr (wr s (uFA 1) ARR_PROG.CMP_COUNT 1 3) (uFA 1) ARR_PROG.ST_COUNT 1 3

/-- An instance of that programme at its beginning. -/
def inst1 : ArrInst := ⟨3, 1, 5, ⟨3, .none, 0, 0, 5, false, false⟩, entryWords array1 (uFA 1) 0x0601 3 4, 0, 0, false, 0, 0, false⟩

/-- It runs. -/
def arrayRuns : State := setFa array1 1 { run := some inst1 }

/-- It has a weight set and a tile. -/
def arrayLoaded : State := setFa arrayRuns 1 { faOf arrayRuns 1 with wsets := [⟨[]⟩], tiles := [⟨0, 0, 0, []⟩] }

/-- Its accumulator half 0 is finished. -/
def arrayReady : State := setFa arrayRuns 1 { faOf arrayRuns 1 with ready := [0], cur := 1 }

/-- Builder 1 belongs to the running job 0, and a packet of class 2 waits for it. -/
def tenPkt : State :=
  setCq (setUnit jobRuns0 (uTEN 1) { unitOf jobRuns0 (uTEN 1) with st := .assigned, job := 0 }) (pTen 1) 2 [{ key := 5, pay := 6 }]

/-- Its entry 2 takes that packet. -/
def tenPktMatch : State := wr tenPkt (uTEN 1) TEN_VOX.VALID 1 2

/-- Window 40 of entry 2 is open in buffer 1; windows last 100 µs. -/
def tenOpen : State := setTen (wr tenPktMatch (uTEN 1) TEN_VOX.WINDOW_US 100 2) 1 2 { open_ := some (40, 1), bufs := [(1, 1)] }

/-- That window is in grace. -/
def tenGrace : State := setTen tenOpen 1 2 { grace := some (40, 1), bufs := [(1, 1)] }

/-- Programme 0 of array 1 wants entry 2. -/
def tenGraceRun : State :=
  let s := wr (wr tenGrace (uTEN 1) TEN_VOX.TRIG_EN 1 2) (uFA 1) ARR_PROG.VALID 1
  wr (wr s (uFA 1) ARR_PROG.TRIGGER 1) (uFA 1) ARR_PROG.SRC 2

/-- Source 3 is copying a snapshot. -/
def fillState : State :=
  { wr jobRuns0 uFUS FUS_SRC.VALID 1 3 with fus := { srcs := [(3, { fill := some { slot := 0, tov := 5 } })] } }

/-- Source 3 is a lidar whose queue holds one point. -/
def lidarState : State := setQueue (wr fillState uFUS FUS_SRC.KIND 1 3) 0 { latched := [{ w := 0 }, { w := 0 }, { w := 0 }, { w := 0 }] }

/-- Source 3 is a flow source; a FLOW_V waits. -/
def flowState : State :=
  setCq (wr (wr fillState uFUS FUS_SRC.KIND 2 3) uFUS FUS_SRC.EGO_USE 1 3) pFus 2 [{ key := 2 ^ 25 + 7, pay := 6, parK := 0, parP := 0 }]

/-- A FLOW_T instead. -/
def flowState2 : State := setCq flowState pFus 2 [{ key := 2 ^ 25 + 2 ^ 24 + 7, pay := 6, parK := 1, parP := 0 }]

/-- A tick has found every register of the engine at its reset value. -/
def fusTicked : State := { jobRuns0 with fus := { cfg := some [] } }

/-- A cycle with no source. -/
def fusCyc : FusCycle := { tick := 4, cycle := 4, tov := 5000, oldest := 0, used := 0, masked := 0, late := 0, empty := true, buf := 0, t0 := 4000, t1 := 5000, head := true }

/-- Its grid stage. -/
def gridState : State := { jobRuns0 with fus := { grid := some fusCyc } }

/-- Its ego-motion stage. -/
def egoState : State := { jobRuns0 with fus := { ego := [fusCyc] } }

/-- Its object stage. -/
def objState : State := { jobRuns0 with fus := { obj := [fusCyc], incs := [(4, [], false)] } }

/-- Stream 2 is enabled; a packet waits for it. -/
def entryWaits : State := setCq ringState (pStream 2) 2 [{ key := 5, pay := 6 }]

/-- An entry is offered to it instead. -/
def entryOffered : State := offerEntry 2 { bytes := [], key := none, tov := 5, poison := false, unit := 0, win := 0 } ringState

/-- A record of stream 2 with no entry, opened at 1 s and flushed after 100 µs. -/
def rec2 : Rec := { slot := 1, kind := 0, job := 0, opened := 1000000000, flush := 100 }

/-- It is open. -/
def recOpen : State := setStr ringState 2 { strOf ringState 2 with cur := some rec2 }

/-- It is closed and waits. -/
def recClosed : State := setStr ringState 2 { strOf ringState 2 with waiting := [rec2] }

/-- It holds output of a suspect step of core 0 in a job with second passage. -/
def recHeld : State :=
  let s := setJob (setStr ringState 2 { strOf ringState 2 with waiting := [{ rec2 with steps := [(uNE 0, 7)] }] }) 0 { exist := true, run := true, spjob0 := 1 }
  { s with pass := { s.pass with steps := [{ job := 0, win := 7, unit := uNE 0, sus := true }] } }

/-- A selection of record 1 of stream 2 by subscription 0. -/
def pushJob0 : PushJob := ⟨0, 2, 1, 0⟩

/-- It waits at port 0. -/
def pushWaits : State := setPush subState 0 { waiting := [pushJob0] }

/-- The running job 0 owns berth 2. -/
def portalJob : State := setJob jobRuns0 0 { exist := true, run := true, berths := 4 }

/-- A request area that holds a TIME_GET. -/
def goData : List Byte := [0x54, 0x57, 1, 0] ++ List.replicate 28 0

/-- Generation 4 of job 0 is in progress. -/
def ckptJob : State := setJob jobRuns0 0 { exist := true, run := true, ckptRun := some { gen := 4, half := 0, win := 0, due := 6000000000 } }

/-- Its grace is over. -/
def ckptLate : State := setJob jobRuns0 0 { exist := true, run := true, ckptRun := some { gen := 4, half := 0, win := 0, due := 4000000000 } }

/-- Hart 2 runs the guest of job 0. -/
def guestHart : State := { jobRuns0 with apx := { harts := [(2, { inGuest := true })] } }

/-- The guest may read and write memory below 64 KiB. -/
def guestRegion : State := setJob guestHart 0 { exist := true, run := true, jobctlGpa := 0x100000, regions := [⟨0, 0x10000, false, true, false⟩] }

/-- Job 0 owns the enabled portal queue 40. -/
def queueState : State :=
  let s := setJob jobRuns0 0 { exist := true, run := true, queues := 2 ^ 40 }
  wr (wr s (uQUEUE 40) BRG_Q.PROD 2) (uQUEUE 40) BRG_Q.ENABLE 1

/-- It holds a committed word for the guest. -/
def queueFull : State := setQueue (wr queueState (uQUEUE 40) BRG_Q.CONS 2) 40 { ws := [{ w := 7, last := true, first := true }], headN := 1 }

/-- Queue 50 takes Canal copies, and one waits. -/
def canalQueue : State :=
  setCq (wr (wr queueState (uQUEUE 50) BRG_Q.PROD 1) (uQUEUE 50) BRG_Q.ENABLE 1) (pQueue 50) 2 [{ key := 5, pay := 6 }]

/-- It has a line to move. -/
def lineState : State := setQueue (wr canalQueue (uQUEUE 50) BRG_Q.SPILL_TGT 1) 50 { ws := List.replicate 80 { w := 0 }, headN := 64 }

/-- The same with no spill memory and no room. -/
def canalFull : State :=
  setQueue (wr canalQueue (uQUEUE 50) BRG_Q.SPILL_LIMIT_MIB 0) 50 { ws := List.replicate 128 { w := 0 } }

/-- PTP is on at port 0. -/
def ptpOn : State := wr idleHelm (uETH 0) TMU_PORT.PTP_EN 1

/-- A TIME_GET with an empty header: magic, version, CRC-32C. -/
def timeGetMsg : List Byte := [0x54, 0x57, 1, 0] ++ List.replicate 24 0 ++ [0x5b, 0xc4, 0xb6, 0x18]

/-- How a frame that T1A takes stands on the wire. -/
def wrap4 : Wrap := ⟨true, false, 47100, true, false⟩

/-- Port 3 is a sensor port with one ring for UDP port 9. -/
def sensorPort : State :=
  let s := setEth idleHelm 3 { ethOf idleHelm 3 with phyUp := true }
  wr (wr (wr (wr s (uETH 3) TOW_PORT.ROLE 2) (uETH 3) TOW_RXF.VALID 1 1) (uETH 3) TOW_RXF.PORT 9 1) (uETH 3) TOW_RXF.BASE 0x400000 1

/-- Port 0 uses MACsec with association 5. -/
def macsecOn : State := setEth (wr idleHelm (uETH 0) TOW_PORT.MACSEC_EN 1) 0 { ethOf idleHelm 0 with macsecCkn := 5, cknLen := 1 }

/-- BOOT with the firmware image in flash. -/
def flashBoot : State := { keyedDev with dev := { keyedDev.dev with state := .boot }, sec := { keyedDev.sec with flash := fwImage, fw := none } }

/-- A clean line of a memory of core 0. -/
def memLine : MemRead := ⟨uC 0, 6, 0, 0, 0, 0, [], [], false, false, true⟩

/-- Core 0 is being reset. -/
def resettingCore : State := setUnit idleHelm (uC 0) { unitOf idleHelm (uC 0) with resetting := true }

/-- Job 0 with second passage; the step of core 0 in window 7 is suspect, cores 0 and 1 belong to it. -/
def suspectAlone : State :=
  let s := setJob core0 0 { exist := true, run := true, spjob0 := 0x0005_1388_00C8_0001 }
  { s with pass := { s.pass with steps := [{ job := 0, win := 7, unit := uNE 0, sus := true }] } }

/-- Core 1 is free for its replay. -/
def suspectJob : State := setUnit suspectAlone (uC 1) { unitOf suspectAlone (uC 1) with st := .spare }

/-- Test content is installed and runs; core 1 is a spare. -/
def testsOn : State := setPass (setUnit idleHelm (uC 1) { unitOf idleHelm (uC 1) with st := .spare }) { content := some 9, testOn := true, rotation := 100 }

/-- Core 1 is being tested. -/
def testRuns : State := setTest (uC 1) { start := 7, prev := 5, running := true } testsOn

/-- An entry to PL3 is quiesced. -/
def entering : State := setPwr idleHelm { idleHelm.pwr with entry := some { target := 3, quiesced := true } }

/-- A device that may sleep. -/
def safeSleep : State := idleHelm

/-! ### Worked examples of the spec -/

/-- The ring ages of the corner example of file 04. -/
def cornerAges (dx dy : Int) : Nat :=
  match ring3.idxOf? (dx, dy), ring4.idxOf? (dx, dy) with
  | some i, _ => [700, 900, 120, 80, 60, 150, 400, neverAge, neverAge, neverAge, 2000, 1500, 900, 850, 600, 800].getD i 0
  | none, some i => [neverAge, neverAge, 500, 90, 70, 110, 130, 100, 300, 450, 600, 800, 1200, 1000, 700, 650, 900, 1100,
      neverAge, neverAge].getD i 0
  | none, none => neverAge

/-- File 04, "a corner": the score is 170. -/
theorem test_corner_score : cornerScore (wr idleHelm (uSE 5) SRF_CFG.SCORE_SHIFT 0) 5 cornerAges = some 170 := by decide +kernel

/-- File 04, "a flow vector": vx 10,240, vy 5,120, confidence 71. -/
theorem test_flow_vector :
    planeFitWith 5000 8 50 16 (fun dx dy => if 2 * dx + dy ≤ 0 then (-20 * dx - 10 * dy).toNat else neverAge) 0 0
      = .ok 10240 5120 71 3886 (-77720) (-38860) := by decide +kernel

/-- Core 6 with the LIF_SUB model of file 05, "two inputs with one stamp". -/
def lifState : State :=
  let u := uNE 6
  let s := wr (wr (wr idleHelm u NRN_MODEL.REFR_SHIFT 4) u NRN_MODEL.DT_SHIFT0 4) u NRN_MODEL.D0 65431
  let s := setRegWord s u 0x0404 0 0 (setBits (regWord s u 0x0404 0 0) 32 24 1000)
  let s := setRegWord s u 0x0404 0 1 (lowBits 24 (-2000) * 2 ^ 32)
  let s := setRegWord s u 0x0404 0 2 3
  setNe s 6 { words := [(300, 900)], stamps := [(300, 1000100)] }

/-- The neuron ends with M = 919, R = 0 and the stamp 1,000,120. -/
theorem test_lif_sub :
    let v := neOf (updateNeuron 6 2 300 ⟨1000120, 0, 1000120⟩ true 20 false lifState) 6
    (tget 0 v.words 300, tget 0 v.stamps 300) = (919, 1000120) := by decide +kernel

/-- File 07: INT8 output with SCALE 1, SHIFT 8, ZERO_POINT 3: 25,216 is stored as 101 and 25,472 as 103. -/
theorem test_requantisation :
    [25216, 25472].map (fun a => (rqInt ⟨[2 ^ 32, 8 + 3 * 2 ^ 16], false⟩ 0 1 ⟨a, false⟩).w) = [101, 103] := by decide +kernel

/-- File 17, "one byte": 0xA5 is stored as 0x03A5, as poison 0x1CA5; bit 5 flipped is corrected; the marker reads as poison. -/
theorem test_stored_byte : sramStore 0xA5 false = 0x03A5 ∧ sramStore 0xA5 true = 0x1CA5 ∧
    sramDecode 0x0385 = (0xA5, .corrected) ∧ sramDecode 0x03A5 = (0xA5, .clean) ∧ sramDecode 0x1CA5 = (0xA5, .marker) := by decide +kernel

/-- File 15, "setting the filters of SL5": the fields of the word. -/
theorem test_filter_word :
    [SLU_FLT.RATE_MEVS, SLU_FLT.RATE_BURST, SLU_FLT.FLK_FMIN, SLU_FLT.FLK_FMAX].map (fldOf [0x001012c31b85a914]) = [600, 64, 90, 110] := by
  decide +kernel

/-- File 15: FLK_FMAX below FLK_FMIN is refused, the word of the example is taken. -/
theorem test_filter_rule : checkSluFlt [0x001012c31b85a914] = ST_OK ∧
    checkSluFlt [setBits 0x001012c31b85a914 22 10 80] = ST_UNSUPPORTED := by decide +kernel

/-- A step runs the command in front and leaves the rest of the queue. -/
theorem test_step_takes_front :
    (step { idleHelm with pending := [.firmwareAlive, .svnBurn] } |> fun | .next t => t.pending | _ => []) = [.svnBurn] := by decide +kernel

/-- File 21: the balls of each rail (Table 21-5). -/
theorem test_supply_balls :
    ([.rail .vddCore, .rail .vddSram, .rail .vddqDdr, .rail .vdd1v8, .rail .vdd3v3, .rail .vsysSafe, .vss].map
      (fun b => ballCount (· == b))) = [297, 67, 40, 40, 16, 4, 804] := by decide +kernel

/-- File 21, "finding balls": U1, U45, B7, B39 and BB27. -/
theorem test_find_balls :
    [ballAt 16 1, ballAt 16 45, ballAt 2 7, ballAt 2 39, ballAt 40 27]
      = [.sig "SL3_D0_P", .sig "SL11_D0_P", .sig "DDR0_DQ17", .sig "DDR1_DQ17", .sig "CK2_TX5_N"] ∧
    [ballName 16 1, ballName 2 39, ballName 40 27] = ["U1", "B39", "BB27"] := by decide +kernel

/-! ### Ill-formed commands -/

/-- One ill-formed command for each check of `Instr.wf`, part 1. -/
theorem test_wf_refuses1 : ([
    .selfTestDone 65536 false,
    .ddrTrainingDone 2 .failed,
    .ddrTrainingDone 0 (.trained 0),
    .ddrFillDone 2 false,
    .ethPhyLinkChange 5 false false,
    .linkEnable 4 0,
    .linkUp 4 0 0 false 0,
    .linkUp 0 5 0 false 0,
    .linkUp 0 0 64 false 0,
    .linkDown 4 .noFrame,
    .linkFrameTx 4,
    .linkFrameRx 4 0,
    .devIdWrite 64,
    .lockLookup (.lock 16) false,
    .lockLookup (.link 4) false,
    .packetDispatch 52,
    .packetDispatch 804,
    .cl0Police 4,
    .cl0TokenAdd 4,
    .cnlUpqWrite 4 0,
    .probeEmit 4,
    .pathProbe 2 0,
    .pathProbe 0 4,
    .upBinnedCopy 4 false false,
    .alarmFramerRx 2 false,
    .alarmFrameTx 2,
    .safeStopFrame 2,
    .safeCauseClear 16,
    .supplyFault 16,
    .mechDiagnostic 6 false,
    .stateConflict 65536 .unused,
    .csi2LongPacket 16 0 0 .ok false 0 [] [],
    .csi2LongPacket 0 32 0 .ok false 0 [] [],
    .csi2LongPacket 0 0 64 .ok false 0 [] [],
    .csi2LongPacket 0 0 0 .ok false 0 (List.replicate 65536 0) [],
    .frameStart 16 0 0 .ok,
    .frameStart 0 32 0 .ok,
    .frameStart 0 0 65536 .ok,
    .frameEnd 16 0 .ok,
    .frameEnd 0 32 .ok] : List Instr).all (fun i => !i.wf) = true := by decide +kernel

/-- One ill-formed command for each check of `Instr.wf`, part 2. -/
theorem test_wf_refuses2 : ([
    .syncInEdge 16,
    .pairTimeout 16,
    .rateTokenAdd 16,
    .rateInterval 16,
    .refractSweep 16 0,
    .refractSweep 0 (2 ^ 22),
    .sluLinkUpTimeout 16,
    .portEnable 16 0 0,
    .portClearDone 16,
    .portDisable 16 0,
    .sourceChange 16,
    .i3cIbi 16 0 [],
    .i3cIbi 0 128 [],
    .inputPeriod 3 [] [],
    .inrOutput 24,
    .synchronisingReset 3 [],
    .channelResetWrite 24 0 0,
    .seEvent 16 0 false,
    .seEvent 0 4 false,
    .apertureMerge 16 false,
    .seServiceWord 16 0,
    .seServiceWord 0 4,
    .gyroRecord 16 0 false,
    .gyroRecord 0 24 false,
    .surfaceSweep 16,
    .srfPortEnable 16 0 0,
    .srfPortEnable 0 4 0,
    .surfaceClearDone 16 0,
    .surfaceClearDone 0 4,
    .neInput 16,
    .batchRelease 16,
    .batchUpdate 16,
    .tickBatch 16 0,
    .tickBatch 0 64,
    .stampSweep 16 0,
    .stampSweep 0 65536,
    .stepClose 16,
    .stepOverrun 16,
    .countWindowClose 16 0,
    .countWindowClose 0 64] : List Instr).all (fun i => !i.wf) = true := by decide +kernel

/-- One ill-formed command for each check of `Instr.wf`, part 3. -/
theorem test_wf_refuses3 : ([
    .countCopyDone 16,
    .arrRunWrite 4 0 0,
    .arrRunWrite 0 16 0,
    .arrRunWrite 0 0 8,
    .instanceStart 4,
    .loadDescriptor 4,
    .computePass 4,
    .storeDescriptor 4,
    .tenPacket 4 false,
    .tenWindowEnd 4 0,
    .tenWindowEnd 0 8,
    .tenWindowClose 4 0,
    .tenWindowClose 0 8,
    .tenBufferCleared 4 0 0,
    .tenBufferCleared 0 8 0,
    .tenBufferCleared 0 0 3,
    .checkpointPeriod 8,
    .gridStageEnd [2 ^ 26],
    .objectStage [2 ^ 20],
    .snapshotCopyDone 32,
    .lidarRecord 32 false,
    .streamEntry 64,
    .recordFlush 64,
    .recordCommit 64,
    .streamEnable 64 0 0,
    .streamDisable 64 0,
    .pushCopy 6,
    .pushFragment 6,
    .berthGo 16 [],
    .berthGo 0 (List.replicate 2033 0),
    .ckptAck 8 0,
    .ckptAck 0 (2 ^ 32),
    .ckptGraceExpiry 8,
    .jobStopHalt 8,
    .hartPoisonTrap 8 0,
    .guestAccessFault 8 0 0 false 0,
    .guestAccessFault 0 0 9 false 0,
    .guestAccessFault 0 0 0 false (2 ^ (8 * 0)),
    .l1ParityError 8,
    .portalPush 512 0 [] false] : List Instr).all (fun i => !i.wf) = true := by decide +kernel

/-- One ill-formed command for each check of `Instr.wf`, part 4. -/
theorem test_wf_refuses4 : ([
    .portalPush 0 8 [] false,
    .portalPushEnd 512 0 [] false,
    .portalPushEnd 0 8 [] false,
    .portalAbort 512 0,
    .portalAbort 0 8,
    .portalPop 512 0 false,
    .portalPop 0 8 false,
    .queueCopyWrite 512,
    .canalCloseTimeout 512,
    .middleLineWrite 512 false,
    .middleLineRead 512 false,
    .queuePop 512 false,
    .queueDisable 512 0,
    .ptpSyncRx 5 false ⟨0, false, 0, 0⟩,
    .ptpSyncRx 0 false ⟨65536, false, 0, 0⟩,
    .ptpFollowUpRx 5 false 0 0 0,
    .ptpFollowUpRx 0 false 65536 0 0,
    .ptpLkpMessage 5 false (.other 0),
    .ptpEventTx 5 0 0,
    .ptpEventTx 0 16 0,
    .ptpEventTx 0 0 65536,
    .txqLookup 5 0,
    .txqLookup 0 (2 ^ 32),
    .cmpArm 8 0 0,
    .comparatorFire 8,
    .syncoutEnable 16 0 0,
    .syncOutEdge 16,
    .syncOutPulseEnd 16,
    .towlineRequestRx 5 0 0 ⟨true, false, 0, true, false⟩ [],
    .towlineRequestRx 0 0 65536 ⟨true, false, 0, true, false⟩ [],
    .towlineRequestRx 0 0 0 ⟨true, false, 0, true, false⟩ (List.replicate 65536 0),
    .arpIcmpRx 5 (.arp 0),
    .sensorFrameRx 5 0 [],
    .sensorFrameRx 0 65536 [],
    .sensorFrameRx 0 0 (List.replicate 65536 0),
    .ethFrameTx 5,
    .blobBegin { req0 with link := .port 5 } 0 0,
    .blobBegin { req0 with berth := 16 } 0 0,
    .blobBegin { req0 with cls := 4 } 0 0,
    .blobBegin { req0 with seq := 2 ^ 32 } 0 0] : List Instr).all (fun i => !i.wf) = true := by decide +kernel

/-- One ill-formed command for each check of `Instr.wf`, part 5. -/
theorem test_wf_refuses5 : ([
    .blobBegin { req0 with epoch := 2 ^ 32 } 0 0,
    .blobBegin req0 256 0,
    .blobBegin req0 0 (2 ^ 32),
    .blobWrite { req0 with berth := 16 } 0 0 [],
    .blobWrite req0 256 0 [],
    .blobWrite req0 0 (2 ^ 32) [],
    .blobWrite req0 0 0 (List.replicate 1193 0),
    .graphLoad { req0 with berth := 16 } 0 0,
    .graphLoad req0 (2 ^ 32) 0,
    .graphLoad req0 0 (2 ^ 256),
    .graphUnload { req0 with berth := 16 },
    .jobStart { req0 with berth := 16 } 0 false,
    .jobStart req0 256 false,
    .jobStop { req0 with berth := 16 } 0,
    .jobStop req0 256,
    .jobCheckpoint { req0 with berth := 16 } 0,
    .jobCheckpoint req0 256,
    .jobRestart { req0 with berth := 16 } 0,
    .jobRestart req0 256,
    .safeExit { req0 with berth := 16 },
    .configWrite { req0 with berth := 16 } 0 0 0 0 [],
    .configWrite req0 65536 0 0 0 [],
    .configWrite req0 0 65536 0 0 [],
    .configWrite req0 0 0 65536 0 [],
    .configWrite req0 0 0 0 256 [],
    .configWrite req0 0 0 0 0 (List.replicate 150 0),
    .configRead { req0 with berth := 16 } 0 0 0 0 0,
    .configRead req0 65536 0 0 0 0,
    .configRead req0 0 65536 0 0 0,
    .configRead req0 0 0 65536 0 0,
    .configRead req0 0 0 0 256 0,
    .configRead req0 0 0 0 0 256,
    .routeWrite { req0 with berth := 16 } 0 0 [],
    .routeWrite req0 65536 0 [],
    .routeWrite req0 0 65536 [],
    .routeWrite req0 0 0 (List.replicate 512 0),
    .weightsWrite { req0 with berth := 16 } 0 0 0 0 false [],
    .weightsWrite req0 256 0 0 0 false [],
    .weightsWrite req0 0 256 0 0 false [],
    .weightsWrite req0 0 0 65536 0 false []] : List Instr).all (fun i => !i.wf) = true := by decide +kernel

/-- One ill-formed command for each check of `Instr.wf`, part 6. -/
theorem test_wf_refuses6 : ([
    .weightsWrite req0 0 0 0 65536 false [],
    .weightsWrite req0 0 0 0 0 false (List.replicate 1193 0),
    .sensorI3c { req0 with berth := 16 } 0 0 false [] 0 .silent,
    .sensorI3c req0 256 0 false [] 0 .silent,
    .sensorI3c req0 0 128 false [] 0 .silent,
    .sensorI3c req0 0 0 false (List.replicate 256 0) 0 .silent,
    .sensorI3c req0 0 0 false [] 256 .silent,
    .i3cTimeout 16,
    .filterSync { req0 with berth := 16 } 0,
    .filterSync req0 256,
    .timeGet { req0 with berth := 16 },
    .ptpConfig { req0 with berth := 16 } 0 0 0 0 0 0 0 0,
    .ptpConfig req0 256 0 0 0 0 0 0 0,
    .ptpConfig req0 0 4 0 0 0 0 0 0,
    .ptpConfig req0 0 0 4 0 0 0 0 0,
    .ptpConfig req0 0 0 0 128 0 0 0 0,
    .ptpConfig req0 0 0 0 0 128 0 0 0,
    .ptpConfig req0 0 0 0 0 0 128 0 0,
    .ptpConfig req0 0 0 0 0 0 0 256 0,
    .ptpConfig req0 0 0 0 0 0 0 0 256,
    .powerLevelSet { req0 with berth := 16 } 0,
    .powerLevelSet req0 256,
    .powerLimitSet { req0 with berth := 16 } 0,
    .powerLimitSet req0 65536,
    .powerStatusGet { req0 with berth := 16 },
    .unitQuarantine { req0 with berth := 16 } 0,
    .unitQuarantine req0 65536,
    .unitRelease { req0 with berth := 16 } 0,
    .unitRelease req0 65536,
    .unitMargin { req0 with berth := 16 } 0 0 0,
    .unitMargin req0 65536 0 0,
    .unitMargin req0 0 256 0,
    .unitMargin req0 0 0 256,
    .testContentLoad { req0 with berth := 16 } 0,
    .testContentLoad req0 (2 ^ 32),
    .testControl { req0 with berth := 16 } false 0,
    .testControl req0 false 65536,
    .windowLogRead { req0 with berth := 16 } 0 0,
    .windowLogRead req0 65536 0,
    .windowLogRead req0 0 256] : List Instr).all (fun i => !i.wf) = true := by decide +kernel

/-- One ill-formed command for each check of `Instr.wf`, part 7. -/
theorem test_wf_refuses7 : ([
    .fwStage { req0 with berth := 16 } 0,
    .fwStage req0 (2 ^ 32),
    .fwActivate { req0 with berth := 16 } 0,
    .fwActivate req0 (2 ^ 32),
    .attestQuote { req0 with berth := 16 } 0,
    .attestQuote req0 (2 ^ 256),
    .identityGet { req0 with berth := 16 } 0,
    .identityGet req0 (2 ^ 32),
    .keyRevoke { req0 with berth := 16 } 0 (List.replicate 384 0),
    .keyRevoke req0 256 (List.replicate 384 0),
    .keyRevoke req0 0 [],
    .debugChallenge { req0 with berth := 16 },
    .debugUnlock { req0 with berth := 16 } 0 (List.replicate 384 0),
    .debugUnlock req0 256 (List.replicate 384 0),
    .debugUnlock req0 0 [],
    .debugLock { req0 with berth := 16 },
    .macsecKeySet { req0 with berth := 16 } 0 0 0 0,
    .macsecKeySet req0 256 0 0 0,
    .macsecKeySet req0 0 256 0 0,
    .macsecKeySet req0 0 0 (2 ^ 256) 0,
    .macsecKeySet req0 0 0 0 (2 ^ 256),
    .lifecycleSet { req0 with berth := 16 } 0 (List.replicate 384 0),
    .lifecycleSet req0 256 (List.replicate 384 0),
    .lifecycleSet req0 0 [],
    .resultRead { req0 with berth := 16 } 0 0 0 0 0,
    .resultRead req0 256 0 0 0 0,
    .resultRead req0 0 256 0 0 0,
    .resultRead req0 0 0 (2 ^ 32) 0 0,
    .resultRead req0 0 0 0 (2 ^ 32) 0,
    .resultRead req0 0 0 0 0 65536,
    .resultRelease { req0 with berth := 16 } 0 0,
    .resultRelease req0 256 0,
    .resultRelease req0 0 (2 ^ 32),
    .subscribe { req0 with berth := 16 } 0 0 0 0,
    .subscribe req0 256 0 0 0,
    .subscribe req0 0 256 0 0,
    .subscribe req0 0 0 256 0,
    .subscribe req0 0 0 0 256,
    .unsubscribe { req0 with berth := 16 } 0,
    .unsubscribe req0 256] : List Instr).all (fun i => !i.wf) = true := by decide +kernel

/-- One ill-formed command for each check of `Instr.wf`, part 8. -/
theorem test_wf_refuses8 : ([
    .statusGet { req0 with berth := 16 },
    .countersRead { req0 with berth := 16 } 0 0 0 0 0 false,
    .countersRead req0 65536 0 0 0 0 false,
    .countersRead req0 0 65536 0 0 0 false,
    .countersRead req0 0 0 65536 0 0 false,
    .countersRead req0 0 0 0 256 0 false,
    .countersRead req0 0 0 0 0 256 false,
    .noticeLogRead { req0 with berth := 16 } 0 0,
    .noticeLogRead req0 (2 ^ 32) 0,
    .noticeLogRead req0 0 256,
    .unitStatusGet { req0 with berth := 16 } 0,
    .unitStatusGet req0 65536,
    .helmClaim { req0 with berth := 16 } false,
    .helmKeep { req0 with berth := 16 },
    .helmRelease { req0 with berth := 16 },
    .helmHandover { req0 with berth := 16 } 0,
    .helmHandover req0 256,
    .progressGet { req0 with berth := 16 } 0,
    .progressGet req0 256,
    .commandAbort { req0 with berth := 16 } 0,
    .commandAbort req0 256,
    .dbgBusAccess (2 ^ 70),
    .dredgerRead ⟨65536, 0, 0, 0, 0, 0, [], [], false, false, false⟩,
    .dredgerRead ⟨0, 64, 0, 0, 0, 0, [], [], false, false, false⟩,
    .dredgerRead ⟨0, 0, 0, 0, 0, 0, [8192], [], false, false, false⟩,
    .unitResetDone 65536 false,
    .lapNotice 65536 0,
    .lapNotice 0 64,
    .spareSwitch 65536 0 0,
    .spareSwitch 0 64 0,
    .pageRemap 2 0,
    .pageRemap 0 (2 ^ 23),
    .windowCommit 8,
    .supplyDroop 60,
    .replayStart 8,
    .replayVerdict 8 ⟨0, none, []⟩,
    .replayLimitExpiry 8,
    .restartResumed 8,
    .testVisitStart 65536,
    .testVisitDone 65536 false] : List Instr).all (fun i => !i.wf) = true := by decide +kernel

/-- One ill-formed command for each check of `Instr.wf`, part 9. -/
theorem test_wf_refuses9 : ([
    .testLate 65536,
    .tc10SleepRequest 4,
    .tc10SleepReject 4,
    .tc10Wake 4,
    .islandClockStop 60,
    .islandClockRestart 60,
    .mkaPduRx 5 ⟨0, true, none⟩,
    .mkaPduRx 0 ⟨2 ^ 256, true, none⟩,
    .mkaPduRx 0 ⟨0, true, some (2 ^ 256)⟩] : List Instr).all (fun i => !i.wf) = true := by decide +kernel

/-! ### The hypotheses of the statements -/

/-- The hypotheses of HelmCommandsChangeTheHolder can be met, clause by clause. -/
theorem witness_helmCommandsChangeTheHolder :
    (∃ (q : Req) (force : Bool) (s s₀ : State), Starts q (.helmClaim q force) 0x0901 s s₀ ∧ (s₀.tow.claim = none) ∧ (helmFree s₀ = true)) ∧
    (∃ (q : Req) (s s₀ : State) (c : Claim), Starts q (.helmKeep q) 0x0902 s s₀ ∧ (s₀.tow.claim = some c)) ∧
    (∃ (q : Req) (s s₀ : State), Starts q (.helmRelease q) 0x0903 s s₀) ∧
    (∃ (q : Req) (link : Nat) (s s₀ : State), Starts q (.helmHandover q link) 0x0904 s s₀ ∧ ((link < 5 ∧ isHost s₀ link = true ∧ (ethOf s₀ link).phyUp = true) ∨ (8 ≤ link ∧ link ≤ 12 ∧ tget 0 s₀.tow.lastReq link ≠ 0))) :=
  ⟨⟨req0, false, idleNoHelm, _, starts_now (by decide +kernel), by decide +kernel, by decide +kernel⟩,
   ⟨req0, helmClaimed, _, ⟨4, .port 1, 5⟩, starts_now (by decide +kernel), by decide +kernel⟩,
   ⟨req0, idleHelm, _, starts_now (by decide +kernel)⟩,
   ⟨req0, 1, idleHelm, _, starts_now (by decide +kernel), by decide +kernel⟩⟩

/-- The hypotheses of ProgressAndAbort can be met, clause by clause. -/
theorem witness_progressAndAbort :
    (∃ (q : Req) (berth : Nat) (s s₀ : State), Starts q (.progressGet q berth) 0x0905 s s₀) ∧
    (∃ (q : Req) (berth : Nat) (s s₀ : State), Starts q (.commandAbort q berth) 0x0906 s s₀ ∧ ((berthOf s₀ berth).cmd.isSome = true) ∧ ((cmdRow (berthOf s₀ berth).code).any (·.long) = true) ∧ (unabortable (berthOf s₀ berth).code = false) ∧ (restartRuns s₀ berth = false)) ∧
    (∃ (q : Req) (berth : Nat) (s s₀ : State), Starts q (.commandAbort q berth) 0x0906 s s₀ ∧ ((berthOf s₀ berth).cmd.isSome = true) ∧ ((cmdRow (berthOf s₀ berth).code).any (·.long) = true) ∧ (unabortable (berthOf s₀ berth).code = false) ∧ (restartRuns s₀ berth = true)) :=
  ⟨⟨req0, 2, idleHelm, _, starts_now (by decide +kernel)⟩,
   ⟨req0, 4, busyBerth, _, starts_now (by decide +kernel), by decide +kernel, by decide +kernel, by decide +kernel, by decide +kernel⟩,
   ⟨req0, 4, restartBerth, _, starts_now (by decide +kernel), by decide +kernel, by decide +kernel, by decide +kernel, by decide +kernel⟩⟩

/-- The hypotheses of ConfigurationCommands can be met, clause by clause. -/
theorem witness_configurationCommands :
    (∃ (q : Req) (unit reg entry word : Nat) (data : List W64) (s s₀ : State), Starts q (.configWrite q unit reg entry word data) 0x0201 s s₀ ∧ (portalMay s₀ q [unit] = true) ∧ ((cfgWrite unit reg entry word (data.map (·.toNat)) s₀).1 = ST_OK)) ∧
    (∃ (q : Req) (unit reg entry word count : Nat) (s s₀ : State), Starts q (.configRead q unit reg entry word count) 0x0202 s s₀ ∧ (portalMay s₀ q [unit] = true) ∧ ((cfgRead unit reg entry word count s₀).1 = ST_OK)) ∧
    (∃ (q : Req) (unit first : Nat) (data : List W64) (s s₀ : State), Starts q (.routeWrite q unit first data) 0x0203 s s₀ ∧ (portalMay s₀ q [unit] = true) ∧ (utype unit = 0x05 ∨ utype unit = 0x0D) ∧ (first + (pairsOf data).length ≤ (if utype unit = 0x05 then 4096 else 1024)) ∧ (∀ e ∈ pairsOf data, checkEnt unit e.1 e.2 = ST_OK) ∧ (cfgReady s₀ unit = true)) :=
  ⟨⟨req0, uDEV, 0x0B02, 0, 0, [20973136#64], idleHelm, _, starts_now (by decide +kernel), by decide +kernel, by decide +kernel⟩,
   ⟨req0, uDEV, 0x0B02, 0, 0, 1, idleHelm, _, starts_now (by decide +kernel), by decide +kernel, by decide +kernel⟩,
   ⟨req0, uLOCK 0, 7, [0#64, 0#64], idleHelm, _, starts_now (by decide +kernel), by decide +kernel, by decide +kernel, by decide +kernel, by decide +kernel, by decide +kernel⟩⟩

/-- The hypotheses of WeightsAndSensorCommands can be met, clause by clause. -/
theorem witness_weightsAndSensorCommands :
    (∃ (q : Req) (core matrix row : Nat) (last : Bool) (data : List Byte) (s s₀ : State), Starts q (.weightsWrite q core matrix row 0 last data) 0x0204 s s₀ ∧ (portalMay s₀ q [uNE core] = true) ∧ (unitReady s₀ (uNE core) = true) ∧ (rd s₀ (uNE core) NRN_MAT.VALID matrix ≠ 0) ∧ (row ≤ rd s₀ (uNE core) NRN_MAT.ROWS_M1 matrix) ∧ (data.length ≤ strideOf s₀ core matrix) ∧ (last = true → data.length = strideOf s₀ core matrix)) ∧
    (∃ (q : Req) (sluice target : Nat) (i2c : Bool) (wdata : List Byte) (rlen : Nat) (s s₀ : State), Starts q (.sensorI3c q sluice target i2c wdata rlen .silent) 0x0205 s s₀ ∧ (portalMay s₀ q [uSL sluice] = true) ∧ (unitReady s₀ (uSL sluice) = true) ∧ (tget none s₀.tow.i3c sluice = none)) ∧
    (∃ (q : Req) (sluice target : Nat) (i2c : Bool) (wdata : List Byte) (rlen written : Nat) (read : List Byte) (s s₀ : State), Starts q (.sensorI3c q sluice target i2c wdata rlen (.ended false written read)) 0x0205 s s₀ ∧ (portalMay s₀ q [uSL sluice] = true) ∧ (unitReady s₀ (uSL sluice) = true) ∧ (tget none s₀.tow.i3c sluice = none)) ∧
    (∃ (q : Req) (engines : Nat) (s s₀ : State), Starts q (.filterSync q engines) 0x0206 s s₀ ∧ (portalMay s₀ q ((maskBits 3 engines).map uFE) = true) ∧ (readyBit s₀ RB_INR = true)) :=
  ⟨⟨req0, 0, 3, 2, false, [7], { weightState with dev := { weightState.dev with state := .loaded } }, _, starts_now (by decide +kernel), by decide +kernel, by decide +kernel, by decide +kernel, by decide +kernel, by decide +kernel, by decide +kernel⟩,
   ⟨req0, 2, 0x48, false, [1], 2, idleHelm, _, starts_now (by decide +kernel), by decide +kernel, by decide +kernel, by decide +kernel⟩,
   ⟨req0, 2, 0x48, false, [1], 2, 1, [3, 4], idleHelm, _, starts_now (by decide +kernel), by decide +kernel, by decide +kernel, by decide +kernel⟩,
   ⟨req0, 5, idleHelm, _, starts_now (by decide +kernel), by decide +kernel, by decide +kernel⟩⟩

/-- The hypotheses of TimeCommands can be met, clause by clause. -/
theorem witness_timeCommands :
    (∃ (q : Req) (s s₀ : State), Starts q (.timeGet q) 0x0301 s s₀) ∧
    (∃ (q : Req) (port profile role : Nat) (logSync logPdelay logAnnounce : Int) (prio1 prio2 : Nat) (s s₀ : State), Starts q (.ptpConfig q port profile role logSync logPdelay logAnnounce prio1 prio2) 0x0302 s s₀ ∧ (profile = 2 → role ≠ 2 ∧ (upto 5).any (fun p => p != port && (ptpOf s₀ p).profile == 2) = false)) :=
  ⟨⟨req0, idleHelm, _, starts_now (by decide +kernel)⟩,
   ⟨req0, 1, 1, 0, -3, 0, 0, 128, 128, idleHelm, _, starts_now (by decide +kernel), by decide +kernel⟩⟩

/-- The hypotheses of PowerCommands can be met, clause by clause. -/
theorem witness_powerCommands :
    (∃ (q : Req) (level : Nat) (s s₀ : State), Starts q (.powerLevelSet q level) 0x0401 s s₀ ∧ (s₀.pwr.entry = none ∧ s₀.pwr.exit_ = none) ∧ (level = s₀.dev.level) ∧ (level ≠ 4)) ∧
    (∃ (q : Req) (level : Nat) (s s₀ : State), Starts q (.powerLevelSet q level) 0x0401 s s₀ ∧ (s₀.pwr.entry = none ∧ s₀.pwr.exit_ = none) ∧ (level < s₀.dev.level) ∧ (level ≠ 4)) ∧
    (∃ (q : Req) (s s₀ : State), Starts q (.powerLevelSet q 1) 0x0401 s s₀ ∧ (s₀.pwr.entry = none ∧ s₀.pwr.exit_ = none) ∧ (s₀.dev.level = 0)) ∧
    (∃ (q : Req) (level : Nat) (s s₀ : State), Starts q (.powerLevelSet q level) 0x0401 s s₀ ∧ (s₀.pwr.entry = none ∧ s₀.pwr.exit_ = none) ∧ (s₀.dev.level < level ∧ 2 ≤ level) ∧ (level = 4 → s₀.dev.graph = none) ∧ (refuser s₀ level none = none)) ∧
    (∃ (q : Req) (level : Nat) (s s₀ : State) (kd : Nat × Nat), Starts q (.powerLevelSet q level) 0x0401 s s₀ ∧ (s₀.pwr.entry = none ∧ s₀.pwr.exit_ = none) ∧ (s₀.dev.level < level ∧ 2 ≤ level) ∧ (level = 4 → s₀.dev.graph = none) ∧ (refuser s₀ level none = some kd)) ∧
    (∃ (q : Req) (limit : Nat) (s s₀ : State), Starts q (.powerLimitSet q limit) 0x0402 s s₀) ∧
    (∃ (q : Req) (s s₀ : State), Starts q (.powerStatusGet q) 0x0403 s s₀) :=
  ⟨⟨req0, 0, idleHelm, _, starts_now (by decide +kernel), by decide +kernel, by decide +kernel, by decide +kernel⟩,
   ⟨req0, 0, { idleHelm with dev := { idleHelm.dev with level := 2 } }, _, starts_now (by decide +kernel), by decide +kernel, by decide +kernel, by decide +kernel⟩,
   ⟨req0, idleHelm, _, starts_now (by decide +kernel), by decide +kernel, by decide +kernel⟩,
   ⟨req0, 2, idleHelm, _, starts_now (by decide +kernel), by decide +kernel, by decide +kernel, by decide +kernel, by decide +kernel⟩,
   ⟨req0, 3, jobRuns0, _, (4, 0), starts_now (by decide +kernel), by decide +kernel, by decide +kernel, by decide +kernel, by decide +kernel⟩,
   ⟨req0, 50, idleHelm, _, starts_now (by decide +kernel)⟩,
   ⟨req0, idleHelm, _, starts_now (by decide +kernel)⟩⟩

/-- The hypotheses of UnitCommands can be met, clause by clause. -/
theorem witness_unitCommands :
    (∃ (q : Req) (unit : Nat) (s s₀ : State), Starts q (.unitQuarantine q unit) 0x0501 s s₀ ∧ (unitReady s₀ (recordUnit unit) = true) ∧ ((unitOf s₀ (recordUnit unit)).st ≠ .quarantined ∧ (unitOf s₀ (recordUnit unit)).st ≠ .failed) ∧ ((unitOf s₀ (recordUnit unit)).st = .assigned → (spareFor s₀ (recordUnit unit)).isSome = true)) ∧
    (∃ (q : Req) (unit : Nat) (s s₀ : State), Starts q (.unitRelease q unit) 0x0502 s s₀ ∧ ((unitOf s₀ (recordUnit unit)).st = .quarantined) ∧ ((unitOf s₀ (recordUnit unit)).conflict = false) ∧ (releasedSt s₀ (recordUnit unit) ≠ .assigned)) ∧
    (∃ (q : Req) (unit vstep fstep : Nat) (s s₀ : State), Starts q (.unitMargin q unit vstep fstep) 0x0503 s s₀ ∧ (marginable unit = true) ∧ (utype unit = 0x08 → fstep = 0) ∧ ((unitOf s₀ unit).st = .quarantined ∨ (unitOf s₀ unit).st = .spare)) ∧
    (∃ (q : Req) (unit : Nat) (s s₀ : State), Starts q (.unitStatusGet q unit) 0x0804 s s₀ ∧ (portalMay s₀ q [unit] = true)) :=
  ⟨⟨req0, uC 3, loadedIdle, _, starts_now (by decide +kernel), by decide +kernel, by decide +kernel, by decide +kernel⟩,
   ⟨req0, uC 3, setUnit idleHelm (uC 3) { unitOf idleHelm (uC 3) with st := .quarantined }, _, starts_now (by decide +kernel), by decide +kernel, by decide +kernel, by decide +kernel⟩,
   ⟨req0, uC 3, 1, 1, setUnit idleHelm (uC 3) { unitOf idleHelm (uC 3) with st := .quarantined }, _, starts_now (by decide +kernel), by decide +kernel, by decide +kernel, by decide +kernel⟩,
   ⟨req0, uC 3, idleHelm, _, starts_now (by decide +kernel), by decide +kernel⟩⟩

/-- The hypotheses of TestCommands can be met, clause by clause. -/
theorem witness_testCommands :
    (∃ (q : Req) (length : Nat) (s s₀ : State) (f : FwImg), Starts q (.testContentLoad q length) 0x0504 s s₀ ∧ (secReady s₀ = true) ∧ (length ≤ (stageOf s₀ 2).data.length) ∧ (verifyImg ((stageOf s₀ 2).data.take length) 1 s₀ = some f)) ∧
    (∃ (q : Req) (enable : Bool) (rotation : Nat) (s s₀ : State), Starts q (.testControl q enable rotation) 0x0505 s s₀) ∧
    (∃ (q : Req) (back count : Nat) (s s₀ : State), Starts q (.windowLogRead q back count) 0x0506 s s₀) :=
  ⟨⟨req0, 1408, tcState, _, ⟨9, 0, 0, sha256 (testImage.take 1024), keyN, keyN, testImage⟩, starts_now (by decide +kernel), by decide +kernel, by decide +kernel, by decide +kernel⟩,
   ⟨req0, true, 1000, idleHelm, _, starts_now (by decide +kernel)⟩,
   ⟨req0, 0, 4, jobRuns0, _, starts_now (by decide +kernel)⟩⟩

/-- The hypotheses of StagingCommands can be met, clause by clause. -/
theorem witness_stagingCommands :
    (∃ (q : Req) (kind total : Nat) (s s₀ : State), Starts q (.blobBegin q kind total) 0x0A01 s s₀ ∧ (total ≤ stageSize kind) ∧ (kind = 0 → readyBit s₀ RB_DDR = true) ∧ (stageBusy s₀ q kind = false)) ∧
    (∃ (q : Req) (kind : Nat) (data : List Byte) (s s₀ : State) (offset : Nat), Starts q (.blobWrite q kind offset data) 0x0A02 s s₀ ∧ ((stageOf s₀ kind).begun = true) ∧ (offset = (stageOf s₀ kind).data.length) ∧ (stageBusy s₀ q kind = false) ∧ ((stageOf s₀ kind).data.length + data.length ≤ (stageOf s₀ kind).total)) ∧
    (∃ (q : Req) (length digest : Nat) (s s₀ : State), Starts q (.graphLoad q length digest) 0x0101 s s₀ ∧ ((stageOf s₀ 0).begun = true ∧ (stageOf s₀ 0).data.length = length) ∧ (sha256 (ramBytes s₀ 0 length) = digest) ∧ ((admitGraph (ramBytes s₀ 0 length) s₀).1 = ST_OK)) :=
  ⟨⟨req0, 2, 100, idleHelm, _, starts_now (by decide +kernel), by decide +kernel, by decide +kernel, by decide +kernel⟩,
   ⟨req0, 2, [1, 2], setStage idleHelm 2 { begun := true, total := 10, data := [9, 8, 7] }, _, 3, starts_now (by decide +kernel), by decide +kernel, by decide +kernel, by decide +kernel, by decide +kernel⟩,
   ⟨req0, 128, (sha256 emptyGraph), graphStaged, _, starts_now (by decide +kernel), by decide +kernel, by decide +kernel, by decide +kernel⟩⟩

/-- The hypotheses of GraphUnloadClearsTheGraph can be met, clause by clause. -/
theorem witness_graphUnloadClearsTheGraph :
    ∃ (q : Req) (s s₀ : State), Starts q (.graphUnload q) 0x0102 s s₀ :=
  ⟨req0, loadedIdle, _, starts_now (by decide +kernel)⟩

/-- The hypotheses of JobCommands can be met, clause by clause. -/
theorem witness_jobCommands :
    (∃ (q : Req) (mask : Nat) (fromCkpt : Bool) (s s₀ : State), Starts q (.jobStart q mask fromCkpt) 0x0103 s s₀ ∧ (absentJob s₀ mask = false) ∧ ((maskBits 8 mask).all (fun j => !jobRuns s₀ j && jobReady s₀ j) = true) ∧ (s₀.dev.level < 2 ∧ s₀.pwr.entry.any (·.quiesced) = false) ∧ (fromCkpt = true → (maskBits 8 mask).all (fun j => (jobOf s₀ j).committed.isSome) = true)) ∧
    (∃ (q : Req) (mask : Nat) (s s₀ : State), Starts q (.jobStop q mask) 0x0104 s s₀ ∧ (absentJob s₀ mask = false) ∧ ((maskBits 8 mask).all (fun j => jobRuns s₀ j && (jobOf s₀ j).stopBerth.isNone) = true)) ∧
    (∃ (q : Req) (job : Nat) (s s₀ : State), Starts q (.jobCheckpoint q job) 0x0105 s s₀ ∧ (job < 8 ∧ (jobOf s₀ job).exist = true) ∧ (jobTakes s₀ job = true) ∧ ((jobOf s₀ job).stopping = none)) ∧
    (∃ (q : Req) (job : Nat) (s s₀ : State), Starts q (.jobRestart q job) 0x0106 s s₀ ∧ (job < 8 ∧ (jobOf s₀ job).exist = true) ∧ (jobRuns s₀ job = true) ∧ ((jobOf s₀ job).committed.isSome = true)) ∧
    (∃ (q : Req) (s s₀ : State), Starts q (.safeExit q) 0x0107 s s₀ ∧ (s₀.safe.active = 0) ∧ (imageHolds s₀ = true)) ∧
    (∃ (q : Req) (berth : Nat) (s s₀ : State), Starts q (.commandAbort q berth) 0x0906 s s₀ ∧ ((berthOf s₀ berth).cmd.isSome = true) ∧ ((cmdRow (berthOf s₀ berth).code).any (·.long) = true) ∧ (unabortable (berthOf s₀ berth).code = false) ∧ (restartRuns s₀ berth = false)) ∧
    (∃ (q : Req) (berth : Nat) (s s₀ : State), Starts q (.commandAbort q berth) 0x0906 s s₀ ∧ ((berthOf s₀ berth).cmd.isSome = true) ∧ ((cmdRow (berthOf s₀ berth).code).any (·.long) = true) ∧ (unabortable (berthOf s₀ berth).code = false) ∧ (restartRuns s₀ berth = true)) :=
  ⟨⟨req0, 1, false, jobIdle0, _, starts_now (by decide +kernel), by decide +kernel, by decide +kernel, by decide +kernel, by decide +kernel⟩,
   ⟨req0, 1, jobRuns0, _, starts_now (by decide +kernel), by decide +kernel, by decide +kernel⟩,
   ⟨req0, 0, jobRuns0, _, starts_now (by decide +kernel), by decide +kernel, by decide +kernel, by decide +kernel⟩,
   ⟨req0, 0, setJob jobRuns0 0 { exist := true, run := true, committed := some ⟨0, 1, [], [], []⟩ }, _, starts_now (by decide +kernel), by decide +kernel, by decide +kernel, by decide +kernel⟩,
   ⟨req0, safeIdle, _, starts_now (by decide +kernel), by decide +kernel, by decide +kernel⟩,
   ⟨req0, 4, busyBerth, _, starts_now (by decide +kernel), by decide +kernel, by decide +kernel, by decide +kernel, by decide +kernel⟩,
   ⟨req0, 4, restartBerth, _, starts_now (by decide +kernel), by decide +kernel, by decide +kernel, by decide +kernel, by decide +kernel⟩⟩

/-- The hypotheses of FirmwareAndKeyCommands can be met, clause by clause. -/
theorem witness_firmwareAndKeyCommands :
    (∃ (q : Req) (length : Nat) (s s₀ : State) (f : FwImg), Starts q (.fwStage q length) 0x0601 s s₀ ∧ (secReady s₀ = true) ∧ (s₀.sec.act = none) ∧ (length ≤ (stageOf s₀ 1).data.length) ∧ (verifyImg ((stageOf s₀ 1).data.take length) 0 s₀ = some f)) ∧
    (∃ (q : Req) (version : Nat) (s s₀ : State) (f : FwImg), Starts q (.fwActivate q version) 0x0602 s s₀ ∧ (s₀.sec.staged = some f) ∧ (f.version = version) ∧ (s₀.sec.act = none) ∧ (otherHolds s₀ q (fun i c => c == 0x0601 || c == 0x0605 || c == 0x060A
      || (match i with | .blobBegin _ 1 _ => true | .blobWrite _ 1 _ _ => true | _ => false)) = false) ∧ (s₀.dev.state ≠ .boot)) ∧
    (∃ (q : Req) (slot : Nat) (sig : List Byte) (s s₀ : State), Starts q (.keyRevoke q slot sig) 0x0605 s s₀ ∧ (secReady s₀ = true) ∧ (s₀.sec.act = none) ∧ (s₀.sec.fw.any (fun f => f.slot == slot) = false) ∧ (signedByFw s₀ (revokeMsg slot) sig = true)) ∧
    (∃ (q : Req) (sig : List Byte) (s s₀ : State), Starts q (.lifecycleSet q 1 sig) 0x060A s s₀ ∧ (secReady s₀ = true) ∧ (s₀.sec.act = none) ∧ (signedByFw s₀ (lifecycleMsg 1 s₀) sig = true) ∧ (s₀.sec.lifecycle = 0 ∧ s₀.sec.devKey = true ∧ s₀.sec.chain ≠ [])) ∧
    (∃ (q : Req) (sig : List Byte) (s s₀ : State), Starts q (.lifecycleSet q 3 sig) 0x060A s s₀ ∧ (secReady s₀ = true) ∧ (s₀.sec.act = none) ∧ (signedByFw s₀ (lifecycleMsg 3 s₀) sig = true) ∧ (s₀.sec.lifecycle = 1)) ∧
    (∃ (q : Req) (port cknLen cak ckn : Nat) (s s₀ : State), Starts q (.macsecKeySet q port cknLen cak ckn) 0x0609 s s₀) :=
  ⟨⟨req0, 1408, fwState, _, (fwParsed), starts_now (by decide +kernel), by decide +kernel, by decide +kernel, by decide +kernel, by decide +kernel⟩,
   ⟨req0, 7, { keyedDev with sec := { keyedDev.sec with staged := some ranFw } }, _, ranFw, starts_now (by decide +kernel), by decide +kernel, by decide +kernel, by decide +kernel, by decide +kernel, by decide +kernel⟩,
   ⟨req0, 2, revokeSig, keyedDev, _, starts_now (by decide +kernel), by decide +kernel, by decide +kernel, by decide +kernel, by decide +kernel⟩,
   ⟨req0, lifeSig, keyedDev, _, starts_now (by decide +kernel), by decide +kernel, by decide +kernel, by decide +kernel, by decide +kernel⟩,
   ⟨req0, rmaSig, { keyedDev with sec := { keyedDev.sec with lifecycle := 1 } }, _, starts_now (by decide +kernel), by decide +kernel, by decide +kernel, by decide +kernel, by decide +kernel⟩,
   ⟨req0, 1, 32, 5, 6, keyedDev, _, starts_now (by decide +kernel)⟩⟩

/-- The hypotheses of IdentityAndDebugCommands can be met, clause by clause. -/
theorem witness_identityAndDebugCommands :
    (∃ (q : Req) (nonce : Nat) (s s₀ : State), Starts q (.attestQuote q nonce) 0x0603 s s₀ ∧ (secReady s₀ = true)) ∧
    (∃ (q : Req) (offset : Nat) (s s₀ : State), Starts q (.identityGet q offset) 0x0604 s s₀) ∧
    (∃ (q : Req) (s s₀ : State), Starts q (.debugChallenge q) 0x0606 s s₀) ∧
    (∃ (q : Req) (scope : Nat) (sig : List Byte) (s s₀ : State) (c : Nat) (f : FwImg), Starts q (.debugUnlock q scope sig) 0x0607 s s₀ ∧ (s₀.sec.lifecycle = 1 ∧ s₀.sec.session = none) ∧ (secReady s₀ = true) ∧ (validChallenge s₀ = some c ∧ s₀.sec.fw = some f) ∧ (s₀.sec.dbgKeyHash ≠ 0 ∧ sha256 (beBytes 384 f.dbgPub) = s₀.sec.dbgKeyHash) ∧ (scope ≠ 0 ∧ pssVerify f.dbgPub (beBytes 32 c ++ beBytes 1 scope ++ uidBytes s₀) sig = true)) ∧
    (∃ (q : Req) (s s₀ : State), Starts q (.debugLock q) 0x0608 s s₀ ∧ (s₀.sec.lifecycle = 1)) :=
  ⟨⟨req0, 5, keyedDev, _, starts_now (by decide +kernel), by decide +kernel⟩,
   ⟨req0, 0, keyedDev, _, starts_now (by decide +kernel)⟩,
   ⟨req0, keyedDev, _, starts_now (by decide +kernel)⟩,
   ⟨req0, 3, unlockSig, { keyedDev with sec := { keyedDev.sec with lifecycle := 1, challenge := some (0x55, 0) } }, _, 0x55, ranFw, starts_now (by decide +kernel), by decide +kernel, by decide +kernel, by decide +kernel, by decide +kernel, by decide +kernel⟩,
   ⟨req0, { keyedDev with sec := { keyedDev.sec with lifecycle := 1, session := some (3, 0) } }, _, starts_now (by decide +kernel), by decide +kernel⟩⟩

/-- The hypotheses of ResultCommands can be met, clause by clause. -/
theorem witness_resultCommands :
    (∃ (q : Req) (stream selector seq offset length : Nat) (s s₀ : State) (i : Nat) (v : Slot), Starts q (.resultRead q stream selector seq offset length) 0x0701 s s₀ ∧ (portalMay s₀ q [uSTREAM stream] = true) ∧ (resolveRead s₀ stream selector seq = .record i v) ∧ (offset < v.bytes ∧ bit v.marks (readerBit q.link) = false) ∧ (ramBad s₀ (slotAddr s₀ stream i) 32 = false ∧ ramBad s₀ (slotAddr s₀ stream i + offset) (min length (v.bytes - offset)) = false)) ∧
    (∃ (q : Req) (stream seq : Nat) (s s₀ : State), Starts q (.resultRelease q stream seq) 0x0702 s s₀ ∧ (portalMay s₀ q [uSTREAM stream] = true) ∧ (mayRelease s₀ q stream = true) ∧ ((resultRelease stream seq s₀).1 = ST_OK)) ∧
    (∃ (q : Req) (stream port cls everyM1 : Nat) (s s₀ : State) (i : Nat), Starts q (.subscribe q stream port cls everyM1) 0x0703 s s₀ ∧ (port < 5 → isHost s₀ port = true) ∧ ((upto 32).find? (fun i => subF s₀ i RES_SUB.VALID == 0) = some i)) ∧
    (∃ (q : Req) (sub : Nat) (s s₀ : State), Starts q (.unsubscribe q sub) 0x0704 s s₀ ∧ (subF s₀ sub RES_SUB.VALID ≠ 0) ∧ ((tget {} s₀.res.subs sub).creator = some q.link)) :=
  ⟨⟨req0, 2, 2, 0, 0, 100, ringState, _, 0, ⟨1, 64, 0, false⟩, starts_now (by decide +kernel), by decide +kernel, by decide +kernel, by decide +kernel, by decide +kernel⟩,
   ⟨req0, 2, 1, ringState, _, starts_now (by decide +kernel), by decide +kernel, by decide +kernel, by decide +kernel⟩,
   ⟨req0, 2, 1, 1, 0, ringState, _, 0, starts_now (by decide +kernel), by decide +kernel, by decide +kernel⟩,
   ⟨req0, 0, subState, _, starts_now (by decide +kernel), by decide +kernel, by decide +kernel⟩⟩

/-- The hypotheses of StatusCommands can be met, clause by clause. -/
theorem witness_statusCommands :
    (∃ (q : Req) (s s₀ : State), Starts q (.statusGet q) 0x0801 s s₀) ∧
    (∃ (q : Req) (unit block entry first count : Nat) (clear : Bool) (s s₀ : State) (d : CntDesc), Starts q (.countersRead q unit block entry first count clear) 0x0802 s s₀ ∧ (portalMay s₀ q [unit] = true) ∧ (cntDescOf unit block = some d) ∧ (first + count ≤ d.count ∧ entry < cntEntries block) ∧ (unitReady s₀ unit = true) ∧ (clear = true → holdsHelm s₀ q = true)) ∧
    (∃ (q : Req) (start count : Nat) (s s₀ : State) (n : Notice) (r : List Notice), Starts q (.noticeLogRead q start count) 0x0803 s s₀ ∧ (s₀.tow.log.reverse = n :: r) ∧ (start ≤ s₀.tow.logSeq ∧ n.seq ≤ start)) ∧
    (∃ (q : Req) (berth : Nat) (s s₀ : State), Starts q (.progressGet q berth) 0x0905 s s₀) :=
  ⟨⟨req0, keyedDev, _, starts_now (by decide +kernel)⟩,
   ⟨req0, uDEV, 0x0C0F, 0, 0, 2, true, keyedDev, _, _, starts_now (by decide +kernel), by decide +kernel, rfl, by decide +kernel, by decide +kernel, by decide +kernel⟩,
   ⟨req0, 1, 2, noticed, _, _, _, starts_now (by decide +kernel), rfl, by decide +kernel⟩,
   ⟨req0, 4, busyBerth, _, starts_now (by decide +kernel)⟩⟩

/-- The hypotheses of AnEmptyQueueIdles can be met, clause by clause. -/
theorem witness_anEmptyQueueIdles :
    ∃ s : State, s.pending = [] :=
  ⟨State.reset, rfl⟩

/-- The hypotheses of StepKeepsTheCanonicalForm can be met, clause by clause. -/
theorem witness_stepKeepsTheCanonicalForm :
    ∃ s t : State, s.Canon ∧ step s = .next t :=
  ⟨State.reset, State.reset, ⟨rfl, rfl, rfl, rfl, fun e he => by cases he⟩, rfl⟩

/-- The hypotheses of CommandsLeaveTheQueue can be met, clause by clause. -/
theorem witness_commandsLeaveTheQueue :
    ∃ (c : Instr) (s t : State), exec c s = .next t :=
  ⟨.wakeN, State.reset, _, rfl⟩

/-- The hypotheses of FusesOnlyBurnForward can be met, clause by clause. -/
theorem witness_fusesOnlyBurnForward :
    ∃ s t : State, step s = .next t :=
  ⟨State.reset, State.reset, rfl⟩

/-- The hypotheses of AFailedCommandKeepsTheState can be met, clause by clause. -/
theorem witness_aFailedCommandKeepsTheState :
    ∃ (q : Req) (i : Instr) (code : Nat) (eff : State → CmdRes) (s s₀ : State) (st : Nat) (payload : List Byte),
    Starts q i code s s₀ ∧ (eff s₀).res = some (st, payload) ∧ keepsEffects st = false ∧ (eff s₀).keep = false :=
  ⟨req0, .unsubscribe req0 3, 0x0704, unsubscribe req0 3, loadedIdle, _, ST_WRONG_STATE, [], starts_now (by decide +kernel), by decide +kernel, by decide +kernel,
    by decide +kernel⟩

/-- The hypotheses of ARefusedRequestLeavesItsBerth can be met, clause by clause. -/
theorem witness_aRefusedRequestLeavesItsBerth :
    (∃ (q : Req) (i : Instr) (code : Nat) (s u : State) (st : Nat), svcRuns s = true ∧ romHears s q = true ∧
    ¬ heldBy q i s ∧ admitReq q i code 0 0 (noteRequest q.link s) = .rejected st u ∧ (∀ j, q.link ≠ .portal j)) ∧
  (∃ (q : Req) (i : Instr) (code : Nat) (s u : State), svcRuns s = true ∧ romHears s q = true ∧
    ¬ heldBy q i s ∧ admitReq q i code 0 0 (noteRequest q.link s) = .absorbed u) :=
  ⟨⟨req0, .graphUnload req0, 0x0102, idleHelm, _, ST_WRONG_STATE, by decide +kernel, by decide +kernel, by unfold heldBy; decide +kernel, rfl, by intro j; simp [req0]⟩,
   ⟨⟨.port 1, 4, 1, 9, 0⟩, .graphUnload ⟨.port 1, 4, 1, 9, 0⟩, 0x0102, busyBerth, _, by decide +kernel, by decide +kernel, by unfold heldBy; decide +kernel, rfl⟩⟩

/-- The hypotheses of DeviceResets can be met, clause by clause. -/
theorem witness_deviceResets :
    (∃ (s : State), (s.sec.brownout = false)) ∧
    (∃ (s : State), (s.sec.act.any (·.exchanged.isSome) = false)) ∧
    (∃ (s : State), (s.sec.act.any (·.exchanged.isSome) = true)) ∧
    (∃ (s : State), (bit (dbgScope s) 1 = true)) ∧
    (∃ (s : State), (bit (dbgScope s) 1 = false)) :=
  ⟨⟨State.reset, by decide +kernel⟩,
   ⟨State.reset, by decide +kernel⟩,
   ⟨{ idleHelm with sec := { idleHelm.sec with act := some { berth := 0, image := ranFw, exchanged := some 0 } } }, by decide +kernel⟩,
   ⟨State.reset, by decide +kernel⟩,
   ⟨{ idleHelm with sec := { idleHelm.sec with lifecycle := 1 } }, by decide +kernel⟩⟩

/-- The hypotheses of SupplySequence can be met, clause by clause. -/
theorem witness_supplySequence :
    (∃ (s : State), (s.pwr.enAux = true)) ∧
    (∃ (s : State), (s.pwr.enDdr = true)) ∧
    (∃ (s : State), (s.pwr.enCore = true)) ∧
    (∃ (s : State), (s.pwr.exit_ = none ∧ s.pwr.por = true)) ∧
    (∃ (s : State), (s.pwr.exit_.isSome = true)) ∧
    (∃ (s : State), (s.pwr.exit_ = none ∧ s.pwr.por = false)) :=
  ⟨⟨idleHelm, by decide +kernel⟩,
   ⟨idleHelm, by decide +kernel⟩,
   ⟨idleHelm, by decide +kernel⟩,
   ⟨State.reset, by decide +kernel⟩,
   ⟨{ idleHelm with pwr := { idleHelm.pwr with exit_ := some { src := 4, target := 0, berth := none } } }, by decide +kernel⟩,
   ⟨idleHelm, by decide +kernel⟩⟩

/-- The hypotheses of BringUp can be met, clause by clause. -/
theorem witness_bringUp :
    (∃ (unit : Nat) (s : State), (testedUnit unit = true ∧ unit ≠ uDEV ∧ (unitOf s (recordUnit unit)).st ≠ .failed) ∧ (s.dev.state ≠ .boot ∧ s.dev.romSafe = false ∧ s.pwr.por = false) ∧ ((unitBit unit).any (readyBit s) = false)) ∧
    (∃ (unit : Nat) (s : State), (testedUnit unit = true ∧ unit ≠ uDEV ∧ (unitOf s (recordUnit unit)).st ≠ .failed) ∧ (s.dev.state ≠ .boot ∧ s.dev.romSafe = false ∧ s.pwr.por = false) ∧ ((unitBit unit).any (readyBit s) = false)) ∧
    (∃ (chan gib : Nat) (s : State), (chan < 2 ∧ readyBit s (RB_DDR + chan) = false ∧ s.dev.state ≠ .boot)) ∧
    (∃ (chan : Nat) (s : State), (chan < 2 ∧ readyBit s (RB_DDR + chan) = false ∧ s.dev.state ≠ .boot)) ∧
    (∃ (chan : Nat) (s : State), (chan < 2 ∧ readyBit s (RB_DDR + chan) = false ∧ s.dev.state ≠ .boot)) ∧
    (∃ (chan : Nat) (pass : Bool) (s : State), (chan < 2 ∧ readyBit s (RB_DDR + chan) = false ∧ ddrGib s chan ≠ 0)) ∧
    (∃ (s : State), (s.dev.state = .bringup) ∧ (bringupOver s = true)) :=
  ⟨⟨uFA 1, bringup0, by decide +kernel, by decide +kernel, by decide +kernel⟩,
   ⟨uFA 1, bringup0, by decide +kernel, by decide +kernel, by decide +kernel⟩,
   ⟨1, 16, bringup0, by decide +kernel⟩,
   ⟨1, bringup0, by decide +kernel⟩,
   ⟨1, bringup0, by decide +kernel⟩,
   ⟨0, true, { bringup0 with dev := { bringup0.dev with ddrGib0 := 16 } }, by decide +kernel⟩,
   ⟨{ bringup0 with dev := { bringup0.dev with ready := 2 ^ 64 - 1 } }, by decide +kernel, by decide +kernel⟩⟩

/-- The hypotheses of CanalLinks can be met, clause by clause. -/
theorem witness_canalLinks :
    (∃ (link lanes peer : Nat) (peerAsg : Bool) (caps : Nat) (s : State), (rdB s (uCK link) CNL_LINK.ENABLE = true ∧ (linkOf s link).up = false) ∧ (lanesOk (rd s (uCK link) CNL_LINK.LANE_MODE) lanes = true ∧ s.dev.level < 2)) ∧
    (∃ (link : Nat) (reason : LinkLoss) (s : State), ((linkOf s link).up = true) ∧ (reason ≠ .replays)) ∧
    (∃ (link : Nat) (s : State), ((linkOf s link).up = true ∧ islandRuns s (uCK link) = true) ∧ (0 < (linkOf s link).resend)) ∧
    (∃ (link : Nat) (s : State), ((linkOf s link).up = true ∧ islandRuns s (uCK link) = true) ∧ ((linkOf s link).resend = 0 ∧ (linkOf s link).replay.length < 64)) ∧
    (∃ (link : Nat) (frame : BitVec 512) (s : State), ((linkOf s link).up = true) ∧ (crc16Frame frame.toNat ≠ bits frame.toNat 496 16)) ∧
    (∃ (link : Nat) (frame : BitVec 512) (s : State), ((linkOf s link).up = true) ∧ (crc16Frame frame.toNat = bits frame.toNat 496 16 ∧ bits frame.toNat 10 6 ≠ (linkOf s link).rxSeq)) ∧
    (∃ (link : Nat) (frame : BitVec 512) (s : State), ((linkOf s link).up = true) ∧ (crc16Frame frame.toNat = bits frame.toNat 496 16 ∧ bits frame.toNat 10 6 = (linkOf s link).rxSeq)) :=
  ⟨⟨1, 3, 5, true, 0, wr idleHelm (uCK 1) CNL_LINK.ENABLE 1, by decide +kernel, by decide +kernel⟩,
   ⟨1, .noFrame, linkUp1, by decide +kernel, by decide +kernel⟩,
   ⟨1, setLink linkUp1 1 { linkOf linkUp1 1 with resend := 1, replay := [(0, 5)] }, by decide +kernel, by decide +kernel⟩,
   ⟨1, linkUp1, by decide +kernel, by decide +kernel⟩,
   ⟨1, 5, linkUp1, by decide +kernel, by decide +kernel⟩,
   ⟨1, (BitVec.ofNat 512 (5 * 2 ^ 10 + crc16Frame (5 * 2 ^ 10) * 2 ^ 496)), linkUp1, by decide +kernel, by decide +kernel⟩,
   ⟨1, (BitVec.ofNat 512 (crc16Frame 0 * 2 ^ 496)), linkUp1, by decide +kernel, by decide +kernel⟩⟩

/-- The hypotheses of CanalFabric can be met, clause by clause. -/
theorem witness_canalFabric :
    (∃ (node : LockNode) (c p : Nat) (s : State), (nodeReady s node = true ∧ islandRuns s (nodeUnit node) = true) ∧ (nextClass s node = some c ∧ nextPort s node c = some p)) ∧
    (∃ (core : Nat) (s : State), (core < 16 ∧ (unitOf s (uC core)).fullRed = true ∧ (unitOf s (uC core)).st = .assigned) ∧ (portLen s (pSE (core / 2 * 2)) ≠ 0 ∨ portLen s (pNE (core / 2 * 2)) ≠ 0)) ∧
    (∃ (port c : Nat) (p : Pkt) (r : List Pkt) (d : Dst) (s : State), (port < 52) ∧ ((upto 4).find? (classGoes s port) = some c ∧ cq s port c = p :: r ∧ p.dst = some d)) ∧
    (∃ (port c : Nat) (p : Pkt) (r : List Pkt) (f : Nat) (x : Pkt) (s : State), (784 ≤ port ∧ port < 800) ∧ ((upto 4).find? (transitGoes s port) = some c ∧ cq s port c = p :: r) ∧ (transitCopy s (crossCheck (uHUB (takingHub port)) p (setCq s port c r)).1 = .to f x)) :=
  ⟨⟨(.lock 1), 2, (pSE 1), packetAt, by decide +kernel, by decide +kernel⟩,
   ⟨1, setUnit packetAt0 (uC 1) { unitOf packetAt0 (uC 1) with st := .assigned, fullRed := true }, by decide +kernel, by decide +kernel⟩,
   ⟨(pSE 1), 2, _, _, { stream := some 2 }, packetLooked, by decide +kernel, ⟨by decide +kernel, rfl, rfl⟩⟩,
   ⟨787, 2, _, _, _, _, packetOnWay, by decide +kernel, ⟨by decide +kernel, rfl⟩, rfl⟩⟩

/-- The hypotheses of UrgentPath can be met, clause by clause. -/
theorem witness_urgentPath :
    (∃ (pair : Nat) (parBad : Bool) (b : Bin) (r : List Bin) (s : State), (tget [] s.upIn pair = b :: r) ∧ (upRuns s pair = true)) ∧
    (∃ (pair : Nat) (parBad : Bool) (b : Bin) (r : List Bin) (s : State), (tget [] s.upIn pair = b :: r) ∧ (upRuns s pair = true)) ∧
    (∃ (hub : Nat) (a : Alarm) (r : List Alarm) (s : State), ((upOf s hub).offered = a :: r) ∧ (s.dev.state ≠ .safe ∧ readyBit s (RB_HUB + hub) = true) ∧ ((polOf s hub).hold = [] ∧ 0 < (polOf s hub).tokens)) ∧
    (∃ (hub : Nat) (a : Alarm) (r : List Alarm) (s : State), ((upOf s hub).offered = a :: r) ∧ (s.dev.state ≠ .safe ∧ readyBit s (RB_HUB + hub) = true) ∧ ((polOf s hub).tokens = 0 ∧ (polOf s hub).hold.length < 64)) ∧
    (∃ (hub : Nat) (s : State), ((polOf s hub).slot < now s / 10000)) ∧
    (∃ (pair : Nat) (s : State), (upRuns s pair = true) ∧ ((upOf s pair).probeAt + 1000000 ≤ now s ∧ (upOf s pair).offered = [])) ∧
    (∃ (port pair : Nat) (s : State), (chkArmed s port pair = true) ∧ ((chkOf s port pair).since + 3500000 ≤ now s)) ∧
    (∃ (port pair : Nat) (parBad : Bool) (r : List Cl0) (s : State), (pair < 4) ∧ (tget [] s.urg.framers port = .probe (probeKey s pair) :: r)) ∧
    (∃ (port : Nat) (parBad : Bool) (a : Alarm) (r : List Cl0) (s : State), (tget [] s.urg.framers port = .alarm a :: r) ∧ (s.dev.state ≠ .safe)) ∧
    (∃ (port : Nat) (s : State), (s.dev.state = .safe ∧ port < 2 ∧ (ethOf s port).phyUp = true) ∧ (tget 0 s.safe.stopSeq port = 0 ∨ tget 0 s.safe.stopAt port + 10000000 ≤ now s)) :=
  ⟨⟨0, true, _, _, upState, rfl, by decide +kernel⟩,
   ⟨0, false, _, _, upState, rfl, by decide +kernel⟩,
   ⟨0, _, _, alarmOffered, rfl, by decide +kernel, by decide +kernel⟩,
   ⟨0, _, _, setPol alarmOffered 0 { polOf alarmOffered 0 with tokens := 0 }, rfl, by decide +kernel, by decide +kernel⟩,
   ⟨0, idleHelm, by decide +kernel⟩,
   ⟨0, upState, by decide +kernel, by decide +kernel⟩,
   ⟨0, 0, upState, by decide +kernel, by decide +kernel⟩,
   ⟨0, 2, true, _, { upState with urg := { upState.urg with framers := [(0, [.probe (probeKey upState 2)])] } }, by decide +kernel, rfl⟩,
   ⟨0, true, ⟨0, 0, 0, 1, 1, 5, 0, false, 1⟩, [], { upState with urg := { upState.urg with framers := [(0, [.alarm ⟨0, 0, 0, 1, 1, 5, 0, false, 1⟩])] } }, by decide +kernel, by decide +kernel⟩,
   ⟨0, safeIdle, by decide +kernel, by decide +kernel⟩⟩

/-- The hypotheses of EthernetLinks can be met, clause by clause. -/
theorem witness_ethernetLinks :
    (∃ (port : Nat) (selfTest : Bool) (s : State), (port < 5 ∧ (ethOf s port).phyUp = false ∧ s.dev.level < 3)) ∧
    (∃ (port : Nat) (selfTest : Bool) (s : State), (port < 5 ∧ (ethOf s port).phyUp = true)) :=
  ⟨⟨2, true, idleHelm, by decide +kernel⟩,
   ⟨0, true, idleHelm, by decide +kernel⟩⟩

/-- The hypotheses of DangerousFailuresEnterSafe can be met, clause by clause. -/
theorem witness_dangerousFailuresEnterSafe :
    (∃ (rail : Nat) (s : State), (s.dev.state ≠ .boot)) ∧
    (∃ (pll : Bool) (s : State), (s.dev.state ≠ .boot)) ∧
    (∃ (s : State), (s.dev.state ≠ .boot)) ∧
    (∃ (s : State), (s.dev.state ≠ .boot) ∧ (s.dev.level ≤ 1 ∧ ((ethOf s 0).trained = true ∨ (ethOf s 1).trained = true) ∧ (ethOf s 0).phyUp = false ∧ (ethOf s 1).phyUp = false) ∧ (max (ethOf s 0).downSince (ethOf s 1).downSince + 2000000 ≤ now s)) ∧
    (∃ (port pair : Nat) (s : State), (s.dev.state ≠ .boot) ∧ (chkArmed s port pair = true) ∧ ((chkOf s port pair).since + 3500000 ≤ now s)) :=
  ⟨⟨0, jobRuns0, by decide +kernel⟩,
   ⟨true, jobRuns0, by decide +kernel⟩,
   ⟨jobRuns0, by decide +kernel⟩,
   ⟨linksDown, by decide +kernel, by decide +kernel, by decide +kernel⟩,
   ⟨0, 0, upState, by decide +kernel, by decide +kernel, by decide +kernel⟩⟩

/-- The hypotheses of SafeNIsHighOnlyInService can be met, clause by clause. -/
theorem witness_safeNIsHighOnlyInService :
    (∃ s : State, safeNHigh s = true) ∧ (∃ s : State, ¬ ((s.dev.state = .idle ∨ s.dev.state = .loaded ∨ s.dev.state = .running ∨
      s.dev.state = .degraded) ∧ (s.dev.level = 0 ∨ s.dev.level = 1))) ∧
    (∃ s : State, s.dev.state = .boot ∨ s.dev.state = .bringup ∨ s.dev.state = .safe) :=
  ⟨⟨idleHelm, by decide +kernel⟩, ⟨State.reset, by decide +kernel⟩, State.reset, by decide +kernel⟩

/-- The hypotheses of SafetyMonitors can be met, clause by clause. -/
theorem witness_safetyMonitors :
    (∃ (readings : List Int) (s : State), (((((readings.take 24).zipIdx.filter (fun e => decide (1350 ≤ e.1))).map (fun e => 2 ^ e.2)).sum &&& s.safe.hot) = 0)) ∧
    (∃ (readings : List Int) (s : State), (((((readings.take 24).zipIdx.filter (fun e => decide (1350 ≤ e.1))).map (fun e => 2 ^ e.2)).sum &&& s.safe.hot) ≠ 0)) ∧
    (∃ (mech : Nat) (pass : Bool) (s : State), (mech < 6 ∧ (if mech = 3 then sensorsAgree s else pass) = false)) ∧
    (∃ (mech : Nat) (pass : Bool) (s : State), (mech < 6 ∧ bit s.safe.mechBad mech = true ∧ (if mech = 3 then sensorsAgree s else pass) = true) ∧ (tget 0 s.safe.mechOk mech < 2)) ∧
    (∃ (mech : Nat) (pass : Bool) (s : State), (mech < 6 ∧ bit s.safe.mechBad mech = true ∧ (if mech = 3 then sensorsAgree s else pass) = true) ∧ (2 ≤ tget 0 s.safe.mechOk mech)) ∧
    (∃ (cause : Nat) (s : State), (1 ≤ cause ∧ cause ≤ 15 ∧ causeGone s cause = true)) ∧
    (∃ (cause : Nat) (s : State), (1 ≤ cause ∧ cause ≤ 15 ∧ causeGone s cause = false)) ∧
    (∃ (unit : Nat) (hw : UnitSt) (s : State), (unitValid (recordUnit unit) = true ∧ recordUnit unit ≠ uDEV) ∧ (hw = (unitOf s (recordUnit unit)).st ∨ ((unitOf s (recordUnit unit)).conflict = true ∧ (unitOf s (recordUnit unit)).hw = some hw))) ∧
    (∃ (unit : Nat) (hw : UnitSt) (s : State), (unitValid (recordUnit unit) = true ∧ recordUnit unit ≠ uDEV) ∧ (hw ≠ (unitOf s (recordUnit unit)).st ∧ (unitOf s (recordUnit unit)).st ≠ .assigned ∧ ¬ ((unitOf s (recordUnit unit)).conflict = true ∧ (unitOf s (recordUnit unit)).hw = some hw))) :=
  ⟨⟨[1400, 0], idleHelm, by decide +kernel⟩,
   ⟨[1400, 0], { idleHelm with safe := { hot := 1 } }, by decide +kernel⟩,
   ⟨2, false, idleHelm, by decide +kernel⟩,
   ⟨2, true, { idleHelm with safe := { mechBad := 4 } }, by decide +kernel, by decide +kernel⟩,
   ⟨2, true, { idleHelm with safe := { mechBad := 4, mechOk := [(2, 2)] } }, by decide +kernel, by decide +kernel⟩,
   ⟨8, safeIdle, by decide +kernel⟩,
   ⟨10, { safeIdle with safe := { temps := [1400] } }, by decide +kernel⟩,
   ⟨uC 3, .unused, idleHelm, by decide +kernel, by decide +kernel⟩,
   ⟨uC 3, .spare, idleHelm, by decide +kernel, by decide +kernel⟩⟩

/-- The hypotheses of PacketsOfOtherStreamsAreDropped can be met, clause by clause. -/
theorem witness_packetsOfOtherStreamsAreDropped :
    (∃ (sluice vc dt : Nat) (crcOk : Bool) (sot : Nat) (data : List Byte) (flawed : List Nat) (s : State), (sluResetting s sluice = false) ∧ (sl (goodHeader sluice .ok (packetBoundary sluice (wakeIsland (uSL sluice) s))) sluice SLU_PORT.VC ≠ vc ∨ dt ≠ portDt (goodHeader sluice .ok (packetBoundary sluice (wakeIsland (uSL sluice) s))) sluice)) ∧
    (∃ (sluice vc dt : Nat) (crcOk : Bool) (sot : Nat) (data : List Byte) (flawed : List Nat) (s : State) (s₁ : State), (sluResetting s sluice = false) ∧ (packetHeader sluice vc .ok s = (true, s₁)) ∧ (dt = portDt s₁ sluice) ∧ (sl s₁ sluice SLU_PORT.MODE ≠ 2)) :=
  ⟨⟨1, 0, 0x2A, true, 5000000000, [], [], portState, by decide +kernel, by decide +kernel⟩,
   ⟨1, 0, 0x30, true, 5000000000, [], [], portState, (packetHeader 1 0 .ok portState).2, by decide +kernel, Prod.ext (by decide +kernel) rfl, by decide +kernel, by decide +kernel⟩⟩

/-- The hypotheses of OversizedPacketsAreDropped can be met, clause by clause. -/
theorem witness_oversizedPacketsAreDropped :
    (∃ (sluice vc dt : Nat) (crcOk : Bool) (sot : Nat) (data : List Byte) (flawed : List Nat) (s : State) (s₁ : State), (sluResetting s sluice = false) ∧ (packetHeader sluice vc .ok s = (true, s₁)) ∧ (dt = portDt s₁ sluice) ∧ (sl s₁ sluice SLU_PORT.MODE ≠ 2) ∧ (16384 < data.length ∨ 32768 < bufferedBytes (sluOf s₁ sluice) + data.length)) ∧
    (∃ (sluice vc dt : Nat) (crcOk : Bool) (sot : Nat) (data : List Byte) (flawed : List Nat) (s : State) (s₁ : State), (sluResetting s sluice = false) ∧ (packetHeader sluice vc .ok s = (true, s₁)) ∧ (dt = portDt s₁ sluice) ∧ (sl s₁ sluice SLU_PORT.MODE = 2) ∧ (16384 < data.length ∨ 32768 < bufferedBytes (sluOf s₁ sluice) + data.length)) :=
  ⟨⟨1, 0, 0x30, true, 5000000000, (beBytes 16385 0), [], portState, (packetHeader 1 0 .ok portState).2, by decide +kernel, Prod.ext (by decide +kernel) rfl, by decide +kernel, by decide +kernel, by decide +kernel⟩,
   ⟨1, 0, 0x2B, true, 5000000000, (beBytes 16385 0), [], wr portState (uSL 1) SLU_PORT.MODE 2, (packetHeader 1 0 .ok (wr portState (uSL 1) SLU_PORT.MODE 2)).2, by decide +kernel, Prod.ext (by decide +kernel) rfl, by decide +kernel, by decide +kernel, by decide +kernel⟩⟩

/-- The hypotheses of OutOfRangeEventsAreDropped can be met, clause by clause. -/
theorem witness_outOfRangeEventsAreDropped :
    (∃ (n x y : Nat) (s : State), (¬ x < sluWidth s n ∨ ¬ y < sluHeight s n)) ∧
    (∃ (n x y : Nat) (s : State), (x < sluWidth s n) ∧ (y < sluHeight s n)) :=
  ⟨⟨1, 5000, 0, portState, by decide +kernel⟩,
   ⟨1, 0, 0, portState, by decide +kernel, by decide +kernel⟩⟩

/-- The hypotheses of LayoutsAreTestedInOrder can be met, clause by clause. -/
theorem witness_layoutsAreTestedInOrder :
    (∃ (s : State) (n w i : Nat), (findLayout s n w = some i)) ∧
    (∃ (s : State) (n w : Nat), (∀ i, i < 4 → ¬ (rd s (uSL n) SLU_FMT.VALID i = 1 ∧
      (w &&& rd s (uSL n) SLU_FMT.MATCH_MASK i) = rd s (uSL n) SLU_FMT.MATCH_VALUE i))) :=
  ⟨⟨wr portState (uSL 1) SLU_FMT.VALID 1 2, 1, 0, 2, by decide +kernel⟩,
   ⟨portState, 1, 0, by decide +kernel⟩⟩

/-- The hypotheses of SluiceEvents can be met, clause by clause. -/
theorem witness_sluiceEvents :
    (∃ (sluice : Nat) (s : State), ((sluOf s sluice).align = .aligned) ∧ ((sluOf s sluice).lastPair + sl s sluice SLU_TAL.PAIR_TIMEOUT_MS * 1000000 ≤ now s)) ∧
    (∃ (sluice : Nat) (s : State), (sl s sluice SLU_FLT.RATE_MODE = 1) ∧ ((sluOf s sluice).tokenUs < nowUs s)) ∧
    (∃ (sluice : Nat) (s : State), ((sluOf s sluice).interval < now s / 64000) ∧ ((sluOf s sluice).removed = 0)) ∧
    (∃ (sluice cell stamp : Nat) (s : State), (tget none (sluOf s sluice).refr cell = some stamp) ∧ (256 ≤ (nowUs s % 1024 + 1024 - stamp) % 1024)) ∧
    (∃ (sluice : Nat) (s : State), ((sluOf s sluice).linkUp = true) ∧ ((sluOf s sluice).lastHdr + 100000000 ≤ now s)) ∧
    (∃ (sluice : Nat) (s : State) (u : State), (u = fltWritten sluice (sl s sluice SLU_FLT.RATE_MODE) (limitsChanged sluice (setSlu s sluice { sluOf s sluice with held := heldRegs s sluice }))) ∧ ((sluOf u sluice).source ≠ sl u sluice SLU_TAL.SOURCE) ∧ (sl u sluice SLU_TAL.SOURCE ≠ 0)) ∧
    (∃ (sluice : Nat) (s : State) (u : State), (u = fltWritten sluice (sl s sluice SLU_FLT.RATE_MODE) (limitsChanged sluice (setSlu s sluice { sluOf s sluice with held := heldRegs s sluice }))) ∧ ((sluOf u sluice).source ≠ 0) ∧ (sl u sluice SLU_TAL.SOURCE = 0)) ∧
    (∃ (sluice : Nat) (s : State), ((sluOf s sluice).clearing = true) ∧ (sluTakes s sluice = true)) ∧
    (∃ (sluice : Nat) (r : I3cRun) (s : State), (tget none s.tow.i3c sluice = some r) ∧ (r.started + 1000000 ≤ now s ∧ (berthOf s r.berth).code = 0x0205)) :=
  ⟨⟨1, setSlu portState 1 { align := .aligned }, by decide +kernel, by decide +kernel⟩,
   ⟨1, wr portState (uSL 1) SLU_FLT.RATE_MODE 1, by decide +kernel, by decide +kernel⟩,
   ⟨1, portState, by decide +kernel, by decide +kernel⟩,
   ⟨1, 3, 0, setSlu { portState with time := { ns := 300000 } } 1 { refr := [(3, some 0)] }, by decide +kernel, by decide +kernel⟩,
   ⟨1, setSlu portState 1 { linkUp := true }, by decide +kernel, by decide +kernel⟩,
   ⟨1, wr portState (uSL 1) SLU_TAL.SOURCE 2, _, rfl, by decide +kernel, by decide +kernel⟩,
   ⟨1, setSlu portState 1 { source := 2 }, _, rfl, by decide +kernel, by decide +kernel⟩,
   ⟨1, setSlu portState 1 { clearing := true }, by decide +kernel, by decide +kernel⟩,
   ⟨2, ⟨4, 0⟩, i3cBusy, by decide +kernel, by decide +kernel⟩⟩

/-- The hypotheses of FrameEvents can be met, clause by clause. -/
theorem witness_frameEvents :
    (∃ (sluice vc num : Nat) (ecc : EccResult) (s : State) (s₁ : State), (num < 65536) ∧ (packetHeader sluice vc ecc s = (true, s₁) ∧ sl s₁ sluice SLU_PORT.MODE = 2 ∧ (sluOf s₁ sluice).clearing = false) ∧ (pickFrameBuf (dropFrame sluice s₁) sluice = none)) ∧
    (∃ (sluice vc num : Nat) (ecc : EccResult) (s : State) (s₁ : State) (i : Nat), (num < 65536) ∧ (packetHeader sluice vc ecc s = (true, s₁) ∧ sl s₁ sluice SLU_PORT.MODE = 2 ∧ (sluOf s₁ sluice).clearing = false) ∧ (pickFrameBuf (dropFrame sluice s₁) sluice = some i)) ∧
    (∃ (sluice vc : Nat) (ecc : EccResult) (s : State) (s₁ : State) (r : FrameRun), (packetHeader sluice vc ecc s = (true, s₁) ∧ sl s₁ sluice SLU_PORT.MODE = 2 ∧ (sluOf s₁ sluice).clearing = false) ∧ ((sluOf s₁ sluice).frame = some r) ∧ (r.bad = false ∧ r.lines = sluHeight s₁ sluice)) ∧
    (∃ (sluice vc : Nat) (ecc : EccResult) (s : State) (s₁ : State) (r : FrameRun), (packetHeader sluice vc ecc s = (true, s₁) ∧ sl s₁ sluice SLU_PORT.MODE = 2 ∧ (sluOf s₁ sluice).clearing = false) ∧ ((sluOf s₁ sluice).frame = some r) ∧ (r.bad = true ∨ r.lines ≠ sluHeight s₁ sluice)) ∧
    (∃ (sluice vc : Nat) (s : State), (sluTakes (wakeIsland (uSL sluice) s) sluice = true) ∧ (sl (wakeIsland (uSL sluice) s) sluice SLU_PORT.PHY ≠ 0)) :=
  ⟨⟨1, 0, 1, .ok, framesHeld, (packetHeader 1 0 .ok framesHeld).2, by decide +kernel, ⟨Prod.ext (by decide +kernel) rfl, by decide +kernel, by decide +kernel⟩, by decide +kernel⟩,
   ⟨1, 0, 1, .ok, (wr portState (uSL 1) SLU_PORT.MODE 2), (packetHeader 1 0 .ok (wr portState (uSL 1) SLU_PORT.MODE 2)).2, 0, by decide +kernel, ⟨Prod.ext (by decide +kernel) rfl, by decide +kernel, by decide +kernel⟩, by decide +kernel⟩,
   ⟨1, 0, .ok, setSlu (wr portState (uSL 1) SLU_PORT.MODE 2) 1 { frame := some ⟨0, 1, false, 5, false, false⟩ }, (packetHeader 1 0 .ok (setSlu (wr portState (uSL 1) SLU_PORT.MODE 2) 1 { frame := some ⟨0, 1, false, 5, false, false⟩ })).2, ⟨0, 1, false, 5, false, false⟩, ⟨Prod.ext (by decide +kernel) rfl, by decide +kernel, by decide +kernel⟩, by decide +kernel, by decide +kernel⟩,
   ⟨1, 0, .ok, setSlu (wr portState (uSL 1) SLU_PORT.MODE 2) 1 { frame := some ⟨0, 1, true, 5, false, false⟩ }, (packetHeader 1 0 .ok (setSlu (wr portState (uSL 1) SLU_PORT.MODE 2) 1 { frame := some ⟨0, 1, true, 5, false, false⟩ })).2, ⟨0, 1, true, 5, false, false⟩, ⟨Prod.ext (by decide +kernel) rfl, by decide +kernel, by decide +kernel⟩, by decide +kernel, by decide +kernel⟩,
   ⟨1, 0, (wr portState (uSL 1) SLU_PORT.MODE 2), by decide +kernel, by decide +kernel⟩⟩

/-- The hypotheses of InertialChain can be met, clause by clause. -/
theorem witness_inertialChain :
    (∃ (engine : Nat) (balls : List Nat) (residueFail : List (Nat × Nat)) (s : State), (islandRuns s uINR = true)) ∧
    (∃ (channel : Nat) (s : State), (inrOn s channel = true ∧ outputDue s channel = true)) ∧
    (∃ (engine : Nat) (retestFail : List (Nat × Nat)) (s : State), ((tget [] s.inr.due engine).any (fun t => t ≤ now s) = true)) ∧
    (∃ (engine : Nat) (retestFail : List (Nat × Nat)) (s : State), ((tget [] s.inr.due engine).any (fun t => t ≤ now s) = false)) :=
  ⟨⟨1, [], [], idleHelm, by decide +kernel⟩,
   ⟨3, inrState, by decide +kernel⟩,
   ⟨1, [], { idleHelm with inr := { due := [(1, [5])] } }, by decide +kernel⟩,
   ⟨1, [], idleHelm, by decide +kernel⟩⟩

/-- The hypotheses of SurfaceEngines can be met, clause by clause. -/
theorem witness_surfaceEngines :
    (∃ (core port : Nat) (flaw : Bool) (g : Geo) (w r : QWord) (t : State) (s : State), (seMay s core port = true) ∧ (geoOf s core (rd s (uSE core) SRF_PORT.SLUICE port) = some g) ∧ (peekQ s g.q = some w ∧ bit w.w 31 = true) ∧ (seStalled s core port = none) ∧ (takeQ g.q (seStart core port s) = (some r, t))) ∧
    (∃ (core port k : Nat) (flaw : Bool) (g : Geo) (w : QWord) (s : State), (seMay s core port = true) ∧ (geoOf s core (rd s (uSE core) SRF_PORT.SLUICE port) = some g) ∧ (peekQ s g.q = some w ∧ bit w.w 31 = true) ∧ (seStalled s core port = some k)) ∧
    (∃ (core port : Nat) (g : Geo) (w r : QWord) (t : State) (s : State), (seMay s core port = true) ∧ (geoOf s core (rd s (uSE core) SRF_PORT.SLUICE port) = some g) ∧ (peekQ s g.q = some w ∧ bit w.w 31 = false ∧ seStalled s core port = none) ∧ (takeQ g.q (seStart core port s) = (some r, t)) ∧ (bit r.w 30 = true)) ∧
    (∃ (core : Nat) (flaw : Bool) (k : Corner) (r : List Corner) (vx vy : Int) (conf : Nat) (sat : Bool) (s : State), ((srfOf s core).corners = k :: r) ∧ (portLen s (pSE core) < 32) ∧ (aperture k.cfg (patchFits k.cfg (fun dx dy => k.ages.getD (winIx dx dy) neverAge)) = (some (vx, vy, conf), sat))) ∧
    (∃ (core : Nat) (flaw : Bool) (k : Corner) (r : List Corner) (sat : Bool) (s : State), ((srfOf s core).corners = k :: r) ∧ (portLen s (pSE core) < 32) ∧ (aperture k.cfg (patchFits k.cfg (fun dx dy => k.ages.getD (winIx dx dy) neverAge)) = (none, sat))) ∧
    (∃ (core channel : Nat) (parBad : Bool) (s : State), (1 ≤ inF s channel INR_CH.AXIS ∧ inF s channel INR_CH.AXIS ≤ 3) ∧ ((inrOf s channel).latest.poison = false ∧ parBad = false)) ∧
    (∃ (core channel : Nat) (s : State), (1 ≤ inF s channel INR_CH.AXIS ∧ inF s channel INR_CH.AXIS ≤ 3)) ∧
    (∃ (core : Nat) (s : State), (readyBit s (RB_CORE + core) = true) ∧ (((srfOf s core).sweep + 16) ≠ lapWords)) ∧
    (∃ (core entry : Nat) (s : State), ((spOf s core entry).clearing = true) ∧ (geoOf s core (rd s (uSE core) SRF_PORT.SLUICE entry) = none)) ∧
    (∃ (core entry : Nat) (g : Geo) (s : State), ((spOf s core entry).clearing = true) ∧ (geoOf s core (rd s (uSE core) SRF_PORT.SLUICE entry) = some g)) :=
  ⟨⟨0, 0, true, _, _, _, _, seEventState, by decide +kernel, rfl, ⟨rfl, by decide +kernel⟩, by decide +kernel, rfl⟩,
   ⟨0, 0, 15, true, _, _, seStalledState, by decide +kernel, rfl, ⟨rfl, by decide +kernel⟩, rfl⟩,
   ⟨0, 0, _, _, _, _, seServiceState, by decide +kernel, rfl, ⟨rfl, by decide +kernel, by decide +kernel⟩, rfl, by decide +kernel⟩,
   ⟨0, true, _, _, 5120, 5120, 127, false, cornerState, rfl, by decide +kernel, by decide +kernel⟩,
   ⟨0, false, _, _, false, cornerNever, rfl, by decide +kernel, by decide +kernel⟩,
   ⟨0, 3, false, wr idleHelm (uIN 3) INR_CH.AXIS 1, by decide +kernel, by decide +kernel⟩,
   ⟨0, 3, wr idleHelm (uIN 3) INR_CH.AXIS 1, by decide +kernel⟩,
   ⟨0, idleHelm, by decide +kernel, by decide +kernel⟩,
   ⟨0, 1, setSp (wr idleHelm (uSE 0) SRF_PORT.SLUICE 4 1) 0 1 { clearing := true }, by decide +kernel, by decide +kernel⟩,
   ⟨0, 0, _, setSp seEventState 0 0 { clearing := true }, by decide +kernel, rfl⟩⟩

/-- The hypotheses of NeuronEngines can be met, clause by clause. -/
theorem witness_neuronEngines :
    (∃ (c : Nat) (p : Pkt) (s : State), (coreTakes s c = true) ∧ (firstCq s (pNeIn c) = some p) ∧ (retainRoom s c 1 = true ∧ stagesFree s c = true) ∧ (isInput s c p = false ∨ heldInputs s c < 8192)) ∧
    (∃ (c : Nat) (p : Pkt) (s : State), (coreTakes s c = true) ∧ (firstCq s (pNeIn c) = some p) ∧ (retainRoom s c 1 = true ∧ stagesFree s c = true) ∧ (isInput s c p = true ∧ 8192 ≤ heldInputs s c)) ∧
    (∃ (c : Nat) (p : Pkt) (s : State), (coreTakes s c = true) ∧ (firstCq s (pNeIn c) = some p) ∧ (retainRoom s c 1 = false ∨ stagesFree s c = false)) ∧
    (∃ (c t : Nat) (s : State), (coreTakes s c = true) ∧ (stepped s c = false ∧ (neOf s c).batches.length < 2) ∧ (oldestStamp s c = some t) ∧ ((nc s c NRN_CFG.REORDER_US : Int) ≤ sx 24 (nowUs s % 2 ^ 24 + 2 ^ 24 - t))) ∧
    (∃ (c : Nat) (b : NeBatch) (r : List NeBatch) (s : State), ((neOf s c).batches = b :: r) ∧ (coreTakes s c = true) ∧ (portLen s (pNE c) < cqCap (pNE c) 1 ∧ retainRoom s c b.acc.length = true)) ∧
    (∃ (c g : Nat) (s : State), (coreTakes s c = true) ∧ (stepped s c = false ∧ ng s c g NRN_GRP.TICK_US ≠ 0 ∧ ng s c g NRN_GRP.VALID ≠ 0 ∧ g < 64)) ∧
    (∃ (c n : Nat) (s : State), (n < 65536) ∧ (2 ^ 22 ≤ (stampAge (tget stampNever (neOf s c).stamps n)
      (if stepped s c then (neOf s c).step * nc s c NRN_CFG.STEP_US % 2 ^ 24 else nowUs s % 2 ^ 24)).1)) ∧
    (∃ (c : Nat) (s : State), (coreTakes s c = true) ∧ (stepped s c = true) ∧ (nc s c NRN_CFG.STEP_SOURCES ≤ marksIn s c ∧ stepDue s c ≤ now s)) ∧
    (∃ (c : Nat) (s : State), (coreTakes s c = true) ∧ (stepped s c = true) ∧ (stepDue s c + nc s c NRN_CFG.STRETCH_LIMIT_US * 1000 ≤ now s)) ∧
    (∃ (c g : Nat) (s : State), (coreTakes s c = true) ∧ (g < 64 ∧ ng s c g NRN_GRP.VALID ≠ 0 ∧ ng s c g NRN_GRP.CNT_EN ≠ 0) ∧ (windowEnd s c g ≤ modelPassed s c ∧ firesBefore s c (windowEnd s c g) = false) ∧ ((neOf s c).copies.any (fun e => e.group == g) = false)) ∧
    (∃ (c g : Nat) (s : State), (coreTakes s c = true) ∧ (g < 64 ∧ ng s c g NRN_GRP.VALID ≠ 0 ∧ ng s c g NRN_GRP.CNT_EN ≠ 0) ∧ (windowEnd s c g ≤ modelPassed s c ∧ firesBefore s c (windowEnd s c g) = false) ∧ ((neOf s c).copies.any (fun e => e.group == g) = true ∧ tget false (neOf s c).deferred g = false)) ∧
    (∃ (c : Nat) (e : CntCopy) (r : List CntCopy) (s : State), ((neOf s c).copies = e :: r)) :=
  ⟨⟨0, { key := 5, pay := 6 }, neIn0, by decide +kernel, by decide +kernel, by decide +kernel, by decide +kernel⟩,
   ⟨0, { key := 5, pay := 6 }, neCrowded, by decide +kernel, by decide +kernel, by decide +kernel, by decide +kernel⟩,
   ⟨0, { key := 5, pay := 6 }, neFull0, by decide +kernel, by decide +kernel, by decide +kernel⟩,
   ⟨0, 7, neWaiting, by decide +kernel, by decide +kernel, by decide +kernel, by decide +kernel⟩,
   ⟨0, _, _, neBatch0, rfl, by decide +kernel, by decide +kernel⟩,
   ⟨0, 1, neGroup, by decide +kernel, by decide +kernel⟩,
   ⟨0, 7, core0, by decide +kernel, by decide +kernel⟩,
   ⟨0, neStepped, by decide +kernel, by decide +kernel, by decide +kernel⟩,
   ⟨0, neStepped, by decide +kernel, by decide +kernel, by decide +kernel⟩,
   ⟨0, 1, neGroup, by decide +kernel, by decide +kernel, by decide +kernel, by decide +kernel⟩,
   ⟨0, 1, setNe neGroup 0 { copies := [⟨1, 0, 5, 5, false, [], false, []⟩] }, by decide +kernel, by decide +kernel, by decide +kernel, by decide +kernel⟩,
   ⟨0, ⟨1, 0, 5, 5, false, [], false, []⟩, [], setNe neGroup 0 { copies := [⟨1, 0, 5, 5, false, [], false, []⟩] }, by decide +kernel⟩⟩

/-- The hypotheses of FeatureArrays can be met, clause by clause. -/
theorem witness_featureArrays :
    (∃ (n p job : Nat) (s : State), (prF s n p ARR_PROG.VALID = 1 ∧ prF s n p ARR_PROG.TRIGGER = 0 ∧ faJob s n = job ∧ p < 16)) ∧
    (∃ (n p job : Nat) (s : State), (¬ (prF s n p ARR_PROG.VALID = 1 ∧ prF s n p ARR_PROG.TRIGGER = 0 ∧ faJob s n = job ∧ p < 16))) ∧
    (∃ (n : Nat) (x : ArrPend) (rest : List ArrPend) (s : State), ((faOf s n).run = none ∧ (faOf s n).queue = x :: rest) ∧ (faTakes s n = true) ∧ (copyHeld s n x.prog = false)) ∧
    (∃ (n : Nat) (r : ArrInst) (s : State), (faTakes s n = true) ∧ ((faOf s n).run = some r) ∧ (r.ld < runF r ARR_PROG.LD_COUNT) ∧ (r.ldOn = true ∨ semBlocked (faOf s n) (fldOf (descAt s (runF r ARR_PROG.LD_LIST) r.ld) ARR_LD.WAIT_EN)
      (fldOf (descAt s (runF r ARR_PROG.LD_LIST) r.ld) ARR_LD.WAIT_SEM) = false)) ∧
    (∃ (n : Nat) (r : ArrInst) (w : WSet) (ws : List WSet) (s : State), (faTakes s n = true) ∧ ((faOf s n).run = some r ∧ (faOf s n).wsets = w :: ws) ∧ (r.cp < runF r ARR_PROG.CMP_COUNT) ∧ (semBlocked (faOf s n) (fldOf (descAt s (runF r ARR_PROG.CMP_LIST) r.cp) ARR_CMP.WAIT_EN)
      (fldOf (descAt s (runF r ARR_PROG.CMP_LIST) r.cp) ARR_CMP.WAIT_SEM) = false) ∧ (fldOf (descAt s (runF r ARR_PROG.CMP_LIST) r.cp) ARR_CMP.TILES_M1 < (faOf s n).tiles.length) ∧ ((faOf s n).ready.contains (faOf s n).cur = false)) ∧
    (∃ (n h : Nat) (r : ArrInst) (hs : List Nat) (s : State), (faTakes s n = true) ∧ ((faOf s n).run = some r ∧ (faOf s n).ready = h :: hs) ∧ (r.st < runF r ARR_PROG.ST_COUNT) ∧ (semBlocked (faOf s n) (fldOf (descAt s (runF r ARR_PROG.ST_LIST) r.st) ARR_ST.WAIT_EN)
      (fldOf (descAt s (runF r ARR_PROG.ST_LIST) r.st) ARR_ST.WAIT_SEM) = false)) :=
  ⟨⟨1, 3, 0, array1, by decide +kernel⟩,
   ⟨1, 3, 5, array1, by decide +kernel⟩,
   ⟨1, { prog := 3, buf := .none, base := 0, tov := 0, from_ := 5 }, [], setFa array1 1 { queue := [{ prog := 3, buf := .none, base := 0, tov := 0, from_ := 5 }] }, by decide +kernel, by decide +kernel, by decide +kernel⟩,
   ⟨1, inst1, arrayRuns, by decide +kernel, rfl, by decide +kernel, by decide +kernel⟩,
   ⟨1, inst1, ⟨[]⟩, [], arrayLoaded, by decide +kernel, ⟨rfl, rfl⟩, by decide +kernel, by decide +kernel, by decide +kernel, by decide +kernel⟩,
   ⟨1, 0, inst1, [], arrayReady, by decide +kernel, ⟨rfl, rfl⟩, by decide +kernel, by decide +kernel⟩⟩

/-- The hypotheses of ADoorbellStartsItsProgramme can be met, clause by clause. -/
theorem witness_aDoorbellStartsItsProgramme :
    (∃ (n p job : Nat) (s : State), p < 16 ∧ prF s n p ARR_PROG.VALID = 1 ∧ prF s n p ARR_PROG.TRIGGER = 0 ∧ faJob s n = job) ∧
    (∃ (n p job : Nat) (s : State), prF s n p ARR_PROG.VALID ≠ 1 ∨ prF s n p ARR_PROG.TRIGGER ≠ 0 ∨ faJob s n ≠ job) :=
  ⟨⟨1, 3, 0, array1, by decide +kernel⟩, 1, 2, 0, array1, by decide +kernel⟩

/-- The hypotheses of TensorBuilders can be met, clause by clause. -/
theorem witness_tensorBuilders :
    (∃ (k : Nat) (bad : Bool) (p p₁ : Pkt) (t : State) (s : State), (tenTakes s k = true) ∧ ((upto 8).any (fun e => (tenOf s k e).wait.isSome) = false) ∧ (firstCq s (pTen k) = some p) ∧ (crossCheck (uTEN k) p (dropCq (pTen k) s) = (p₁, t)) ∧ (tvMatches t k p₁ = [])) ∧
    (∃ (k : Nat) (bad : Bool) (p p₁ : Pkt) (t : State) (s : State), (tenTakes s k = true) ∧ ((upto 8).any (fun e => (tenOf s k e).wait.isSome) = false) ∧ (firstCq s (pTen k) = some p) ∧ (crossCheck (uTEN k) p (dropCq (pTen k) s) = (p₁, t)) ∧ (tvMatches t k p₁ ≠ [])) ∧
    (∃ (k e w b : Nat) (s : State), (tenTakes s k = true) ∧ ((tenOf s k e).open_ = some (w, b)) ∧ (tvEnd s k e w ≤ nowUs s)) ∧
    (∃ (k e w b : Nat) (s : State), (tenTakes s k = true) ∧ ((tenOf s k e).grace = some (w, b)) ∧ (tvEnd s k e w + tvF s k e TEN_VOX.LATE_US ≤ nowUs s) ∧ (tvF s k e TEN_VOX.TRIG_EN ≠ 1 ∨ prF s k (tvF s k e TEN_VOX.PROG) ARR_PROG.VALID ≠ 1 ∨ prF s k (tvF s k e TEN_VOX.PROG) ARR_PROG.TRIGGER ≠ 1 ∨
      prF s k (tvF s k e TEN_VOX.PROG) ARR_PROG.SRC ≠ e)) ∧
    (∃ (k e w b : Nat) (s : State), (tenTakes s k = true) ∧ ((tenOf s k e).grace = some (w, b)) ∧ (tvEnd s k e w + tvF s k e TEN_VOX.LATE_US ≤ nowUs s) ∧ (tvF s k e TEN_VOX.TRIG_EN = 1 ∧ prF s k (tvF s k e TEN_VOX.PROG) ARR_PROG.VALID = 1 ∧ prF s k (tvF s k e TEN_VOX.PROG) ARR_PROG.TRIGGER = 1 ∧
      prF s k (tvF s k e TEN_VOX.PROG) ARR_PROG.SRC = e)) ∧
    (∃ (k e b : Nat) (s : State), (tget 0 (tenOf s k e).bufs b = 3 ∧ b < 3)) ∧
    (∃ (k e b : Nat) (s : State), (tget 0 (tenOf s k e).bufs b ≠ 3 ∨ 3 ≤ b)) :=
  ⟨⟨1, true, _, _, _, tenPkt, by decide +kernel, by decide +kernel, rfl, rfl, by decide +kernel⟩,
   ⟨1, true, _, _, _, tenPktMatch, by decide +kernel, by decide +kernel, rfl, rfl, by decide +kernel⟩,
   ⟨1, 2, 40, 1, tenOpen, by decide +kernel, by decide +kernel, by decide +kernel⟩,
   ⟨1, 2, 40, 1, tenGrace, by decide +kernel, by decide +kernel, by decide +kernel, by decide +kernel⟩,
   ⟨1, 2, 40, 1, tenGraceRun, by decide +kernel, by decide +kernel, by decide +kernel, by decide +kernel⟩,
   ⟨1, 2, 1, setTen idleHelm 1 2 { bufs := [(1, 3)], wait := some 41 }, by decide +kernel⟩,
   ⟨1, 2, 0, setTen idleHelm 1 2 { bufs := [(1, 3)], wait := some 41 }, by decide +kernel⟩⟩

/-- The hypotheses of Fusion can be met, clause by clause. -/
theorem witness_fusion :
    (∃ (k : Nat) (s : State), (fg s FUS_GRID.PHASE_US * 1000 ≤ now s) ∧ (k = (now s - fg s FUS_GRID.PHASE_US * 1000) / max 1 (fg s FUS_GRID.CYCLE_US * 1000))) ∧
    (∃ (k : Nat) (c : Contrib) (s : State), ((srcOf s k).fill = some c) ∧ (fsF s k FUS_SRC.KIND = 0 ∧ k < 32)) ∧
    (∃ (k : Nat) (flaw : Bool) (a b c d : QWord) (rest : List QWord) (s : State), (s.fus.cfg = none ∧ fusTakes s = true) ∧ (k < 32 ∧ fsF s k FUS_SRC.VALID ≠ 0 ∧ fsF s k FUS_SRC.KIND = 1) ∧ ((queueOf s (fsF s k FUS_SRC.QUEUE)).latched = a :: b :: c :: d :: rest)) ∧
    (∃ (k : Nat) (flaw : Bool) (s : State) (g : Tbl W64), (s.fus.cfg = some g)) ∧
    (∃ (k : Nat) (flaw : Bool) (s : State), (s.fus.cfg = none) ∧ (k < 32 ∧ fsF s k FUS_SRC.VALID ≠ 0 ∧ fsF s k FUS_SRC.KIND = 1) ∧ ((queueOf s (fsF s k FUS_SRC.QUEUE)).latched.length < 4)) ∧
    (∃ (s : State) (p q : Pkt) (t : State) (k : Nat), (s.fus.cfg = none ∧ fusTakes s = true) ∧ (firstCq s pFus = some p) ∧ (crossCheck uFUS p (dropCq pFus s) = (q, t)) ∧ (flowSource (if q.poison then consumePoison (fusJob t) uFUS t else t) (bits q.key 26 6) = some k ∧ bits q.key 24 2 = 2)) ∧
    (∃ (s : State) (p q : Pkt) (t : State) (k : Nat), (s.fus.cfg = none ∧ fusTakes s = true) ∧ (firstCq s pFus = some p) ∧ (crossCheck uFUS p (dropCq pFus s) = (q, t)) ∧ (flowSource (if q.poison then consumePoison (fusJob t) uFUS t else t) (bits q.key 26 6) = some k ∧ bits q.key 24 2 = 3)) ∧
    (∃ (s : State) (g : Tbl W64), (s.fus.cfg = some g)) ∧
    (∃ (flaws : List Nat) (s : State) (c : FusCycle), (fusTakes s = true) ∧ (s.fus.grid = some c)) ∧
    (∃ (flaw : Bool) (s : State) (c : FusCycle) (rest : List FusCycle), (fusTakes s = true) ∧ (s.fus.ego = c :: rest)) ∧
    (∃ (flaws : List Nat) (s : State) (c : FusCycle) (rest : List FusCycle) (i : Nat) (inc : List Nat) (incBad : Bool), (fusTakes s = true) ∧ (s.fus.obj = c :: rest) ∧ (c.head = true) ∧ (s.fus.incs.find? (fun e => e.1 == c.cycle) = some (i, inc, incBad))) ∧
    (∃ (flaws : List Nat) (s : State) (c : FusCycle) (rest : List FusCycle), (s.fus.obj = c :: rest) ∧ (c.head = false)) :=
  ⟨⟨4999, wr (wr idleHelm uFUS FUS_GRID.CYCLE_US 1000) uFUS FUS_GRID.PHASE_US 5, by decide +kernel, by decide +kernel⟩,
   ⟨3, _, fillState, rfl, by decide +kernel⟩,
   ⟨3, true, _, _, _, _, _, lidarState, by decide +kernel, by decide +kernel, rfl⟩,
   ⟨3, true, fusTicked, [], rfl⟩,
   ⟨3, false, wr idleHelm uFUS FUS_SRC.VALID 1 3 |> fun s => wr s uFUS FUS_SRC.KIND 1 3, by decide +kernel, by decide +kernel, by decide +kernel⟩,
   ⟨flowState, _, _, _, 3, by decide +kernel, rfl, rfl, by decide +kernel⟩,
   ⟨flowState2, _, _, _, 3, by decide +kernel, rfl, rfl, by decide +kernel⟩,
   ⟨fusTicked, [], rfl⟩,
   ⟨[3], gridState, _, by decide +kernel, rfl⟩,
   ⟨true, egoState, _, _, by decide +kernel, rfl⟩,
   ⟨[3], objState, fusCyc, [], 4, [], false, by decide +kernel, rfl, by decide +kernel, rfl⟩,
   ⟨[], { objState with fus := { objState.fus with obj := [{ fusCyc with head := false }] } }, { fusCyc with head := false }, [], rfl, by decide +kernel⟩⟩

/-- The hypotheses of RegisterWriteCommands can be met, clause by clause. -/
theorem witness_registerWriteCommands :
    (∃ (sluice : Nat) (w0 w1 : W64) (s : State), (sluice < 16) ∧ (WriteTaken (uSL sluice) 0x0101 2 0 [w0, w1 ||| 1] s)) ∧
    (∃ (sluice : Nat) (w0 : W64) (s : State), (sluice < 16) ∧ (WriteTaken (uSL sluice) 0x0101 2 0 [w0, 0] s)) ∧
    (∃ (link : Nat) (word : W64) (s : State), (link < 4) ∧ (WriteTaken (uCK link) 0x0503 1 0 [word ||| 1] s)) ∧
    (∃ (dev : Nat) (s : State), (WriteTaken uDEV 0x0502 1 0 [BitVec.ofNat 64 dev] s)) ∧
    (∃ (hub : Nat) (word : W64) (s : State), (hub < 4) ∧ (WriteTaken (uHUB hub) 0x0501 1 0 [word] s)) ∧
    (∃ (channel : Nat) (w0 w1 : W64) (s : State), (channel < 24) ∧ (WriteTaken (uIN channel) 0x0202 2 0 [w0, w1] s)) ∧
    (∃ (core entry : Nat) (word : W64) (s : State), (core < 16 ∧ entry < 4) ∧ (WriteTaken (uSE core) 0x0301 1 entry [word ||| 1] s)) ∧
    (∃ (stream : Nat) (w0 w1 : W64) (s : State), (stream < 64) ∧ (WriteTaken (uSTREAM stream) 0x0801 2 0 [w0 ||| (1 <<< 40), w1] s)) ∧
    (∃ (stream : Nat) (w0 : W64) (s : State), (stream < 64) ∧ (WriteTaken (uSTREAM stream) 0x0801 2 0 [w0 &&& ~~~((1 : W64) <<< 40)] s)) ∧
    (∃ (queue : Nat) (w0 : W64) (s : State), (queue < 512) ∧ (WriteTaken (uQUEUE queue) 0x0901 4 0 [w0 &&& ~~~(1 : W64)] s)) ∧
    (∃ (w0 : W64) (s : State), (WriteTaken uTMU 0x0A03 4 0 [w0 &&& ~~~((1 : W64) <<< 3)] s)) ∧
    (∃ (index : Nat) (w0 w1 : W64) (s : State), (index < 8) ∧ (WriteTaken uTMU 0x0A05 2 index [w0, w1 ||| (1 <<< 31)] s)) ∧
    (∃ (sluice : Nat) (w0 w1 : W64) (s : State), (sluice < 16) ∧ (WriteTaken (uSL sluice) 0x0A06 4 0 [w0, w1 ||| (1 <<< 31)] s)) :=
  ⟨⟨(1), (BitVec.ofNat 64 (regWord loadedIdle (uSL 1) 0x0101 0 0)), (BitVec.ofNat 64 (regWord loadedIdle (uSL 1) 0x0101 0 1)), loadedIdle, by decide +kernel, ⟨by decide +kernel, by decide +kernel⟩⟩,
   ⟨(1), (BitVec.ofNat 64 (regWord loadedIdle (uSL 1) 0x0101 0 0)), loadedIdle, by decide +kernel, ⟨by decide +kernel, by decide +kernel⟩⟩,
   ⟨(1), (BitVec.ofNat 64 (regWord loadedIdle (uCK 1) 0x0503 0 0)), loadedIdle, by decide +kernel, ⟨by decide +kernel, by decide +kernel⟩⟩,
   ⟨5, loadedIdle, ⟨by decide +kernel, by decide +kernel⟩⟩,
   ⟨1, 0x101, loadedIdle, by decide +kernel, ⟨by decide +kernel, by decide +kernel⟩⟩,
   ⟨3, 0, 0, loadedIdle, by decide +kernel, ⟨by decide +kernel, by decide +kernel⟩⟩,
   ⟨(3), (1), (0x2000002), wr loadedIdle (uSL 1) SLU_PORT.HOME0 3, by decide +kernel, ⟨by decide +kernel, by decide +kernel⟩⟩,
   ⟨(2), (BitVec.ofNat 64 (regWord loadedIdle (uSTREAM 2) 0x0801 0 0) ||| 0x1000000000), (BitVec.ofNat 64 (regWord loadedIdle (uSTREAM 2) 0x0801 0 1)), loadedIdle, by decide +kernel, ⟨by decide +kernel, by decide +kernel⟩⟩,
   ⟨(2), (BitVec.ofNat 64 (regWord loadedIdle (uSTREAM 2) 0x0801 0 0)), loadedIdle, by decide +kernel, ⟨by decide +kernel, by decide +kernel⟩⟩,
   ⟨(2), (BitVec.ofNat 64 (regWord loadedIdle (uQUEUE 2) 0x0901 0 0)), loadedIdle, by decide +kernel, ⟨by decide +kernel, by decide +kernel⟩⟩,
   ⟨(BitVec.ofNat 64 (regWord loadedIdle uTMU 0x0A03 0 0)), loadedIdle, ⟨by decide +kernel, by decide +kernel⟩⟩,
   ⟨(3), (6000000000), (0), loadedIdle, by decide +kernel, ⟨by decide +kernel, by decide +kernel⟩⟩,
   ⟨(1), (6000000000), (0x1000F4240), loadedIdle, by decide +kernel, ⟨by decide +kernel, by decide +kernel⟩⟩⟩

/-- The hypotheses of RegisterWritesThatBreakARuleChangeNothing can be met, clause by clause. -/
theorem witness_registerWritesThatBreakARuleChangeNothing :
    (∃ (sluice : Nat) (w0 w1 : W64) (s : State), (sluice < 16) ∧ (¬ WriteTaken (uSL sluice) 0x0101 2 0 [w0, w1 ||| 1] s)) ∧
    (∃ (sluice : Nat) (w0 : W64) (s : State), (sluice < 16) ∧ (¬ WriteTaken (uSL sluice) 0x0101 2 0 [w0, 0] s)) ∧
    (∃ (link : Nat) (word : W64) (s : State), (link < 4) ∧ (¬ WriteTaken (uCK link) 0x0503 1 0 [word ||| 1] s)) ∧
    (∃ (hub : Nat) (word : W64) (s : State), (hub < 4) ∧ (¬ WriteTaken (uHUB hub) 0x0501 1 0 [word] s)) ∧
    (∃ (channel : Nat) (w0 w1 : W64) (s : State), (channel < 24) ∧ (¬ WriteTaken (uIN channel) 0x0202 2 0 [w0, w1] s)) ∧
    (∃ (core entry : Nat) (word : W64) (s : State), (core < 16 ∧ entry < 4) ∧ (¬ WriteTaken (uSE core) 0x0301 1 entry [word ||| 1] s)) ∧
    (∃ (stream : Nat) (w0 w1 : W64) (s : State), (stream < 64) ∧ (¬ WriteTaken (uSTREAM stream) 0x0801 2 0 [w0 ||| (1 <<< 40), w1] s)) ∧
    (∃ (stream : Nat) (w0 : W64) (s : State), (stream < 64) ∧ (¬ WriteTaken (uSTREAM stream) 0x0801 2 0 [w0 &&& ~~~((1 : W64) <<< 40)] s)) ∧
    (∃ (queue : Nat) (w0 : W64) (s : State), (queue < 512) ∧ (¬ WriteTaken (uQUEUE queue) 0x0901 4 0 [w0 &&& ~~~(1 : W64)] s)) ∧
    (∃ (w0 : W64) (s : State), (¬ WriteTaken uTMU 0x0A03 4 0 [w0 &&& ~~~((1 : W64) <<< 3)] s)) ∧
    (∃ (index : Nat) (w0 w1 : W64) (s : State), (index < 8) ∧ (¬ WriteTaken uTMU 0x0A05 2 index [w0, w1 ||| (1 <<< 31)] s)) ∧
    (∃ (sluice : Nat) (w0 w1 : W64) (s : State), (sluice < 16) ∧ (¬ WriteTaken (uSL sluice) 0x0A06 4 0 [w0, w1 ||| (1 <<< 31)] s)) :=
  ⟨⟨(1), (BitVec.ofNat 64 (regWord loadedIdle (uSL 1) 0x0101 0 0)), (BitVec.ofNat 64 (regWord loadedIdle (uSL 1) 0x0101 0 1)), { bringup0 with dev := { bringup0.dev with ready := 0 } }, by decide +kernel, fun h => absurd h.1 (by decide +kernel)⟩,
   ⟨(1), (BitVec.ofNat 64 (regWord loadedIdle (uSL 1) 0x0101 0 0)), { bringup0 with dev := { bringup0.dev with ready := 0 } }, by decide +kernel, fun h => absurd h.1 (by decide +kernel)⟩,
   ⟨1, 6, loadedIdle, by decide +kernel, fun h => absurd h.2 (by decide +kernel)⟩,
   ⟨1, 0x101, { bringup0 with dev := { bringup0.dev with ready := 0 } }, by decide +kernel, fun h => absurd h.1 (by decide +kernel)⟩,
   ⟨3, 0, 0, { bringup0 with dev := { bringup0.dev with ready := 0 } }, by decide +kernel, fun h => absurd h.1 (by decide +kernel)⟩,
   ⟨(3), (1), (0x2000002), { bringup0 with dev := { bringup0.dev with ready := 0 } }, by decide +kernel, fun h => absurd h.1 (by decide +kernel)⟩,
   ⟨(2), (BitVec.ofNat 64 (regWord loadedIdle (uSTREAM 2) 0x0801 0 0) ||| 0x1000000000), (BitVec.ofNat 64 (regWord loadedIdle (uSTREAM 2) 0x0801 0 1)), { bringup0 with dev := { bringup0.dev with ready := 0 } }, by decide +kernel, fun h => absurd h.1 (by decide +kernel)⟩,
   ⟨(2), (BitVec.ofNat 64 (regWord loadedIdle (uSTREAM 2) 0x0801 0 0)), { bringup0 with dev := { bringup0.dev with ready := 0 } }, by decide +kernel, fun h => absurd h.1 (by decide +kernel)⟩,
   ⟨(2), (BitVec.ofNat 64 (regWord loadedIdle (uQUEUE 2) 0x0901 0 0)), { bringup0 with dev := { bringup0.dev with ready := 0 } }, by decide +kernel, fun h => absurd h.1 (by decide +kernel)⟩,
   ⟨(BitVec.ofNat 64 (regWord loadedIdle uTMU 0x0A03 0 0)), { bringup0 with dev := { bringup0.dev with ready := 0 } }, fun h => absurd h.1 (by decide +kernel)⟩,
   ⟨(3), (6000000000), (0), { bringup0 with dev := { bringup0.dev with ready := 0 } }, by decide +kernel, fun h => absurd h.1 (by decide +kernel)⟩,
   ⟨(1), (6000000000), (0x1000F4240), { bringup0 with dev := { bringup0.dev with ready := 0 } }, by decide +kernel, fun h => absurd h.1 (by decide +kernel)⟩⟩

/-- The hypotheses of RegistersAndMemoryReadBack can be met, clause by clause. -/
theorem witness_registersAndMemoryReadBack :
    (∃ (s : State) (f : Fld), Registers.wf s ∧ f.lo + f.width ≤ 64) ∧
    (∃ (s : State) (u reg e w u' reg' e' w' : Nat), Registers.wf s ∧ reg < 65536 ∧ reg' < 65536 ∧ e < 65536 ∧ e' < 65536 ∧ w < 32 ∧ w' < 32 ∧
      (u', reg', e', w') ≠ (u, reg, e, w)) ∧
    (∃ s : State, Memory.wf s) ∧ (∃ (s : State) (a b : Nat) (l : List Byte), Memory.wf s ∧ (b < a ∨ a + l.length ≤ b)) :=
  ⟨⟨State.reset, SLU_PORT.PHY, by decide, by decide⟩, ⟨State.reset, 1, 65535, 0, 31, 1, 65535, 1, 0, by decide, by decide, by decide, by decide, by decide, by decide, by decide, by decide⟩,
   ⟨State.reset, by decide⟩, State.reset, 5, 6, [1], by decide, by decide⟩

/-- The hypotheses of ResultEvents can be met, clause by clause. -/
theorem witness_resultEvents :
    (∃ (k : Nat) (p p₁ : Pkt) (t : State) (s : State), (s.dev.state ≠ .safe ∧ islandRuns s (uSTREAM k) = true) ∧ (firstCq s (pStream k) = some p) ∧ (crossCheck (uSTREAM k) p (dropCq (pStream k) s) = (p₁, t))) ∧
    (∃ (k : Nat) (e : Entry) (r : List Entry) (s : State), (s.dev.state ≠ .safe ∧ islandRuns s (uSTREAM k) = true) ∧ (firstCq s (pStream k) = none) ∧ (tget [] s.res.offered k = e :: r)) ∧
    (∃ (k : Nat) (r : Rec) (s : State), ((strOf s k).cur = some r) ∧ (r.flush ≠ 0 ∧ r.opened + r.flush * 1000 ≤ now s)) ∧
    (∃ (k : Nat) (r : Rec) (s : State), ((strOf s k).cur = some r) ∧ (r.flush = 0 ∨ now s < r.opened + r.flush * 1000)) ∧
    (∃ (k : Nat) (r : Rec) (l : List Rec) (s : State), (s.dev.state ≠ .safe) ∧ ((strOf s k).waiting = r :: l) ∧ (recWaits s r = false)) ∧
    (∃ (k : Nat) (r : Rec) (l : List Rec) (s : State), (s.dev.state ≠ .safe) ∧ ((strOf s k).waiting = r :: l) ∧ (recWaits s r = true)) ∧
    (∃ (p : Nat) (j : PushJob) (r : List PushJob) (s : State), ((pushOf s p).cur = none ∧ (pushOf s p).waiting = j :: r) ∧ (subF s j.sub RES_SUB.VALID ≠ 0) ∧ ((tget {} (strOf s j.stream).slots j.slot : Slot).seq = j.seq)) ∧
    (∃ (p : Nat) (j : PushJob) (r : List PushJob) (s : State), ((pushOf s p).cur = none ∧ (pushOf s p).waiting = j :: r) ∧ (subF s j.sub RES_SUB.VALID ≠ 0) ∧ ((tget {} (strOf s j.stream).slots j.slot : Slot).seq ≠ j.seq)) ∧
    (∃ (p : Nat) (j : PushJob) (s : State), ((pushOf s p).cur = some j)) :=
  ⟨⟨2, { key := 5, pay := 6 }, _, _, entryWaits, by decide +kernel, by decide +kernel, rfl⟩,
   ⟨2, _, _, entryOffered, by decide +kernel, by decide +kernel, rfl⟩,
   ⟨2, _, recOpen, rfl, by decide +kernel⟩,
   ⟨2, _, { recOpen with time := { sec := 0 } }, rfl, by decide +kernel⟩,
   ⟨2, _, _, recClosed, by decide +kernel, rfl, by decide +kernel⟩,
   ⟨2, _, _, recHeld, by decide +kernel, rfl, by decide +kernel⟩,
   ⟨0, pushJob0, [], pushWaits, by decide +kernel, by decide +kernel, by decide +kernel⟩,
   ⟨0, { pushJob0 with seq := 4 }, [], setPush pushWaits 0 { waiting := [{ pushJob0 with seq := 4 }] }, by decide +kernel, by decide +kernel, by decide +kernel⟩,
   ⟨0, pushJob0, setPush pushWaits 0 { cur := some pushJob0, buf := [1, 2] }, by decide +kernel⟩⟩

/-- The hypotheses of GuestEvents can be met, clause by clause. -/
theorem witness_guestEvents :
    (∃ (b : Nat) (data : List Byte) (j : Nat) (s : State), (berthJob s b = some j) ∧ ((bportOf s b).busy = false) ∧ (32 ≤ data.length ∧ data.length ≤ 2032 ∧ messageOk data true = true ∧ messageKind data = 0)) ∧
    (∃ (b : Nat) (data : List Byte) (j : Nat) (s : State), (berthJob s b = some j) ∧ ((bportOf s b).busy = true)) ∧
    (∃ (b : Nat) (data : List Byte) (j : Nat) (s : State), (berthJob s b = some j) ∧ ((bportOf s b).busy = false) ∧ (data.length < 32 ∨ 2032 < data.length ∨ messageOk data true = false ∨ messageKind data ≠ 0)) ∧
    (∃ (j gen : Nat) (r : CkptRun) (s : State), ((jobOf s j).ckptRun = some r) ∧ (r.gen = gen ∧ now s ≤ r.due)) ∧
    (∃ (j gen : Nat) (s : State), ((jobOf s j).ckptRun = none)) ∧
    (∃ (j : Nat) (r : CkptRun) (s : State), ((jobOf s j).ckptRun = some r) ∧ (r.acked = false ∧ r.due ≤ now s)) ∧
    (∃ (j : Nat) (s : State), (j < 8 ∧ bits (jobOf s j).spjob0 48 8 = 0) ∧ ((jobOf s j).lastCkpt + bits (jobOf s j).spjob1 0 16 * 1000000 ≤ now s)) ∧
    (∃ (j d : Nat) (s : State), ((jobOf s j).stopping = some d) ∧ (jobRuns s j = true)) ∧
    (∃ (j : Nat) (r : Restart) (s : State), (tget none s.pass.restart j = some r)) ∧
    (∃ (h a : Nat) (s : State), (h < 8 ∧ (tget {} s.apx.harts h : Hart).inGuest = true)) ∧
    (∃ (h a n : Nat) (write : Bool) (v : Nat) (s : State), (h < 8 ∧ (tget {} s.apx.harts h : Hart).inGuest = true) ∧ (guestMay s (tget {} s.apx.harts h : Hart).job h a n write = false) ∧ (write = true ∧ 0x1100000000 ≤ a ∧ a < 0x1300000000 ∧ guestMay s (tget {} s.apx.harts h : Hart).job h a n false = true)) ∧
    (∃ (h a n : Nat) (write : Bool) (v : Nat) (s : State), (h < 8 ∧ (tget {} s.apx.harts h : Hart).inGuest = true) ∧ (guestMay s (tget {} s.apx.harts h : Hart).job h a n write = false) ∧ (¬ (write = true ∧ 0x1100000000 ≤ a ∧ a < 0x1300000000 ∧ guestMay s (tget {} s.apx.harts h : Hart).job h a n false = true))) ∧
    (∃ (h a n v : Nat) (s : State), (h < 8 ∧ (tget {} s.apx.harts h : Hart).inGuest = true) ∧ (guestMay s (tget {} s.apx.harts h : Hart).job h a n true = true) ∧ (a < 0x1100000000 ∧ ¬ ((jobOf s (tget {} s.apx.harts h : Hart).job).jobctlGpa ≤ a ∧ a + n ≤ (jobOf s (tget {} s.apx.harts h : Hart).job).jobctlGpa + 4096))) ∧
    (∃ (h a n v : Nat) (s : State), (h < 8 ∧ (tget {} s.apx.harts h : Hart).inGuest = true) ∧ (guestMay s (tget {} s.apx.harts h : Hart).job h a n false = true) ∧ (a < 0x1100000000 ∧ lineBad s a n = false ∧ ¬ ((jobOf s (tget {} s.apx.harts h : Hart).job).jobctlGpa ≤ a ∧ a + n ≤ (jobOf s (tget {} s.apx.harts h : Hart).job).jobctlGpa + 4096))) ∧
    (∃ (h : Nat) (s : State), (h < 8)) :=
  ⟨⟨2, goData, 0, portalJob, by decide +kernel, by decide +kernel, by decide +kernel⟩,
   ⟨2, [], 0, setBport portalJob 2 { busy := true }, by decide +kernel, by decide +kernel⟩,
   ⟨2, [], 0, portalJob, by decide +kernel, by decide +kernel, by decide +kernel⟩,
   ⟨0, 4, _, ckptJob, rfl, by decide +kernel⟩,
   ⟨0, 4, jobRuns0, by decide +kernel⟩,
   ⟨0, _, ckptLate, rfl, by decide +kernel⟩,
   ⟨0, setJob jobRuns0 0 { exist := true, run := true, spjob0 := 0 }, by decide +kernel, by decide +kernel⟩,
   ⟨0, _, setJob jobRuns0 0 { exist := true, run := true, stopping := some 7 }, rfl, by decide +kernel⟩,
   ⟨0, _, setPass jobRuns0 { restart := [(0, some ⟨5, 0, 0, 0, 1, 0, []⟩)] }, rfl⟩,
   ⟨2, 77, guestHart, by decide +kernel⟩,
   ⟨2, 0x1200000000, 8, true, 9, setJob guestHart 0 { exist := true, run := true, streams := 1 }, by decide +kernel, by decide +kernel, by decide +kernel⟩,
   ⟨2, 0x1200000000, 8, true, 9, guestHart, by decide +kernel, by decide +kernel, by decide +kernel⟩,
   ⟨2, 0x1000, 8, 9, guestRegion, by decide +kernel, by decide +kernel, by decide +kernel⟩,
   ⟨2, 0x1000, 8, 0, guestRegion, by decide +kernel, by decide +kernel, by decide +kernel⟩,
   ⟨2, guestHart, by decide +kernel⟩⟩

/-- The hypotheses of BargeQueues can be met, clause by clause. -/
theorem witness_bargeQueues :
    (∃ (q job : Nat) (words : List Nat) (parBad : Bool) (s : State), (ownsQueue s job q = true) ∧ (pushAllowed s q = true ∧ 1 ≤ words.length ∧ words.length ≤ 2)) ∧
    (∃ (q job : Nat) (words : List Nat) (parBad : Bool) (s : State), (ownsQueue s job q = true) ∧ (pushAllowed s q = true ∧ 1 ≤ words.length ∧ words.length ≤ 2)) ∧
    (∃ (q job : Nat) (words : List Nat) (parBad : Bool) (s : State), (ownsQueue s job q = true) ∧ (pushAllowed s q = false ∨ words.length = 0 ∨ 2 < words.length)) ∧
    (∃ (q job : Nat) (words : List Nat) (parBad : Bool) (s : State), (ownsQueue s job q = false)) ∧
    (∃ (q job : Nat) (s : State), (ownsQueue s job q = true) ∧ (qProd s q = 2)) ∧
    (∃ (q job : Nat) (parBad : Bool) (w : QWord) (first : Bool) (t : State) (s : State), (ownsQueue s job q = true) ∧ (qCons s q = 2) ∧ (popQ q parBad (wakeIsland (uQUEUE q) s) = (some (w, first), t))) ∧
    (∃ (q job : Nat) (parBad : Bool) (s : State), (ownsQueue s job q = true) ∧ (qCons s q ≠ 2)) ∧
    (∃ (q : Nat) (p p₁ : Pkt) (s₁ t : State) (s : State), (islandRuns s (uQUEUE q) = true ∧ firstCq s (pQueue q) = some p) ∧ (qProd s q = 1) ∧ (crossCheck (uQUEUE q) p s = (p₁, s₁) ∧ canalToQueue q p₁.key p₁.pay p₁.poison s₁ = (true, t))) ∧
    (∃ (q : Nat) (p p₁ : Pkt) (s₁ t : State) (s : State), (islandRuns s (uQUEUE q) = true ∧ firstCq s (pQueue q) = some p) ∧ (qProd s q = 1) ∧ (crossCheck (uQUEUE q) p s = (p₁, s₁) ∧ canalToQueue q p₁.key p₁.pay p₁.poison s₁ = (false, t))) ∧
    (∃ (q : Nat) (s : State), (qProd s q = 1 ∧ 2 ≤ packetLen (queueOf s q)) ∧ ((queueOf s q).openAt + fldOf (queueOf s q).opn BRG_Q.CLOSE_US * 1000 ≤ now s)) ∧
    (∃ (q : Nat) (parBad : Bool) (s : State), (lineReady (queueOf s q) = true ∧ spills s q = true) ∧ (parBad = false ∨ lineOpen (queueOf s q) = false)) ∧
    (∃ (q : Nat) (parBad : Bool) (s : State), (lineReady (queueOf s q) = true ∧ spills s q = true) ∧ (parBad = true ∧ lineOpen (queueOf s q) = true)) ∧
    (∃ (q : Nat) (parBad : Bool) (s : State), ((queueOf s q).midN ≠ 0 ∧ (queueOf s q).headN + 16 ≤ 64)) ∧
    (∃ (q : Nat) (parBad : Bool) (s : State), (islandRuns s (uQUEUE q) = true ∧ qCons s q = 0) ∧ (coreTakes s (qConsUnit s q) = true)) ∧
    (∃ (q : Nat) (parBad : Bool) (s : State), (islandRuns s (uQUEUE q) = true ∧ qCons s q = 1) ∧ (jobTakes s (qJob s q) = true ∧ s.dev.state ≠ .safe)) ∧
    (∃ (q : Nat) (parBad : Bool) (s : State), (islandRuns s (uQUEUE q) = true ∧ qCons s q = 3) ∧ (jobTakes s (qJob s q) = true ∧ s.dev.state ≠ .safe)) :=
  ⟨⟨40, 0, [5], true, queueState, by decide +kernel, by decide +kernel⟩,
   ⟨40, 0, [5, 6], false, queueState, by decide +kernel, by decide +kernel⟩,
   ⟨40, 0, [5, 6, 7], false, queueState, by decide +kernel, by decide +kernel⟩,
   ⟨41, 0, [5], false, queueState, by decide +kernel⟩,
   ⟨40, 0, queueState, by decide +kernel, by decide +kernel⟩,
   ⟨40, 0, false, _, _, _, queueFull, by decide +kernel, by decide +kernel, rfl⟩,
   ⟨41, 0, false, setJob queueState 0 { exist := true, run := true, queues := 3 * 2 ^ 40 }, by decide +kernel, by decide +kernel⟩,
   ⟨50, _, _, _, _, canalQueue, ⟨by decide +kernel, rfl⟩, by decide +kernel, ⟨rfl, rfl⟩⟩,
   ⟨50, { key := 5, pay := 6 }, (crossCheck (uQUEUE 50) { key := 5, pay := 6 } canalFull).1, (crossCheck (uQUEUE 50) { key := 5, pay := 6 } canalFull).2, (canalToQueue 50 (crossCheck (uQUEUE 50) { key := 5, pay := 6 } canalFull).1.key (crossCheck (uQUEUE 50) { key := 5, pay := 6 } canalFull).1.pay (crossCheck (uQUEUE 50) { key := 5, pay := 6 } canalFull).1.poison (crossCheck (uQUEUE 50) { key := 5, pay := 6 } canalFull).2).2, canalFull, ⟨by decide +kernel, rfl⟩, by decide +kernel, ⟨rfl, (show ∀ x : Bool × State, x.1 = false → x = (false, x.2) from by rintro ⟨_, _⟩ h; cases h; rfl) _ (by decide +kernel)⟩⟩,
   ⟨50, setQueue canalQueue 50 { ws := [{ w := 1 }, { w := 2 }], headN := 2, openN := 2 }, by decide +kernel, by decide +kernel⟩,
   ⟨50, false, lineState, by decide +kernel, by decide +kernel⟩,
   ⟨50, true, setQueue lineState 50 { queueOf lineState 50 with openN := 16 }, by decide +kernel, by decide +kernel⟩,
   ⟨50, false, setQueue canalQueue 50 { ws := [{ w := 1 }], midN := 1 }, by decide +kernel⟩,
   ⟨0, false, core0, by decide +kernel, by decide +kernel⟩,
   ⟨300, false, wr core0 (uQUEUE 300) BRG_Q.CONS 1, by decide +kernel, by decide +kernel⟩,
   ⟨300, false, wr core0 (uQUEUE 300) BRG_Q.CONS 3, by decide +kernel, by decide +kernel⟩⟩

/-- The hypotheses of TimeEvents can be met, clause by clause. -/
theorem witness_timeEvents :
    (∃ (n : Nat) (s : State), (readyBit s RB_TMU = true)) ∧
    (∃ (n : Nat) (s : State), (readyBit s RB_TMU = false)) ∧
    (∃ (i : Nat) (s : State), (i < 8 ∧ cmpDue s i = true)) ∧
    (∃ (i : Nat) (s : State), (8 ≤ i ∨ cmpDue s i = false)) ∧
    (∃ (n : Nat) (s : State), (rdB s (uSL n) TMU_SYNCOUT.ENABLE = true) ∧ ((syncOutOf s n).late = true ∨ due s (syncOutOf s n).target = true)) ∧
    (∃ (n : Nat) (s : State), ((syncOutOf s n).high = true ∧ (syncOutOf s n).endTick ≤ s.time.ticks)) ∧
    (∃ (n : Nat) (s : State), ((syncOutOf s n).high = true ∧ s.time.ticks < (syncOutOf s n).endTick)) ∧
    (∃ (s : State), (rdB s uTMU TMU_PPS.ENABLE = true) ∧ (rd s uTMU TMU_PPS.OFFSET_NS ≤ s.time.ns ∧ s.time.ppsSec ≠ s.time.sec + 1) ∧ (ppsGate s = true)) ∧
    (∃ (s : State), (rdB s uTMU TMU_PPS.ENABLE = true) ∧ (rd s uTMU TMU_PPS.OFFSET_NS ≤ s.time.ns ∧ s.time.ppsSec ≠ s.time.sec + 1) ∧ (ppsGate s = false)) ∧
    (∃ (s : State), (s.time.ppsHigh = true ∧ s.time.ppsEnd ≤ now s)) ∧
    (∃ (p : Nat) (sec_ : Bool) (m : PtpSync) (s : State), (ptpHears s p = true ∧ ptpPasses s p sec_ = true) ∧ (m.twoStep = true)) ∧
    (∃ (p : Nat) (sec_ : Bool) (m : PtpSync) (s : State), (ptpHears s p = true ∧ ptpPasses s p sec_ = true) ∧ (m.twoStep = false)) ∧
    (∃ (p : Nat) (sec_ : Bool) (m : PtpSync) (s : State), (ptpHears s p = true ∧ ptpPasses s p sec_ = false)) ∧
    (∃ (p : Nat) (sec_ : Bool) (m : PtpSync) (s : State), (ptpHears s p = false)) ∧
    (∃ (p : Nat) (sec_ : Bool) (seq pot : Nat) (corr : Int) (w : PendSync) (s : State), (ptpHears s p = true ∧ ptpPasses s p sec_ = true) ∧ ((ptpOf s p).pend = some w) ∧ (w.seq = seq)) ∧
    (∃ (p : Nat) (sec_ : Bool) (seq pot : Nat) (corr : Int) (w : PendSync) (s : State), (ptpPasses s p sec_ = true) ∧ ((ptpOf s p).pend = some w) ∧ (w.seq ≠ seq)) ∧
    (∃ (p : Nat) (sec_ : Bool) (m : PtpMsg) (s : State), (ptpHears s p = true ∧ ptpPasses s p sec_ = true)) ∧
    (∃ (p kind seq : Nat) (s : State), ((ptpOf s p).txq.length < 8)) ∧
    (∃ (p kind seq : Nat) (s : State), (8 ≤ (ptpOf s p).txq.length)) ∧
    (∃ (p key : Nat) (f : TxStamp) (r : List TxStamp) (s : State), (takeStamp key (ptpOf s p).txq = (some f, r))) ∧
    (∃ (p key : Nat) (r : List TxStamp) (s : State), (takeStamp key (ptpOf s p).txq = (none, r))) ∧
    (∃ (s : State), (s.time.lastSample + rd s uTMU TMU_SERVO.SYNC_TIMEOUT_MS * 1000000 ≤ now s)) ∧
    (∃ (s : State), (now s < s.time.lastSample + rd s uTMU TMU_SERVO.SYNC_TIMEOUT_MS * 1000000)) ∧
    (∃ (s : State), (s.time.sync = .holdover ∧ s.time.holdLong = false) ∧ (s.time.holdStart + rd s uTMU TMU_SERVO.HOLD_LIMIT_S * 1000000000 ≤ now s)) :=
  ⟨⟨3, idleHelm, by decide +kernel⟩,
   ⟨3, bringup0, by decide +kernel⟩,
   ⟨7, wr (wr idleHelm uTMU TMU_CMP.ARM 1 7) uTMU TMU_CMP.TARGET 5000000000 7, by decide +kernel⟩,
   ⟨7, idleHelm, by decide +kernel⟩,
   ⟨1, setSyncOut (wr idleHelm (uSL 1) TMU_SYNCOUT.ENABLE 1) 1 { target := 5000000000 }, by decide +kernel, by decide +kernel⟩,
   ⟨1, setSyncOut idleHelm 1 { high := true }, by decide +kernel⟩,
   ⟨1, setSyncOut idleHelm 1 { high := true, endTick := 9 }, by decide +kernel⟩,
   ⟨wr (wr idleHelm uTMU TMU_PPS.ENABLE 1) uTMU TMU_PPS.GATE 0, by decide +kernel, by decide +kernel, by decide +kernel⟩,
   ⟨wr (wr idleHelm uTMU TMU_PPS.ENABLE 1) uTMU TMU_PPS.GATE 1, by decide +kernel, by decide +kernel, by decide +kernel⟩,
   ⟨setTime idleHelm { sec := 5, ppsHigh := true }, by decide +kernel⟩,
   ⟨0, false, ⟨4, true, 0, 0⟩, ptpOn, by decide +kernel, by decide +kernel⟩,
   ⟨0, false, ⟨4, false, 0, 0⟩, ptpOn, by decide +kernel, by decide +kernel⟩,
   ⟨0, true, ⟨4, false, 0, 0⟩, ptpOn, by decide +kernel⟩,
   ⟨0, true, ⟨4, false, 0, 0⟩, idleHelm, by decide +kernel⟩,
   ⟨0, false, 4, 5000, 0, _, setPtp ptpOn 0 { pend := some ⟨4, 0, 0⟩ }, by decide +kernel, rfl, rfl⟩,
   ⟨0, false, 5, 5000, 0, ⟨4, 0, 0⟩, setPtp ptpOn 0 { pend := some ⟨4, 0, 0⟩ }, by decide +kernel, by decide +kernel, by decide +kernel⟩,
   ⟨0, false, .announce 7 37 (some 2), ptpOn, by decide +kernel⟩,
   ⟨0, 2, 4095, ptpOn, by decide +kernel⟩,
   ⟨0, 2, 4095, setPtp ptpOn 0 { txq := List.replicate 8 ⟨1, 0, 0⟩ }, by decide +kernel⟩,
   ⟨0, 1, _, _, setPtp ptpOn 0 { txq := [⟨1, 0, 0⟩] }, rfl⟩,
   ⟨0, 2, _, setPtp ptpOn 0 { txq := [⟨1, 0, 0⟩] }, rfl⟩,
   ⟨setTime idleHelm { sec := 100, sync := .locked }, by decide +kernel⟩,
   ⟨setTime idleHelm { sec := 100, sync := .locked, lastSample := 100000000000 }, by decide +kernel⟩,
   ⟨setTime idleHelm { sec := 100000, sync := .holdover }, by decide +kernel, by decide +kernel⟩⟩

/-- The hypotheses of TowlineEvents can be met, clause by clause. -/
theorem witness_towlineEvents :
    (∃ (p src srcPort : Nat) (w : Wrap) (b : List Byte) (s : State), (portHears s p = true) ∧ (romServes s = false) ∧ (isHost s p = true) ∧ (towFits s p w = false)) ∧
    (∃ (p src srcPort : Nat) (w : Wrap) (b : List Byte) (s : State), (portHears s p = true) ∧ (romServes s = false) ∧ (isHost s p = true) ∧ (towFits s p w = true) ∧ (messageOk b false = false ∨ messageKind b ≠ 0)) ∧
    (∃ (p src srcPort : Nat) (w : Wrap) (b : List Byte) (s : State), (portHears s p = true) ∧ (romServes s = false) ∧ (isHost s p = true) ∧ (towFits s p w = true) ∧ (messageOk b false = true ∧ messageKind b = 0) ∧ (bits (beAt b 5 1) 0 6 = devId s)) ∧
    (∃ (p src srcPort : Nat) (w : Wrap) (b : List Byte) (s : State), (portHears s p = true) ∧ (romServes s = false) ∧ (isHost s p = true) ∧ (towFits s p w = true) ∧ (messageOk b false = true ∧ messageKind b = 0) ∧ (bits (beAt b 5 1) 0 6 ≠ devId s) ∧ (isHead s = true)) ∧
    (∃ (p src srcPort : Nat) (w : Wrap) (b : List Byte) (s : State), (portHears s p = true) ∧ (romServes s = true)) ∧
    (∃ (p t : Nat) (s : State), (portHears s p = true) ∧ (romServes s = false) ∧ (isHost s p = true) ∧ (t = rd s (uETH p) TOW_PORT.OWN_IP4)) ∧
    (∃ (p t : Nat) (s : State), (portHears s p = true) ∧ (romServes s = false) ∧ (isHost s p = true) ∧ (t = ownIp6 s p)) ∧
    (∃ (p t : Nat) (data : List Byte) (w : Wrap) (s : State), (portHears s p = true) ∧ (romServes s = false) ∧ (isHost s p = true) ∧ (data.length ≤ 64 ∧ frameFits s p w = true ∧ t = (if w.v6 then ownIp6 s p else rd s (uETH p) TOW_PORT.OWN_IP4))) ∧
    (∃ (p t : Nat) (data : List Byte) (w : Wrap) (s : State), (portHears s p = true) ∧ (romServes s = false) ∧ (isHost s p = true) ∧ (64 < data.length ∨ frameFits s p w = false)) ∧
    (∃ (p udp : Nat) (frame : List Byte) (i : Nat) (s : State), (portHears s p = true) ∧ (rd s (uETH p) TOW_PORT.ROLE = 2) ∧ ((upto 8).find? (fun i => rd s (uETH p) TOW_RXF.VALID i == 1 && rd s (uETH p) TOW_RXF.PORT i == udp) = some i) ∧ (memReady s (rd s (uETH p) TOW_RXF.BASE i * 64 + tget 0 (ethOf s p).ringSeq i % (rd s (uETH p) TOW_RXF.SLOTS_M1 i + 1) * 2048) = true)) ∧
    (∃ (p : Nat) (m : TxMsg) (r : List TxMsg) (s : State), (txFree s p = true) ∧ ((ethOf s p).q0 = [] ∧ (ethOf s p).q1 = m :: r) ∧ (keyed s p m = true)) ∧
    (∃ (p : Nat) (m : TxMsg) (r : List TxMsg) (s : State), (txFree s p = true) ∧ ((ethOf s p).q0 = [] ∧ (ethOf s p).q1 = [] ∧ (ethOf s p).q2 = m :: r) ∧ (keyed s p m = true)) ∧
    (∃ (p : Nat) (m : TxMsg) (r : List TxMsg) (s : State), (txFree s p = true) ∧ ((ethOf s p).q0 = [] ∧ (ethOf s p).q1 = [] ∧ (ethOf s p).q2 = [] ∧ (ethOf s p).q3 = m :: r) ∧ (keyed s p m = true)) ∧
    (∃ (p : Nat) (m : TxMsg) (r : List TxMsg) (s : State), (txFree s p = true) ∧ ((ethOf s p).q0 = [] ∧ (ethOf s p).q1 = [] ∧ (ethOf s p).q2 = [] ∧ (ethOf s p).q3 = [] ∧ (ethOf s p).q4 = m :: r) ∧ (keyed s p m = true)) ∧
    (∃ (p : Nat) (s : State), ((ethOf s p).q0 ≠ [])) ∧
    (∃ (p : Nat) (m : TxMsg) (r : List TxMsg) (s : State), (txFree s p = true) ∧ ((ethOf s p).q0 = m :: r)) ∧
    (∃ (s : State), (s.tow.holder ≠ 15 ∧ holderSilent s = true)) ∧
    (∃ (s : State), (s.tow.holder = 15 ∨ holderSilent s = false)) ∧
    (∃ (c : Claim) (s : State), (s.tow.claim = some c) ∧ (c.due ≤ now s)) ∧
    (∃ (c : Claim) (s : State), (s.tow.claim = some c) ∧ (now s < c.due)) ∧
    (∃ (p : Nat) (m : MkaPdu) (k : Nat) (s : State), (portHears s p = true) ∧ (rdB s (uETH p) TOW_PORT.MACSEC_EN = true ∧ (ethOf s p).cknLen ≠ 0 ∧ m.ckn = (ethOf s p).macsecCkn ∧ m.icvOk = true) ∧ (m.sak = some k)) ∧
    (∃ (p : Nat) (m : MkaPdu) (s : State), (portHears s p = true) ∧ (rdB s (uETH p) TOW_PORT.MACSEC_EN = false ∨ (ethOf s p).cknLen = 0 ∨ m.ckn ≠ (ethOf s p).macsecCkn ∨ m.icvOk = false)) :=
  ⟨⟨0, 7, 8, { wrap4 with secured := true }, [], idleHelm, by decide +kernel, by decide +kernel, by decide +kernel, by decide +kernel⟩,
   ⟨0, 7, 8, wrap4, [], idleHelm, by decide +kernel, by decide +kernel, by decide +kernel, by decide +kernel, by decide +kernel⟩,
   ⟨0, 7, 8, wrap4, timeGetMsg, wr idleHelm uDEV CNL_DEV.DEV_ID 0, by decide +kernel, by decide +kernel, by decide +kernel, by decide +kernel, by decide +kernel, by decide +kernel⟩,
   ⟨0, 7, 8, wrap4, timeGetMsg, wr idleHelm uDEV CNL_DEV.DEV_ID 5, by decide +kernel, by decide +kernel, by decide +kernel, by decide +kernel, by decide +kernel, by decide +kernel, by decide +kernel⟩,
   ⟨0, 7, 8, wrap4, [], { idleHelm with dev := { idleHelm.dev with romSafe := true } }, by decide +kernel, by decide +kernel⟩,
   ⟨0, _, idleHelm, by decide +kernel, by decide +kernel, by decide +kernel, rfl⟩,
   ⟨0, _, idleHelm, by decide +kernel, by decide +kernel, by decide +kernel, rfl⟩,
   ⟨0, _, [1], wrap4, idleHelm, by decide +kernel, by decide +kernel, by decide +kernel, ⟨by decide, by decide +kernel, rfl⟩⟩,
   ⟨0, 7, List.replicate 65 0, wrap4, idleHelm, by decide +kernel, by decide +kernel, by decide +kernel, by decide +kernel⟩,
   ⟨3, 9, [1, 2], 1, sensorPort, by decide +kernel, by decide +kernel, by decide +kernel, by decide +kernel⟩,
   ⟨0, ⟨.reply, 0, 0, []⟩, [], setEth idleHelm 0 { ethOf idleHelm 0 with q1 := [⟨.reply, 0, 0, []⟩] }, by decide +kernel, by decide +kernel, by decide +kernel⟩,
   ⟨0, ⟨.push, 0, 0, []⟩, [], setEth idleHelm 0 { ethOf idleHelm 0 with q2 := [⟨.push, 0, 0, []⟩] }, by decide +kernel, by decide +kernel, by decide +kernel⟩,
   ⟨0, ⟨.push, 0, 0, []⟩, [], setEth idleHelm 0 { ethOf idleHelm 0 with q3 := [⟨.push, 0, 0, []⟩] }, by decide +kernel, by decide +kernel, by decide +kernel⟩,
   ⟨0, ⟨.other, 0, 0, []⟩, [], setEth idleHelm 0 { ethOf idleHelm 0 with q4 := [⟨.other, 0, 0, []⟩] }, by decide +kernel, by decide +kernel, by decide +kernel⟩,
   ⟨0, setEth idleHelm 0 { ethOf idleHelm 0 with q0 := [⟨.other, 0, 0, []⟩] }, by decide +kernel⟩,
   ⟨0, _, _, setEth idleHelm 0 { ethOf idleHelm 0 with q0 := [⟨.other, 0, 0, []⟩] }, by decide +kernel, rfl⟩,
   ⟨{ idleHelm with time := { sec := 50 } }, by decide +kernel⟩,
   ⟨idleNoHelm, by decide +kernel⟩,
   ⟨_, helmClaimed, rfl, by decide +kernel⟩,
   ⟨_, { helmClaimed with time := { ns := 3 } }, rfl, by decide +kernel⟩,
   ⟨0, ⟨5, true, some 99⟩, 99, macsecOn, by decide +kernel, by decide +kernel, by decide +kernel⟩,
   ⟨0, ⟨5, true, some 99⟩, idleHelm, by decide +kernel, by decide +kernel⟩⟩

/-- The hypotheses of SecurityEvents can be met, clause by clause. -/
theorem witness_securityEvents :
    (∃ (f : FwImg) (s : State), (s.dev.state = .boot ∧ s.sec.towBoot = false ∧ s.pwr.por = false ∧ s.sec.bootMode = false) ∧ (s.sec.flashBad = false) ∧ (verifyImg (flashBytes s (imgSize (flashBytes s 1024))) 0 s = some f)) ∧
    (∃ (s : State), (s.dev.state = .boot ∧ s.sec.towBoot = false ∧ s.pwr.por = false ∧ s.sec.bootMode = false) ∧ (s.sec.flashBad = true ∨ verifyImg (flashBytes s (imgSize (flashBytes s 1024))) 0 s = none)) ∧
    (∃ (s : State), (s.dev.state = .boot ∧ s.sec.towBoot = false ∧ s.pwr.por = false ∧ s.sec.bootMode = true)) ∧
    (∃ (a : Activation) (s : State), (s.sec.act = some a) ∧ (a.exchanged = none ∧ quiescent s = true)) ∧
    (∃ (a : Activation) (t : Nat) (s : State), (s.sec.act = some a) ∧ (a.exchanged = some t) ∧ (s.mem.lkpReset = false)) ∧
    (∃ (a : Activation) (t : Nat) (f : FwImg) (s : State), (s.sec.act = some a) ∧ (a.exchanged = some t ∧ a.old = some f) ∧ (t + 15000000 ≤ now s)) ∧
    (∃ (ok : Bool) (f : FwImg) (s : State), (s.sec.fw = some f) ∧ (s.sec.rewrite ≠ 0)) ∧
    (∃ (f : FwImg) (t : Nat) (s : State), (s.sec.fw = some f ∧ s.sec.ranFrom = some t ∧ t ≤ now s) ∧ (svnCount s < f.svn)) ∧
    (∃ (f : FwImg) (s : State), (s.sec.fw = some f) ∧ (f.svn ≤ svnCount s)) ∧
    (∃ (s : State), (validChallenge s = none)) ∧
    (∃ (s : State), ((validChallenge s).isSome = true)) ∧
    (∃ (c t : Nat) (s : State), (s.sec.session = some (c, t)) ∧ (s.sec.lifecycle = 1 ∧ t + 28800000000000 ≤ now s)) ∧
    (∃ (v : Nat) (s : State), (s.dev.level = 4 ∨ bits v 2 32 % 4 ≠ 0)) ∧
    (∃ (v : Nat) (s : State), (s.dev.level ≠ 4 ∧ bits v 2 32 % 4 = 0) ∧ (dbgOpen s = false)) ∧
    (∃ (v : Nat) (s : State), (s.dev.level ≠ 4 ∧ bits v 2 32 = 0) ∧ (dbgOpen s = true)) ∧
    (∃ (v : Nat) (s : State), (s.dev.level ≠ 4 ∧ bits v 2 32 % 4 = 0 ∧ bits v 2 32 ≠ 0) ∧ (dbgOpen s = true)) ∧
    (∃ (v : Bool) (s : State), (bit (dbgScope s) 1 = true)) ∧
    (∃ (v : Bool) (s : State), (bit (dbgScope s) 1 = false)) ∧
    (∃ (s : State), (bit (dbgScope s) 2 = true ∧ s.sec.halted = false)) ∧
    (∃ (s : State), (bit (dbgScope s) 2 = true ∧ s.sec.halted = true)) :=
  ⟨⟨fwParsed, flashBoot, by decide +kernel, by decide +kernel, by decide +kernel⟩,
   ⟨{ idleHelm with dev := { idleHelm.dev with state := .boot }, sec := { flashBad := true } }, by decide +kernel, by decide +kernel⟩,
   ⟨{ idleHelm with dev := { idleHelm.dev with state := .boot }, sec := { bootMode := true } }, by decide +kernel⟩,
   ⟨_, { keyedDev with sec := { keyedDev.sec with act := some ⟨4, ranFw, none, none⟩ } }, rfl, by decide +kernel⟩,
   ⟨_, _, { keyedDev with sec := { keyedDev.sec with act := some ⟨4, ranFw, some 7, some ranFw⟩ } }, rfl, rfl, by decide +kernel⟩,
   ⟨_, _, _, { keyedDev with sec := { keyedDev.sec with act := some ⟨4, ranFw, some 7, some ranFw⟩ } }, rfl, ⟨rfl, rfl⟩, by decide +kernel⟩,
   ⟨false, _, { keyedDev with sec := { keyedDev.sec with rewrite := 3 } }, rfl, by decide +kernel⟩,
   ⟨{ ranFw with svn := 3 }, 7, { keyedDev with sec := { keyedDev.sec with fw := some { ranFw with svn := 3 }, ranFrom := some 7 } }, by decide +kernel, by decide +kernel⟩,
   ⟨ranFw, keyedDev, by decide +kernel, by decide +kernel⟩,
   ⟨{ keyedDev with time := { sec := 70 }, sec := { keyedDev.sec with challenge := some (5, 0) } }, by decide +kernel⟩,
   ⟨{ keyedDev with sec := { keyedDev.sec with challenge := some (5, 0) } }, by decide +kernel⟩,
   ⟨_, _, { keyedDev with time := { sec := 30000 }, sec := { keyedDev.sec with lifecycle := 1, session := some (3, 0) } }, rfl, by decide +kernel⟩,
   ⟨4, idleHelm, by decide +kernel⟩,
   ⟨0, { keyedDev with sec := { keyedDev.sec with lifecycle := 1 } }, by decide +kernel, by decide +kernel⟩,
   ⟨0, keyedDev, by decide +kernel, by decide +kernel⟩,
   ⟨16, keyedDev, by decide +kernel, by decide +kernel⟩,
   ⟨true, keyedDev, by decide +kernel⟩,
   ⟨true, { keyedDev with sec := { keyedDev.sec with lifecycle := 1 } }, by decide +kernel⟩,
   ⟨keyedDev, by decide +kernel⟩,
   ⟨{ keyedDev with sec := { keyedDev.sec with halted := true } }, by decide +kernel⟩⟩

/-- The hypotheses of IntegrityEvents can be met, clause by clause. -/
theorem witness_integrityEvents :
    (∃ (r : MemRead) (s : State), (memExists r.unit r.memory = true ∧ unitReady s r.unit = true ∧ (unitOf s r.unit).resetting = false)) ∧
    (∃ (r : MemRead) (s : State), (memExists r.unit r.memory = false ∨ ((unitReady s r.unit = false ∨ (unitOf s r.unit).resetting = true) ∧ hitNow s r.unit = false))) ∧
    (∃ (u : Nat) (s : State), ((unitOf s u).resetting = true)) ∧
    (∃ (u : Nat) (s : State), ((unitOf s u).resetting = true)) ∧
    (∃ (u : Nat) (pass : Bool) (s : State), ((unitOf s u).resetting = false ∧ utype u ≠ 0x0A)) ∧
    (∃ (s : State), (s.mem.lkpReset = true ∧ s.sec.act.any (·.exchanged.isSome) = false)) ∧
    (∃ (s : State), (s.mem.lkpReset = true ∧ s.sec.act.any (·.exchanged.isSome) = false)) ∧
    (∃ (s : State), (s.mem.lkpReset = false ∧ romServes s = false)) ∧
    (∃ (u row : Nat) (s : State), (memExists u row = true) ∧ ((memOf s u row).told = 0 ∨ (memOf s u row).told + 60000000000 ≤ now s)) ∧
    (∃ (u row : Nat) (s : State), ((memOf s u row).told ≠ 0 ∧ now s < (memOf s u row).told + 60000000000)) ∧
    (∃ (u row mac : Nat) (r : Repair) (s : State), (s.mem.copying.find? (fun r => r.region == memKey u row && r.mac == mac) = some r)) ∧
    (∃ (chan page : Nat) (s : State), (s.mem.paging.contains (chan * 2 ^ 32 + page) = true)) ∧
    (∃ (chan page : Nat) (s : State), (s.mem.paging.contains (chan * 2 ^ 32 + page) = false)) ∧
    (∃ (ok : Bool) (r : Repair) (l : List Repair) (s : State), (s.mem.burns = r :: l)) :=
  ⟨⟨memLine, idleHelm, by decide +kernel⟩,
   ⟨memLine, bringup0, by decide +kernel⟩,
   ⟨uC 0, resettingCore, by decide +kernel⟩,
   ⟨uC 0, resettingCore, by decide +kernel⟩,
   ⟨uC 0, true, idleHelm, by decide +kernel⟩,
   ⟨{ idleHelm with mem := { lkpReset := true } }, by decide +kernel⟩,
   ⟨{ idleHelm with mem := { lkpReset := true } }, by decide +kernel⟩,
   ⟨idleHelm, by decide +kernel⟩,
   ⟨memLine.unit, memLine.memory, idleHelm, by decide +kernel, by decide +kernel⟩,
   ⟨memLine.unit, memLine.memory, setMemOf idleHelm memLine.unit memLine.memory { told := 7 }, by decide +kernel⟩,
   ⟨1, 2, 3, _, { idleHelm with mem := { copying := [⟨66, 3, false, 9, 0, 0⟩] } }, rfl⟩,
   ⟨0, 5, { idleHelm with mem := { paging := [5] } }, by decide +kernel⟩,
   ⟨0, 5, idleHelm, by decide +kernel⟩,
   ⟨false, _, _, { idleHelm with mem := { burns := [⟨66, 3, false, 9, 0, 0⟩] } }, rfl⟩⟩

/-- The hypotheses of PassageEvents can be met, clause by clause. -/
theorem witness_passageEvents :
    (∃ (j : Nat) (s : State), (j < 8) ∧ (windowReady s j = true)) ∧
    (∃ (j : Nat) (s : State), (8 ≤ j ∨ windowReady s j = false)) ∧
    (∃ (j t : Nat) (r : StepRec) (s : State), (j < 8 ∧ jobTakes s j = true) ∧ (tget none s.pass.replay j = none ∧ nextSuspect s j = some r) ∧ ((replayTargets s j r.unit).find? (fun t => !targetBusy s t) = some t)) ∧
    (∃ (j : Nat) (r : StepRec) (s : State), (j < 8 ∧ jobTakes s j = true) ∧ (tget none s.pass.replay j = none ∧ nextSuspect s j = some r) ∧ (replayTargets s j r.unit = [])) ∧
    (∃ (j : Nat) (s : State), (j < 8 ∧ jobTakes s j = true)) ∧
    (∃ (j : Nat) (v : ReplayRuns) (p : Replay) (s : State), (tget none s.pass.replay j = some p) ∧ (p.target ≠ 0xFFFF)) ∧
    (∃ (j : Nat) (r : StepRec) (s : State), (j < 8 ∧ nextSuspect s j = some r) ∧ (windowStop s j r.win + bits (jobOf s j).spjob0 32 16 * 1000 ≤ now s)) ∧
    (∃ (u : Nat) (s : State), (s.pass.content.isSome = true ∧ s.pass.testOn = true ∧ (testOf s u).running = false) ∧ (inRotation s u = true ∧ targetBusy s u = false)) ∧
    (∃ (u : Nat) (s : State), ((testOf s u).running = true)) ∧
    (∃ (u : Nat) (s : State), ((testOf s u).running = true)) ∧
    (∃ (u : Nat) (ok : Bool) (s : State), ((testOf s u).running = false)) ∧
    (∃ (u : Nat) (s : State), (s.pass.content.isSome = true ∧ s.pass.testOn = true ∧ inRotation s u = true) ∧ ((testOf s u).late = false ∧ visitBase (testOf s u) ≠ 0) ∧ (visitBase (testOf s u) + (s.pass.rotation + 4) * 1000000 < now s)) :=
  ⟨⟨0, jobRuns0, by decide +kernel, by decide +kernel⟩,
   ⟨9, jobRuns0, by decide +kernel⟩,
   ⟨0, _, _, suspectJob, by decide +kernel, ⟨rfl, rfl⟩, rfl⟩,
   ⟨0, _, suspectAlone, by decide +kernel, ⟨rfl, rfl⟩, by decide +kernel⟩,
   ⟨0, suspectJob, by decide +kernel⟩,
   ⟨0, ⟨5, none, []⟩, ⟨7, uNE 0, uNE 1, 5, []⟩, setPass suspectJob { suspectJob.pass with replay := [(0, some ⟨7, uNE 0, uNE 1, 5, []⟩)] }, by decide +kernel, by decide +kernel⟩,
   ⟨0, _, suspectJob, ⟨by decide, rfl⟩, by decide +kernel⟩,
   ⟨uC 1, testsOn, by decide +kernel, by decide +kernel⟩,
   ⟨uC 1, testRuns, by decide +kernel⟩,
   ⟨uC 1, testRuns, by decide +kernel⟩,
   ⟨uC 1, true, testsOn, by decide +kernel⟩,
   ⟨uC 1, { testRuns with time := { sec := 50000 } }, by decide +kernel, by decide +kernel, by decide +kernel⟩⟩

/-- The hypotheses of PowerEvents can be met, clause by clause. -/
theorem witness_powerEvents :
    (∃ (e : PwrEntry) (s : State), (s.pwr.entry = some e) ∧ (e.quiesced = true)) ∧
    (∃ (e : PwrEntry) (s : State), (s.pwr.entry = some e) ∧ (e.quiesced = false ∧ refuser s e.target (if e.berth.isSome then none else e.ports.head?) = none)) ∧
    (∃ (e : PwrEntry) (k d : Nat) (s : State), (s.pwr.entry = some e) ∧ (e.quiesced = false ∧ refuser s e.target (if e.berth.isSome then none else e.ports.head?) = some (k, d))) ∧
    (∃ (e : PwrEntry) (s : State), (s.pwr.entry = some e) ∧ (e.quiesced = true)) ∧
    (∃ (x : PwrExit) (s : State), (s.pwr.exit_ = some x) ∧ (s.dev.level ≤ 1)) ∧
    (∃ (x : PwrExit) (s : State), (s.pwr.exit_ = some x) ∧ (2 ≤ s.dev.level)) ∧
    (∃ (p : Nat) (s : State), (p < 4 ∧ s.dev.level < 3) ∧ (isHost s p = true ∧ s.pwr.entry = none ∧ s.pwr.exit_ = none ∧ refuser s 3 (some p) = none)) ∧
    (∃ (p : Nat) (s : State), (p < 4 ∧ s.dev.level < 3) ∧ (isHost s p = false)) ∧
    (∃ (p : Nat) (e : PwrEntry) (s : State), (p < 4 ∧ s.dev.level < 3) ∧ (isHost s p = true ∧ s.pwr.entry = some e)) ∧
    (∃ (p : Nat) (s : State), (p < 4 ∧ s.dev.level = 3 ∧ s.pwr.entry = none)) ∧
    (∃ (p : Nat) (s : State), (s.dev.level ≠ 3 ∧ s.pwr.entry = none)) ∧
    (∃ (p : Nat) (s : State), (p < 4 ∧ (isHost s p = true ∨ (ethOf s p).sleepListen = true))) ∧
    (∃ (p : Nat) (s : State), (isHost s p = false ∧ (ethOf s p).sleepListen = false)) ∧
    (∃ (s : State), (s.pwr.entry = none ∧ s.pwr.exit_ = none) ∧ (wakes 2 s.dev.level = true)) ∧
    (∃ (s : State), (s.pwr.lowPower = true)) ∧
    (∃ (s : State), (s.pwr.lowPower = false)) ∧
    (∃ (mw : Nat) (s : State), (s.dev.level < 2 ∧ s.pwr.entry = none)) ∧
    (∃ (slackOk : Bool) (s : State), (s.pwr.avsFails < 3)) ∧
    (∃ (slackOk : Bool) (s : State), (s.pwr.avsFails < 3)) ∧
    (∃ (i : Nat) (s : State), (i < 60 ∧ s.pwr.stopped.contains i = false ∧ onClass0 s i = false) ∧ ((s.dev.level ≤ 1 ∧ islandIdle s i = true) ∨ (s.dev.level = 1 ∧ ¬ islandBusy s i = true))) :=
  ⟨⟨_, entering, rfl, by decide +kernel⟩,
   ⟨_, setPwr idleHelm { idleHelm.pwr with entry := some { target := 1, berth := some 4 } }, rfl, by decide +kernel⟩,
   ⟨_, _, _, setPwr jobRuns0 { idleHelm.pwr with entry := some { target := 3, berth := some 4 } }, rfl, ⟨rfl, rfl⟩⟩,
   ⟨_, entering, rfl, by decide +kernel⟩,
   ⟨_, setPwr idleHelm { idleHelm.pwr with exit_ := some { src := 2, target := 0 } }, rfl, by decide +kernel⟩,
   ⟨_, setPwr { idleHelm with dev := { idleHelm.dev with level := 3 } } { idleHelm.pwr with exit_ := some { src := 2, target := 0 } }, rfl, by decide +kernel⟩,
   ⟨0, safeSleep, by decide +kernel, by decide +kernel⟩,
   ⟨2, wr idleHelm (uETH 2) TOW_PORT.ROLE 0, by decide +kernel, by decide +kernel⟩,
   ⟨0, _, entering, by decide +kernel, ⟨by decide +kernel, rfl⟩⟩,
   ⟨1, { idleHelm with dev := { idleHelm.dev with level := 3 } }, by decide +kernel⟩,
   ⟨1, idleHelm, by decide +kernel⟩,
   ⟨0, idleHelm, by decide +kernel⟩,
   ⟨2, wr idleHelm (uETH 2) TOW_PORT.ROLE 0, by decide +kernel⟩,
   ⟨{ idleHelm with dev := { idleHelm.dev with level := 3 } }, by decide +kernel, by decide +kernel⟩,
   ⟨setPwr idleHelm { idleHelm.pwr with lowPower := true }, by decide +kernel⟩,
   ⟨idleHelm, by decide +kernel⟩,
   ⟨70000, idleHelm, by decide +kernel⟩,
   ⟨true, idleHelm, by decide +kernel⟩,
   ⟨true, idleHelm, by decide +kernel⟩,
   ⟨3, { idleHelm with dev := { idleHelm.dev with level := 1 } }, by decide +kernel, by decide +kernel⟩⟩

end Sys2Proof.Tests
end

section
/-! SUPPORT. Register writes: what CONFIG_WRITE makes of the first words of one entry (R493, R667), and the commands that are
such a write. -/
namespace Sys2Proof.Machine

/-! ### Structures of a unit -/

/-- The type of a unit of Table 15-1, whose index has ten bits. -/
theorem utype_uid {t i : Nat} (hi : i < 1024) : utype (uid t i) = t := by
  unfold utype uid
  omega

/-- The index of a unit of Table 15-1. -/
theorem uindex_uid {t i : Nat} (hi : i < 1024) : uindex (uid t i) = i := by
  unfold uindex uid
  omega

/-- Entry `e` of structure `reg` exists in unit `u`, CONFIG_WRITE may write it, and it has `n` transfer words, of which
`count` are the first ones. -/
def FirstWords (u reg n e count : Nat) : Prop :=
  ∃ d, regDescOf u reg = some d ∧ d.rw = true ∧ d.words = n ∧ e < regEntries d u ∧ 0 < count ∧ count ≤ n

/-- A row of Table 15-6 gives every unit of its type the structure. -/
theorem firstWords_of_row {t i reg n e count : Nat} (d : RegDesc) (hi : i < 1024)
    (hd : regDescs.find? (fun d => d.code == reg && d.utypes.contains t) = some d)
    (hrow : d.rw = true ∧ d.words = n ∧ d.code ≠ 0x0507) (he : e < d.entries) (hcount : 0 < count ∧ count ≤ n) :
    FirstWords (uid t i) reg n e count := by
  obtain ⟨hrw, hwords, hcode⟩ := hrow
  refine ⟨d, ?_, hrw, hwords, ?_, hcount⟩
  · simpa only [regDescOf, utype_uid hi] using hd
  · simpa [regEntries, hcode] using he

/-! The structures that the register write commands name (Table 15-6). -/

theorem firstWords_sluPort {k : Nat} (hk : k < 16) : FirstWords (uSL k) 0x0101 2 0 2 :=
  firstWords_of_row ⟨0x0101, "SLU_PORT", [1], 1, 2, true⟩ (by omega) (by decide) (by decide) (by decide) (by decide)

theorem firstWords_inrCh {k : Nat} (hk : k < 24) : FirstWords (uIN k) 0x0202 2 0 2 :=
  firstWords_of_row ⟨0x0202, "INR_CH", [14], 1, 2, true⟩ (by omega) (by decide) (by decide) (by decide) (by decide)

theorem firstWords_srfPort {k e : Nat} (hk : k < 16) (he : e < 4) : FirstWords (uSE k) 0x0301 1 e 1 :=
  firstWords_of_row ⟨0x0301, "SRF_PORT", [3], 4, 1, true⟩ (by omega) (by decide) (by decide) he (by decide)

theorem firstWords_cnlUpq {k : Nat} (hk : k < 4) : FirstWords (uHUB k) 0x0501 1 0 1 :=
  firstWords_of_row ⟨0x0501, "CNL_UPQ", [7], 1, 1, true⟩ (by omega) (by decide) (by decide) (by decide) (by decide)

theorem firstWords_cnlDev : FirstWords uDEV 0x0502 1 0 1 :=
  firstWords_of_row (t := 63) (i := 1023) ⟨0x0502, "CNL_DEV", [63], 1, 1, true⟩
    (by decide) (by decide) (by decide) (by decide) (by decide)

theorem firstWords_cnlLink {k : Nat} (hk : k < 4) : FirstWords (uCK k) 0x0503 1 0 1 :=
  firstWords_of_row ⟨0x0503, "CNL_LINK", [13], 1, 1, true⟩ (by omega) (by decide) (by decide) (by decide) (by decide)

/-- STREAM_ENABLE writes both words of RES_STREAM, STREAM_DISABLE the first. -/
theorem firstWords_resStream {k count : Nat} (hk : k < 64) (hcount : 0 < count ∧ count ≤ 2) :
    FirstWords (uSTREAM k) 0x0801 2 0 count :=
  firstWords_of_row ⟨0x0801, "RES_STREAM", [24], 1, 2, true⟩ (by omega) (by decide) (by decide) (by decide) hcount

theorem firstWords_brgQ {k : Nat} (hk : k < 512) : FirstWords (uQUEUE k) 0x0901 4 0 1 :=
  firstWords_of_row ⟨0x0901, "BRG_Q", [25], 1, 4, true⟩ (by omega) (by decide) (by decide) (by decide) (by decide)

theorem firstWords_tmuServo : FirstWords uTMU 0x0A03 4 0 1 :=
  firstWords_of_row ⟨0x0A03, "TMU_SERVO", [21], 1, 4, true⟩ (by decide) (by decide) (by decide) (by decide) (by decide)

theorem firstWords_tmuCmp {e : Nat} (he : e < 8) : FirstWords uTMU 0x0A05 2 e 2 :=
  firstWords_of_row ⟨0x0A05, "TMU_CMP", [21], 8, 2, true⟩ (by decide) (by decide) (by decide) he (by decide)

theorem firstWords_tmuSyncout {k : Nat} (hk : k < 16) : FirstWords (uSL k) 0x0A06 4 0 2 :=
  firstWords_of_row ⟨0x0A06, "TMU_SYNCOUT", [1], 1, 4, true⟩ (by omega) (by decide) (by decide) (by decide) (by decide)

/-! ### CONFIG_WRITE of the first words of an entry -/

/-- The first words of an entry lie in that entry alone. -/
theorem touched_firstWords {n e count : Nat} (hpos : 0 < count) (hle : count ≤ n) : touched n (e * n) count = [e] := by
  have hlast : (e * n + count - 1) / n = e := by
    rw [Nat.add_sub_assoc hpos, Nat.mul_comm, Nat.mul_add_div (by omega), Nat.div_eq_of_lt (by omega), Nat.add_zero]
  have hfirst : e * n / n = e := Nat.mul_div_cancel e (by omega)
  simp [touched, hlast, hfirst, upto]

/-- A write of the first words of an entry that exists is in range. -/
theorem regRange_firstWords {u reg e count : Nat} {d : RegDesc} (hd : regDescOf u reg = some d) (he : e < regEntries d u)
    (hpos : 0 < count) (hle : count ≤ d.words) : regRange u reg e 0 count = ST_OK := by
  have hend : e * d.words + count ≤ regEntries d u * d.words :=
    calc e * d.words + count ≤ e * d.words + d.words := by omega
      _ = (e + 1) * d.words := (Nat.succ_mul e d.words).symm
      _ ≤ regEntries d u * d.words := Nat.mul_le_mul_right _ he
  have hwords : 0 < d.words := by omega
  simp [regRange, hd, firstFail, he, hwords, hend]

/-- The rules of one entry decide the status of a write of that entry. -/
theorem checkEntries_singleton (s : State) (u reg n p0 e : Nat) (vals : List Nat) :
    checkEntries s u reg n p0 vals [e] = checkEntry s u reg e (newEntry s u reg n e p0 vals) := by
  simp only [checkEntries]
  split
  · next h => exact h.symm
  · rfl

/-- The state once the entry is stored: the fields of an ingest queue that ignore writes stay (R404), and a GM_CHANGE
written as 1 acts (R10, R417). -/
def entryStored (u reg n e : Nat) (vals : List W64) (s : State) : State :=
  let ws := entryAfter u reg n e vals s
  let t := writeEntryWords u reg e (if reg = 0x0901 then keptOfIngest s (uindex u) ws else ws) s
  if reg = 0x0A03 ∧ gmWritten (e * n) (vals.map (·.toNat)) = true then gmChange t else t

/-- The structures whose write can leave a slot too small for its producers: RES_STREAM, NRN_GRP, FUS_GRID, FUS_OBJ. -/
abbrev SizesRecords (reg : Nat) : Prop := reg = 0x0801 ∨ reg = 0x0401 ∨ reg = 0x0701 ∨ reg = 0x0704

/-- CONFIG_WRITE of the first words of an entry, past the checks of the range. -/
theorem cfgWrite_firstWords {u reg n e : Nat} {vals : List W64} (s : State) (h : FirstWords u reg n e vals.length) :
    cfgWrite u reg e 0 (vals.map (·.toNat)) s =
      if ¬ cfgReady s u = true then (ST_WRONG_STATE, s)
      else if checkEntry s u reg e (entryAfter u reg n e vals s) ≠ ST_OK then
        (checkEntry s u reg e (entryAfter u reg n e vals s), s)
      else if SizesRecords reg ∧ ¬ slotsFit (entryStored u reg n e vals s) = true then
        (ST_SHAPE, s)
      else (ST_OK, entryStored u reg n e vals s) := by
  obtain ⟨d, hd, hrw, rfl, he, hpos, hle⟩ := h
  have hrange : regRange u reg e 0 vals.length = ST_OK := regRange_firstWords hd he hpos hle
  have htouched : touched d.words (e * d.words) vals.length = [e] := touched_firstWords hpos hle
  simp only [cfgWrite, hd, List.length_map, hrange, hrw, Nat.add_zero, htouched, checkEntries_singleton, List.foldl_cons,
    List.foldl_nil, ne_eq, not_true_eq_false, if_false]
  rfl

/-! ### Commands that are one register write -/

/-- A write that is not taken changes nothing (R17, R493). -/
theorem regCommand_not_taken {u reg n e : Nat} {vals : List W64} {s : State} (h : FirstWords u reg n e vals.length)
    (hbreaks : ¬ WriteTaken u reg n e vals s) : regCommand u reg e vals s = .next s := by
  rw [regCommand, cfgWrite_firstWords s h]
  by_cases hready : cfgReady s u = true
  · have hcheck : checkEntry s u reg e (entryAfter u reg n e vals s) ≠ ST_OK := fun hok => hbreaks ⟨hready, hok⟩
    rw [if_neg (not_not.mpr hready), if_pos hcheck]
  · rw [if_pos hready]

/-- A write that is taken stores the entry, but for one that makes a slot too small (R493, R343). -/
theorem regCommand_taken {u reg n e : Nat} {vals : List W64} {s : State} (h : FirstWords u reg n e vals.length)
    (htaken : WriteTaken u reg n e vals s) :
    regCommand u reg e vals s = .next
      (if SizesRecords reg ∧ ¬ slotsFit (entryStored u reg n e vals s) = true then s
      else entryStored u reg n e vals s) := by
  obtain ⟨hready, hcheck⟩ := htaken
  rw [regCommand, cfgWrite_firstWords s h, if_neg (not_not.mpr hready), if_neg (not_not.mpr hcheck)]
  split <;> rfl

/-- A structure that sizes no record, holds no field that ignores writes and has no bit that acts is simply written. -/
theorem regCommand_plain {u reg n e : Nat} {vals : List W64} {s : State} (h : FirstWords u reg n e vals.length)
    (htaken : WriteTaken u reg n e vals s) (hsizes : ¬ SizesRecords reg) (hreg : reg ≠ 0x0901 ∧ reg ≠ 0x0A03) :
    regCommand u reg e vals s = .next (written u reg n e vals s) := by
  obtain ⟨hqueue, hservo⟩ := hreg
  have hstored : entryStored u reg n e vals s = written u reg n e vals s := by
    simp only [entryStored, written, hqueue, hservo, if_false, false_and]
  rw [regCommand_taken h htaken, hstored, if_neg (fun hno => hsizes hno.1)]

/-- A taken write of RES_STREAM is undone where a slot would not hold its producers' largest body (R343). -/
theorem regCommand_resStream {k : Nat} {vals : List W64} {s : State} (h : FirstWords (uSTREAM k) 0x0801 2 0 vals.length)
    (htaken : WriteTaken (uSTREAM k) 0x0801 2 0 vals s) :
    regCommand (uSTREAM k) 0x0801 0 vals s = .next (if ¬ slotsFit (written (uSTREAM k) 0x0801 2 0 vals s) = true then s
      else written (uSTREAM k) 0x0801 2 0 vals s) := by
  have hstored : entryStored (uSTREAM k) 0x0801 2 0 vals s = written (uSTREAM k) 0x0801 2 0 vals s := rfl
  rw [regCommand_taken h htaken, hstored]
  simp only [SizesRecords, true_or, true_and]

/-- A taken write of BRG_Q keeps what an ingest queue does not let be written (R404). -/
theorem regCommand_brgQ {q : Nat} {vals : List W64} {s : State} (hq : q < 512)
    (h : FirstWords (uQUEUE q) 0x0901 4 0 vals.length) (htaken : WriteTaken (uQUEUE q) 0x0901 4 0 vals s) :
    regCommand (uQUEUE q) 0x0901 0 vals s = .next (writeEntryWords (uQUEUE q) 0x0901 0
      (keptOfIngest s q (entryAfter (uQUEUE q) 0x0901 4 0 vals s)) s) := by
  have hindex : uindex (uQUEUE q) = q := uindex_uid (by omega)
  have hsizes : ¬ SizesRecords 0x0901 := by decide
  rw [regCommand_taken h htaken, if_neg (fun hno => hsizes hno.1)]
  simp [entryStored, hindex]

/-- A taken write of TMU_SERVO's first word does not reach GM_CHANGE, which stands in its last word (R417). -/
theorem regCommand_tmuServo {w : W64} {s : State} (htaken : WriteTaken uTMU 0x0A03 4 0 [w] s) :
    regCommand uTMU 0x0A03 0 [w] s = .next (written uTMU 0x0A03 4 0 [w] s) := by
  have hgm : gmWritten (0 * 4) ([w].map (·.toNat)) = false := by simp [gmWritten, bit]
  have hstored : entryStored uTMU 0x0A03 4 0 [w] s = written uTMU 0x0A03 4 0 [w] s := by
    simp only [entryStored, written, hgm, Bool.false_eq_true, and_false, if_false, Nat.reduceEqDiff]
  have hsizes : ¬ SizesRecords 0x0A03 := by decide
  rw [regCommand_taken firstWords_tmuServo htaken, hstored, if_neg (fun hno => hsizes hno.1)]

/-- Settles O49: each command is the `regCommand` of its structure (R667), so the write of that structure decides it. -/
theorem registerWriteCommands : Obligations.RegisterWriteCommands := by
  unfold Obligations.RegisterWriteCommands
  refine ⟨?portEnable, ?portDisable, ?linkEnable, ?devIdWrite, ?cnlUpqWrite, ?channelResetWrite, ?srfPortEnable, ?streamEnable,
    ?streamDisable, ?queueDisable, ?servoDisable, ?cmpArm, ?syncoutEnable⟩
  case portEnable => exact fun _ _ _ _ hk ht => regCommand_plain (firstWords_sluPort hk) ht (by decide) (by decide)
  case portDisable => exact fun _ _ _ hk ht => regCommand_plain (firstWords_sluPort hk) ht (by decide) (by decide)
  case linkEnable => exact fun _ _ _ hk ht => regCommand_plain (firstWords_cnlLink hk) ht (by decide) (by decide)
  case devIdWrite => exact fun _ _ ht => regCommand_plain firstWords_cnlDev ht (by decide) (by decide)
  case cnlUpqWrite => exact fun _ _ _ hk ht => regCommand_plain (firstWords_cnlUpq hk) ht (by decide) (by decide)
  case channelResetWrite => exact fun _ _ _ _ hk ht => regCommand_plain (firstWords_inrCh hk) ht (by decide) (by decide)
  case srfPortEnable => exact fun _ _ _ _ hk ht => regCommand_plain (firstWords_srfPort hk.1 hk.2) ht (by decide) (by decide)
  case streamEnable => exact fun _ _ _ _ hk ht => regCommand_resStream (firstWords_resStream (count := 2) hk (by decide)) ht
  case streamDisable => exact fun _ _ _ hk ht => regCommand_resStream (firstWords_resStream (count := 1) hk (by decide)) ht
  case queueDisable => exact fun _ _ _ hk ht => regCommand_brgQ hk (firstWords_brgQ hk) ht
  case servoDisable => exact fun _ _ ht => regCommand_tmuServo ht
  case cmpArm => exact fun _ _ _ _ hk ht => regCommand_plain (firstWords_tmuCmp hk) ht (by decide) (by decide)
  case syncoutEnable => exact fun _ _ _ _ hk ht => regCommand_plain (firstWords_tmuSyncout hk) ht (by decide) (by decide)

/-- Settles O50: no `regCommand` makes a write that is not taken, whatever its structure (R17, R493). -/
theorem registerWritesThatBreakARuleChangeNothing : Obligations.RegisterWritesThatBreakARuleChangeNothing := by
  unfold Obligations.RegisterWritesThatBreakARuleChangeNothing
  refine ⟨?portEnable, ?portDisable, ?linkEnable, ?cnlUpqWrite, ?channelResetWrite, ?srfPortEnable, ?streamEnable,
    ?streamDisable, ?queueDisable, ?servoDisable, ?cmpArm, ?syncoutEnable⟩
  case portEnable => exact fun _ _ _ _ hk => regCommand_not_taken (firstWords_sluPort hk)
  case portDisable => exact fun _ _ _ hk => regCommand_not_taken (firstWords_sluPort hk)
  case linkEnable => exact fun _ _ _ hk => regCommand_not_taken (firstWords_cnlLink hk)
  case cnlUpqWrite => exact fun _ _ _ hk => regCommand_not_taken (firstWords_cnlUpq hk)
  case channelResetWrite => exact fun _ _ _ _ hk => regCommand_not_taken (firstWords_inrCh hk)
  case srfPortEnable => exact fun _ _ _ _ hk => regCommand_not_taken (firstWords_srfPort hk.1 hk.2)
  case streamEnable => exact fun _ _ _ _ hk => regCommand_not_taken (firstWords_resStream (count := 2) hk (by decide))
  case streamDisable => exact fun _ _ _ hk => regCommand_not_taken (firstWords_resStream (count := 1) hk (by decide))
  case queueDisable => exact fun _ _ _ hk => regCommand_not_taken (firstWords_brgQ hk)
  case servoDisable => exact fun _ _ => regCommand_not_taken firstWords_tmuServo
  case cmpArm => exact fun _ _ _ _ hk => regCommand_not_taken (firstWords_tmuCmp hk)
  case syncoutEnable => exact fun _ _ _ _ hk => regCommand_not_taken (firstWords_tmuSyncout hk)

end Sys2Proof.Machine
end

section
/-! SUPPORT. A long packet at a sluice: what its header decides before its content counts (R46, R47, R91), and the geometry test
of an event (R59). -/
namespace Sys2Proof.Machine

/-! ### The header of a packet -/

/-- The sluice after a packet whose header was clean: its island has its clock, the packet boundary has passed, and the header
is noted (R91, R92). -/
abbrev headerNoted (n : Nat) (s : State) : State := goodHeader n .ok (packetBoundary n (wakeIsland (uSL n) s))

/-- A sluice that takes no input, or has no PHY, sees nothing of a packet but its island's restart. -/
theorem packetHeader_of_not_taking {n vc : Nat} {ecc : EccResult} {s : State}
    (h : ¬ sluTakes (wakeIsland (uSL n) s) n = true ∨ sl (wakeIsland (uSL n) s) n SLU_PORT.PHY = 0) :
    packetHeader n vc ecc s = (false, wakeIsland (uSL n) s) := by
  simp only [packetHeader, if_pos h]

/-- A sluice that takes input notes a clean header, and the virtual channel decides whether the content counts (R46). -/
theorem packetHeader_ok_of_taking {n vc : Nat} {s : State}
    (htakes : sluTakes (wakeIsland (uSL n) s) n = true) (hphy : sl (wakeIsland (uSL n) s) n SLU_PORT.PHY ≠ 0) :
    packetHeader n vc .ok s = (portTakes (headerNoted n s) n vc, headerNoted n s) := by
  simp only [packetHeader, htakes, hphy, not_true_eq_false, or_self, reduceCtorEq, if_false]

/-- A clean header is not seen, or is noted and the packet dropped, or is noted and the packet is of the port's virtual channel. -/
theorem packetHeader_ok_cases (n vc : Nat) (s : State) :
    packetHeader n vc .ok s = (false, wakeIsland (uSL n) s) ∨
    packetHeader n vc .ok s = (false, headerNoted n s) ∨
    packetHeader n vc .ok s = (true, headerNoted n s) ∧ sl (headerNoted n s) n SLU_PORT.VC = vc := by
  by_cases hoff : ¬ sluTakes (wakeIsland (uSL n) s) n = true ∨ sl (wakeIsland (uSL n) s) n SLU_PORT.PHY = 0
  · exact .inl (packetHeader_of_not_taking hoff)
  · obtain ⟨htakes, hphy⟩ := not_or.mp hoff
    rw [packetHeader_ok_of_taking (not_not.mp htakes) hphy]
    cases hport : portTakes (headerNoted n s) n vc with
    | false => exact .inr (.inl rfl)
    | true =>
      have hvc : sl (headerNoted n s) n SLU_PORT.VC = vc := eq_of_beq (Bool.and_eq_true_iff.mp hport).2
      exact .inr (.inr ⟨rfl, hvc⟩)

/-- Noting a header changes the sluice, its queues, its edge stamps and the clock of its island alone. -/
theorem headerNoted_eq (n : Nat) (s : State) : headerNoted n s =
    { s with slu := (headerNoted n s).slu, brg := (headerNoted n s).brg, time := (headerNoted n s).time,
             pwr := (wakeIsland (uSL n) s).pwr } := by
  calc headerNoted n s
    _ = { packetBoundary n (wakeIsland (uSL n) s) with slu := (headerNoted n s).slu } := goodHeader_ok_eq _ _
    _ = { wakeIsland (uSL n) s with
          slu := (headerNoted n s).slu, brg := (headerNoted n s).brg, time := (headerNoted n s).time } := by
      rw [packetBoundary_eq]
      rfl
    _ = _ := by
      rw [wakeIsland_eq]

/-- Noting a header counts nothing and touches no memory, register, binned copy or Canal packet (R46). -/
theorem headerNoted_frame (n : Nat) (s : State) :
    (headerNoted n s).cnt = s.cnt ∧ (headerNoted n s).ram = s.ram ∧ (headerNoted n s).canal = s.canal ∧
      (headerNoted n s).upIn = s.upIn ∧ (headerNoted n s).regs = s.regs := by
  rw [headerNoted_eq]
  exact ⟨rfl, rfl, rfl, rfl, rfl⟩

/-! ### The course of a long packet -/

theorem exec_csi2LongPacket (n vc dt : Nat) (ecc : EccResult) (crcOk : Bool) (sot : Nat) (data : List Byte) (flawed : List Nat)
    (s : State) :
    exec (.csi2LongPacket n vc dt ecc crcOk sot data flawed) s = .next (csi2Packet n vc dt ecc crcOk sot data flawed s) := rfl

/-- A packet whose content does not count leaves the state its header left (R46). -/
theorem csi2LongPacket_dropped {n vc dt : Nat} {ecc : EccResult} {crcOk : Bool} {sot : Nat} {data : List Byte}
    {flawed : List Nat} {s t : State} {ok : Bool} (hreset : sluResetting s n = false)
    (hheader : packetHeader n vc ecc s = (ok, t)) (hdrop : ok = false ∨ dt ≠ portDt t n) :
    exec (.csi2LongPacket n vc dt ecc crcOk sot data flawed) s = .next t := by
  have hout : ¬ ok = true ∨ dt ≠ portDt t n := by simpa using hdrop
  simp only [exec_csi2LongPacket, csi2Packet, hreset, hheader, Bool.false_eq_true, if_false, if_pos hout]

/-- A packet of the port's channel and type goes the way of the port's mode (R46, R67). -/
theorem csi2LongPacket_taken {n vc : Nat} {ecc : EccResult} {crcOk : Bool} {sot : Nat} {data : List Byte} {flawed : List Nat}
    {s t : State} (hreset : sluResetting s n = false) (hheader : packetHeader n vc ecc s = (true, t)) :
    exec (.csi2LongPacket n vc (portDt t n) ecc crcOk sot data flawed) s =
      .next (if sl t n SLU_PORT.MODE = 2 then linePacket n crcOk data t else eventPacket n sot crcOk data flawed t) := by
  simp only [exec_csi2LongPacket, csi2Packet, hreset, hheader, Bool.false_eq_true, if_false, not_true_eq_false, ne_eq, or_self]

/-- Settles O36: the three outcomes of a clean header, and the frame of each. -/
theorem packetsOfOtherStreamsAreDropped : Obligations.PacketsOfOtherStreamsAreDropped := by
  unfold Obligations.PacketsOfOtherStreamsAreDropped
  refine ⟨?other, ?own⟩
  case other =>
    intro n vc dt crcOk sot data flawed s hreset hother
    obtain hunseen | hport | ⟨hport, hvc⟩ := packetHeader_ok_cases n vc s
    · exact ⟨_, csi2LongPacket_dropped hreset hunseen (.inl rfl), .inl rfl, by simp⟩
    · exact ⟨_, csi2LongPacket_dropped hreset hport (.inl rfl), .inr rfl, headerNoted_frame n s⟩
    · have hdt : dt ≠ portDt (headerNoted n s) n := hother.resolve_left (not_not.mpr hvc)
      exact ⟨_, csi2LongPacket_dropped hreset hport (.inr hdt), .inr rfl, headerNoted_frame n s⟩
  case own =>
    intro n vc dt crcOk sot data flawed s t hreset hheader hdt hmode
    rw [hdt, csi2LongPacket_taken hreset hheader, if_neg hmode]

/-! ### The geometry test -/

theorem inGeometry_iff {s : State} {n x y : Nat} : inGeometry s n x y = true ↔ x < sluWidth s n ∧ y < sluHeight s n := by
  simp [inGeometry]

/-- Settles O38: an event with a time goes by the geometry test alone (R59). -/
theorem outOfRangeEventsAreDropped : Obligations.OutOfRangeEventsAreDropped := by
  unfold Obligations.OutOfRangeEventsAreDropped
  refine ⟨?outside, ?inside⟩
  case outside =>
    intro n x y pol t s c hout
    have hgeo : ¬ inGeometry s n x y = true := by rwa [inGeometry_iff, not_and_or]
    simp only [sensorEvent, if_pos hgeo]
    rfl
  case inside =>
    intro n x y pol t s c hx hy
    have hgeo : inGeometry s n x y = true := inGeometry_iff.mpr ⟨hx, hy⟩
    simp only [sensorEvent, if_neg (not_not.mpr hgeo)]

end Sys2Proof.Machine
end

section
/-! SUPPORT. The doorbell of the application complex: a write to ARR_RUN is taken or ignored by the entry it names (R373). -/
namespace Sys2Proof.Machine

/-- A doorbell for a programme that the writer may ring is a trigger with no buffer, from the present time (R269, R373). -/
theorem arrRunWrite_of_own {n p job : Nat} {s : State} (hp : p < 16) (hvalid : prF s n p ARR_PROG.VALID = 1)
    (htrigger : prF s n p ARR_PROG.TRIGGER = 0) (hjob : faJob s n = job) :
    arrRunWrite n p job s = arrTrigger n { prog := p, buf := .none, base := 0, tov := 0, from_ := now s } s :=
  if_pos ⟨hvalid, htrigger, hjob, hp⟩

/-- A doorbell for a programme that the writer may not ring only counts in DOORBELL_BAD (R373). -/
theorem arrRunWrite_of_not_own {n p job : Nat} {s : State}
    (hbad : prF s n p ARR_PROG.VALID ≠ 1 ∨ prF s n p ARR_PROG.TRIGGER ≠ 0 ∨ faJob s n ≠ job) :
    arrRunWrite n p job s = bump uDEV 0x0C0F 3 s := by
  refine if_neg ?_
  rintro ⟨hvalid, htrigger, hjob, -⟩
  obtain h | h | h := hbad
  · exact h hvalid
  · exact h htrigger
  · exact h hjob

theorem exec_arrRunWrite (n p job : Nat) (s : State) :
    exec (.arrRunWrite n p job) s = .next (arrRunWrite n p job s) := rfl

/-- Settles O46: the write is the doorbell, and the entry's VALID, TRIGGER and job decide between its two outcomes. -/
theorem aDoorbellStartsItsProgramme : Obligations.ADoorbellStartsItsProgramme := by
  unfold Obligations.ADoorbellStartsItsProgramme
  refine ⟨?own, ?notOwn⟩
  case own =>
    intro n p job s hp hvalid htrigger hjob
    rw [exec_arrRunWrite, arrRunWrite_of_own hp hvalid htrigger hjob]
  case notOwn =>
    intro n p job s hbad
    rw [exec_arrRunWrite, arrRunWrite_of_not_own hbad]

end Sys2Proof.Machine
end

section
/-! SUPPORT. The level driven on SAFE_N: the service states, the power level and the core enable decide it (R615, R659). -/
namespace Sys2Proof.Machine

/-- The line is high exactly with the core enable up, at PL0 or PL1 and in one of the four states of service (R615, R659). -/
theorem safeNHigh_iff {s : State} : safeNHigh s = true ↔
    s.pwr.enCore = true ∧ (s.dev.level = 0 ∨ s.dev.level = 1) ∧
      (s.dev.state = .idle ∨ s.dev.state = .loaded ∨ s.dev.state = .running ∨ s.dev.state = .degraded) := by
  have hlevel : s.dev.level ≤ 1 ↔ s.dev.level = 0 ∨ s.dev.level = 1 := Nat.le_one_iff_eq_zero_or_eq_one
  unfold safeNHigh
  cases hstate : s.dev.state <;> simp [hlevel, and_comm]

/-- Outside the states of service, or above PL1, the line is low (R615). -/
theorem safeNHigh_eq_false_of_not_inService {s : State}
    (hout : ¬ ((s.dev.state = .idle ∨ s.dev.state = .loaded ∨ s.dev.state = .running ∨ s.dev.state = .degraded) ∧
      (s.dev.level = 0 ∨ s.dev.level = 1))) : safeNHigh s = false := by
  refine Bool.eq_false_iff.mpr fun hhigh => ?_
  obtain ⟨-, hlevel, hstate⟩ := safeNHigh_iff.mp hhigh
  exact hout ⟨hstate, hlevel⟩

/-- BOOT, BRINGUP and SAFE are not states of service, so the line is low in them at every level (R615). -/
theorem safeNHigh_eq_false_of_boot_bringup_safe {s : State}
    (hstate : s.dev.state = .boot ∨ s.dev.state = .bringup ∨ s.dev.state = .safe) : safeNHigh s = false := by
  refine safeNHigh_eq_false_of_not_inService fun ⟨hservice, _⟩ => ?_
  obtain h | h | h := hstate <;> simp [h] at hservice

/-- Settles O34: the line is high only in service, and the reset state is in BOOT (R615). -/
theorem safeNIsHighOnlyInService : Obligations.SafeNIsHighOnlyInService := by
  unfold Obligations.SafeNIsHighOnlyInService
  refine ⟨?high, ?low, ?reset, ?named⟩
  case high =>
    intro s hhigh
    obtain ⟨-, hlevel, hstate⟩ := safeNHigh_iff.mp hhigh
    exact ⟨hstate, hlevel⟩
  case low => exact fun _ => safeNHigh_eq_false_of_not_inService
  case reset => exact safeNHigh_eq_false_of_boot_bringup_safe (.inl rfl)
  case named => exact fun _ => safeNHigh_eq_false_of_boot_bringup_safe

end Sys2Proof.Machine
end

section
/-! SUPPORT. What every command and every step keep: the queue, the canonical forms, and fuses that only burn forward. -/
namespace Sys2Proof.Machine

/-- A command whose effect gives `s` gives a state equal to it. -/
theorem next_congr {s t : State} (h : s = t) : (Host.Outcome.next s : Out) = .next t := congrArg Host.Outcome.next h

/-- Every command keeps what its effect keeps (Table 95-1). -/
theorem exec_keeps {c : Instr} {s t : State} (h : exec c s = .next t) : Keeps s t := by
  cases c with
  | powerOnReset => exact execPowerOnReset_kept h
  | externalReset => exact execExternalReset_kept _ h
  | watchdogReset => exact execWatchdogReset_kept h
  | debugSysReset => exact execDebugSysReset_kept h
  | brownOut => exact execBrownOut_kept h
  | powerUpSequence => exact execPowerUpSequence_kept _ h
  | railTimeout => exact execRailTimeout_kept h
  | vsysSafeFall => exact execVsysSafeFall_kept h
  | romFlashBoot => exact execRomFlashBoot_kept h
  | selfTestDone => exact execSelfTestDone_kept _ _ h
  | bringupComplete => exact execBringupComplete_kept h
  | ddrTrainingDone => exact execDdrTrainingDone_kept _ _ h
  | ddrFillDone => exact execDdrFillDone_kept _ _ h
  | tmuTickLock => exact execTmuTickLock_kept h
  | ethPhyLinkChange => exact execEthPhyLinkChange_kept _ _ _ h
  | linkEnable => exact execLinkEnable_kept _ _ h
  | linkUp => exact execLinkUp_kept _ _ _ _ _ h
  | linkDown => exact execLinkDown_kept _ _ h
  | linkFrameTx => exact execLinkFrameTx_kept _ h
  | linkFrameRx => exact execLinkFrameRx_kept _ _ h
  | devIdWrite => exact execDevIdWrite_kept _ h
  | lockLookup => exact execLockLookup_kept _ _ h
  | packetDispatch => exact execPacketDispatch_kept _ h
  | cl0Police => exact execCl0Police_kept _ h
  | cl0TokenAdd => exact execCl0TokenAdd_kept _ h
  | cnlUpqWrite => exact execCnlUpqWrite_kept _ _ h
  | probeEmit => exact execProbeEmit_kept _ h
  | pathProbe => exact execPathProbe_kept _ _ h
  | upBinnedCopy => exact execUpBinnedCopy_kept _ _ _ h
  | alarmFramerRx => exact execAlarmFramerRx_kept _ _ h
  | alarmFrameTx => exact execAlarmFrameTx_kept _ h
  | safeStopFrame => exact execSafeStopFrame_kept _ h
  | safeCauseClear => exact execSafeCauseClear_kept _ h
  | supplyFault rail => exact execSupplyFault_kept rail h
  | clockFault pll => exact execClockFault_kept pll h
  | thermalSample => exact execThermalSample_kept _ h
  | safeNFault => exact execSafeNFault_kept h
  | hostLinksDown => exact execHostLinksDown_kept h
  | mechDiagnostic => exact execMechDiagnostic_kept _ _ h
  | stateConflict => exact execStateConflict_kept _ _ h
  | csi2LongPacket => exact execCsi2LongPacket_kept _ _ _ _ _ _ _ _ h
  | frameStart => exact execFrameStart_kept _ _ _ _ h
  | frameEnd => exact execFrameEnd_kept _ _ _ h
  | syncInEdge => exact execSyncInEdge_kept _ h
  | pairTimeout => exact execPairTimeout_kept _ h
  | rateTokenAdd => exact execRateTokenAdd_kept _ h
  | rateInterval => exact execRateInterval_kept _ h
  | refractSweep => exact execRefractSweep_kept _ _ h
  | sluLinkUpTimeout => exact execSluLinkUpTimeout_kept _ h
  | portEnable => exact execPortEnable_kept _ _ _ h
  | portClearDone => exact execPortClearDone_kept _ h
  | portDisable => exact execPortDisable_kept _ _ h
  | sourceChange => exact execSourceChange_kept _ h
  | i3cIbi => exact execI3cIbi_kept _ _ _ h
  | inputPeriod => exact execInputPeriod_kept _ _ _ h
  | inrOutput => exact execInrOutput_kept _ h
  | syncInertEdge => exact execSyncInertEdge_kept h
  | synchronisingReset => exact execSynchronisingReset_kept _ _ h
  | channelResetWrite => exact execChannelResetWrite_kept _ _ _ h
  | seEvent => exact execSeEvent_kept _ _ _ h
  | apertureMerge => exact execApertureMerge_kept _ _ h
  | seServiceWord => exact execSeServiceWord_kept _ _ h
  | gyroRecord => exact execGyroRecord_kept _ _ _ h
  | surfaceSweep => exact execSurfaceSweep_kept _ h
  | srfPortEnable => exact execSrfPortEnable_kept _ _ _ h
  | surfaceClearDone => exact execSurfaceClearDone_kept _ _ h
  | neInput => exact execNeInput_kept _ h
  | batchRelease => exact execBatchRelease_kept _ h
  | batchUpdate => exact execBatchUpdate_kept _ h
  | tickBatch => exact execTickBatch_kept _ _ h
  | stampSweep => exact execStampSweep_kept _ _ h
  | stepClose => exact execStepClose_kept _ h
  | stepOverrun => exact execStepOverrun_kept _ h
  | countWindowClose => exact execCountWindowClose_kept _ _ h
  | countCopyDone => exact execCountCopyDone_kept _ h
  | arrRunWrite => exact execArrRunWrite_kept _ _ _ h
  | instanceStart => exact execInstanceStart_kept _ h
  | loadDescriptor => exact execLoadDescriptor_kept _ h
  | computePass => exact execComputePass_kept _ h
  | storeDescriptor => exact execStoreDescriptor_kept _ h
  | tenPacket => exact execTenPacket_kept _ _ h
  | tenWindowEnd => exact execTenWindowEnd_kept _ _ h
  | tenWindowClose => exact execTenWindowClose_kept _ _ h
  | tenBufferCleared => exact execTenBufferCleared_kept _ _ _ h
  | fusionTick => exact execFusionTick_kept h
  | checkpointPeriod => exact execCheckpointPeriod_kept _ h
  | gridStageEnd => exact execGridStageEnd_kept _ h
  | egoMotionDone => exact execEgoMotionDone_kept _ h
  | objectStage => exact execObjectStage_kept _ h
  | snapshotCopyDone => exact execSnapshotCopyDone_kept _ h
  | lidarRecord => exact execLidarRecord_kept _ _ h
  | flowPacket => exact execFlowPacket_kept h
  | streamEntry => exact execStreamEntry_kept _ h
  | recordFlush => exact execRecordFlush_kept _ h
  | recordCommit => exact execRecordCommit_kept _ h
  | streamEnable => exact execStreamEnable_kept _ _ _ h
  | streamDisable => exact execStreamDisable_kept _ _ h
  | pushCopy => exact execPushCopy_kept _ h
  | pushFragment => exact execPushFragment_kept _ h
  | berthGo => exact execBerthGo_kept _ _ h
  | ckptAck => exact execCkptAck_kept _ _ h
  | ckptGraceExpiry => exact execCkptGraceExpiry_kept _ h
  | jobStopHalt => exact execJobStopHalt_kept _ h
  | hartPoisonTrap => exact execHartPoisonTrap_kept _ _ h
  | guestAccessFault => exact execGuestAccessFault_kept _ _ _ _ _ h
  | l1ParityError => exact execL1ParityError_kept _ h
  | portalPush => exact execPortalPush_kept _ _ _ _ h
  | portalPushEnd => exact execPortalPushEnd_kept _ _ _ _ h
  | portalAbort => exact execPortalAbort_kept _ _ h
  | portalPop => exact execPortalPop_kept _ _ _ h
  | queueCopyWrite => exact execQueueCopyWrite_kept _ h
  | canalCloseTimeout => exact execCanalCloseTimeout_kept _ h
  | middleLineWrite => exact execMiddleLineWrite_kept _ _ h
  | middleLineRead => exact execMiddleLineRead_kept _ _ h
  | queuePop => exact execQueuePop_kept _ _ h
  | queueDisable => exact execQueueDisable_kept _ _ h
  | ptpSyncRx => exact execPtpSyncRx_kept _ _ _ h
  | ptpFollowUpRx => exact execPtpFollowUpRx_kept _ _ _ _ _ h
  | ptpLkpMessage => exact execPtpLkpMessage_kept _ _ _ h
  | ptpEventTx => exact execPtpEventTx_kept _ _ _ h
  | txqLookup => exact execTxqLookup_kept _ _ h
  | syncTimeout => exact execSyncTimeout_kept h
  | holdLimit => exact execHoldLimit_kept h
  | gmChange => exact execGmChange_kept h
  | servoDisable => exact execServoDisable_kept _ h
  | cmpArm => exact execCmpArm_kept _ _ _ h
  | comparatorFire => exact execComparatorFire_kept _ h
  | syncoutEnable => exact execSyncoutEnable_kept _ _ _ h
  | syncOutEdge => exact execSyncOutEdge_kept _ h
  | syncOutPulseEnd => exact execSyncOutPulseEnd_kept _ h
  | ppsEdge => exact execPpsEdge_kept h
  | ppsPulseEnd => exact execPpsPulseEnd_kept h
  | towlineRequestRx => exact execTowlineRequestRx_kept _ _ _ _ _ h
  | arpIcmpRx => exact execArpIcmpRx_kept _ _ h
  | sensorFrameRx => exact execSensorFrameRx_kept _ _ _ h
  | ethFrameTx => exact execEthFrameTx_kept _ h
  | helmSilence => exact execHelmSilence_kept h
  | helmObjectExpiry => exact execHelmObjectExpiry_kept h
  | blobBegin => exact execBlobBegin_kept _ _ _ h
  | blobWrite => exact execBlobWrite_kept _ _ _ _ h
  | graphLoad => exact execGraphLoad_kept _ _ _ h
  | graphUnload => exact execGraphUnload_kept _ h
  | jobStart => exact execJobStart_kept _ _ _ h
  | jobStop => exact execJobStop_kept _ _ h
  | jobCheckpoint => exact execJobCheckpoint_kept _ _ h
  | jobRestart => exact execJobRestart_kept _ _ h
  | safeExit => exact execSafeExit_kept _ h
  | configWrite => exact execConfigWrite_kept _ _ _ _ _ _ h
  | configRead => exact execConfigRead_kept _ _ _ _ _ _ h
  | routeWrite => exact execRouteWrite_kept _ _ _ _ h
  | weightsWrite => exact execWeightsWrite_kept _ _ _ _ _ _ _ h
  | sensorI3c => exact execSensorI3c_kept _ _ _ _ _ _ _ h
  | i3cTimeout => exact execI3cTimeout_kept _ h
  | filterSync => exact execFilterSync_kept _ _ h
  | timeGet => exact execTimeGet_kept _ h
  | ptpConfig => exact execPtpConfig_kept _ _ _ _ _ _ _ _ _ h
  | powerLevelSet => exact execPowerLevelSet_kept _ _ h
  | powerLimitSet => exact execPowerLimitSet_kept _ _ h
  | powerStatusGet => exact execPowerStatusGet_kept _ h
  | unitQuarantine => exact execUnitQuarantine_kept _ _ h
  | unitRelease => exact execUnitRelease_kept _ _ h
  | unitMargin => exact execUnitMargin_kept _ _ _ _ h
  | testContentLoad => exact execTestContentLoad_kept _ _ h
  | testControl => exact execTestControl_kept _ _ _ h
  | windowLogRead => exact execWindowLogRead_kept _ _ _ h
  | fwStage => exact execFwStage_kept _ _ h
  | fwActivate => exact execFwActivate_kept _ _ h
  | attestQuote => exact execAttestQuote_kept _ _ h
  | identityGet => exact execIdentityGet_kept _ _ h
  | keyRevoke => exact execKeyRevoke_kept _ _ _ h
  | debugChallenge => exact execDebugChallenge_kept _ h
  | debugUnlock => exact execDebugUnlock_kept _ _ _ h
  | debugLock => exact execDebugLock_kept _ h
  | macsecKeySet => exact execMacsecKeySet_kept _ _ _ _ _ h
  | lifecycleSet => exact execLifecycleSet_kept _ _ _ h
  | resultRead => exact execResultRead_kept _ _ _ _ _ _ h
  | resultRelease => exact execResultRelease_kept _ _ _ h
  | subscribe => exact execSubscribe_kept _ _ _ _ _ h
  | unsubscribe => exact execUnsubscribe_kept _ _ h
  | statusGet => exact execStatusGet_kept _ h
  | countersRead => exact execCountersRead_kept _ _ _ _ _ _ _ h
  | noticeLogRead => exact execNoticeLogRead_kept _ _ _ h
  | unitStatusGet => exact execUnitStatusGet_kept _ _ h
  | helmClaim => exact execHelmClaim_kept _ _ h
  | helmKeep => exact execHelmKeep_kept _ h
  | helmRelease => exact execHelmRelease_kept _ h
  | helmHandover => exact execHelmHandover_kept _ _ h
  | progressGet => exact execProgressGet_kept _ _ h
  | commandAbort => exact execCommandAbort_kept _ _ h
  | flashRewriteDone => exact execFlashRewriteDone_kept _ h
  | svnBurn => exact execSvnBurn_kept h
  | activateQuiescent => exact execActivateQuiescent_kept h
  | firmwareAlive => exact execFirmwareAlive_kept h
  | activateFallback => exact execActivateFallback_kept h
  | challengeExpiry => exact execChallengeExpiry_kept h
  | debugSessionExpiry => exact execDebugSessionExpiry_kept h
  | dbgBusAccess => exact execDbgBusAccess_kept _ h
  | holdPowerWrite => exact execHoldPowerWrite_kept _ h
  | lkpHalt => exact execLkpHalt_kept h
  | lkpResumeWrite => exact execLkpResumeWrite_kept h
  | dredgerRead => exact execDredgerRead_kept _ h
  | unitResetDone => exact execUnitResetDone_kept _ _ h
  | lkpRecovered => exact execLkpRecovered_kept _ h
  | lapNotice => exact execLapNotice_kept _ _ h
  | spareSwitch => exact execSpareSwitch_kept _ _ _ h
  | pageRemap => exact execPageRemap_kept _ _ h
  | fuseBurnDone => exact execFuseBurnDone_kept _ h
  | windowCommit => exact execWindowCommit_kept _ h
  | supplyDroop => exact execSupplyDroop_kept _ h
  | replayStart => exact execReplayStart_kept _ h
  | replayVerdict => exact execReplayVerdict_kept _ _ h
  | replayLimitExpiry => exact execReplayLimitExpiry_kept _ h
  | restartResumed => exact execRestartResumed_kept _ h
  | testVisitStart => exact execTestVisitStart_kept _ h
  | testVisitDone => exact execTestVisitDone_kept _ _ h
  | testLate => exact execTestLate_kept _ h
  | powerEntryQuiesced => exact execPowerEntryQuiesced_kept h
  | powerEntryComplete => exact execPowerEntryComplete_kept h
  | powerExitComplete => exact execPowerExitComplete_kept h
  | tc10SleepRequest => exact execTc10SleepRequest_kept _ h
  | tc10SleepReject => exact execTc10SleepReject_kept _ h
  | tc10Wake => exact execTc10Wake_kept _ h
  | wakeN => exact execWakeN_kept h
  | lpCurrent => exact execLpCurrent_kept h
  | governorPeriod => exact execGovernorPeriod_kept _ h
  | avsAdjust => exact execAvsAdjust_kept _ _ h
  | islandClockStop => exact execIslandClockStop_kept _ h
  | islandClockRestart => exact execIslandClockRestart_kept _ h
  | counterTick => exact execCounterTick_kept _ h
  | mkaPduRx => exact execMkaPduRx_kept _ _ h
  | lkpLockstepMismatch => exact execLkpLockstepMismatch_kept h

/-- Something kept from `s` keeps the canonical form. -/
theorem Keeps.canon {s t : State} (h : Keeps s t) (hs : s.Canon) : t.Canon :=
  ⟨h.ram hs.memory, h.tags hs.tags, h.regs hs.registers, h.cnt hs.counters, h.bound hs.bounded⟩

/-- A step idles on an empty queue, or runs the front command on the rest of it. -/
theorem step_cases {s t : State} (h : step s = .next t) :
    t = s ∨ ∃ c r, exec c (s.withPending r) = .next t := by
  unfold step at h
  split at h
  · exact .inl (Host.Outcome.next.inj h).symm
  · next c r _ => exact .inr ⟨c, r, h⟩

/-- The queue is no part of the canonical form. -/
theorem State.Canon.withPending {s : State} (h : s.Canon) (r : List Instr) : (s.withPending r).Canon :=
  ⟨h.memory, h.tags, h.registers, h.counters, h.bounded⟩

/-- Settles O21: a step idles or runs one command, and every command keeps the canonical form. -/
theorem stepKeepsTheCanonicalForm : Obligations.StepKeepsTheCanonicalForm := by
  intro s t hs hstep
  obtain rfl | ⟨c, r, hexec⟩ := step_cases hstep
  · exact hs
  · exact (exec_keeps hexec).canon (hs.withPending r)

/-- Settles O22: the queue is among what every command keeps. -/
theorem commandsLeaveTheQueue : Obligations.CommandsLeaveTheQueue :=
  fun _ _ _ hexec => (exec_keeps hexec).pending

/-- Settles O23: a step idles or runs one command, and every command only burns fuses forward. -/
theorem fusesOnlyBurnForward : Obligations.FusesOnlyBurnForward := by
  intro s t hstep
  obtain rfl | ⟨c, r, hexec⟩ := step_cases hstep
  · exact .refl _
  · exact (exec_keeps hexec).fuses

end Sys2Proof.Machine
end

section
/-! SUPPORT. The course of a request (R17, R453, R454): what a failed command, a refused one and a duplicate leave, and
what GRAPH_UNLOAD clears (R488). -/
namespace Sys2Proof.Machine

/-! ### GRAPH_UNLOAD -/

/-- The last acts of GRAPH_UNLOAD: the records of graph, jobs, guest and second passage go, then the staged image, and the
device is IDLE. -/
def graphCleared (u : State) : State :=
  { u with
    dev := { u.dev with jobs := [], graph := none },
    apx := { u.apx with jobctl := [], msi := [], harts := [] },
    pass := { u.pass with
      steps := [], next := [], replay := [], restart := [], undo := [], ckptUndo := [], ckptStep := [], ranges := [], reported := [] } }

/-- Whatever the units, streams, routes and pairs of the graph leave, the records are cleared after it. -/
theorem graphUnload_eq (s : State) :
    ∃ u, graphUnload s = ans ST_OK [] (setState .idle (setStage (graphCleared u) 0 {})) := ⟨_, rfl⟩

/-- Settles O10: the records are cleared last, and neither the staging buffer nor the STATE notice touches them. -/
theorem graphUnloadClearsTheGraph : Obligations.GraphUnloadClearsTheGraph := by
  intro q s s₀ hstarts
  obtain ⟨u, hu⟩ := graphUnload_eq s₀
  have hsends := setState_sends .idle (setStage (graphCleared u) 0 {})
  refine ⟨_, next_congr (serve_ok hstarts hu), ?_⟩
  rw [hsends.dev, hsends.apx, hsends.pass]
  exact ⟨rfl, rfl, rfl, rfl, rfl, rfl, rfl, rfl, rfl, rfl⟩

/-! ### Failed, refused and repeated requests -/

/-- Settles O24: the effect's state is taken only with a status that keeps effects, or by the rule of the command. -/
theorem aFailedCommandKeepsTheState : Obligations.AFailedCommandKeepsTheState := by
  intro q i code eff s s₀ st payload hstarts hres hstatus hkeep
  rw [serve_starts eff hstarts, hres]
  simp only [hstatus, hkeep, Bool.or_self, Bool.false_eq_true, if_false]

/-- A request that its berth does not hold goes through the checks of Table 14-5. -/
theorem serve_arriving {q : Req} {i : Instr} {code : Nat} {eff : State → CmdRes} {s : State} (hruns : svcRuns s = true)
    (hhears : romHears s q = true) (hnew : ¬ heldBy q i s) :
    serve q i code eff s = match admitReq q i code 0 0 (noteRequest q.link s) with
      | .absorbed u => u
      | .rejected st u => rejectReq q 0 0 code st u
      | .accepted u => runInTurn q i code eff (occupy q i code 0 0 u) := by
  have hheld : ¬ ((berthOf s q.berth).cmd.any (sameCmd i) = true ∧ (berthOf s q.berth).started.isNone = true) := by
    rwa [Option.isNone_iff_eq_none]
  simp only [serve, hruns, hhears, not_true_eq_false, if_false, if_neg hheld] <;> rfl

/-- The checks leave the berths of a request that they refuse or absorb. -/
theorem admitReq_noteRequest_berths (q : Req) (i : Instr) (code : Nat) (s : State) :
    (admitLeft (admitReq q i code 0 0 (noteRequest q.link s))).tow.berths = s.tow.berths :=
  (admitReq_berths q i code 0 0 _).trans (noteRequest_berths _ s)

theorem deliverReply_berths (q : Req) (src srcPort code st : Nat) (payload : List Byte) (s : State) :
    (deliverReply q src srcPort code st payload s).2.tow.berths = s.tow.berths := by
  unfold deliverReply
  cases q.link with
  | portal j => exact portalReply_berths _ _ _ s
  | port p => exact (sendTo_sends _ _ _ _ _ _ s).berths
  | relay p => exact (sendTo_sends _ _ _ _ _ _ s).berths

/-- A refusal is a reply, and the busy counter after ST_BUSY. -/
theorem rejectReq_berths (q : Req) (src srcPort code st : Nat) (s : State) :
    (rejectReq q src srcPort code st s).tow.berths = s.tow.berths := by
  refine (deliverReply_berths q src srcPort code st [] _).trans ?_
  split
  · exact (linkBump_sends _ _ s).berths
  · rfl

/-- Settles O25: of the three outcomes of the checks, refusal and duplicate run nothing and touch no berth. -/
theorem aRefusedRequestLeavesItsBerth : Obligations.ARefusedRequestLeavesItsBerth := by
  refine ⟨?rejected, ?absorbed⟩
  case rejected =>
    intro q i code eff s u st hruns hhears hnew hadmit _
    have hberths := admitReq_noteRequest_berths q i code s
    rw [hadmit] at hberths
    refine ⟨?_, (rejectReq_berths q 0 0 code st u).trans hberths⟩
    rw [serve_arriving hruns hhears hnew, hadmit]
  case absorbed =>
    intro q i code eff s u hruns hhears hnew hadmit
    have hberths := admitReq_noteRequest_berths q i code s
    rw [hadmit] at hberths
    refine ⟨?_, hberths⟩
    rw [serve_arriving hruns hhears hnew, hadmit]

end Sys2Proof.Machine
end

section
/-! SUPPORT. Registers and memory read after write: a field of a transfer word, a run of bytes, and what lies beside them. -/
namespace Sys2Proof.Machine

/-! ### Fields of a number -/

/-- A number is its field, what lies below it and what lies above it. -/
theorem sub_bits_eq (w lo width : Nat) :
    w - bits w lo width * 2 ^ lo = w / 2 ^ (lo + width) * 2 ^ (lo + width) + w % 2 ^ lo := by
  have hlow : w = 2 ^ lo * (w / 2 ^ lo) + w % 2 ^ lo := (Nat.div_add_mod w _).symm
  have hhigh : w / 2 ^ lo = 2 ^ width * (w / 2 ^ lo / 2 ^ width) + w / 2 ^ lo % 2 ^ width := (Nat.div_add_mod _ _).symm
  have hfield : bits w lo width = w / 2 ^ lo % 2 ^ width := by rw [bits, Nat.shiftRight_eq_div_pow]
  have hpow : w / 2 ^ (lo + width) * 2 ^ (lo + width) = 2 ^ lo * (2 ^ width * (w / 2 ^ lo / 2 ^ width)) := by
    rw [Nat.pow_add, ← Nat.div_div_eq_div_mul]
    ring
  have hsplit : w = 2 ^ lo * (2 ^ width * (w / 2 ^ lo / 2 ^ width)) + w / 2 ^ lo % 2 ^ width * 2 ^ lo + w % 2 ^ lo := by
    calc w = 2 ^ lo * (2 ^ width * (w / 2 ^ lo / 2 ^ width) + w / 2 ^ lo % 2 ^ width) + w % 2 ^ lo := by
          rw [← hhigh, ← hlow]
      _ = _ := by ring
  rw [hfield, hpow]
  omega

/-- A field set in a word, as the sum of its three parts. -/
theorem setBits_eq (w lo width v : Nat) :
    setBits w lo width v = w / 2 ^ (lo + width) * 2 ^ (lo + width) + v % 2 ^ width * 2 ^ lo + w % 2 ^ lo := by
  rw [setBits, sub_bits_eq]
  omega

/-- A field that was set reads as the value modulo its width. -/
theorem bits_setBits (w lo width v : Nat) : bits (setBits w lo width v) lo width = v % 2 ^ width := by
  have hparts : setBits w lo width v =
      2 ^ lo * (w / 2 ^ (lo + width) * 2 ^ width + v % 2 ^ width) + w % 2 ^ lo := by
    rw [setBits_eq, Nat.pow_add]
    ring
  rw [bits, Nat.shiftRight_eq_div_pow, hparts, Nat.mul_add_div (by positivity),
    Nat.div_eq_of_lt (Nat.mod_lt _ (by positivity)), Nat.add_zero, Nat.mul_add_mod_self_right, Nat.mod_mod]

/-- A field of a 64-bit word does not see the bits above the word. -/
theorem bits_mod_word {lo width : Nat} (w : Nat) (h : lo + width ≤ 64) : bits (w % 2 ^ 64) lo width = bits w lo width := by
  have hpow : (2 : Nat) ^ 64 = 2 ^ lo * 2 ^ (64 - lo) := by
    rw [← Nat.pow_add]
    congr 1
    omega
  have hdvd : (2 : Nat) ^ width ∣ 2 ^ (64 - lo) := Nat.pow_dvd_pow 2 (by omega)
  rw [bits, bits, Nat.shiftRight_eq_div_pow, Nat.shiftRight_eq_div_pow, hpow, Nat.mod_mul_right_div_self,
    Nat.mod_mod_of_dvd _ hdvd]

/-! ### Registers -/

/-- The key of a transfer word names its place: entries below 65,536 and words below 32 do not overlap. -/
theorem regKey_inj {u reg e w u' reg' e' w' : Nat} (hreg : reg < 65536) (hreg' : reg' < 65536) (he : e < 65536)
    (he' : e' < 65536) (hw : w < 32) (hw' : w' < 32) (h : regKey u' reg' e' w' = regKey u reg e w) :
    (u', reg', e', w') = (u, reg, e, w) := by
  unfold regKey at h
  have : u' = u ∧ reg' = reg ∧ e' = e ∧ w' = w := by omega
  obtain ⟨rfl, rfl, rfl, rfl⟩ := this
  rfl

theorem regWord_setRegWord {s : State} (h : Registers.wf s) (u reg e w v : Nat) :
    regWord (setRegWord s u reg e w v) u reg e w = v % 2 ^ 64 := by
  rw [regWord, setRegWord, fget_fset _ _ _ _ h, BitVec.toNat_ofNat]

theorem regWord_setRegWord_ne {s : State} (h : Registers.wf s) {u reg e w u' reg' e' w' : Nat} (v : Nat)
    (hne : regKey u' reg' e' w' ≠ regKey u reg e w) :
    regWord (setRegWord s u reg e w v) u' reg' e' w' = regWord s u' reg' e' w' := by
  rw [regWord, setRegWord, fget_fset_ne _ _ _ _ _ h hne, regWord]

/-- A field of one transfer word reads back as written. -/
theorem rd_wr {s : State} (h : Registers.wf s) (u : Nat) {f : Fld} (v e : Nat) (hf : f.lo + f.width ≤ 64) :
    rd (wr s u f v e) u f e = v % 2 ^ f.width := by
  rw [rd, if_pos hf, wr, regWord_setRegWord h, bits_mod_word _ hf, bits_setBits]

/-! ### Memory -/

section Runs

variable {α : Type} [DecidableEq α] {d : α}

/-- A run written leaves every key outside it. -/
theorem tget_tput_outside {l : List α} : ∀ {t : Tbl α} {k j : Nat}, fwf (fun _ => d) t = true → (j < k ∨ k + l.length ≤ j) →
    tget d (tput d t k l) j = tget d t j := by
  induction l with
  | nil => intros; rfl
  | cons v r ih =>
    intro t k j ht hj
    have hne : j ≠ k := by rw [List.length_cons] at hj; omega
    have hrest : j < k + 1 ∨ k + 1 + r.length ≤ j := by rw [List.length_cons] at hj; omega
    rw [tput, ih (t := tset d t k v) (fset_fwf _ _ _ _ ht) hrest, tget_tset_ne _ _ _ _ _ ht hne]

/-- A run written reads back in order. -/
theorem trange_tput {l : List α} : ∀ {t : Tbl α} {k : Nat}, fwf (fun _ => d) t = true →
    trange d (tput d t k l) k l.length = l := by
  induction l with
  | nil => intros; rfl
  | cons v r ih =>
    intro t k ht
    have ht' : fwf (fun _ => d) (tset d t k v) = true := fset_fwf _ _ _ _ ht
    rw [List.length_cons, trange, tput, ih ht', tget_tput_outside ht' (.inl (Nat.lt_succ_self k)), tget_tset _ _ _ _ ht]

end Runs

/-- Bytes written at an address read back in order. -/
theorem ramBytes_ramPut {s : State} (h : Memory.wf s) (a : Nat) (l : List Byte) : ramBytes (ramPut s a l) a l.length = l :=
  trange_tput h

/-- Bytes outside those written read as before. -/
theorem ramByte_ramPut {s : State} (h : Memory.wf s) {a b : Nat} {l : List Byte} (hb : b < a ∨ a + l.length ≤ b) :
    ramByte (ramPut s a l) b = ramByte s b := tget_tput_outside h hb

/-- Settles O51: registers and memory are tables, whose keys do not meet. -/
theorem registersAndMemoryReadBack : Obligations.RegistersAndMemoryReadBack := by
  refine ⟨?field, ?otherWord, ?bytes, ?otherByte⟩
  case field => exact fun s u f v e hregs hf => rd_wr hregs u v e hf
  case otherWord =>
    intro s u reg e w u' reg' e' w' v hregs hreg hreg' he he' hw hw' hne
    exact regWord_setRegWord_ne hregs v fun hkey => hne (regKey_inj hreg hreg' he he' hw hw' hkey)
  case bytes => exact fun s a l hmem => ramBytes_ramPut hmem a l
  case otherByte => exact fun s a b l hmem hb => ramByte_ramPut hmem hb

end Sys2Proof.Machine
end

section
/-! SUPPORT. Dangerous failures and the safety monitors (R34, R606 to R622, Table 19-2). -/
namespace Sys2Proof.Machine

/-- A dangerous failure raised outside BOOT: SAFE, the cause active beside the others, SAFE_N low. -/
theorem raiseCause_enters {c u : Nat} {s : State} (hboot : s.dev.state ≠ .boot) :
    (raiseCause c u s).dev.state = .safe ∧ (raiseCause c u s).safe.active = setBits s.safe.active (c - 1) 1 1 ∧
      safeNHigh (raiseCause c u s) = false := by
  obtain ⟨hsafe, hactive⟩ := raiseCause_gives c u s hboot
  exact ⟨hsafe, hactive, safeNHigh_eq_false_of_boot_bringup_safe (.inr (.inr hsafe))⟩

/-- Settles O33: each monitor raises its cause when its condition holds (R612). -/
theorem dangerousFailuresEnterSafe : Obligations.DangerousFailuresEnterSafe := by
  refine ⟨?supply, ?clock, ?safeN, ?hostLinks, ?pathProbe⟩
  case supply => exact fun _ s hboot => ⟨raiseCause 8 uDEV s, rfl, raiseCause_enters hboot⟩
  case clock => exact fun _ s hboot => ⟨raiseCause 9 uDEV s, rfl, raiseCause_enters hboot⟩
  case safeN => exact fun s hboot => ⟨raiseCause 13 uDEV s, rfl, raiseCause_enters hboot⟩
  case hostLinks =>
    intro s hboot ⟨hlevel, htrained, hdown0, hdown1⟩ hdue
    have hraised : hostLinksDown s = raiseCause 6 (uETH 0) s :=
      if_pos ⟨hlevel, htrained, by simp [hdown0], by simp [hdown1], hdue⟩
    exact ⟨_, next_congr hraised, raiseCause_enters hboot⟩
  case pathProbe =>
    intro port pair s hboot harmed hdue
    have hraised : pathProbe port pair s = raiseCause 4 (uETH port) (setChk s port pair { chkOf s port pair with good := 0 }) :=
      if_pos ⟨harmed, hdue⟩
    exact ⟨_, next_congr hraised, raiseCause_enters (s := setChk s port pair _) hboot⟩

/-- Settles O35: the cases of each monitor, by the conditions that it tests in order. -/
theorem safetyMonitors : Obligations.SafetyMonitors := by
  refine ⟨?thermalCool, ?thermalTwice, ?mechFails, ?mechPasses, ?mechMended, ?causeGone, ?causeStays, ?noConflict, ?conflict⟩
  case thermalCool =>
    intro readings s hcool
    refine next_congr ?_
    simp only [thermalSample, hcool, bne_self_eq_false, Bool.false_eq_true, if_false]
  case thermalTwice =>
    intro readings s hhot
    refine next_congr ?_
    simp only [thermalSample, bne_iff_ne, ne_eq, hhot, not_false_eq_true, if_true]
  case mechFails =>
    intro mech pass s ⟨hmech, hfails⟩
    refine next_congr ?_
    simp only [mechDiagnostic, hfails, if_neg (Nat.not_le.mpr hmech), Bool.false_eq_true, not_false_eq_true, if_true]
  case mechPasses =>
    intro mech pass s ⟨hmech, hbad, hpasses⟩ hcount
    have hthird : tget 0 s.safe.mechOk mech + 1 < 3 := by omega
    refine next_congr ?_
    simp only [mechDiagnostic, hpasses, hbad, if_neg (Nat.not_le.mpr hmech), not_true_eq_false, if_false, if_pos hthird]
  case mechMended =>
    intro mech pass s ⟨hmech, hbad, hpasses⟩ hcount
    have hthird : ¬ tget 0 s.safe.mechOk mech + 1 < 3 := by omega
    refine next_congr ?_
    simp only [mechDiagnostic, hpasses, hbad, if_neg (Nat.not_le.mpr hmech), not_true_eq_false, if_false, if_neg hthird]
  case causeGone => exact fun cause s hgone => next_congr (if_pos hgone)
  case causeStays =>
    intro cause s ⟨_, _, hstays⟩
    refine next_congr (if_neg fun ⟨_, _, hgone⟩ => ?_)
    simp [hstays] at hgone
  case noConflict =>
    intro unit hw s ⟨hvalid, hdev⟩ hsame
    refine next_congr ?_
    simp only [stateConflict, hvalid, hdev, not_true_eq_false, or_self, if_false, if_pos hsame]
  case conflict =>
    intro unit hw s ⟨hvalid, hdev⟩ ⟨hdiffers, hassigned, hkept⟩
    refine next_congr ?_
    simp only [stateConflict, hvalid, hdev, not_true_eq_false, or_self, if_false, hdiffers, hkept, hassigned, Option.getD_none,
      Option.isSome_none, Bool.false_eq_true, false_and]

end Sys2Proof.Machine
end

section
/-! SUPPORT. Steps, the reset state, device resets, the supply sequence and bring-up (R34, R513 to R521, R644, R657 to R660). -/
namespace Sys2Proof.Machine

/-- Settles O16: the queue is its front command and its rest. -/
theorem stepRunsTheFrontCommand : Obligations.StepRunsTheFrontCommand := fun _ _ _ => rfl

/-- Settles O17: a step on an empty queue is the first case of `step`. -/
theorem anEmptyQueueIdles : Obligations.AnEmptyQueueIdles := by
  intro s hempty
  rw [step, hempty]

/-- Settles O18: the effect of every command is a next state. -/
theorem everyCommandAnswersANextState : Obligations.EveryCommandAnswersANextState := by
  intro c s
  cases c
  all_goals exact ⟨_, rfl⟩

/-- Settles O19: the reset state holds every component at its own reset value (R34, R460). -/
theorem resetLeaves : Obligations.ResetLeaves := by
  unfold Obligations.ResetLeaves
  exact ⟨rfl, rfl, rfl, rfl, rfl, rfl, rfl, rfl, rfl, rfl, rfl, rfl, rfl, rfl⟩

/-- Settles O20: the reset state lists nothing. -/
theorem resetIsCanonical : Obligations.ResetIsCanonical where
  memory := rfl
  tags := rfl
  registers := rfl
  counters := rfl
  bounded := fun _ hlisted => absurd hlisted List.not_mem_nil

/-! ### Device resets -/

/-- Settles O26: every source resets the device alike (R513), and each tells itself in SEC_RSTC (R514). -/
theorem deviceResets : Obligations.DeviceResets := by
  refine ⟨?powerOn, ?brownOut, ?external, ?watchdog, ?watchdogPaused, ?debug, ?debugClosed⟩
  case powerOn =>
    intro s hpower
    refine ⟨_, rfl, ?_⟩
    simp [powerOnReset, deviceReset, keptSec, hpower]
  case brownOut =>
    intro s
    refine ⟨_, rfl, ?_⟩
    simp [Machine.brownOut, powerOnReset, deviceReset, keptSec, setSec]
  case external =>
    intro mode s
    refine ⟨_, rfl, ?_⟩
    simp [externalReset, otherReset, deviceReset, keptSec, setSec]
  case watchdog =>
    intro s hidle
    refine ⟨otherReset 2 s, next_congr (if_neg (by simp [hidle])), ?_⟩
    simp [otherReset, deviceReset, keptSec]
  case watchdogPaused => exact fun s hpause => next_congr (if_pos hpause)
  case debug =>
    intro s hscope
    refine ⟨otherReset 3 s, next_congr (if_pos hscope), ?_⟩
    simp [otherReset, deviceReset, keptSec]
  case debugClosed => exact fun s hscope => next_congr (if_neg (by simp [hscope]))

/-! ### The supply sequence -/

/-- Settles O27: a rail that comes up raises the next enable; one that falls, the core or a wake decide what goes (R657,
R659). -/
theorem supplySequence : Obligations.SupplySequence := by
  refine ⟨fun _ => rfl, ?aux, ?ddr, ?core, ?timeoutOnTheWayUp, ?timeoutInExit, ?timeoutInService, fun _ => rfl⟩
  case aux => exact fun s hon => next_congr (if_pos hon)
  case ddr => exact fun s hon => next_congr (if_pos hon)
  case core => exact fun s hon => next_congr (if_pos hon)
  case timeoutOnTheWayUp =>
    intro s ⟨hexit, hpor⟩
    refine next_congr ?_
    simp [railTimeout, hexit, hpor, enablesLow]
  case timeoutInExit => exact fun s hexit => next_congr (if_pos hexit)
  case timeoutInService =>
    intro s ⟨hexit, hpor⟩
    refine next_congr ?_
    simp [railTimeout, hexit, hpor]

/-! ### Bring-up -/

/-- The end of bring-up: IDLE with its notice, the reset source told, a second until the image counts as good (R515, R530). -/
theorem firstIdle_frame (s : State) :
    (firstIdle s).dev = { s.dev with state := .idle } ∧ (firstIdle s).pwr = s.pwr ∧ (firstIdle s).sec = { s.sec with
      rstc := 0, brownout := false, told := true, ranFrom := s.sec.ranFrom.or (some (now s + 1000000000)) } := by
  have hsends := notice_sends NT_STATE ST_OK uDEV (beBytes 4 s.sec.rstc ++ beBytes 1 s.sec.bootSource ++ beBytes 1 0
    ++ beBytes 2 s.sec.flashFails ++ beBytes 4 (fwVersion { s with dev := { s.dev with state := .idle } }))
    { s with dev := { s.dev with state := .idle } }
  simp only [firstIdle, setSec, now, hsends.dev, hsends.pwr, hsends.sec, hsends.time, and_self]

/-- The check of the boot flash touches neither device state nor power, and of the security state only the rewrites left. -/
theorem checkFlash_frame (s : State) : ∃ k, checkFlash s = setSec s { s.sec with rewrite := k } := by
  unfold checkFlash
  split
  · exact ⟨_, rfl⟩
  · split
    · exact ⟨_, rfl⟩
    · exact ⟨_, rfl⟩

/-- Settles O28: each event of bring-up acts once, on a unit or channel that is not yet ready (R517 to R519, R557). -/
theorem bringUp : Obligations.BringUp := by
  refine ⟨?testPasses, ?testFails, ?trained, ?noConfig, ?trainingFails, ?filled, fun _ => rfl, ?complete⟩
  case testPasses =>
    intro unit s ⟨htested, hdev, hst⟩ ⟨hboot, hrom, hpor⟩ hready
    refine next_congr ?_
    simp [selfTestDone, htested, hdev, hst, hboot, hrom, hpor, hready]
  case testFails =>
    intro unit s ⟨htested, hdev, hst⟩ ⟨hboot, hrom, hpor⟩ hready
    refine next_congr ?_
    simp [selfTestDone, htested, hdev, hst, hboot, hrom, hpor, hready]
  case trained =>
    intro chan gib s ⟨hchan, hready, hboot⟩
    refine next_congr ?_
    simp [ddrTrainingDone, Nat.not_le.mpr hchan, hready, hboot]
  case noConfig =>
    intro chan s ⟨hchan, hready, hboot⟩
    refine next_congr ?_
    simp [ddrTrainingDone, Nat.not_le.mpr hchan, hready, hboot]
  case trainingFails =>
    intro chan s ⟨hchan, hready, hboot⟩
    refine next_congr ?_
    simp [ddrTrainingDone, Nat.not_le.mpr hchan, hready, hboot]
  case filled =>
    intro chan pass s ⟨hchan, hready, hgib⟩
    refine next_congr ?_
    simp [ddrFillDone, Nat.not_le.mpr hchan, hready, hgib]
  case complete =>
    intro s hstate hover
    obtain ⟨hdev, hpwr, hsec⟩ := firstIdle_frame s
    have hrun : bringupComplete s = if s.sec.bootSource = 0 then
          setPwr (firstIdle s) { s.pwr with limit := if s.sec.variant = 2 then 90 else 110 }
        else checkFlash (setPwr (firstIdle s) { s.pwr with limit := if s.sec.variant = 2 then 90 else 110 }) := by
      simp [bringupComplete, hstate, hover, hpwr, hsec]
    refine ⟨_, next_congr hrun, ?_⟩
    split
    · simp [hdev, hsec, setPwr_pwr]
    · obtain ⟨k, hk⟩ := checkFlash_frame (setPwr (firstIdle s) { s.pwr with limit := if s.sec.variant = 2 then 90 else 110 })
      simp [hk, setSec, hdev, hsec, setPwr_pwr]

end Sys2Proof.Machine
end

section
/-! SUPPORT. The commands of the helm, of configuration, time and power (Tables 15-5 to 15-8 and 15-12): what each answers when
its request runs. -/
namespace Sys2Proof.Machine

/-! ### How a command of chapter 15 ends -/

section Ends

variable {q : Req} {i : Instr} {code : Nat} {eff : State → CmdRes} {s s₀ t : State} {payload : List Byte}

/-- A request whose effect succeeds at once completes with ST_OK. -/
theorem completes (h : Starts q i code s s₀) (he : eff s₀ = ans ST_OK payload t) :
    (Host.Outcome.next (serve q i code eff s) : Out) = .next (complete q code ST_OK payload t) :=
  next_congr (serve_ok h he)

/-- The same for a command that a berth portal may give for its own units only (R376). -/
theorem completes_guarded {us : List Nat} (h : Starts q i code s s₀) (hmay : portalMay s₀ q us = true)
    (he : eff s₀ = ans ST_OK payload t) :
    (Host.Outcome.next (serve q i code (guarded_ q us eff) s) : Out) = .next (complete q code ST_OK payload t) :=
  completes h ((if_pos hmay).trans he)

/-- A request whose effect waits leaves the state of the effect. -/
theorem goesOn (h : Starts q i code s s₀) (he : eff s₀ = waits t) :
    (Host.Outcome.next (serve q i code eff s) : Out) = .next t :=
  next_congr (serve_waits h he)

/-- The same under the guard of a berth portal. -/
theorem goesOn_guarded {us : List Nat} (h : Starts q i code s s₀) (hmay : portalMay s₀ q us = true) (he : eff s₀ = waits t) :
    (Host.Outcome.next (serve q i code (guarded_ q us eff) s) : Out) = .next t :=
  goesOn h ((if_pos hmay).trans he)

end Ends

/-! ### The helm -/

/-- HELM_HANDOVER to a host link that is up, or to a relayed link that has been heard. -/
theorem helmHandover_of_named {link : Nat} {s : State}
    (h : (link < 5 ∧ isHost s link = true ∧ (ethOf s link).phyUp = true) ∨
      (8 ≤ link ∧ link ≤ 12 ∧ tget 0 s.tow.lastReq link ≠ 0)) :
    helmHandover link s = ans ST_OK [] (setHelm link 4 s) := by
  unfold helmHandover
  split
  · rfl
  · next hport => rw [if_pos (h.resolve_left hport)]

/-- Settles O1: each helm command by its case of Table 14-8. -/
theorem helmCommandsChangeTheHolder : Obligations.HelmCommandsChangeTheHolder := by
  refine ⟨?claim, ?keep, ?release, ?handover⟩
  case claim =>
    intro q force s s₀ hstarts hnone hfree
    exact completes hstarts (by simp [helmClaim, hnone, hfree])
  case keep =>
    intro q s s₀ c hstarts hclaim
    exact completes hstarts (by simp [helmKeep, hclaim])
  case release => exact fun q s s₀ hstarts => completes hstarts rfl
  case handover => exact fun q link s s₀ hstarts hnamed => completes hstarts (helmHandover_of_named hnamed)

/-! ### Progress and abort -/

/-- COMMAND_ABORT of a LONG command that can be aborted: it waits for the end of a restart under way, and else ends the
command. -/
theorem commandAbort_of_long {b : Nat} {s : State} (hcmd : (berthOf s b).cmd.isSome = true)
    (hlong : (cmdRow (berthOf s b).code).any (·.long) = true) (hmay : unabortable (berthOf s b).code = false) :
    commandAbort b s = if restartRuns s b then waits s else ans ST_OK [] (abortBerth b s) := by
  have hheld : (berthOf s b).cmd.isNone = false := by simpa using hcmd
  cases hrow : cmdRow (berthOf s b).code with
  | none => simp [hrow] at hlong
  | some row =>
    have hrowLong : row.long = true := by simpa [hrow] using hlong
    simp only [commandAbort, hheld, hrow, hrowLong, hmay, Bool.false_eq_true, not_true_eq_false, or_self, if_false]

/-- COMMAND_ABORT while no restart runs in the berth (R482). -/
theorem commandAbort_ends {b : Nat} {s : State} (hcmd : (berthOf s b).cmd.isSome = true)
    (hlong : (cmdRow (berthOf s b).code).any (·.long) = true) (hmay : unabortable (berthOf s b).code = false)
    (hrestart : restartRuns s b = false) : commandAbort b s = ans ST_OK [] (abortBerth b s) := by
  simp [commandAbort_of_long hcmd hlong hmay, hrestart]

/-- COMMAND_ABORT of a JOB_RESTART whose restart runs (R380, R510). -/
theorem commandAbort_waits {b : Nat} {s : State} (hcmd : (berthOf s b).cmd.isSome = true)
    (hlong : (cmdRow (berthOf s b).code).any (·.long) = true) (hmay : unabortable (berthOf s b).code = false)
    (hrestart : restartRuns s b = true) : commandAbort b s = waits s := by
  simp [commandAbort_of_long hcmd hlong hmay, hrestart]

/-- Settles O2: the record is read, and an abort ends its command or waits for the restart (R458, R482, R510). -/
theorem progressAndAbort : Obligations.ProgressAndAbort := by
  refine ⟨?progress, ?aborts, ?abortWaits⟩
  case progress => exact fun q berth s s₀ hstarts => completes hstarts rfl
  case aborts =>
    exact fun q berth s s₀ hstarts hcmd hlong hmay hrestart => completes hstarts (commandAbort_ends hcmd hlong hmay hrestart)
  case abortWaits =>
    exact fun q berth s s₀ hstarts hcmd hlong hmay hrestart => goesOn hstarts (commandAbort_waits hcmd hlong hmay hrestart)

/-! ### Configuration -/

/-- ROUTE_WRITE of entries that stand every check writes them (R495). -/
theorem routeWrite_ok {u first : Nat} {data : List W64} {s : State} (htype : utype u = 0x05 ∨ utype u = 0x0D)
    (hroom : first + (pairsOf data).length ≤ (if utype u = 0x05 then 4096 else 1024))
    (hchecks : ∀ e ∈ pairsOf data, checkEnt u e.1 e.2 = ST_OK) (hready : cfgReady s u = true) :
    routeWrite u first data s =
      ans ST_OK [] (((pairsOf data).zipIdx).foldl (fun s e => writeEnt u (first + e.2) e.1 s) s) := by
  have hknown : ¬ (utype u ≠ 0x05 ∧ utype u ≠ 0x0D) := by omega
  have hgood : (pairsOf data).any (fun e => checkEnt u e.1 e.2 != ST_OK) = false := by simpa using hchecks
  simp only [routeWrite, hknown, Nat.not_lt.mpr hroom, hgood, hready, Bool.false_eq_true, not_true_eq_false, or_self, if_false]

/-- Settles O3: each command does the write or the read that its check allows (R493 to R495). -/
theorem configurationCommands : Obligations.ConfigurationCommands := by
  refine ⟨?write, ?read, ?route⟩
  case write =>
    intro q unit reg entry word data s s₀ hstarts hmay hok
    exact completes_guarded hstarts hmay (by rw [← hok]; rfl)
  case read =>
    intro q unit reg entry word count s s₀ hstarts hmay hok
    exact completes_guarded hstarts hmay (by rw [← hok]; rfl)
  case route =>
    intro q unit first data s s₀ hstarts hmay htype hroom hchecks hready
    exact completes_guarded hstarts hmay (routeWrite_ok htype hroom hchecks hready)

/-! ### Weights, sensors and filters -/

/-- The first fragment of a matrix row, which is written when it is the last one too (R496). -/
theorem weightsWrite_first {c m row : Nat} {last : Bool} {data : List Byte} {s : State} (hready : unitReady s (uNE c) = true)
    (hvalid : rd s (uNE c) NRN_MAT.VALID m ≠ 0) (hrow : row ≤ rd s (uNE c) NRN_MAT.ROWS_M1 m)
    (hlength : data.length ≤ strideOf s c m) (hwhole : last = true → data.length = strideOf s c m) :
    weightsWrite c m row 0 last data s = ans ST_OK (beBytes 2 data.length)
      (if last then putRowBytes c m row data (setRowAsm c (some ⟨m, row, data⟩) s)
      else setRowAsm c (some ⟨m, row, data⟩) s) := by
  have hfull : ¬ (last = true ∧ data.length ≠ strideOf s c m) := fun ⟨hlast, hne⟩ => hne (hwhole hlast)
  simp [weightsWrite, hready, hvalid, Nat.not_lt.mpr hrow, Nat.not_lt.mpr hlength, hfull]

/-- Settles O4: a row fragment, a sensor transaction and a synchronising write (R496 to R498). -/
theorem weightsAndSensorCommands : Obligations.WeightsAndSensorCommands := by
  refine ⟨?weights, ?sensorSilent, ?sensorEnded, ?filterSync⟩
  case weights =>
    intro q core matrix row last data s s₀ hstarts hmay hready hvalid hrow hlength hwhole
    exact completes_guarded hstarts hmay (weightsWrite_first hready hvalid hrow hlength hwhole)
  case sensorSilent =>
    intro q sluice target i2c wdata rlen s s₀ hstarts hmay hready hfree
    exact goesOn_guarded hstarts hmay (by simp [sensorI3c, hready, hfree])
  case sensorEnded =>
    intro q sluice target i2c wdata rlen written read s s₀ hstarts hmay hready hfree
    exact completes_guarded hstarts hmay (by simp [sensorI3c, hready, hfree])
  case filterSync =>
    intro q engines s s₀ hstarts hmay hready
    exact completes_guarded hstarts hmay (by simp [Machine.filterSync, hready])

/-! ### Time -/

/-- Settles O5: TIME_GET reads, PTP_CONFIG stores what its two checks let through (R499). -/
theorem timeCommands : Obligations.TimeCommands := by
  refine ⟨fun q s s₀ hstarts => completes hstarts rfl, ?ptp⟩
  intro q port profile role logSync logPdelay logAnnounce prio1 prio2 s s₀ hstarts hprofile
  have hrole : ¬ (profile = 2 ∧ role = 2) := fun ⟨htwo, hslave⟩ => (hprofile htwo).1 hslave
  have hsole : ¬ (profile = 2 ∧ (upto 5).any (fun p => p != port && (ptpOf s₀ p).profile == 2) = true) := by
    rintro ⟨htwo, hother⟩
    simp [(hprofile htwo).2] at hother
  exact completes hstarts (by simp only [ptpConfig, if_neg hrole, if_neg hsole])

/-! ### Power -/

/-- POWER_LEVEL_SET with no change of level in progress, to a level that the loaded graph does not forbid (R626). -/
theorem powerLevelSet_idle {q : Req} {level : Nat} {s : State} (hidle : s.pwr.entry = none ∧ s.pwr.exit_ = none)
    (hgraph : level = 4 → s.dev.graph = none) :
    powerLevelSet q level s =
      if level = s.dev.level then ans ST_OK (levelReply level 0 0) s
      else if level < s.dev.level then
        waits (setPwr s { s.pwr with exit_ := some { src := 0, target := level, berth := some q.berth } })
      else if level = 1 then
        ans ST_OK (levelReply 1 0 0) (powerNotice 0 0 1 0xFF 0 0 { s with dev := { s.dev with level := 1 } })
      else match refuser s level none with
        | some (k, d) => ansKeep ST_ABORTED (levelReply s.dev.level k d) (refuse level k d s)
        | none => waits (setPwr s { s.pwr with entry := some { target := level, berth := some q.berth } }) := by
  obtain ⟨hentry, hexit⟩ := hidle
  have hfree : ¬ (level = 4 ∧ s.dev.graph.isSome = true) := fun ⟨hfour, hsome⟩ => by simp [hgraph hfour] at hsome
  simp only [powerLevelSet, hentry, hexit, Option.isSome_none, Bool.false_eq_true, or_self, if_false, if_neg hfree] <;> rfl

/-- A deeper level than the present one, other than PL1, is neither of the shallower cases. -/
theorem powerLevelSet_deeper {q : Req} {level : Nat} {s : State} (hidle : s.pwr.entry = none ∧ s.pwr.exit_ = none)
    (hgraph : level = 4 → s.dev.graph = none) (hdeeper : s.dev.level < level ∧ 2 ≤ level) :
    powerLevelSet q level s = match refuser s level none with
      | some (k, d) => ansKeep ST_ABORTED (levelReply s.dev.level k d) (refuse level k d s)
      | none => waits (setPwr s { s.pwr with entry := some { target := level, berth := some q.berth } }) := by
  obtain ⟨hbelow, htwo⟩ := hdeeper
  rw [powerLevelSet_idle hidle hgraph, if_neg (by omega), if_neg (by omega), if_neg (by omega)]

/-- Settles O6: the course of POWER_LEVEL_SET by the levels it lies between, the limit stored and the status read (R500). -/
theorem powerCommands : Obligations.PowerCommands := by
  refine ⟨?present, ?shallower, ?toPL1, ?deeper, ?refused, fun q limit s s₀ hstarts => completes hstarts rfl,
    fun q s s₀ hstarts => completes hstarts rfl⟩
  case present =>
    intro q level s s₀ hstarts hidle hpresent hfour
    exact completes hstarts (by rw [powerLevelSet_idle hidle (fun h => absurd h hfour), if_pos hpresent])
  case shallower =>
    intro q level s s₀ hstarts hidle hbelow hfour
    exact goesOn hstarts
      (by rw [powerLevelSet_idle hidle (fun h => absurd h hfour), if_neg (Nat.ne_of_lt hbelow), if_pos hbelow])
  case toPL1 =>
    intro q s s₀ hstarts hidle hlevel
    exact completes hstarts (by
      rw [powerLevelSet_idle hidle (fun h => absurd h (by decide)), if_neg (by omega), if_neg (by omega), if_pos rfl])
  case deeper =>
    intro q level s s₀ hstarts hidle hdeeper hgraph hnone
    exact goesOn hstarts (by rw [powerLevelSet_deeper hidle hgraph hdeeper, hnone])
  case refused =>
    intro q level s s₀ kd hstarts hidle hdeeper hgraph hrefuser
    refine next_congr ?_
    rw [serve_starts _ hstarts, powerLevelSet_deeper hidle hgraph hdeeper, hrefuser]
    simp [ansKeep]

end Sys2Proof.Machine
end

section
/-! SUPPORT. The commands of units, of test content, of staging and of jobs (Tables 15-3, 15-4 and 15-8). -/
namespace Sys2Proof.Machine

/-! ### Units -/

/-- Settles O7: the unit record that the command names decides its course (R501, R502). -/
theorem unitCommands : Obligations.UnitCommands := by
  refine ⟨?quarantine, ?release, ?margin, ?status⟩
  case quarantine =>
    intro q unit s s₀ hstarts hready ⟨hquarantined, hfailed⟩ hspare
    have hfollowed : ¬ ((unitOf s₀ (recordUnit unit)).st = .assigned ∧ (spareFor s₀ (recordUnit unit)).isNone = true) := by
      rintro ⟨hassigned, hnone⟩
      have hsome := hspare hassigned
      simp_all
    exact completes hstarts (by
      simp only [unitQuarantine, hready, hquarantined, hfailed, not_true_eq_false, or_self, if_false, if_neg hfollowed])
  case release =>
    intro q unit s s₀ hstarts hquarantined hconflict hassigned
    exact completes hstarts (by simp [unitRelease, hquarantined, hconflict, hassigned])
  case margin =>
    intro q unit vstep fstep s s₀ hstarts hmarginable harray hst
    have hsteps : ¬ (utype unit = 0x08 ∧ fstep ≠ 0) := fun ⟨htype, hstep⟩ => hstep (harray htype)
    have hidle : ¬ ((unitOf s₀ unit).st ≠ .quarantined ∧ (unitOf s₀ unit).st ≠ .spare) := by
      rintro ⟨hquarantined, hspare⟩
      exact hst.elim hquarantined hspare
    exact completes hstarts (by simp only [unitMargin, hmarginable, not_true_eq_false, false_or, if_neg hsteps, if_neg hidle])
  case status => exact fun q unit s s₀ hstarts hmay => completes_guarded hstarts hmay rfl

/-! ### Test content -/

/-- Settles O8: verified content is installed, the switch is stored, the log is read (R503, R524, R605). -/
theorem testCommands : Obligations.TestCommands := by
  refine ⟨?load, fun _ _ _ _ _ hstarts => completes hstarts rfl, fun _ _ _ _ _ hstarts => completes hstarts rfl⟩
  intro q length s s₀ f hstarts hsec hlength hverified
  exact completes hstarts (by simp [testContentLoad, hsec, Nat.not_lt.mpr hlength, hverified, setPass_pass])

/-! ### Staging -/

/-- Settles O9: a buffer opens empty, takes its next bytes, and a whole image that admission accepts is the graph (R484,
R485). -/
theorem stagingCommands : Obligations.StagingCommands := by
  refine ⟨?begins, ?writes, ?loads⟩
  case begins =>
    intro q kind total s s₀ hstarts hsize hddr hbusy
    have hready : ¬ (kind = 0 ∧ ¬ readyBit s₀ RB_DDR = true) := fun ⟨hgraph, hno⟩ => hno (hddr hgraph)
    exact completes hstarts (by
      simp only [blobBegin, if_neg (Nat.not_lt.mpr hsize), if_neg hready, hbusy, Bool.false_eq_true, if_false])
  case writes =>
    intro q kind data s s₀ offset hstarts hbegun hoffset hbusy hroom
    subst hoffset
    exact completes hstarts (by simp [blobWrite, hbegun, hbusy, Nat.not_lt.mpr hroom])
  case loads =>
    intro q length digest s s₀ hstarts ⟨hbegun, hlength⟩ hdigest hadmitted
    exact completes hstarts (by simp [graphLoad, hbegun, hlength, hdigest, hadmitted])

/-! ### Jobs -/

/-- JOB_START of ready jobs that do not run (R486). -/
theorem jobStart_ok {mask : Nat} {again : Bool} {s : State} (hexist : absentJob s mask = false)
    (hjobs : (maskBits 8 mask).all (fun j => !jobRuns s j && jobReady s j) = true)
    (hpower : s.dev.level < 2 ∧ s.pwr.entry.any (·.quiesced) = false)
    (hcommitted : again = true → (maskBits 8 mask).all (fun j => (jobOf s j).committed.isSome) = true) :
    jobStart mask again s = ans ST_OK (beBytes 1 mask)
      (settleState ((maskBits 8 mask).foldl (startJob again) (abortEntry 4 ((maskBits 8 mask).headD 0) s))) := by
  obtain ⟨hlevel, hentry⟩ := hpower
  simp only [List.all_eq_true, Bool.and_eq_true, Bool.not_eq_true'] at hjobs
  have hruns : (maskBits 8 mask).any (jobRuns s) = false := by simpa using fun j hj => (hjobs j hj).1
  have hready : (maskBits 8 mask).any (fun j => !jobReady s j) = false := by simpa using fun j hj => (hjobs j hj).2
  have hagain : ¬ (again = true ∧ (maskBits 8 mask).any (fun j => (jobOf s j).committed.isNone) = true) := by
    rintro ⟨hon, hnone⟩
    have hall := hcommitted hon
    simp only [List.all_eq_true, List.any_eq_true] at hall hnone
    obtain ⟨j, hj, hjnone⟩ := hnone
    have := hall j hj
    simp_all
  simp only [jobStart, hexist, hruns, hready, hentry, if_neg hagain, Nat.not_le.mpr hlevel, Bool.false_eq_true, or_self, if_false]

/-- JOB_STOP of running jobs that no other JOB_STOP stops (R381, R486). -/
theorem jobStop_waits {q : Req} {mask : Nat} {s : State} (hexist : absentJob s mask = false)
    (hjobs : (maskBits 8 mask).all (fun j => jobRuns s j && (jobOf s j).stopBerth.isNone) = true) :
    jobStop q mask s = waits ((maskBits 8 mask).foldl (askStop q.berth)
      ((maskBits 8 mask).foldl (fun s j => setJob s j { jobOf s j with stopBerth := some q.berth }) s)) := by
  have hfree : (maskBits 8 mask).any (fun j => !jobRuns s j || (jobOf s j).stopBerth.isSome) = false := by
    simp only [List.all_eq_true, Bool.and_eq_true, Option.isNone_iff_eq_none] at hjobs
    simp only [List.any_eq_false, Bool.or_eq_true, Bool.not_eq_true', not_or]
    intro j hj
    obtain ⟨hruns, hnone⟩ := hjobs j hj
    simp [hruns, hnone]
  simp only [jobStop, hexist, hfree, Bool.false_eq_true, if_false]

/-- A job that takes work runs. -/
theorem jobRuns_of_jobTakes {s : State} {j : Nat} (h : jobTakes s j = true) : jobRuns s j = true :=
  (Bool.and_eq_true_iff.mp h).1

/-- Settles O11: each command acts on jobs that its checks let through, and a LONG one waits for them. -/
theorem jobCommands : Obligations.JobCommands := by
  refine ⟨?start, ?stop, ?checkpoint, ?restart, ?safeExit, ?aborts, ?abortWaits⟩
  case start =>
    exact fun q mask again s s₀ hstarts hexist hjobs hpower hcommitted =>
      completes hstarts (jobStart_ok hexist hjobs hpower hcommitted)
  case stop => exact fun q mask s s₀ hstarts hexist hjobs => goesOn hstarts (jobStop_waits hexist hjobs)
  case checkpoint =>
    intro q job s s₀ hstarts ⟨hjob, hexist⟩ htakes hstopping
    exact goesOn hstarts (by
      simp [jobCheckpoint, Nat.not_le.mpr hjob, hexist, jobRuns_of_jobTakes htakes, htakes, hstopping])
  case restart =>
    intro q job s s₀ hstarts ⟨hjob, hexist⟩ hruns hcommitted
    have hsome : (jobOf s₀ job).committed.isNone = false := by simpa using hcommitted
    exact goesOn hstarts (by simp [jobRestart, Nat.not_le.mpr hjob, hexist, hruns, hsome])
  case safeExit =>
    intro q s s₀ hstarts hactive himage
    exact completes hstarts (by
      simp only [Machine.safeExit, hactive, himage, ne_eq, not_true_eq_false, if_false])
  case aborts =>
    exact fun q berth s s₀ hstarts hcmd hlong hmay hrestart => completes hstarts (commandAbort_ends hcmd hlong hmay hrestart)
  case abortWaits =>
    exact fun q berth s s₀ hstarts hcmd hlong hmay hrestart => goesOn hstarts (commandAbort_waits hcmd hlong hmay hrestart)

end Sys2Proof.Machine
end

section
/-! SUPPORT. The commands of firmware, keys, identity and debug, of results and of status (Tables 15-9 to 15-13). -/
namespace Sys2Proof.Machine

/-! ### Firmware, keys and lifecycle -/

/-- Settles O12: each command past its checks does what it was signed, staged or asked for (R504, R505, R531, R540). -/
theorem firmwareAndKeyCommands : Obligations.FirmwareAndKeyCommands := by
  refine ⟨?stage, ?activate, ?revoke, ?provision, ?rma, fun q port cknLen cak ckn s s₀ hstarts => completes hstarts rfl⟩
  case stage =>
    intro q length s s₀ f hstarts hsec hact hlength hverified
    exact completes hstarts (by simp [fwStage, hsec, hact, Nat.not_lt.mpr hlength, hverified])
  case activate =>
    intro q version s s₀ f hstarts hstaged hversion hact hothers hboot
    have hfree : ¬ (s₀.sec.act.isSome = true ∨ _) := not_or.mpr ⟨by simp [hact], Bool.eq_false_iff.mp hothers⟩
    refine goesOn hstarts ?_
    rw [fwActivate, hstaged]
    exact (if_neg (not_not.mpr hversion)).trans ((if_neg hfree).trans (if_neg hboot))
  case revoke =>
    intro q slot sig s s₀ hstarts hsec hact hslot hsigned
    exact completes hstarts (by simp only [keyRevoke, hsec, hsigned, hact, hslot, not_true_eq_false, Option.isSome_none,
      Bool.false_eq_true, if_false])
  case provision =>
    intro q sig s s₀ hstarts hsec hact hsigned ⟨hlifecycle, hkey, hchain⟩
    refine completes hstarts ?_
    rw [lifecycleSet, if_neg (not_not.mpr hsec), if_neg (not_not.mpr hsigned), if_neg (by simp [hact]),
      if_pos ⟨rfl, hlifecycle, hkey, hchain⟩]
    rfl
  case rma =>
    intro q sig s s₀ hstarts hsec hact hsigned hlifecycle
    exact completes hstarts (by simp [lifecycleSet, hsec, hsigned, hact, hlifecycle])

/-! ### Identity and debug -/

/-- DEBUG_UNLOCK under a valid challenge, with the debug key of the fuses and a good signature (R541). -/
theorem debugUnlock_opens {scope c : Nat} {sig : List Byte} {f : FwImg} {s : State}
    (hlocked : s.sec.lifecycle = 1 ∧ s.sec.session = none) (hsec : secReady s = true)
    (hkeys : validChallenge s = some c ∧ s.sec.fw = some f)
    (hhash : s.sec.dbgKeyHash ≠ 0 ∧ sha256 (beBytes 384 f.dbgPub) = s.sec.dbgKeyHash)
    (hsigned : scope ≠ 0 ∧ pssVerify f.dbgPub (beBytes 32 c ++ beBytes 1 scope ++ uidBytes s) sig = true) :
    debugUnlock scope sig s =
      ans ST_OK (beBytes 1 2) (setSec s { s.sec with challenge := none, session := some (scope, now s) }) := by
  obtain ⟨hlifecycle, hsession⟩ := hlocked
  obtain ⟨hchallenge, hfw⟩ := hkeys
  obtain ⟨hburnt, hmatches⟩ := hhash
  obtain ⟨hscope, hgood⟩ := hsigned
  simp [-List.append_assoc, debugUnlock, hlifecycle, hsession, hsec, hchallenge, hfw, hburnt, hmatches, hscope, hgood,
    lifecycleCode, setSec]

/-- Settles O13: quote, chain, challenge and session (R505, R537, R538, R541). -/
theorem identityAndDebugCommands : Obligations.IdentityAndDebugCommands := by
  refine ⟨?quote, fun q offset s s₀ hstarts => completes hstarts rfl, fun q s s₀ hstarts => completes hstarts rfl, ?unlock, ?lock⟩
  case quote =>
    intro q nonce s s₀ hstarts hsec
    exact completes hstarts (by simp only [attestQuote, hsec, not_true_eq_false, if_false])
  case unlock =>
    exact fun q scope sig s s₀ c f hstarts hlocked hsec hkeys hhash hsigned =>
      completes hstarts (debugUnlock_opens hlocked hsec hkeys hhash hsigned)
  case lock =>
    intro q s s₀ hstarts hlifecycle
    exact completes hstarts (by simp [debugLock, hlifecycle, lifecycleCode, endSession, setSec])

/-! ### Results -/

/-- RESULT_RELEASE by a requester that may release answers RELEASED_SEQ of the state it gives (R358). -/
theorem resultReleaseCmd_ok {q : Req} {k seq : Nat} {s : State} (hright : mayRelease s q k = true)
    (hok : (resultRelease k seq s).1 = ST_OK) :
    resultReleaseCmd q k seq s = ans ST_OK (beBytes 4 (strOf (resultRelease k seq s).2 k).relSeq) (resultRelease k seq s).2 := by
  rw [resultReleaseCmd, if_neg (not_not.mpr hright)]
  generalize resultRelease k seq s = r at hok ⊢
  obtain ⟨st, t⟩ := r
  obtain rfl : st = ST_OK := hok
  rfl

/-- Settles O14: a record read, a release, a subscription entry taken and one given up (R354 to R359, R506, R507). -/
theorem resultCommands : Obligations.ResultCommands := by
  refine ⟨?read, ?release, ?subscribe, ?unsubscribe⟩
  case read =>
    intro q stream selector seq offset length s s₀ i v hstarts hmay hfound ⟨hoffset, hmark⟩ ⟨hheader, hbytes⟩
    exact completes_guarded hstarts hmay (by
      simp [resultRead, hfound, Nat.not_le.mpr hoffset, hmark, hheader, hbytes, recordBytes])
  case release =>
    intro q stream seq s s₀ hstarts hmay hright hok
    exact completes_guarded hstarts hmay (resultReleaseCmd_ok hright hok)
  case subscribe =>
    intro q stream port cls everyM1 s s₀ i hstarts hhost hfree
    have hport : ¬ (port < 5 ∧ ¬ isHost s₀ port = true) := fun ⟨hlink, hno⟩ => hno (hhost hlink)
    exact completes hstarts (by simp only [Machine.subscribe, if_neg hport, hfree])
  case unsubscribe =>
    intro q sub s s₀ hstarts hvalid hcreator
    exact completes hstarts (by simp [Machine.unsubscribe, hvalid, hcreator])

/-! ### Status -/

/-- COUNTERS_READ of an existing range of a ready unit, with CLEAR for the helm holder only (R508). -/
theorem countersRead_ok {q : Req} {u b e first count : Nat} {clear : Bool} {s : State} {d : CntDesc}
    (hdesc : cntDescOf u b = some d) (hrange : first + count ≤ d.count ∧ e < cntEntries b) (hready : unitReady s u = true)
    (hclear : clear = true → holdsHelm s q = true) :
    countersRead q u b e first count clear s =
      ans ST_OK (readCounters u b e clear ((upto count).map (first + ·)) ([], s)).1
        (readCounters u b e clear ((upto count).map (first + ·)) ([], s)).2 := by
  obtain ⟨hwords, hentry⟩ := hrange
  have hright : ¬ (clear = true ∧ ¬ holdsHelm s q = true) := fun ⟨hon, hno⟩ => hno (hclear hon)
  simp only [countersRead, hdesc, Nat.not_lt.mpr hwords, Nat.not_le.mpr hentry, hready, not_true_eq_false, or_self, if_false,
    if_neg hright]

/-- NOTICE_LOG_READ from a notice that the log still holds (R509). -/
theorem noticeLogRead_ok {start count : Nat} {s : State} {n : Notice} {r : List Notice} (hlog : s.tow.log.reverse = n :: r)
    (hstart : start ≤ s.tow.logSeq ∧ n.seq ≤ start) :
    noticeLogRead start count s = ans ST_OK
      (beBytes 1 (((s.tow.log.reverse).filter (fun m => decide (max start n.seq ≤ m.seq))).take count).length ++ beBytes 3 0
        ++ (((s.tow.log.reverse).filter (fun m => decide (max start n.seq ≤ m.seq))).take count).flatMap logEntry) s := by
  obtain ⟨hsent, hkept⟩ := hstart
  simp only [noticeLogRead, hlog, Nat.not_lt.mpr hsent, Nat.not_lt.mpr hkept, reduceCtorEq, or_self, if_false]

/-- Settles O15: the state, the counters, the log and the progress of a berth as the device holds them (R458, R508, R509). -/
theorem statusCommands : Obligations.StatusCommands := by
  refine ⟨fun q s s₀ hstarts => completes hstarts rfl, ?counters, ?log, fun q berth s s₀ hstarts => completes hstarts rfl⟩
  case counters =>
    exact fun q unit block entry first count clear s s₀ d hstarts hmay hdesc hrange hready hclear =>
      completes_guarded hstarts hmay (countersRead_ok hdesc hrange hready hclear)
  case log =>
    exact fun q start count s s₀ n r hstarts hlog hstart => completes hstarts (noticeLogRead_ok hlog hstart)

end Sys2Proof.Machine
end

section
/-! SUPPORT. Canal links and fabric, the urgent path and the Ethernet ports (files 06, 14 and 19 of spec/). -/
namespace Sys2Proof.Machine

/-! ### Canal links -/

/-- Settles O29: each event of a link by its own conditions (R229 to R249, R466 to R470). -/
theorem canalLinks : Obligations.CanalLinks := by
  refine ⟨?up, ?down, ?resends, ?sends, ?crcFails, ?outOfSequence, ?inSequence⟩
  case up =>
    intro link lanes peer peerAsg caps s ⟨henable, hdown⟩ ⟨hlanes, hlevel⟩
    refine next_congr ?_
    simp only [linkUp, henable, hdown, hlanes, Nat.not_le.mpr hlevel, not_true_eq_false, Bool.false_eq_true, or_self, if_false]
  case down =>
    intro link reason s hup hreason
    refine next_congr ?_
    simp only [linkDown, hup, hreason, not_true_eq_false, false_and, or_self, if_false]
  case resends =>
    intro link s ⟨hup, hruns⟩ hresend
    refine next_congr ?_
    simp only [linkFrameTx, hup, hruns, hresend, not_true_eq_false, or_self, if_false, if_true]
  case sends =>
    intro link s ⟨hup, hruns⟩ ⟨hresend, hroom⟩
    refine next_congr ?_
    simp only [linkFrameTx, hup, hruns, hresend, Nat.not_le.mpr hroom, not_true_eq_false, or_self, if_false, Nat.lt_irrefl]
  case crcFails =>
    intro link frame s hup hcrc
    refine next_congr ?_
    simp [linkFrameRx, hup, hcrc]
  case outOfSequence =>
    intro link frame s hup ⟨hcrc, hseq⟩
    refine next_congr ?_
    simp [linkFrameRx, hup, hcrc, hseq]
  case inSequence =>
    intro link frame s hup ⟨hcrc, hseq⟩
    refine next_congr ?_
    simp [linkFrameRx, hup, hcrc, hseq]

/-! ### The fabric -/

/-- A port between two hubs hands its packets to the port towards which they go (R211). -/
theorem nextStop_of_between {port f : Nat} (h : 784 ≤ port ∧ port < 800) : nextStop port f = fromHub (takingHub port) f :=
  if_pos h.2

/-- Settles O30: the round of a lock, the pair that differs, and the two kinds of port a packet leaves (R213 to R222, R585). -/
theorem canalFabric : Obligations.CanalFabric := by
  refine ⟨?lookup, ?pair, ?lockPort, ?hubPort⟩
  case lookup =>
    intro node c p s ⟨hready, hruns⟩ ⟨hclass, hport⟩
    refine next_congr ?_
    cases node with
    | lock k => simp only [lockLookup, Bool.false_eq_true, false_and, if_false, lookupNode, hready, hruns, hclass, hport,
        not_true_eq_false, or_self]
    | link k => simp only [lockLookup, lookupNode, hready, hruns, hclass, hport, not_true_eq_false, or_self, if_false]
  case pair =>
    intro core s ⟨hcore, hfull, hassigned⟩ hheld
    exact next_congr (if_pos ⟨rfl, hcore, hfull, hassigned, hheld⟩)
  case lockPort =>
    intro port c p r d s hport ⟨hgoes, hqueue, hdst⟩
    refine next_congr ?_
    simp only [packetDispatch, if_pos hport, hgoes, issueHead, hqueue, List.head?_cons, Option.bind_some, hdst, Option.any_some]
  case hubPort =>
    intro port c p r f x s hport ⟨hgoes, hqueue⟩ hcopy
    have hlow : ¬ port < 52 := by omega
    have hhub : 768 ≤ port ∧ port < 804 := by omega
    have hring : ¬ port < 784 := by omega
    refine next_congr ?_
    simp only [packetDispatch, if_neg hlow, if_pos hhub, hgoes, passHub, hqueue, hring, false_and, decide_false, Bool.false_and,
      Bool.false_eq_true, if_false, if_pos hport.2, hcopy, nextStop_of_between hport]

/-! ### The urgent path -/

/-- A probe key comes from the registers alone: DEV_ID and the pair (R610). -/
theorem probeKey_congr {s t : State} (h : t.regs = s.regs) (n : Nat) : probeKey t n = probeKey s n := by
  simp only [probeKey, devId, rd, regWord, h]

/-- Neither a pair nor what a framer is offered is part of a probe key. -/
theorem probeKey_setUp (s : State) (k : Nat) (v : Up) (n : Nat) : probeKey (setUp s k v) n = probeKey s n := rfl

theorem probeKey_toFramer (c : Bool) (p : Nat) (x : Cl0) (s : State) (n : Nat) :
    probeKey (if c = true then toFramer p x s else s) n = probeKey s n := by
  cases c <;> rfl

/-- The probe keys of a device tell its pairs apart. -/
theorem probeKey_beq (s : State) (n m : Nat) : (probeKey s n == probeKey s m) = (n == m) := by
  simp [probeKey]

/-- A probe of a pair of this device is recognised. -/
theorem find_probeKey {s : State} {pair : Nat} (hpair : pair < 4) :
    (upto 4).find? (fun n => probeKey s pair == probeKey s n) = some pair := by
  simp only [probeKey_beq]
  interval_cases pair <;> rfl

/-- What a pair runs by stands in DEVICE_STATE, the jobs and the pair itself. -/
theorem upRuns_congr {s t : State} (hdev : t.dev = s.dev) (hurg : t.urg = s.urg) (n : Nat) : upRuns t n = upRuns s n := by
  simp only [upRuns, upOf, jobTakes, jobRuns, jobOf, hdev, hurg]

/-- A pair that takes a binned copy: the copy leaves its queue, past the parity check of the crossing (R580). -/
theorem upBinnedCopy_taken {pair : Nat} {mismatch parBad : Bool} {b : Bin} {r : List Bin} {s : State}
    (hhead : tget [] s.upIn pair = b :: r) (hruns : upRuns s pair = true) :
    upBinnedCopy pair mismatch parBad s =
      let s₁ := crossParity (uUP pair) parBad { s with upIn := tset [] s.upIn pair r }
      let b₁ := { b with poison := b.poison || parBad }
      if mismatch then raiseCause 1 (uUP pair) (resetPair pair s₁)
      else setUp s₁ pair ((upOf s pair).zones.zipIdx.foldl (fun v e => testZone pair b₁ b₁.poison v e.2 e.1)
        { upOf s pair with stamps := tset stampNever (upOf s pair).stamps (binKey b.sl b.hy b.bx) (storeStamp (b.t / 1000 % 2 ^ 24)) }) := by
  have hcrossed : upRuns (crossParity (uUP pair) parBad { s with upIn := tset [] s.upIn pair r }) pair = true :=
    (upRuns_congr (by simp) (by simp) pair).trans hruns
  have hpair : upOf { s with upIn := tset [] s.upIn pair r } pair = upOf s pair := rfl
  simp only [upBinnedCopy, hhead, hcrossed, not_true_eq_false, if_false, crossParity_upOf, hpair]

/-- Settles O31: a step of each part of the urgent path, by what waits there and what it has left (R225 to R227, R348, R580 to
R582, R609 to R613). -/
theorem urgentPath : Obligations.UrgentPath := by
  refine ⟨?copiesDiffer, ?copiesAgree, ?passes, ?holds, ?tokens, ?probe, ?probeMissed, ?probeSeen, ?alarm, ?stop⟩
  case copiesDiffer => exact fun pair parBad b r s hhead hruns => next_congr (upBinnedCopy_taken hhead hruns)
  case copiesAgree => exact fun pair parBad b r s hhead hruns => next_congr (upBinnedCopy_taken hhead hruns)
  case passes =>
    intro hub a r s hoffered ⟨hsafe, hready⟩ hroom
    refine next_congr ?_
    simp only [cl0Police, hoffered, hsafe, hready, not_true_eq_false, or_self, if_false, if_pos hroom]
  case holds =>
    intro hub a r s hoffered ⟨hsafe, hready⟩ ⟨htokens, hroom⟩
    refine next_congr ?_
    simp only [cl0Police, hoffered, hsafe, hready, htokens, if_pos hroom, Nat.lt_irrefl, and_false, not_true_eq_false, or_self,
      if_false]
  case tokens =>
    intro hub s hslot
    refine next_congr ?_
    simp only [cl0TokenAdd, if_neg (Nat.not_le.mpr hslot)]
  case probe =>
    intro pair s hruns ⟨hdue, hoffered⟩
    refine next_congr ?_
    simp only [probeEmit, hruns, Nat.not_lt.mpr hdue, hoffered, ne_eq, not_true_eq_false, or_self, if_false, probeKey_toFramer,
      probeKey_setUp]
  case probeMissed => exact fun port pair s harmed hdue => next_congr (if_pos ⟨harmed, hdue⟩)
  case probeSeen =>
    intro port pair parBad r s hpair hhead
    refine next_congr ?_
    have hkeys : ∀ n, probeKey (crossParity (uETH port) parBad
        { s with urg := { s.urg with framers := tset [] s.urg.framers port r } }) n = probeKey s n := probeKey_congr (by simp)
    have hnow : now (crossParity (uETH port) parBad
        { s with urg := { s.urg with framers := tset [] s.urg.framers port r } }) = now s := by simp [now]
    have hchk : chkOf (crossParity (uETH port) parBad
        { s with urg := { s.urg with framers := tset [] s.urg.framers port r } }) port pair = chkOf s port pair := by simp [chkOf]
    simp only [alarmFramerRx, hhead, hkeys, find_probeKey hpair, hnow, hchk]
  case alarm =>
    intro port parBad a r s hhead hsafe
    refine next_congr ?_
    simp [alarmFramerRx, hhead, hsafe]
  case stop =>
    intro port s ⟨hsafe, hport, hup⟩ hdue
    have hinterval : ¬ (tget 0 s.safe.stopSeq port ≠ 0 ∧ now s < tget 0 s.safe.stopAt port + 10000000) := by omega
    refine next_congr ?_
    simp only [safeStopFrame, hsafe, hup, Nat.not_le.mpr hport, if_neg hinterval, ne_eq, not_true_eq_false, false_or]

/-! ### Ethernet ports -/

/-- Settles O32: a PHY that changes below PL3 (R473). -/
theorem ethernetLinks : Obligations.EthernetLinks := by
  refine ⟨?up, ?down⟩
  case up =>
    intro port selfTest s ⟨hport, hdown, hlevel⟩
    refine next_congr ?_
    simp [ethPhyLinkChange, hdown, Nat.not_le.mpr hport, Nat.not_le.mpr hlevel]
  case down =>
    intro port selfTest s ⟨hport, hup⟩
    refine next_congr ?_
    simp [ethPhyLinkChange, hup, Nat.not_le.mpr hport]

end Sys2Proof.Machine
end

section
/-! SUPPORT. The sluices: packets too large for the buffer, the timers of alignment and of the filters, the frames (file 02 of
spec/). -/
namespace Sys2Proof.Machine

/-! ### Packets -/

theorem packetOver_of {v : Sluice} {data : List Byte} (h : 16384 < data.length ∨ 32768 < bufferedBytes v + data.length) :
    packetOver v data = true := by
  simpa [packetOver] using h

/-- Settles O37: the size test comes before the CRC in both modes, and only a FRAME port loses a line by it (R49, R67). -/
theorem oversizedPacketsAreDropped : Obligations.OversizedPacketsAreDropped := by
  refine ⟨?event, ?frame⟩
  case event =>
    intro n vc dt crcOk sot data flawed s t hreset hheader hdt hmode hover
    rw [hdt, csi2LongPacket_taken hreset hheader, if_neg hmode]
    simp only [eventPacket, packetOver_of hover, if_true]
  case frame =>
    intro n vc dt crcOk sot data flawed s t hreset hheader hdt hmode hover
    rw [hdt, csi2LongPacket_taken hreset hheader, if_pos hmode]
    simp only [linePacket, packetOver_of hover, if_true]

/-- A frame packet with a good header, at a FRAME port that is not being cleared, acts at once (R67). -/
theorem framePacket_of_good {n vc : Nat} {ecc : EccResult} {w : Waiting} {act : State → State} {s t : State}
    (h : packetHeader n vc ecc s = (true, t) ∧ sl t n SLU_PORT.MODE = 2 ∧ (sluOf t n).clearing = false) :
    framePacket n vc ecc w act s = act t := by
  obtain ⟨hheader, hmode, hclear⟩ := h
  simp only [framePacket, hheader, hmode, hclear, not_true_eq_false, ne_eq, or_self, if_false, Bool.false_eq_true]

/-- A header whose ECC fails is counted at the packet boundary, and its packet is not seen (R47). -/
theorem packetHeader_of_fail {n vc : Nat} {s : State} (htakes : sluTakes (wakeIsland (uSL n) s) n = true)
    (hphy : sl (wakeIsland (uSL n) s) n SLU_PORT.PHY ≠ 0) :
    packetHeader n vc .fail s = (false, sluBump n 2 (packetBoundary n (wakeIsland (uSL n) s))) := by
  simp only [packetHeader, htakes, hphy, not_true_eq_false, or_self, if_false, if_true]

/-- Settles O41: the start of a frame by the buffer it finds, its end by the lines it holds (R47, R67 to R70). -/
theorem frameEvents : Obligations.FrameEvents := by
  refine ⟨?startNoBuffer, ?startBuffer, ?endWhole, ?endBroken, ?endUnseen⟩
  case startNoBuffer =>
    intro n vc num ecc s t hnum hgood hbuf
    refine next_congr ((if_pos hnum).trans ((framePacket_of_good hgood).trans ?_))
    simp only [frameStart, hbuf]
  case startBuffer =>
    intro n vc num ecc s t i hnum hgood hbuf
    refine next_congr ((if_pos hnum).trans ((framePacket_of_good hgood).trans ?_))
    simp only [frameStart, hbuf]
  case endWhole =>
    intro n vc ecc s t r hgood hframe ⟨hlines, hheight⟩
    refine next_congr ((framePacket_of_good hgood).trans ?_)
    simp only [frameEnd, hframe, hlines, hheight, Bool.false_eq_true, ne_eq, not_true_eq_false, or_self, if_false]
  case endBroken =>
    intro n vc ecc s t r hgood hframe hbroken
    refine next_congr ((framePacket_of_good hgood).trans ?_)
    simp only [frameEnd, hframe, if_pos hbroken]
  case endUnseen =>
    intro n vc s htakes hphy
    refine next_congr ?_
    simp only [framePacket, packetHeader_of_fail htakes hphy, Bool.false_eq_true, not_false_eq_true, true_or, if_true]

/-! ### Timers, alignment and the sensor bus -/

/-- Settles O40: each event of a sluice where its condition holds (R75 to R92, R435, R497, R668 to R671). -/
theorem sluiceEvents : Obligations.SluiceEvents := by
  refine ⟨?pair, ?token, ?interval, ?sweep, ?linkUp, ?newSource, ?noSource, ?clearDone, fun _ _ _ _ => rfl, fun _ _ => rfl,
    ?i3c⟩
  case pair => exact fun n s hal hlate => next_congr (if_pos ⟨hal, hlate⟩)
  case token => exact fun n s hmode hus => next_congr (if_pos ⟨hmode, hus⟩)
  case interval =>
    intro n s hlater hremoved
    refine next_congr ?_
    simp only [rateInterval, Nat.not_le.mpr hlater, hremoved, if_false, if_true]
  case sweep =>
    intro n cell stamp s hcell hold
    refine next_congr ?_
    simp only [refractSweep, hcell, hold, if_true]
  case linkUp => exact fun n s hup hlate => next_congr (if_pos ⟨hup, hlate⟩)
  case newSource =>
    rintro n s u rfl hother hnew
    exact next_congr ((if_neg hother).trans (if_neg hnew))
  case noSource =>
    rintro n s u rfl hother hnone
    exact next_congr ((if_neg fun heq => hother (heq.trans hnone)).trans (if_pos hnone))
  case clearDone =>
    intro n s hclear htakes
    refine next_congr ((if_neg (not_not.mpr hclear)).trans ?_)
    exact if_neg (not_not.mpr htakes)
  case i3c =>
    intro n r s hrun ⟨hlate, hcode⟩
    refine next_congr ?_
    simp only [i3cTimeout, hrun, if_pos hlate]
    exact if_pos hcode

end Sys2Proof.Machine
end

section
/-! SUPPORT. The inertial chain, the surface engines and the neuron engines (files 03 to 05 of spec/). -/
namespace Sys2Proof.Machine

/-! ### The inertial chain -/

/-- Settles O42: each event of the chain; the synchronising reset by whether an instant of its engine is due (R97 to R128). -/
theorem inertialChain : Obligations.InertialChain := by
  refine ⟨?period, ?output, fun _ => rfl, ?due, ?notDue⟩
  case period => exact fun e balls bad s hruns => next_congr (if_neg (not_not.mpr hruns))
  case output => exact fun ch s hout => next_congr (if_pos hout)
  case due => exact fun e bad s hdue => next_congr (if_pos hdue)
  case notDue => exact fun e bad s hdue => next_congr (if_neg (Bool.eq_false_iff.mp hdue))

/-! ### The surface engines -/

/-- A residue report leaves the surface engines as they are. -/
theorem reportResidue_srf (u j : Nat) (s : State) : (reportResidue u j s).srf = s.srf := by
  unfold reportResidue
  split <;> rfl

/-- A report or none, the ports of a core read the same. -/
theorem spOf_ite_reportResidue (flaw : Bool) (u j c p : Nat) (s : State) :
    spOf (if flaw then reportResidue u j s else s) c p = spOf s c p := by
  cases flaw with
  | false => rfl
  | true => simp only [if_true, spOf, srfOf, reportResidue_srf]

/-- Settles O43: each event of a core by what it finds at its queue, its corners, its channel and its region (R130 to R162). -/
theorem surfaceEngines : Obligations.SurfaceEngines := by
  refine ⟨?event, ?eventStalls, ?epoch, ?flow, ?noFlow, ?gyro, ?gyroPoison, ?sweep, ?clearNone, ?clearRegion⟩
  case event =>
    intro c p flaw g w r t s hmay hgeo ⟨hpeek, hevent⟩ hfree htake
    refine next_congr ?_
    simp only [seEvent, hmay, hgeo, hpeek, hevent, hfree, htake, spOf_ite_reportResidue, not_true_eq_false, if_false]
  case eventStalls =>
    intro c p k flaw g w s hmay hgeo ⟨hpeek, hevent⟩ hstall
    refine next_congr ?_
    simp only [seEvent, hmay, hgeo, hpeek, hevent, hstall, not_true_eq_false, if_false]
  case epoch =>
    intro c p g w r t s hmay hgeo ⟨hpeek, hevent, hfree⟩ htake hepoch
    refine next_congr ?_
    simp only [seServiceWord, hmay, hgeo, hpeek, hevent, hfree, htake, hepoch, not_true_eq_false, Bool.false_eq_true,
      if_false, if_true]
  case flow =>
    intro c flaw k r vx vy conf sat s hcorners hroom hap
    refine next_congr ?_
    simp only [apertureMerge, hcorners, Nat.not_le.mpr hroom, hap, if_false]
  case noFlow =>
    intro c flaw k r sat s hcorners hroom hap
    refine next_congr ?_
    simp only [apertureMerge, hcorners, Nat.not_le.mpr hroom, hap, if_false]
  case gyro =>
    intro c ch parBad s ⟨haxis, haxis'⟩ ⟨hpoison, hpar⟩
    subst hpar
    refine next_congr ?_
    have haxes : ¬ (inF s ch INR_CH.AXIS = 0 ∨ 4 ≤ inF s ch INR_CH.AXIS) := by omega
    simp only [gyroRecord, crossParity_false, if_neg haxes, hpoison, Bool.false_eq_true, or_self, if_false] <;>
      rfl
  case gyroPoison =>
    intro c ch s ⟨haxis, haxis'⟩
    refine next_congr ?_
    have haxes : ¬ (inF s ch INR_CH.AXIS = 0 ∨ 4 ≤ inF s ch INR_CH.AXIS) := by omega
    simp only [gyroRecord, if_neg haxes, or_true, if_true]
  case sweep => exact fun c s hready _ => next_congr (if_neg (not_not.mpr hready))
  case clearNone =>
    intro c p s hclear hgeo
    refine next_congr ((if_neg (not_not.mpr hclear)).trans ?_)
    simp only [hgeo]
  case clearRegion =>
    intro c p g s hclear hgeo
    refine next_congr ((if_neg (not_not.mpr hclear)).trans ?_)
    simp only [hgeo]

/-! ### The neuron engines -/

/-- With fewer than 8,192 inputs held no batch is released early (R190). -/
theorem makeRoom_of_lt {c : Nat} {s : State} (h : heldInputs s c < 8192) (k : Nat) : makeRoom c k s = s := by
  cases k with
  | zero => rfl
  | succ k => exact if_pos (.inl h)

/-- Settles O44: each event of a core by the room it finds and the time that has passed (R174 to R205). -/
theorem neuronEngines : Obligations.NeuronEngines := by
  refine ⟨?input, ?inputFull, ?inputNoRoom, ?release, ?update, ?tick, ?stamp, ?close, ?overrun, ?window, ?defer, ?copy⟩
  case input =>
    intro c p s htakes hfirst ⟨hretain, hstages⟩ hheld
    refine next_congr ?_
    simp only [neInput, htakes, hfirst, hretain, hstages, not_true_eq_false, or_self, if_false]
    obtain hother | hlt := hheld
    · simp only [hother, Bool.false_eq_true, if_false]
    · simp only [makeRoom_of_lt hlt, Nat.not_le.mpr hlt, if_false, ite_self]
  case inputFull =>
    intro c p s htakes hfirst ⟨hretain, hstages⟩ ⟨hinput, hfull⟩
    refine next_congr ?_
    simp only [neInput, htakes, hfirst, hretain, hstages, hinput, not_true_eq_false, or_self, if_false, if_true]
  case inputNoRoom =>
    intro c p s htakes hfirst hroom
    have hout : ¬ retainRoom s c 1 = true ∨ ¬ stagesFree s c = true := by simpa using hroom
    refine next_congr ?_
    simp only [neInput, htakes, hfirst, if_pos hout, not_true_eq_false, if_false]
  case release =>
    intro c t s htakes ⟨hstepped, hbatches⟩ hstamp hold
    refine next_congr ?_
    simp only [batchRelease, htakes, hstepped, Nat.not_le.mpr hbatches, hstamp, if_pos hold, not_true_eq_false,
      Bool.false_eq_true, or_self, if_false]
  case update =>
    intro c b r s hbatches htakes ⟨hroom, hretain⟩
    refine next_congr ?_
    simp only [batchUpdate, hbatches, htakes, Nat.not_le.mpr hroom, hretain, not_true_eq_false, or_self, if_false]
  case tick =>
    intro c g s htakes ⟨hstepped, htick, hvalid, hg⟩
    refine next_congr (if_neg ?_)
    simp only [htakes, hstepped, htick, hvalid, Nat.not_le.mpr hg, not_true_eq_false, Bool.false_eq_true, or_self,
      not_false_eq_true]
  case stamp => exact fun c n s hn hold => next_congr (if_pos ⟨hn, hold⟩)
  case close => exact fun c s htakes hstepped ⟨hmarks, hdue⟩ => next_congr (if_pos ⟨htakes, hstepped, hmarks, hdue⟩)
  case overrun => exact fun c s htakes hstepped hlate => next_congr (if_pos ⟨htakes, hstepped, hlate⟩)
  case window =>
    intro c g s htakes ⟨hg, hvalid, hcount⟩ ⟨hpassed, hfires⟩ hcopies
    refine next_congr ?_
    simp only [countClose, htakes, Nat.not_le.mpr hg, hvalid, hcount, Nat.not_lt.mpr hpassed, hfires, hcopies,
      not_true_eq_false, Bool.false_eq_true, or_self, if_false]
  case defer =>
    intro c g s htakes ⟨hg, hvalid, hcount⟩ ⟨hpassed, hfires⟩ ⟨hcopies, hdeferred⟩
    refine next_congr ?_
    simp only [countClose, htakes, Nat.not_le.mpr hg, hvalid, hcount, Nat.not_lt.mpr hpassed, hfires, hcopies, hdeferred,
      not_true_eq_false, Bool.false_eq_true, or_self, if_false, if_true]
  case copy =>
    intro c e r s hcopies
    refine next_congr ?_
    simp only [countCopyDone, hcopies]

end Sys2Proof.Machine
end

section
/-! SUPPORT. The feature arrays and the tensor builders (files 07 and 08 of spec/). -/
namespace Sys2Proof.Machine

/-! ### The feature arrays -/

/-- Settles O45: a doorbell by the entry it names, and each step of its run by the descriptor it has reached (R268 to R274,
R373). -/
theorem featureArrays : Obligations.FeatureArrays := by
  refine ⟨?own, ?notOwn, ?start, ?load, ?compute, ?store⟩
  case own => exact fun n p job s hentry => next_congr (if_pos hentry)
  case notOwn => exact fun n p job s hentry => next_congr (if_neg hentry)
  case start =>
    intro n x rest s ⟨hidle, hqueue⟩ htakes hcopy
    refine next_congr ?_
    simp only [instanceStart, hidle, hqueue, htakes, hcopy, not_true_eq_false, Bool.false_eq_true, if_false]
  case load =>
    intro n r s htakes hrun hleft hsem
    refine next_congr ?_
    have hgo : ¬ (¬ r.ldOn = true ∧ semBlocked (faOf s n) (fldOf (descAt s (runF r ARR_PROG.LD_LIST) r.ld) ARR_LD.WAIT_EN)
        (fldOf (descAt s (runF r ARR_PROG.LD_LIST) r.ld) ARR_LD.WAIT_SEM) = true) := by
      rintro ⟨hon, hblocked⟩
      exact hsem.elim hon (Bool.eq_false_iff.mp · hblocked)
    simp only [loadDescriptor, htakes, hrun, Nat.not_le.mpr hleft, if_neg hgo, not_true_eq_false, if_false] <;> rfl
  case compute =>
    intro n r w ws s htakes ⟨hrun, hsets⟩ hleft hsem htiles hhalf
    refine next_congr ?_
    simp only [computePass, htakes, hrun, hsets, Nat.not_le.mpr hleft, hsem, Nat.not_lt.mpr htiles, hhalf, not_true_eq_false,
      Bool.false_eq_true, if_false]
  case store =>
    intro n h r hs s htakes ⟨hrun, hready⟩ hleft hsem
    refine next_congr ?_
    simp only [storeDescriptor, htakes, hrun, hready, Nat.not_le.mpr hleft, hsem, not_true_eq_false, Bool.false_eq_true,
      or_self, if_false]

/-! ### The tensor builders -/

/-- Whether the entry's programme stands ready for its windows (R277). -/
abbrev TriggersProgram (s : State) (k e : Nat) : Prop :=
  tvF s k e TEN_VOX.TRIG_EN = 1 ∧ prF s k (tvF s k e TEN_VOX.PROG) ARR_PROG.VALID = 1 ∧
    prF s k (tvF s k e TEN_VOX.PROG) ARR_PROG.TRIGGER = 1 ∧ prF s k (tvF s k e TEN_VOX.PROG) ARR_PROG.SRC = e

theorem tenClose_of_not_triggers {k e w b : Nat} {s : State} (htakes : tenTakes s k = true)
    (hgrace : (tenOf s k e).grace = some (w, b)) (hlate : tvEnd s k e w + tvF s k e TEN_VOX.LATE_US ≤ nowUs s)
    (h : ¬ TriggersProgram s k e) : tenClose k e s = tvFree k e b (setTen s k e { tenOf s k e with grace := none }) := by
  have hright : ¬ (tvF s k e TEN_VOX.TRIG_EN == 1 && prF s k (tvF s k e TEN_VOX.PROG) ARR_PROG.VALID == 1
      && prF s k (tvF s k e TEN_VOX.PROG) ARR_PROG.TRIGGER == 1 && prF s k (tvF s k e TEN_VOX.PROG) ARR_PROG.SRC == e) = true := by
    simpa [TriggersProgram, and_assoc] using h
  simp only [tenClose, hgrace, htakes, Nat.not_lt.mpr hlate, not_true_eq_false, or_self, if_false]
  exact if_pos hright

theorem tenClose_of_triggers {k e w b : Nat} {s : State} (htakes : tenTakes s k = true)
    (hgrace : (tenOf s k e).grace = some (w, b)) (hlate : tvEnd s k e w + tvF s k e TEN_VOX.LATE_US ≤ nowUs s)
    (h : TriggersProgram s k e) :
    tenClose k e s =
      let p := tvF s k e TEN_VOX.PROG
      let t := setTen s k e { tenOf s k e with grace := none }
      if arrBusy t k p ∨ ¬ tvSpare (tenOf s k e) b then tenBump k 5 (tvFree k e b t)
      else arrTrigger k ⟨p, .ten e b, tvBase s k e b, tvEnd s k e w * 1000,
        (tvEnd s k e w - tvF s k e TEN_VOX.WINDOW_US) * 1000, false, false⟩ t := by
  have hright : (tvF s k e TEN_VOX.TRIG_EN == 1 && prF s k (tvF s k e TEN_VOX.PROG) ARR_PROG.VALID == 1
      && prF s k (tvF s k e TEN_VOX.PROG) ARR_PROG.TRIGGER == 1 && prF s k (tvF s k e TEN_VOX.PROG) ARR_PROG.SRC == e) = true := by
    simpa [TriggersProgram, and_assoc] using h
  simp only [tenClose, hgrace, htakes, Nat.not_lt.mpr hlate, not_true_eq_false, or_self, if_false]
  exact if_neg (not_not.mpr hright)

/-- Settles O47: a packet by the entries it matches, a window by its two instants, a buffer by its state (R275 to R278). -/
theorem tensorBuilders : Obligations.TensorBuilders := by
  refine ⟨?noMatch, ?matched, ?windowEnd, ?closeFree, ?closeTrigger, ?cleared, ?notCleared⟩
  case noMatch =>
    intro k bad p q t s htakes hwait hfirst hcheck hnone
    refine next_congr ?_
    simp only [tenPacket, htakes, hwait, hfirst, hcheck, hnone, not_true_eq_false, Bool.false_eq_true, or_self, if_false]
  case matched =>
    intro k bad p q t s htakes hwait hfirst hcheck hsome
    refine next_congr ?_
    simp only [tenPacket, htakes, hwait, hfirst, hcheck, not_true_eq_false, Bool.false_eq_true, or_self, if_false]
  case windowEnd =>
    intro k e w b s htakes hopen hend
    refine next_congr ?_
    simp only [tenWindowEnd, hopen, htakes, Nat.not_lt.mpr hend, not_true_eq_false, or_self, if_false]
  case closeFree =>
    intro k e w b s htakes hgrace hlate hnot
    refine next_congr (tenClose_of_not_triggers htakes hgrace hlate ?_)
    rintro ⟨h1, h2, h3, h4⟩
    simp only [h1, h2, h3, h4, ne_eq, not_true_eq_false, or_self] at hnot
  case closeTrigger =>
    exact fun k e w b s htakes hgrace hlate htrig => next_congr (tenClose_of_triggers htakes hgrace hlate htrig)
  case cleared =>
    intro k e b s ⟨hstate, hb⟩
    refine next_congr ?_
    simp only [tenCleared, hstate, Nat.not_le.mpr hb, ne_eq, not_true_eq_false, or_self, if_false] <;> rfl
  case notCleared => exact fun k e b s hnot => next_congr (if_pos hnot)

end Sys2Proof.Machine
end

section
/-! SUPPORT. The basin: cycles, sources and the stages of the fusion unit (file 09 of spec/). -/
namespace Sys2Proof.Machine

/-- Before the first tick a source acts under the registers as they stand (logs 87 and 146). -/
theorem heldAtTick_of_none {f : State → State} {s : State} (h : s.fus.cfg = none) : heldAtTick f s = f s := by
  simp only [heldAtTick, h]

theorem heldAtTick_of_some {f : State → State} {s : State} {g : Tbl W64} (h : s.fus.cfg = some g) :
    heldAtTick f s = withFusRegs (fusRegs s) (f (withFusRegs g s)) := by
  simp only [heldAtTick, h, heldAt]

/-- A record of fewer than four words waits in the latch of its queue (R316). -/
theorem takeRecord_of_short {k : Nat} {flaw : Bool} {s : State} (h : (queueOf s (fsF s k FUS_SRC.QUEUE)).latched.length < 4) :
    takeRecord k flaw s = s := by
  match hwords : (queueOf s (fsF s k FUS_SRC.QUEUE)).latched with
  | [] => simp only [takeRecord, hwords, ite_self]
  | [_] => simp only [takeRecord, hwords, ite_self]
  | [_, _] => simp only [takeRecord, hwords, ite_self]
  | [_, _, _] => simp only [takeRecord, hwords, ite_self]
  | _ :: _ :: _ :: _ :: rest =>
    simp only [hwords, List.length_cons] at h
    omega

/-- Settles O48: each event of the basin by what it finds; a stage acts under the registers of its own cycle (R309 to R336). -/
theorem fusion : Obligations.Fusion := by
  refine ⟨?tick, ?snapshot, ?record, ?recordHeld, ?recordShort, ?flowV, ?flowT, ?flowHeld, ?grid, ?ego, ?objects, ?notHead⟩
  case tick =>
    rintro k s hphase rfl
    refine next_congr ?_
    simp only [fusionTick, tickNow, Nat.not_lt.mpr hphase, if_false, Option.elim_some]
  case snapshot =>
    intro k c s hfill ⟨hkind, hk⟩
    refine next_congr ?_
    simp only [snapshotDone, hfill, hkind, Nat.not_le.mpr hk, ne_eq, not_true_eq_false, or_self, if_false, suspectSince]
  case record =>
    intro k flaw a b c d rest s ⟨hcfg, htakes⟩ ⟨hk, hvalid, hkind⟩ hlatched
    refine next_congr ((heldAtTick_of_none hcfg).trans ?_)
    simp only [takeRecord, hlatched, htakes, Nat.not_le.mpr hk, hvalid, hkind, ne_eq, not_true_eq_false, or_self, if_false] <;>
      rfl
  case recordHeld => exact fun k flaw s g hcfg => next_congr (heldAtTick_of_some hcfg)
  case recordShort =>
    exact fun k flaw s hcfg _ hshort => next_congr ((heldAtTick_of_none hcfg).trans (takeRecord_of_short hshort))
  case flowV =>
    intro s p q t k ⟨hcfg, htakes⟩ hfirst hcheck ⟨hsource, hkind⟩
    refine next_congr ((heldAtTick_of_none hcfg).trans ?_)
    simp only [takeFlow, htakes, hfirst, hcheck, hsource, hkind, not_true_eq_false, if_false]
  case flowT =>
    intro s p q t k ⟨hcfg, htakes⟩ hfirst hcheck ⟨hsource, hkind⟩
    refine next_congr ((heldAtTick_of_none hcfg).trans ?_)
    simp only [takeFlow, htakes, hfirst, hcheck, hsource, hkind, not_true_eq_false, if_false]
  case flowHeld => exact fun s g hcfg => next_congr (heldAtTick_of_some hcfg)
  case grid =>
    intro flaws s c htakes hgrid
    refine next_congr ?_
    simp only [gridStageEnd, hgrid, htakes, not_true_eq_false, if_false]
    rfl
  case ego =>
    intro flaw s c rest htakes hego
    refine next_congr ?_
    simp only [egoDone, hego, htakes, not_true_eq_false, if_false]
    rfl
  case objects =>
    intro flaws s c rest i inc incBad htakes hobj hhead hinc
    refine next_congr ?_
    simp only [objectStage, hobj, hinc, htakes, hhead, not_true_eq_false, or_self, if_false]
    rfl
  case notHead =>
    intro flaws s c rest hobj hhead
    refine next_congr ?_
    simp only [objectStage, hobj, hhead, Bool.false_eq_true, not_false_eq_true, or_true, if_true]
    split <;> rfl

end Sys2Proof.Machine
end

section
/-! SUPPORT. Result streams, the guest and the barge queues (files 10 to 12 of spec/). -/
namespace Sys2Proof.Machine

/-! ### Result streams -/

/-- Settles O52: a stream by the packet or entry that waits for it, a push by the slot and the subscription it serves (R346 to
R361). -/
theorem resultEvents : Obligations.ResultEvents := by
  refine ⟨?packet, ?entry, ?flush, ?notFlush, ?commit, ?hold, ?copy, ?skip, ?fragment⟩
  case packet =>
    intro k p q t s ⟨hstate, hruns⟩ hfirst hcheck
    refine next_congr ?_
    simp only [streamEntry, hstate, hruns, hfirst, hcheck, not_true_eq_false, or_self, if_false]
  case entry =>
    intro k e r s ⟨hstate, hruns⟩ hfirst hoffered
    refine next_congr ?_
    simp only [streamEntry, hstate, hruns, hfirst, hoffered, not_true_eq_false, or_self, if_false]
  case flush =>
    intro k r s hcur hdue
    refine next_congr ?_
    simp only [recordFlush, hcur, if_pos hdue]
  case notFlush =>
    intro k r s hcur hearly
    have hnot : ¬ (r.flush ≠ 0 ∧ r.opened + r.flush * 1000 ≤ now s) := by omega
    refine next_congr ?_
    simp only [recordFlush, hcur, if_neg hnot]
  case commit =>
    intro k r l s hstate hwaiting hgoes
    refine next_congr ?_
    simp only [recordCommit, hstate, hwaiting, hgoes, Bool.false_eq_true, if_false]
  case hold =>
    intro k r l s hstate hwaiting hwaits
    refine next_congr ?_
    simp only [recordCommit, hstate, hwaiting, hwaits, if_false, if_true]
  case copy =>
    intro p j r s ⟨hfree, hwaiting⟩ hvalid hseq
    refine next_congr ?_
    simp only [pushCopy, hfree, hwaiting, hvalid, hseq, ne_eq, not_true_eq_false, if_false]
  case skip =>
    intro p j r s ⟨hfree, hwaiting⟩ hvalid hseq
    refine next_congr ?_
    simp only [pushCopy, hfree, hwaiting, hvalid, if_pos hseq, if_false]
  case fragment =>
    intro p j s hcur
    refine next_congr ?_
    simp only [pushFragment, hcur] <;> rfl

/-! ### The guest -/

section Access

variable {h a n v : Nat} {s : State} (hguest : h < 8 ∧ (tget {} s.apx.harts h : Hart).inGuest = true)

include hguest

theorem not_outside_guest : ¬ (8 ≤ h ∨ ¬ (tget {} s.apx.harts h : Hart).inGuest = true) :=
  not_or.mpr ⟨Nat.not_le.mpr hguest.1, not_not.mpr hguest.2⟩

/-- An access that Table 11-2 grants is carried out. -/
theorem guestAccess_of_may {write : Bool} (hmay : guestMay s (tget {} s.apx.harts h : Hart).job h a n write = true) :
    guestAccess h a n write v s = if write then guestStore h (tget {} s.apx.harts h : Hart).job a n v s
      else guestLoad h (tget {} s.apx.harts h : Hart).job a n s :=
  (if_neg (not_outside_guest hguest)).trans (if_pos hmay)

/-- A store to a read-only window of the job is counted alone; any other access that is not granted also leaves its address. -/
theorem guestAccess_of_not_may {write : Bool} (hmay : guestMay s (tget {} s.apx.harts h : Hart).job h a n write = false) :
    guestAccess h a n write v s =
      if write ∧ 0x1100000000 ≤ a ∧ a < 0x1300000000 ∧ guestMay s (tget {} s.apx.harts h : Hart).job h a n false then guestFault s
      else
        let t := guestFault s
        { t with apx := { t.apx with
          harts := tmod {} t.apx.harts h (fun x => { x with faults := x.faults + 1, faultAddr := a }) } } :=
  (if_neg (not_outside_guest hguest)).trans (if_neg (Bool.eq_false_iff.mp hmay))

end Access

/-- A store to memory, outside the job's control page. -/
theorem guestStore_of_memory {h j a n v : Nat} {s : State}
    (hpage : ¬ ((jobOf s j).jobctlGpa ≤ a ∧ a + n ≤ (jobOf s j).jobctlGpa + 4096)) (hmem : a < 0x1100000000) :
    guestStore h j a n v s = ramPutNat s a n v :=
  (if_neg hpage).trans (if_pos hmem)

/-- A load from memory without a poisoned line, outside the job's control page. -/
theorem guestLoad_of_memory {h j a n : Nat} {s : State}
    (hpage : ¬ ((jobOf s j).jobctlGpa ≤ a ∧ a + n ≤ (jobOf s j).jobctlGpa + 4096)) (hmem : a < 0x1100000000)
    (hclean : lineBad s a n = false) : guestLoad h j a n s = setLoaded h (ramBytes s a n) s := by
  have hload : loadBytes j a n s = (ramBytes s a n, s) := (if_neg hpage).trans (if_pos hmem)
  simp only [guestLoad, hclean, hload, Bool.false_eq_true, and_false, if_false]

theorem jobOf_setJobctl (s : State) (j k : Nat) (v : JobCtl) : jobOf (setJobctl s j v) k = jobOf s k := rfl

/-- Settles O53: the portal, the checkpoints, the ends of a job and of a restart, and what a hart may reach (R366 to R382,
R594 to R596). -/
theorem guestEvents : Obligations.GuestEvents := by
  refine ⟨?go, ?goBusy, ?goBad, ?ack, ?ackNone, ?grace, ?period, ?halt, ?resumed, ?trap, ?faultReadOnly, ?fault, ?store, ?load,
    ?parity⟩
  case go =>
    intro b data j s hjob hfree ⟨hlow, hhigh, hok, hkind⟩
    refine next_congr ?_
    simp only [berthGo, hjob, hfree, Nat.not_lt.mpr hlow, Nat.not_lt.mpr hhigh, hok, hkind, ne_eq, not_true_eq_false,
      Bool.false_eq_true, or_self, if_false]
  case goBusy =>
    intro b data j s hjob hbusy
    refine next_congr ?_
    simp only [berthGo, hjob, hbusy, if_true]
  case goBad =>
    intro b data j s hjob hfree hbad
    have hout : data.length < 32 ∨ 2032 < data.length ∨ ¬ messageOk data true = true ∨ messageKind data ≠ 0 := by
      rwa [Bool.not_eq_true]
    refine next_congr ?_
    simp only [berthGo, hjob, hfree, if_pos hout, Bool.false_eq_true, if_false]
  case ack =>
    intro j gen r s hrun hdue
    refine next_congr ?_
    simp only [ckptAck, jobOf_setJobctl, hrun]
    exact if_pos hdue
  case ackNone =>
    intro j gen s hrun
    refine next_congr ?_
    simp only [ckptAck, jobOf_setJobctl, hrun]
  case grace =>
    intro j r s hrun ⟨hacked, hdue⟩
    refine next_congr ?_
    simp only [ckptExpiry, hrun, hacked, hdue, Bool.false_eq_true, not_false_eq_true, and_self, if_true]
  case period => exact fun j s ⟨hj, hmode⟩ hdue => next_congr (if_pos ⟨hj, hmode, hdue⟩)
  case halt =>
    intro j d s hstopping hruns
    refine next_congr ?_
    simp only [jobStopHalt, hstopping, hruns, if_true]
  case resumed =>
    intro j r s hrestart
    refine next_congr ?_
    simp only [restartResumed, hrestart]
  case trap => exact fun h a s hguest => next_congr (if_neg (not_outside_guest hguest))
  case faultReadOnly =>
    exact fun h a n write v s hguest hmay hwindow => next_congr ((guestAccess_of_not_may hguest hmay).trans (if_pos hwindow))
  case fault =>
    exact fun h a n write v s hguest hmay hwindow => next_congr ((guestAccess_of_not_may hguest hmay).trans (if_neg hwindow))
  case store =>
    exact fun h a n v s hguest hmay ⟨hmem, hpage⟩ =>
      next_congr ((guestAccess_of_may hguest hmay).trans (guestStore_of_memory hpage hmem))
  case load =>
    exact fun h a n v s hguest hmay ⟨hmem, hclean, hpage⟩ =>
      next_congr ((guestAccess_of_may (v := v) hguest hmay).trans (guestLoad_of_memory hpage hmem hclean))
  case parity => exact fun h s hh => next_congr (if_pos hh)

/-! ### The barge queues -/

section Wake

variable (u : Nat) (s : State) (q : Nat)

theorem ingestSluice_wakeIsland : ingestSluice (wakeIsland u s) q = ingestSluice s q := by
  rw [wakeIsland_eq]
  rfl

theorem ownsQueue_wakeIsland (job : Nat) : ownsQueue (wakeIsland u s) job q = ownsQueue s job q := by
  rw [wakeIsland_eq]
  rfl

theorem qProd_wakeIsland : qProd (wakeIsland u s) q = qProd s q := by
  rw [wakeIsland_eq]
  rfl

theorem qCons_wakeIsland : qCons (wakeIsland u s) q = qCons s q := by
  rw [wakeIsland_eq]
  rfl

theorem pushAllowed_wakeIsland : pushAllowed (wakeIsland u s) q = pushAllowed s q := by
  rw [wakeIsland_eq]
  rfl

end Wake

/-- A push of one or two words, which Table 12-6 allows, by the job that owns the queue. -/
theorem portalPush_of_own {q job : Nat} {words : List Nat} {fin parBad : Bool} {s : State} (howns : ownsQueue s job q = true)
    (hpush : pushAllowed s q = true ∧ 1 ≤ words.length ∧ words.length ≤ 2) :
    portalPush q job words fin parBad s =
      if parBad then markBad q 4 (!fin) (portalWords q false words (wakeIsland (uQUEUE q) s))
      else portalWords q fin words (wakeIsland (uQUEUE q) s) := by
  obtain ⟨hallowed, hone, htwo⟩ := hpush
  simp only [portalPush, ownsQueue_wakeIsland, pushAllowed_wakeIsland, howns, hallowed, Nat.one_le_iff_ne_zero.mp hone,
    Nat.not_lt.mpr htwo, not_true_eq_false, or_self, if_false]

/-- Settles O54: a portal access by its owner and Table 12-6, a line by its state, a pop by the consumer of the queue (R389 to
R409). -/
theorem bargeQueues : Obligations.BargeQueues := by
  refine ⟨?push, ?pushEnd, ?pushBad, ?pushOther, ?abort, ?pop, ?popBad, ?copy, ?copyNoRoom, ?close, ?line, ?lineBad, ?read,
    ?popEngine, ?popHost, ?popLock⟩
  case push =>
    intro q job words parBad s howns hpush
    refine next_congr ((portalPush_of_own howns hpush).trans ?_)
    cases parBad <;> rfl
  case pushEnd => exact fun q job words parBad s howns hpush => next_congr (portalPush_of_own howns hpush)
  case pushBad =>
    intro q job words parBad s howns hbad
    have hout : ¬ pushAllowed s q = true ∨ words.length = 0 ∨ 2 < words.length := by rwa [Bool.not_eq_true]
    refine next_congr ?_
    simp only [portalPush, ownsQueue_wakeIsland, pushAllowed_wakeIsland, howns, if_pos hout, not_true_eq_false, if_false]
  case pushOther =>
    intro q job words parBad s hother
    refine next_congr ?_
    simp only [portalPush, ownsQueue_wakeIsland, hother, Bool.false_eq_true, not_false_eq_true, if_true]
  case abort =>
    exact fun q job s howns hprod => next_congr ((if_neg (not_not.mpr howns)).trans (if_neg (not_not.mpr hprod)))
  case pop =>
    intro q job parBad w first t s howns hcons hpop
    refine next_congr ?_
    simp only [portalPopTaken, portalPop, ownsQueue_wakeIsland, qCons_wakeIsland, howns, hcons, hpop, ne_eq,
      not_true_eq_false, if_false, beq_self_eq_true, Bool.and_self, true_and]
  case popBad =>
    intro q job parBad s howns hcons
    have hfresh : (qCons s q == 2) = false := by rwa [beq_eq_false_iff_ne]
    refine next_congr ?_
    simp only [portalPopTaken, portalPop, ownsQueue_wakeIsland, qCons_wakeIsland, howns, if_pos hcons, hfresh,
      Bool.true_and, not_true_eq_false, Bool.false_eq_true, false_and, if_false]
  case copy =>
    intro q p p₁ s₁ t s ⟨hruns, hfirst⟩ hprod ⟨hcheck, htaken⟩
    refine next_congr ?_
    simp only [queueCopyWrite, hruns, hfirst, hprod, hcheck, htaken, ne_eq, not_true_eq_false, if_false, if_true]
  case copyNoRoom =>
    intro q p p₁ s₁ t s ⟨hruns, hfirst⟩ hprod ⟨hcheck, htaken⟩
    refine next_congr ?_
    simp only [queueCopyWrite, hruns, hfirst, hprod, hcheck, htaken, ne_eq, not_true_eq_false, if_false,
      Bool.false_eq_true]
  case close => exact fun q s ⟨hprod, hlen⟩ hdue => next_congr (if_pos ⟨hprod, hlen, hdue⟩)
  case line =>
    intro q parBad s ⟨hready, hspills⟩ hgood
    have hmove : ¬ (parBad = true ∧ lineOpen (queueOf s q) = true) := by
      simpa only [not_and_or, Bool.not_eq_true] using hgood
    refine next_congr ?_
    simp only [middleLineWrite, hready, hspills, if_neg hmove, not_true_eq_false, or_self, if_false]
  case lineBad =>
    intro q parBad s ⟨hready, hspills⟩ hbad
    refine next_congr ?_
    simp only [middleLineWrite, hready, hspills, if_pos hbad, not_true_eq_false, or_self, if_false]
  case read => exact fun q parBad s ⟨hmid, hroom⟩ => next_congr (if_neg (not_or.mpr ⟨hmid, Nat.not_lt.mpr hroom⟩))
  case popEngine =>
    intro q parBad s ⟨hruns, hcons⟩ htakes
    refine next_congr ?_
    simp only [queuePop, hruns, hcons, htakes, not_true_eq_false, if_false, if_true]
  case popHost =>
    intro q parBad s ⟨hruns, hcons⟩ htakes
    refine next_congr ?_
    simp only [queuePop, hruns, hcons, if_pos htakes, not_true_eq_false, if_false]
  case popLock =>
    intro q parBad s ⟨hruns, hcons⟩ htakes
    refine next_congr ?_
    simp only [queuePop, hruns, hcons, if_pos htakes, not_true_eq_false, if_false]

end Sys2Proof.Machine
end

section
/-! SUPPORT. The time unit and the Towline ports (files 13 and 14 of spec/). -/
namespace Sys2Proof.Machine

/-! ### The time unit -/

/-- A PTP frame that the port hears and takes has its effect. -/
theorem ptpFrame_of_passes {p : Nat} {secured : Bool} {eff : State → State} {s : State}
    (h : ptpHears s p = true ∧ ptpPasses s p secured = true) : ptpFrame p secured eff s = eff s :=
  (if_neg (not_not.mpr h.1)).trans (if_neg (not_not.mpr h.2))

/-- A PTP frame whose effect would be none leaves the state where its protection passes, heard or not. -/
theorem ptpFrame_of_idle {p : Nat} {secured : Bool} {eff : State → State} {s : State} (hpass : ptpPasses s p secured = true)
    (hidle : eff s = s) : ptpFrame p secured eff s = s := by
  simp only [ptpFrame, hpass, hidle, not_true_eq_false, if_false, ite_self]

/-- Settles O55: each event of the time unit where it is due, and the clauses in which it is not (R412 to R436). -/
theorem timeEvents : Obligations.TimeEvents := by
  refine ⟨?tick, ?tickNotReady, ?fire, ?notFire, ?syncOut, ?pulseEnd, ?pulseOn, ?pps, ?ppsGated, ?ppsEnd, ?twoStep, ?oneStep,
    ?unsecured, ?unheard, ?followUp, ?followUpOther, ?message, ?eventTx, ?eventTxFull, ?lookup, ?lookupNone, ?timeout,
    ?notTimeout, ?hold, fun _ => rfl⟩
  case tick => exact fun n s hready => next_congr (if_neg (not_not.mpr hready))
  case tickNotReady => exact fun n s hready => next_congr (if_pos (Bool.eq_false_iff.mp hready))
  case fire => exact fun i s hdue => next_congr (if_pos hdue)
  case notFire =>
    intro i s hnot
    refine next_congr (if_neg ?_)
    rintro ⟨hi, hdue⟩
    exact hnot.elim (Nat.not_le.mpr hi) (Bool.eq_false_iff.mp · hdue)
  case syncOut => exact fun n s henable hdue => next_congr (if_pos ⟨henable, hdue⟩)
  case pulseEnd => exact fun n s hend => next_congr (if_pos hend)
  case pulseOn => exact fun n s ⟨_, hearly⟩ => next_congr (if_neg fun ⟨_, hend⟩ => Nat.not_le.mpr hearly hend)
  case pps => exact fun s henable hsec hgate => next_congr ((if_pos ⟨henable, hsec⟩).trans (if_pos hgate))
  case ppsGated =>
    exact fun s henable hsec hgate => next_congr ((if_pos ⟨henable, hsec⟩).trans (if_neg (Bool.eq_false_iff.mp hgate)))
  case ppsEnd => exact fun s hend => next_congr (if_pos hend)
  case twoStep => exact fun p secured m s hpass htwo => next_congr ((ptpFrame_of_passes hpass).trans (if_pos htwo))
  case oneStep =>
    exact fun p secured m s hpass hone =>
      next_congr ((ptpFrame_of_passes hpass).trans (if_neg (Bool.eq_false_iff.mp hone)))
  case unsecured =>
    exact fun p secured m s ⟨hhears, hpass⟩ =>
      next_congr ((if_neg (not_not.mpr hhears)).trans (if_pos (Bool.eq_false_iff.mp hpass)))
  case unheard => exact fun p secured m s hhears => next_congr (if_pos (Bool.eq_false_iff.mp hhears))
  case followUp =>
    intro p secured seq pot corr w s hpass hpend hseq
    refine next_congr ((ptpFrame_of_passes hpass).trans ?_)
    simp only [ptpFollowUpRx, hpend, if_pos hseq]
  case followUpOther =>
    intro p secured seq pot corr w s hpass hpend hseq
    refine next_congr (ptpFrame_of_idle hpass ?_)
    simp only [ptpFollowUpRx, hpend, if_neg hseq]
  case message =>
    intro p secured m s hpass
    refine next_congr ((ptpFrame_of_passes hpass).trans ?_)
    cases m <;> rfl
  case eventTx => exact fun p kind seq s hroom => next_congr (if_pos hroom)
  case eventTxFull => exact fun p kind seq s hfull => next_congr (if_neg (Nat.not_lt.mpr hfull))
  case lookup =>
    intro p key f r s htake
    refine next_congr ?_
    simp only [txqLookup, htake, Option.isSome_some, if_true]
  case lookupNone =>
    intro p key r s htake
    refine next_congr ?_
    simp only [txqLookup, htake, Option.isSome_none, Bool.false_eq_true, if_false]
  case timeout => exact fun s hlate => next_congr (if_pos hlate)
  case notTimeout => exact fun s hearly => next_congr (if_neg (Nat.not_le.mpr hearly))
  case hold => exact fun s ⟨hsync, hlong⟩ hlate => next_congr (if_pos ⟨hsync, Bool.eq_false_iff.mp hlong, hlate⟩)

/-! ### Frames that a port takes -/

section Receive

variable {p src srcPort : Nat} {w : Wrap} {b : List Byte} {s : State} (hhears : portHears s p = true)
  (hrom : romServes s = false) (hhost : isHost s p = true)

include hhears hrom hhost

/-- A host port past the ROM takes its frames by their wrapping, then by their form, then by their device (R444, R450, R469). -/
theorem towlineRx_of_host : towlineRx p src srcPort w b s =
    if ¬ towFits s p w then rxOther p s
    else if ¬ messageOk b false ∨ messageKind b ≠ 0 then towBump p 1 s
    else if bits (beAt b 5 1) 0 6 = devId s then offerReq (requestOf (.port p) (bits (beAt b 4 1) 0 4) src srcPort b) s
    else if isHead s then relayRequest p src srcPort b s
    else towBump p 1 s := by
  simp only [towlineRx, hhears, hrom, hhost, not_true_eq_false, Bool.false_eq_true, if_false]

/-- A Towline request in its wrapping goes by its device. -/
theorem towlineRx_of_request (hfits : towFits s p w = true) (hmsg : messageOk b false = true ∧ messageKind b = 0) :
    towlineRx p src srcPort w b s =
      if bits (beAt b 5 1) 0 6 = devId s then offerReq (requestOf (.port p) (bits (beAt b 4 1) 0 4) src srcPort b) s
      else if isHead s then relayRequest p src srcPort b s
      else towBump p 1 s := by
  obtain ⟨hok, hkind⟩ := hmsg
  rw [towlineRx_of_host hhears hrom hhost]
  simp only [hfits, hok, hkind, ne_eq, not_true_eq_false, or_self, if_false]

/-- A host port past the ROM answers for its own addresses (R444). -/
theorem arpIcmpRx_of_host (req : ArpIcmp) : arpIcmpRx p req s = match req with
    | .arp t =>
      if t = rd s (uETH p) TOW_PORT.OWN_IP4 then enqueue p 4 ⟨.other, 0, 0, beBytes 6 (portMac s p) ++ beBytes 4 t⟩ s
      else rxOther p s
    | .nd t =>
      if t = ownIp6 s p then enqueue p 4 ⟨.other, 0, 0, beBytes 6 (portMac s p) ++ beBytes 16 t⟩ s else rxOther p s
    | .echo t data w =>
      if frameFits s p w ∧ data.length ≤ 64 ∧ t = (if w.v6 then ownIp6 s p else rd s (uETH p) TOW_PORT.OWN_IP4) then
        enqueue p 4 ⟨.other, 0, 0, data⟩ s
      else rxOther p s := by
  simp only [arpIcmpRx, hhears, hrom, hhost, not_true_eq_false, Bool.false_eq_true, false_and, or_self, if_false,
    not_false_eq_true, and_true, true_and] <;> rfl

end Receive

/-! ### Frames that a port sends -/

/-- With queue 0 empty the first message of queues 1 to 4 leaves, when its key is there (R447). -/
theorem ethFrameTx_of_free {p : Nat} {s : State} (hfree : txFree s p = true) (hq0 : (ethOf s p).q0 = []) :
    ethFrameTx p s =
      let send := fun (m : TxMsg) (e : EthPort) => if keyed s p m then startFrame p m (setEth s p e) else s
      match (ethOf s p).q1, (ethOf s p).q2, (ethOf s p).q3, (ethOf s p).q4 with
      | m :: r, _, _, _ => send m { ethOf s p with q1 := r }
      | [], m :: r, _, _ => send m { ethOf s p with q2 := r }
      | [], [], m :: r, _ => send m { ethOf s p with q3 := r }
      | [], [], [], m :: r => send m { ethOf s p with q4 := r }
      | [], [], [], [] => s := by
  simp only [ethFrameTx, hfree, hq0, not_true_eq_false, ne_eq, or_self, if_false] <;> rfl

/-- Settles O56: a frame by the port that takes it, a message by its queue, the helm by its holder and claim (R444 to R481). -/
theorem towlineEvents : Obligations.TowlineEvents := by
  refine ⟨?notFits, ?malformed, ?own, ?relayed, ?rom, ?arp, ?nd, ?echo, ?echoOther, ?sensor, ?tx1, ?tx2, ?tx3, ?tx4, ?txAlarm,
    ?alarm, ?silent, ?notSilent, ?expiry, ?notExpiry, ?mka, ?mkaOther⟩
  case notFits =>
    exact fun p src srcPort w b s hhears hrom hhost hfits =>
      next_congr ((towlineRx_of_host hhears hrom hhost).trans (if_pos (Bool.eq_false_iff.mp hfits)))
  case malformed =>
    intro p src srcPort w b s hhears hrom hhost hfits hbad
    have hout : ¬ messageOk b false = true ∨ messageKind b ≠ 0 := by rwa [Bool.not_eq_true]
    exact next_congr ((towlineRx_of_host hhears hrom hhost).trans ((if_neg (not_not.mpr hfits)).trans (if_pos hout)))
  case own =>
    exact fun p src srcPort w b s hhears hrom hhost hfits hmsg hdev =>
      next_congr ((towlineRx_of_request hhears hrom hhost hfits hmsg).trans (if_pos hdev))
  case relayed =>
    exact fun p src srcPort w b s hhears hrom hhost hfits hmsg hdev hhead =>
      next_congr ((towlineRx_of_request hhears hrom hhost hfits hmsg).trans ((if_neg hdev).trans (if_pos hhead)))
  case rom =>
    exact fun p src srcPort w b s hhears hrom => next_congr ((if_neg (not_not.mpr hhears)).trans (if_pos hrom))
  case arp =>
    exact fun p t s hhears hrom hhost ht => next_congr ((arpIcmpRx_of_host hhears hrom hhost _).trans (if_pos ht))
  case nd =>
    exact fun p t s hhears hrom hhost ht => next_congr ((arpIcmpRx_of_host hhears hrom hhost _).trans (if_pos ht))
  case echo =>
    exact fun p t data w s hhears hrom hhost ⟨hlen, hfits, ht⟩ =>
      next_congr ((arpIcmpRx_of_host hhears hrom hhost _).trans (if_pos ⟨hfits, hlen, ht⟩))
  case echoOther =>
    intro p t data w s hhears hrom hhost hother
    refine next_congr ((arpIcmpRx_of_host hhears hrom hhost _).trans (if_neg ?_))
    rintro ⟨hfits, hlen, -⟩
    exact hother.elim (Nat.not_lt.mpr hlen) (Bool.eq_false_iff.mp · hfits)
  case sensor =>
    intro p udp frame i s hhears hrole hring hready
    refine next_congr ?_
    simp only [sensorFrameRx, hhears, hrole, hring, hready, not_true_eq_false, ne_eq, or_self, if_false]
  case tx1 =>
    intro p m r s hfree ⟨hq0, hq1⟩ hkeyed
    refine next_congr ((ethFrameTx_of_free hfree hq0).trans ?_)
    simp only [hq1, if_pos hkeyed]
  case tx2 =>
    intro p m r s hfree ⟨hq0, hq1, hq2⟩ hkeyed
    refine next_congr ((ethFrameTx_of_free hfree hq0).trans ?_)
    simp only [hq1, hq2, if_pos hkeyed]
  case tx3 =>
    intro p m r s hfree ⟨hq0, hq1, hq2, hq3⟩ hkeyed
    refine next_congr ((ethFrameTx_of_free hfree hq0).trans ?_)
    simp only [hq1, hq2, hq3, if_pos hkeyed]
  case tx4 =>
    intro p m r s hfree ⟨hq0, hq1, hq2, hq3, hq4⟩ hkeyed
    refine next_congr ((ethFrameTx_of_free hfree hq0).trans ?_)
    simp only [hq1, hq2, hq3, hq4, if_pos hkeyed]
  case txAlarm => exact fun p s hq0 => next_congr (if_pos (.inr hq0))
  case alarm =>
    intro p m r s hfree hq0
    refine next_congr ((if_neg (not_not.mpr hfree)).trans ?_)
    simp only [hq0]
  case silent => exact fun s hsilent => next_congr (if_pos hsilent)
  case notSilent =>
    intro s hnot
    refine next_congr (if_neg ?_)
    rintro ⟨hholder, hsilent⟩
    exact hnot.elim hholder (Bool.eq_false_iff.mp · hsilent)
  case expiry =>
    intro c s hclaim hdue
    refine next_congr ?_
    simp only [helmObjectExpiry, hclaim, if_pos hdue]
  case notExpiry =>
    intro c s hclaim hearly
    refine next_congr ?_
    simp only [helmObjectExpiry, hclaim, if_neg (Nat.not_le.mpr hearly)]
  case mka =>
    intro p m k s hhears ⟨hmacsec, hlen, hckn, hicv⟩ hsak
    refine next_congr ?_
    simp only [mkaPduRx, hhears, hmacsec, hlen, hckn, hicv, hsak, not_true_eq_false, ne_eq, or_self, if_false]
  case mkaOther =>
    intro p m s hhears hbad
    have hout : ¬ rdB s (uETH p) TOW_PORT.MACSEC_EN = true ∨ (ethOf s p).cknLen = 0 ∨ m.ckn ≠ (ethOf s p).macsecCkn ∨
        ¬ m.icvOk = true := by
      rwa [Bool.not_eq_true, Bool.not_eq_true]
    exact next_congr ((if_neg (not_not.mpr hhears)).trans (if_pos hout))

end Sys2Proof.Machine
end

section
/-! SUPPORT. Memory integrity, silent errors and the power ladder (files 17, 18 and 20 of spec/). -/
namespace Sys2Proof.Machine

/-! ### Memory integrity -/

/-- A unit that resets comes back by the verdict of its self-test (R558). -/
theorem unitResetDone_of_resetting {u : Nat} {pass : Bool} {s : State} (h : (unitOf s u).resetting = true) :
    unitResetDone u pass s = if pass then reportResumed u (unitResumes u s) else
      let t := match tget none s.mem.why u with | some (row, a) => memNotice 7 u row a 0 0 s | none => s
      unitFails u (setMem t { t.mem with why := tset none t.mem.why u none }) := by
  simp only [unitResetDone, h, Bool.true_or, not_true_eq_false, if_false] <;> rfl

/-- A Lockkeeper that resets, outside an exchange of its images, comes back by its clean copy (R563). -/
theorem lkpRecovered_of_reset {clean : Bool} {s : State}
    (h : s.mem.lkpReset = true ∧ s.sec.act.any (·.exchanged.isSome) = false) :
    lkpRecovered clean s = if ¬ clean then raiseCause 7 uLKP s
      else resumeService (clearCause 7 (reportResumed uLKP (setMem s { s.mem with lkpReset := false }))) := by
  simp only [lkpRecovered, h.1, h.2, not_true_eq_false, Bool.false_eq_true, or_self, if_false]

/-- Settles O58: a line by its check code, a reset by its verdict, a notice by its time, a repair by its queue (R550 to R575).
-/
theorem integrityEvents : Obligations.IntegrityEvents := by
  refine ⟨?read, ?readNone, ?resetPass, ?resetFail, ?notResetting, ?recovered, ?notRecovered, ?mismatch, ?lap, ?lapEarly, ?spare,
    ?page, ?pageNone, ?fuse⟩
  case read =>
    intro r s ⟨hexists, hready, hreset⟩
    refine next_congr ?_
    simp only [dredgerRead, hexists, hready, hreset, not_true_eq_false, Bool.false_eq_true, or_self, false_and, if_false] <;> rfl
  case readNone =>
    intro r s hnot
    have hout : ¬ memExists r.unit r.memory = true ∨
        ((¬ unitReady s r.unit = true ∨ (unitOf s r.unit).resetting = true) ∧ ¬ hitNow s r.unit = true) := by
      simpa only [Bool.not_eq_true] using hnot
    exact next_congr (if_pos hout)
  case resetPass => exact fun u s hreset => next_congr (unitResetDone_of_resetting hreset)
  case resetFail =>
    intro u s hreset
    refine next_congr ((unitResetDone_of_resetting hreset).trans ?_)
    rfl
  case notResetting =>
    intro u pass s ⟨hreset, htype⟩
    refine next_congr (if_pos ?_)
    simp [hreset, htype]
  case recovered => exact fun s hreset => next_congr (lkpRecovered_of_reset hreset)
  case notRecovered => exact fun s hreset => next_congr (lkpRecovered_of_reset hreset)
  case mismatch =>
    intro s ⟨hreset, hrom⟩
    refine next_congr (if_neg ?_)
    simp only [hreset, hrom, Bool.false_eq_true, or_self, not_false_eq_true]
  case lap =>
    intro u row s hexists hdue
    refine next_congr (if_neg ?_)
    rintro (hnone | ⟨htold, hearly⟩)
    · exact hnone hexists
    · exact hdue.elim htold (Nat.not_le.mpr hearly)
  case lapEarly => exact fun u row s hearly => next_congr (if_pos (.inr hearly))
  case spare =>
    intro u row mac r s hfind
    refine next_congr ?_
    simp only [spareSwitch, hfind]
  case page => exact fun chan page s hpage => next_congr (if_neg (not_not.mpr hpage))
  case pageNone => exact fun chan page s hpage => next_congr (if_pos (Bool.eq_false_iff.mp hpage))
  case fuse =>
    intro ok r l s hburns
    refine next_congr ?_
    simp only [fuseBurnDone, hburns]

/-! ### Silent errors -/

section Replay

variable {j : Nat} {s : State}

/-- A replay that looks for a target: the job restarts when none is left, and the replay waits while all are busy (R591). -/
def replayOn (j win u : Nat) (tried : List Nat) (s : State) : State :=
  let ts := (replayTargets s j u).filter (fun t => !tried.contains t)
  if ts = [] then beginRestart j 4 u 0 none s
  else match ts.find? (fun t => !targetBusy s t) with
    | none => s
    | some t => setPass s { s.pass with replay := tset none s.pass.replay j (some ⟨win, u, t, now s, tried⟩) }

/-- The next suspect of a job that replays nothing is replayed on any of its targets. -/
theorem replayStart_of_suspect {r : StepRec} (htakes : j < 8 ∧ jobTakes s j = true)
    (hnext : tget none s.pass.replay j = none ∧ nextSuspect s j = some r) : replayStart j s = replayOn j r.win r.unit [] s := by
  obtain ⟨hj, hjob⟩ := htakes
  obtain ⟨hidle, hsuspect⟩ := hnext
  simp only [replayStart, Nat.not_le.mpr hj, hjob, hidle, hsuspect, not_true_eq_false, or_self, if_false] <;> rfl

theorem replayOn_of_target {win u t : Nat} (h : (replayTargets s j u).find? (fun t => !targetBusy s t) = some t) :
    replayOn j win u [] s = setPass s { s.pass with replay := tset none s.pass.replay j (some ⟨win, u, t, now s, []⟩) } := by
  have hsome : replayTargets s j u ≠ [] := fun hnil => by simp [hnil] at h
  simp only [replayOn, List.contains_nil, Bool.not_false, List.filter_true, if_neg hsome, h]

theorem replayOn_of_none {win u : Nat} (h : replayTargets s j u = []) :
    replayOn j win u [] s = beginRestart j 4 u 0 none s := by
  simp only [replayOn, h, List.filter_nil, if_true]

end Replay

/-- A visit that fails takes the unit's margins a step further, or a healthy unit out of service (R601, R602). -/
theorem testVisitDone_of_fail {u : Nat} {s : State} (h : (testOf s u).running = true) :
    testVisitDone u false s =
      let t := setTest u { testOf s u with running := false } s
      match (testOf s u).ladder with
      | some i => if (unitOf t u).st = .quarantined then marginStep u (i + 1) t else testFails u t
      | none =>
        if (unitOf t (recordUnit u)).st = .quarantined then
          (if utype u = 0x0A then { t with safe := { t.safe with pairOk := tset 0 t.safe.pairOk (uindex u) 0 } } else t)
        else testFails u (setTest u { testOf t u with stopped := false } t) := by
  simp only [testVisitDone, h, not_true_eq_false, Bool.false_eq_true, if_false] <;> rfl

/-- Settles O59: a window that is ready commits, a suspect is replayed and judged, a test visit starts and ends (R583 to
R605). -/
theorem passageEvents : Obligations.PassageEvents := by
  refine ⟨?commit, ?notCommit, fun _ _ => rfl, ?start, ?startNone, ?startWhole, ?verdict, ?limit, ?visit, ?visitPass, ?visitFail,
    ?notVisit, ?late⟩
  case commit =>
    exact fun j s hj hready => next_congr (if_neg (not_or.mpr ⟨Nat.not_le.mpr hj, not_not.mpr hready⟩))
  case notCommit =>
    intro j s hnot
    have hout : 8 ≤ j ∨ ¬ windowReady s j = true := by rwa [Bool.not_eq_true]
    exact next_congr (if_pos hout)
  case start =>
    exact fun j t r s htakes hnext hfind =>
      next_congr ((replayStart_of_suspect htakes hnext).trans (replayOn_of_target hfind))
  case startNone =>
    exact fun j r s htakes hnext hnone =>
      next_congr ((replayStart_of_suspect htakes hnext).trans (replayOn_of_none hnone))
  case startWhole =>
    exact fun j s ⟨hj, hjob⟩ => next_congr (if_neg (not_or.mpr ⟨Nat.not_le.mpr hj, not_not.mpr hjob⟩))
  case verdict =>
    intro j v p s hreplay htarget
    refine next_congr ?_
    simp only [replayVerdict, hreplay, if_neg htarget]
  case limit =>
    intro j r s ⟨hj, hsuspect⟩ hlate
    refine next_congr ?_
    simp only [replayLimit, if_pos hj, hsuspect, if_pos hlate]
  case visit =>
    intro u s ⟨hcontent, hon, hidle⟩ ⟨hrotation, hfree⟩
    refine next_congr (if_neg ?_)
    simp [Option.isSome_iff_ne_none.mp hcontent, hon, hidle, hrotation, hfree]
  case visitPass => exact fun u s hrunning => next_congr (if_neg (not_not.mpr hrunning))
  case visitFail => exact fun u s hrunning => next_congr (testVisitDone_of_fail hrunning)
  case notVisit => exact fun u ok s hrunning => next_congr (if_pos (Bool.eq_false_iff.mp hrunning))
  case late =>
    intro u s ⟨hcontent, hon, hrotation⟩ ⟨hlate, hbase⟩ hpast
    refine next_congr (if_neg ?_)
    simp [Option.isSome_iff_ne_none.mp hcontent, hon, hrotation, hlate, hbase, hpast]

/-! ### The power ladder -/

/-- Settles O60: each event of the ladder by the level and the change that it finds, then the commands that waited (R622 to
R641). -/
theorem powerEvents : Obligations.PowerEvents := by
  refine ⟨?quiesced, ?quiesces, ?refused, ?entered, ?exitAwake, ?exitAsleep, ?sleep, ?sleepOther, ?sleepJoin, ?reject,
    ?rejectNone, ?wake, ?wakeNone, ?wakeN, ?current, ?currentNone, ?governor, ?avsFail, ?avs, ?stop, fun _ _ => rfl⟩
  case quiesced =>
    intro e s hentry hquiesced
    refine next_congr (congrArg nextLevelSet ?_)
    simp only [entryQuiesced, hentry, hquiesced, if_true]
  case quiesces =>
    intro e s hentry ⟨hquiesced, hgoes⟩
    refine next_congr (congrArg nextLevelSet ?_)
    simp only [entryQuiesced, hentry, hquiesced, hgoes, Bool.false_eq_true, if_false] <;> rfl
  case refused =>
    intro e k d s hentry ⟨hquiesced, hrefused⟩
    refine next_congr (congrArg nextLevelSet ?_)
    simp only [entryQuiesced, hentry, hquiesced, hrefused, Bool.false_eq_true, if_false]
  case entered =>
    intro e s hentry hquiesced
    refine next_congr (congrArg nextLevelSet ?_)
    simp only [entryComplete, hentry, hquiesced, not_true_eq_false, if_false]
  case exitAwake =>
    intro x s hexit hlevel
    refine next_congr (congrArg nextLevelSet ?_)
    simp only [exitComplete, hexit, if_pos hlevel] <;> rfl
  case exitAsleep =>
    intro x s hexit hlevel
    refine next_congr (congrArg nextLevelSet ?_)
    simp only [exitComplete, hexit, if_neg (Nat.not_le.mpr hlevel)] <;> rfl
  case sleep =>
    intro p s ⟨hp, hlevel⟩ ⟨hhost, hentry, hexit, hgoes⟩
    refine next_congr ?_
    simp only [tc10SleepRequest, Nat.not_le.mpr hp, Nat.not_le.mpr hlevel, hhost, hentry, hexit, hgoes, Option.isSome_none,
      not_true_eq_false, Bool.false_eq_true, or_self, if_false]
  case sleepOther =>
    intro p s ⟨hp, hlevel⟩ hhost
    refine next_congr ?_
    simp only [tc10SleepRequest, Nat.not_le.mpr hp, Nat.not_le.mpr hlevel, hhost, Bool.false_eq_true, not_false_eq_true, or_self,
      if_false, if_true]
  case sleepJoin =>
    intro p e s ⟨hp, hlevel⟩ ⟨hhost, hentry⟩
    refine next_congr ?_
    simp only [tc10SleepRequest, Nat.not_le.mpr hp, Nat.not_le.mpr hlevel, hhost, hentry, not_true_eq_false, or_self, if_false]
  case reject =>
    intro p s ⟨hp, hlevel, hentry⟩
    refine next_congr ?_
    simp only [tc10SleepReject, hentry, hp, hlevel, beq_self_eq_true, and_self, if_true]
  case rejectNone =>
    intro p s ⟨hlevel, hentry⟩
    refine next_congr ?_
    simp only [tc10SleepReject, hentry, beq_eq_false_iff_ne.mpr hlevel, Bool.false_eq_true, and_false, if_false]
  case wake => exact fun p s hlistens => next_congr (if_pos hlistens)
  case wakeNone =>
    intro p s ⟨hhost, hlisten⟩
    refine next_congr (if_neg ?_)
    simp only [hhost, hlisten, Bool.false_eq_true, or_self, and_false, not_false_eq_true]
  case wakeN =>
    intro s ⟨hentry, hexit⟩ hwakes
    refine next_congr ?_
    simp only [powerWake, hentry, hexit, hwakes, not_true_eq_false, if_false]
  case current => exact fun s hlow => next_congr (if_pos hlow)
  case currentNone => exact fun s hlow => next_congr (if_neg (Bool.eq_false_iff.mp hlow))
  case governor =>
    intro mw s ⟨hlevel, hentry⟩
    refine next_congr (if_neg ?_)
    simp only [Nat.not_le.mpr hlevel, hentry, Option.isSome_none, Bool.false_eq_true, or_self, not_false_eq_true]
  case avsFail =>
    exact fun slackOk s hfails => next_congr ((if_neg (Nat.not_le.mpr hfails)).trans (if_pos Bool.false_ne_true))
  case avs =>
    exact fun slackOk s hfails => next_congr ((if_neg (Nat.not_le.mpr hfails)).trans (if_neg (not_not.mpr rfl)))
  case stop =>
    intro i s ⟨hi, hrunning, hclass0⟩ hidle
    refine next_congr ((if_neg ?_).trans (if_pos hidle))
    simp only [Nat.not_le.mpr hi, hrunning, hclass0, Bool.false_eq_true, or_self, not_false_eq_true]

end Sys2Proof.Machine
end
